-- ==== Sys2Proof/Word.lean ====
section
/-!
DEFINITION. The words of the machine: 64-bit general registers and control-window registers, 32-bit
instruction words, 512-bit vector registers, bytes; and the sparse table that every numbered collection uses.
-/
namespace Sys2Proof

/-- A 64-bit word: a general register, a mask register or a control-window register (03 R48, 21 R523). -/
abbrev Word := BitVec 64

/-- A byte of memory. -/
abbrev Byte := BitVec 8

/-- A vector register (03 R48). -/
abbrev Vec := BitVec 512

/-- A sparse table: entries in strictly rising order of their number. -/
abbrev Tab (α : Type) := List (Nat × α)

end Sys2Proof
end

