-- ==== Sys2Proof/CoreSyntax.lean ====
section
/-!
DEFINITION. The instructions of a hamlet core (03 R59, R60): one constructor per shape, operands as the
fields of Table 3.2, functions by name. A field that an instruction does not use is reserved (R1) and is not kept.
-/
namespace Sys2Proof

/-- A register field. -/
abbrev Reg := BitVec 5

/-- The functions of `int.*` (Table 3.4), in the order of their minors. -/
inductive IntFn where
  | add | sub | and | or | xor | shl | shr | sra | mul | mulh | mulhu | div | divu | rem | remu
  | min | max | slt | sltu | clz | popc
deriving DecidableEq, Repr

/-- The immediate instructions (majors 0x02 to 0x0B of Table 3.3). -/
inductive ImmFn where
  | addi | andi | ori | xori | slti | sltui | hi | shli | shri | srai
deriving DecidableEq, Repr

/-- The scalar loads (majors 0x10 to 0x16). -/
inductive LdFn where
  | u8 | u16 | u32 | d64 | s8 | s16 | s32
deriving DecidableEq, Repr

/-- The scalar stores (majors 0x18 to 0x1B). -/
inductive StFn where
  | b8 | b16 | b32 | b64
deriving DecidableEq, Repr

/-- The address space of format M (R63). -/
inductive Space where
  | scratch | virt
deriving DecidableEq, Repr

/-- The comparisons of the branches (majors 0x20 to 0x25). -/
inductive BrFn where
  | eq | ne | lt | ge | ltu | geu
deriving DecidableEq, Repr

/-- The element types of Table 3.5. -/
inductive ETy where
  | i8 | i16 | i32 | i64 | e4m3 | e5m2 | bf16 | fp16 | fp32
deriving DecidableEq, Repr

/-- The minors of `vec.op` (Table 3.6). -/
inductive VopFn where
  | add | sub | mul | fma | min | max | and | or | xor | shl | shr | sra | adds | subs | exp2 | recip
deriving DecidableEq, Repr

/-- The minors of `vec.red` (R70). -/
inductive RedFn where
  | sum | min | max
deriving DecidableEq, Repr

/-- The minors of `vec.perm` (Table 3.7). -/
inductive PermFn where
  | bcast | extract | insert | move | shuffle | compress
deriving DecidableEq, Repr

/-- The minors of `vec.cmp` (Table 3.7). -/
inductive CmpFn where
  | eq | ne | lt | le | gt | ge
deriving DecidableEq, Repr

/-- The minors of `vec.msk` (Table 3.7). -/
inductive MskFn where
  | and | or | xor | andn | popc
deriving DecidableEq, Repr

/-- A core instruction; `illegal` stands for every reserved opcode and the all-zero word (R60). -/
inductive CoreOp where
  | int (f : IntFn) (d a b : Reg)
  | imm (f : ImmFn) (d a : Reg) (i : BitVec 16)
  | movl (d : Reg) (i : BitVec 48)
  | ld (f : LdFn) (d base : Reg) (sp : Space) (off : BitVec 14)
  | st (f : StFn) (s base : Reg) (sp : Space) (off : BitVec 14)
  | vld (d base : Reg) (sp : Space) (off : BitVec 14)
  | vst (s base : Reg) (sp : Space) (off : BitVec 14)
  | touch (base : Reg) (sp : Space) (off : BitVec 14)
  | br (f : BrFn) (a b : Reg) (off : BitVec 16)
  | call (off : BitVec 26)
  | jr (d a : Reg)
  | vop (f : VopFn) (t : ETy) (m : BitVec 3) (vd va vb : Reg)
  | vcvt (src dst : ETy) (m : BitVec 3) (vd va : Reg)
  | vred (f : RedFn) (t : ETy) (m : BitVec 3) (vd va : Reg)
  | vperm (f : PermFn) (t : ETy) (m : BitVec 3) (vd va vb : Reg)
  | vcmp (f : CmpFn) (t : ETy) (m : BitVec 3) (md : BitVec 3) (va vb : Reg)
  | vmsk (f : MskFn) (t : ETy) (d : Reg) (ma mb : BitVec 3)
  | issue (d a b : Reg)
  | wait (d a : Reg)
  | waitAll (d a b : Reg)
  | abort (a b : Reg)
  | draw (d a : Reg)
  | bar (a : Reg)
  | commit
  | halt
  | sysRd (d a : Reg)
  | sysWr (a b : Reg)
  | sysBreak
  | illegal
deriving DecidableEq, Repr

end Sys2Proof
end

