-- ==== Sys2Proof/Payload.lean ====
section
/-!
DEFINITION. The operands of commands that are more than a number: which command or turn an event is about, why it
is killed, and the contents of the images and messages that reach the module.
-/
namespace Sys2Proof

/-- The kill causes of Table 2.3, in the order of their codes in Table 4.6 (02 R24). -/
inductive Cause where
  | sliceEnd | translation | unitFault | readClash | rebind | powerGate | streamAbort
deriving DecidableEq, Repr

/-- What commits or is killed: the oldest outstanding turn of a core, the command of a ticket, or a move of
drift by its number (02 R14, 03 R51, 07 R176). -/
inductive Ref where
  | turn (core : Nat)
  | cmd (ticket : Nat)
  | move (id : Nat)
deriving DecidableEq, Repr

/-- Who writes a register (21 R525, R530): a host over a queue pair, by handle, or the steward, for itself or for I3C. -/
inductive Via where
  | host (qp : Nat)
  | steward
deriving DecidableEq, Repr

/-- A field of a command site, fixed (lo = hi) or an inclusive range (06 R149): body word, lowest bit, width. -/
structure SiteField where
  word : Nat
  bit : Nat
  w : Nat
  lo : Nat
  hi : Nat
deriving DecidableEq, Repr

/-- A command site of a manifest (06 R149): its class, operation, dependency count, lease patch and body fields. -/
structure Site where
  cls : Nat
  op : Nat
  ndep : Nat
  wellEn : Bool
  well : Nat
  patch : Nat
  fields : List SiteField
deriving DecidableEq, Repr

/-- A queue of a task (06 R149): class, serving units, completion ring, outstanding maximum, command sites. -/
structure QueueDecl where
  cls : Nat
  units : List Nat
  ringBase : Nat
  ringSize : Nat
  maxOut : Nat
  sites : List Site
deriving DecidableEq, Repr

/-- A barrier of a task: hamlet (4d + h), barrier number, participant count (03 R72, 06 R149). -/
structure BarDecl where
  ham : Nat
  num : Nat
  count : Nat
deriving DecidableEq, Repr

/-- A task of a manifest: its cores, its code from word 0, its argument, queues, barriers, the wells its code draws
from, and the queue and well numbers its code names (06 R149). -/
structure TaskDecl where
  cores : List Nat
  code : List (BitVec 32)
  arg : Nat
  queues : List QueueDecl
  bars : List BarDecl
  wells : List Nat
  usesQueues : List Nat
  usesWells : List Nat
deriving DecidableEq, Repr

/-- A well of a manifest with its fill values (06 R149). -/
structure WellDecl where
  handle : Nat
  base : Nat
  limit : Nat
  step : Nat
deriving DecidableEq, Repr

/-- A region of a manifest or an image that the loader maps: first page address, pages, whether writable (07 R158); in an index image, the
stack that its list pages are pinned to (08 R211); whether its pages are pinned to the granary (10 R262). -/
structure Region where
  va : Nat
  pages : Nat
  writable : Bool
  stack : Option Nat := none
  pinned : Bool := false
deriving DecidableEq, Repr

/-- The contents of a program image (06 R149, 03 R82). -/
structure Manifest where
  isaMajor : Nat
  isaMinor : Nat
  regions : List Region
  wells : List WellDecl
  tasks : List TaskDecl
deriving DecidableEq, Repr

/-- A caravan as it travels (16 Table 16.1): TYPE, CLASS, HOP, CE, destination, source, LSEQ, LACK, PSEQ, OSEQ, TEN, SPACE,
the payload words that Table 16.2 names, and the bytes that follow them. -/
structure Car where
  kind : Nat
  cls : Nat
  hop : Nat
  ce : Bool
  dst : Nat
  src : Nat
  lseq : Nat
  lack : Nat
  pseq : Nat
  oseq : Nat
  ten : Nat
  space : Nat
  words : List Nat
  data : List Byte
  ver : Nat := 1
deriving DecidableEq, Repr

/-- What the cellar meets (07 R206): a sector read after retry, a failed program, a failed erase, an uncorrectable spill
sector of a granule (by key), an uncorrectable store sector (unit * 512 + sector). -/
inductive MediaEvent where
  | readRetry
  | progFail
  | eraseFail
  | spillUe (granule : Nat)
  | storeUe (sector : Nat)
deriving DecidableEq, Repr

/-- What the steward's tests of a bring-up stage find (25 R575, R580 to R584): stage 2, whether the epoch's write succeeded; stage 3,
channel groups that failed training (stack, group) and whether each row of the retirement list was repaired; stage 4, ONFI
channels that failed; stage 5, engines and scan units that failed, each with the bit of its ERR register that names the part, and the
tokenizer, detokenizer and mask lanes that failed; stage 7, the reserve
the images need (oasis granules, granary frames). -/
structure StageRes where
  written : Bool := true
  groups : List (Nat × Nat) := []
  repaired : List Bool := []
  channels : List Nat := []
  engines : List (Nat × Nat) := []
  scans : List (Nat × Nat) := []
  tokLanes : List Nat := []
  detLanes : List Nat := []
  maskLanes : List Nat := []
  reserve : Nat × Nat := (0, 0)
deriving DecidableEq, Repr

/-- An error a unit reports (18 R463): the bit of its ERR register, and of an engine, a scan unit or a core its number; for a core
the rows that its task served, each a batch handle and a row mask; for a lane its number (tokenizer 0 to 15, detokenizer 16 to
31) and the tickets of the commands on it, or of the commands of a lost stream; for an oasis its die, the granule and what
was reading it; for the row cache the entry. -/
inductive UnitErr where
  | engine (n bit : Nat)
  | scan (n bit : Nat)
  | core (c bit : Nat) (served : List (Nat × Nat))
  | text (bit lane : Nat) (on : List Nat)
  | grammar (bit lane : Nat) (on : List Nat)
  | oasis (die bit granule : Nat) (readers : List Ref)
  | rowCache (bit slot : Nat)
deriving DecidableEq, Repr

/-- A sensor of Table 19.4: a field die, the gate die, a granary stack. -/
inductive Sensor where
  | field (die : Nat)
  | gate
  | stack (stk : Nat)
deriving DecidableEq, Repr

/-- Why a host frame or packet is dropped (15 R379, R380): too long, an uncorrectable codeword, a bad check sequence, a packet
outside the subset on a queue pair. -/
inductive HostDrop where
  | oversize
  | fec
  | fcs
  | unsupported (qp : Nat)
deriving DecidableEq, Repr

/-- Why drift moves a page or granule (07): heat (R166), outward for room (R167, R168), a translation fault (R183), a
pin (R170), evacuation of a domain or of retired memory (R181, R193), the recall of a lent frame (16 R435). -/
inductive MoveWhy where
  | heat | outward | fault | pin | evacuate | recall
deriving DecidableEq, Repr

/-! ## What the serving program hands to the home (10, 12, 13) -/

/-- A position of a sampling turn (13 R334): the FP32 logit of each token by its number, and the tokens its mask permits
(none: no grammar session). -/
structure PosIn where
  logits : List Nat
  mask : Option (List Nat)
deriving DecidableEq, Repr

/-- What the grammar step of a row reports for the next feed (12 R310, R311): the run, whether the step decides the run alone
(RUN_END or CUT), a dead end, the fallback mask used. -/
structure FeedIn where
  row : Nat
  run : List Nat
  alone : Bool
  dead : Bool
  fallback : Bool
deriving DecidableEq, Repr

/-- A step record (13 Table 13.1) without its version: ROW, TOKENS, PROPOSED, ACCEPTED, RUN, DRAFT_LEN, END, FALLBACK_USED, WIDE,
NUMERIC, ZERO_RUN, PROBE_WAIT, GEN, STEP, SERIAL. -/
structure StepRec where
  row : Nat
  tokens : List Nat
  proposed : Nat
  accepted : Nat
  run : Nat
  draftLen : Nat
  fin : Nat
  fallback : Bool
  wide : Bool
  numeric : Bool
  zeroRun : Nat
  probeWait : Nat
  gen : Nat
  step : Nat
  serial : Nat
deriving DecidableEq, Repr

/-- What the granary reports of one access (07 R189, R191): the errors its on-die ECC corrected, and whether a parity error repeated it. -/
structure Dram where
  corrected : Nat := 0
  parity : Bool := false
deriving DecidableEq, Repr

/-- What an event is about, with what the granary reported of its accesses (07 R189, R191): address, errors corrected, whether a parity
error repeated the access. -/
structure Noted (α : Type) where
  of : α
  corrected : List (Nat × Nat × Bool) := []
deriving DecidableEq, Repr

/-- Where a build puts its entry and how far it comes (10 R266, R267): the unit of the store, how many of the five steps end, and the
passage it evicts. -/
structure BuildAt where
  unit : Nat
  upto : Nat
  victim : Option Nat
deriving DecidableEq, Repr

/-- What the home's plan tells a stage module of a request (10 R264, R270): the home's address, the request's tenancy, its template and variant, whether it may splice, the boundary B, and the packed passages in rank order: passage, start,
packed length, token count. -/
structure PlanIn where
  home : Nat
  ten : Nat
  template : Nat
  variant : Nat
  splices : Bool
  b : Nat
  plan : List (Nat × Nat × Nat × Nat)
deriving DecidableEq, Repr

/-- A shard's part in a re-ranking (10 R258, R260): the tenancy, the ticket of the shard's re-scoring, where the slot is written, the
gather area whose arrival counter is then counted up when the area is this module's, PER_SHARD, the question's tokens, and the
re-ranker's FP32 score of each pair. -/
structure RankIn where
  ten : Nat
  rescored : Nat
  slot : Nat
  area : Option Nat
  perShard : Nat
  question : List Nat
  scores : List Nat
deriving DecidableEq, Repr

/-- What the stages' layers give one fed token of a mixture-of-experts layer (13 R332): where its output row goes in the request's
tenancy, the router's FP32 score of each expert, and the FP32 output of each expert that ran. -/
structure RouteIn where
  va : Nat
  scores : List Nat
  outs : List (Nat × List Nat)
deriving DecidableEq, Repr

/-- A row of a batch homed on another module as its home's feed describes it to the sampling module (13 R322, R340): home, tenancy,
the request's section, its step, what it has generated, its draft counts (R343), the proposals it was fed with the draft's logits,
and what its grammar step reported. -/
structure RemoteRow where
  home : Nat
  ten : Nat
  section_ : List (BitVec 8)
  step : Nat
  generated : Nat
  draftLen : Nat
  zeroRun : Nat
  probeWait : Nat
  props : List (Nat × List Nat)
  feed : Option FeedIn
deriving DecidableEq, Repr

/-- A row's draft as DRAFT_PROPOSE meets it: the row where it is homed elsewhere, the draft's logits (13 R340). -/
structure DraftIn where
  remote : Option RemoteRow
  logits : List (List Nat)
deriving DecidableEq, Repr

/-- A fed row as SAMPLE_DECIDE meets it: the row where it is homed elsewhere, its mixture-of-experts tokens (13 R332), its positions. -/
structure DecideIn where
  remote : Option RemoteRow
  routes : List RouteIn
  pos : List PosIn
deriving DecidableEq, Repr

/-! ## Images (01, 10, 20) -/

/-- A segment of a prompt template (10 Table 10.2). -/
structure Segment where
  kind : Nat
  slots : Nat
  count : Nat
  after : Nat
  addr : Nat
deriving DecidableEq, Repr

/-- A model's shape, by the rows of Table 1.8: structure (0 decoder-only with causal attention, 1 encoder with bidirectional
attention, 2 another), layers, width, head dimension, query heads, key/value heads, the windows of its sliding-window layers,
positions (0 rotary, 1 learned absolute, 2 another), feed-forward (0 SiLU gate, 1 GELU gate, 2 plain), experts and active ones,
vocabulary, the longest sequence it takes, output (0 logits, 1 a vector, 2 a score), a vector's dimensions; and whether it uses the
principal model's merge table (R10). -/
structure ModelShape where
  arch : Nat
  layers : Nat
  width : Nat
  headDim : Nat
  qHeads : Nat
  kvHeads : Nat
  windows : List Nat
  pos : Nat
  ffn : Nat
  experts : Nat
  active : Nat
  vocab : Nat
  seq : Nat
  out : Nat
  outDim : Nat
  merges : Bool
deriving DecidableEq, Repr

/-- The contents of a model-set image that the manual names (01 R8 to R11, 07 R199, 10 R258, R261, R262, R265, R271, 11 R277, 13 R327,
R331, R332, R347): the principal model, query encoder, re-ranker and draft model; the pipeline's stages, each the windows of its
layers in order, 0 for a global one; the template records, each its words; of each template with a PREFIX what its prefill gave:
its number, where its key/value pages lie and their bytes, layer by layer; the re-rank template (R_PRE, R_MID, R_POST); end tokens;
the address of the tokenizer's header; the key/value format (E5M2 or E4M3) and the activation format (0 E4M3, 1 E5M2, 2 BF16);
the rotary pairs and the address of the rotary table; the splice descriptor (SPLICE_IN, CAP_ENTRIES, BUILD_TEN); the addresses of
the heat table, the splice directory and the splice store; and where each tenancy's page tables and key/value pages start. -/
structure ModelSet where
  principal : ModelShape
  encoder : ModelShape
  ranker : ModelShape
  draft : ModelShape
  stages : List (List Nat)
  templates : List (List Nat)
  prefixes : List (Nat × Nat × List (BitVec 8))
  rerank : List Nat × List Nat × List Nat
  ends : List Nat
  tokAddr : Nat
  e5m2 : Bool
  act : Nat
  rotPairs : List (Nat × Nat)
  rotAddr : Nat
  spliceIn : Nat
  capEntries : Nat
  buildTen : Nat
  heatAddr : Nat
  dirAddr : Nat
  storeAddr : Nat
  kvTables : Nat
  kvPages : Nat
  searchAt : Nat := 0
deriving DecidableEq, Repr

/-- What an image places in module-owned pages (07 R158, 16 R436): granary regions, the bytes at addresses of them, store pages
(address, pages, first unit of the store region), pages exported by a peer (address, pages, peer * 2^35 + its first page). -/
structure Layout where
  regions : List Region
  data : List (Nat × List Byte)
  store : List (Nat × Nat × Nat)
  shared : List (Nat × Nat × Nat)
deriving DecidableEq, Repr

/-- What an image holds: a model set, or an index of a dimension with the address of its shard's passage store, if it has one
(07 R198). -/
inductive ImgContent where
  | model (m : ModelSet) (at_ : Layout)
  | index (dim : Nat) (passages : Option Nat) (at_ : Layout)
deriving DecidableEq, Repr

end Sys2Proof
end

