-- ==== Sys2Proof/Syntax.lean ====
section
/-!
DEFINITION. The commands of the block: one constructor for each row of the spec's table of operations and events,
in the table's order, with the rule that governs it. A core instruction's row carries only the core's number: the
word at the core's program counter says the rest. A command row carries the command's ticket.
-/
namespace Sys2Proof

/-- The commands (opcode_table.json). -/
inductive Instr where
  /-- INT_REG_OP (R61). -/
  | intRegOp (c : Nat)
  /-- INT_ADDI (R60). -/
  | intAddi (c : Nat)
  /-- INT_ANDI (R60). -/
  | intAndi (c : Nat)
  /-- INT_ORI (R60). -/
  | intOri (c : Nat)
  /-- INT_XORI (R60). -/
  | intXori (c : Nat)
  /-- INT_SLTI (R60). -/
  | intSlti (c : Nat)
  /-- INT_SLTUI (R60). -/
  | intSltui (c : Nat)
  /-- INT_HI (R60). -/
  | intHi (c : Nat)
  /-- INT_SHLI (R60). -/
  | intShli (c : Nat)
  /-- INT_SHRI (R60). -/
  | intShri (c : Nat)
  /-- INT_SRAI (R60). -/
  | intSrai (c : Nat)
  /-- MOV_L (R60). -/
  | movL (c : Nat)
  /-- MEM_LD (R63). -/
  | memLd (c : Nat) (dram : Dram)
  /-- MEM_ST (R63). -/
  | memSt (c : Nat)
  /-- MEM_VLD (R63). -/
  | memVld (c : Nat) (dram : Dram)
  /-- MEM_VST (R63). -/
  | memVst (c : Nat)
  /-- MEM_TOUCH (R63). -/
  | memTouch (c : Nat)
  /-- BR_COMPARE (R62). -/
  | brCompare (c : Nat)
  /-- BR_CALL (R60). -/
  | brCall (c : Nat)
  /-- BR_JR (R60). -/
  | brJr (c : Nat)
  /-- VEC_OP (R68). -/
  | vecOp (c : Nat)
  /-- VEC_CVT (R69). -/
  | vecCvt (c : Nat)
  /-- VEC_RED (R70). -/
  | vecRed (c : Nat)
  /-- VEC_PERM (R71). -/
  | vecPerm (c : Nat)
  /-- VEC_CMP (R71). -/
  | vecCmp (c : Nat)
  /-- VEC_MSK (R71). -/
  | vecMsk (c : Nat)
  /-- ILLEGAL_INSTRUCTION (R60). -/
  | illegalInstruction (c : Nat)
  /-- CMD_ISSUE (R75). -/
  | cmdIssue (c : Nat)
  /-- CMD_ISSUE_STALL_END (R85). -/
  | cmdIssueStallEnd (c : Nat)
  /-- CMD_WAIT (R77). -/
  | cmdWait (c : Nat)
  /-- CMD_WAIT_RETURN (R77). -/
  | cmdWaitReturn (c : Nat)
  /-- CMD_WAITALL (R77). -/
  | cmdWaitall (c : Nat)
  /-- CMD_ABORT (R78). -/
  | cmdAbort (c : Nat)
  /-- WELL_DRAW (R73). -/
  | wellDraw (c : Nat)
  /-- WELL_DRAW_RETRY (R103). -/
  | wellDrawRetry (r : Ref)
  /-- SYNC_BAR (R72). -/
  | syncBar (c : Nat)
  /-- BARRIER_RELEASE (R72). -/
  | barrierRelease (ham num : Nat)
  /-- SYNC_COMMIT (R72). -/
  | syncCommit (c : Nat)
  /-- SYNC_HALT (R72). -/
  | syncHalt (c : Nat)
  /-- SYS_RD (R79). -/
  | sysRd (c : Nat)
  /-- SYS_WR (R79). -/
  | sysWr (c : Nat)
  /-- SYS_BREAK (R79). -/
  | sysBreak (c : Nat)
  /-- TURN_STALL_END (R54). -/
  | turnStallEnd (c : Nat)
  /-- COMMAND_LEAVE_ISSUED (R88). -/
  | commandLeaveIssued (t unit : Nat)
  /-- COMMAND_READY (R14). -/
  | commandReady (r : Noted Ref)
  /-- COMMIT_GRANT (R18). -/
  | commitGrant (r : Ref)
  /-- COMMAND_KILL (R25). -/
  | commandKill (r : Ref) (cause : Cause)
  /-- KILL_COMPLETE (R26). -/
  | killComplete (r : Ref)
  /-- COMMAND_RERUN (R28). -/
  | commandRerun (r : Ref)
  /-- NK_START_POINT (R34). -/
  | nkStartPoint (t : Nat)
  /-- ARRAY_PROGRAM_DONE (R35). -/
  | arrayProgramDone (t : Nat)
  /-- SHADOW_COPYBACK_DONE (R180). -/
  | shadowCopybackDone (granule : Nat)
  /-- PORT_DEADLINE (R45). -/
  | portDeadline (port value : Nat)
  /-- PCS_LOCK_LOST (R41). -/
  | pcsLockLost (port : Nat)
  /-- PCS_LOCK_GAINED (R41). -/
  | pcsLockGained (port : Nat)
  /-- QUEUE_JOIN (R92). -/
  | queueJoin (t : Nat)
  /-- CART_COPY (R100). -/
  | cartCopy (t : Nat)
  /-- CART_GATHER (R100). -/
  | cartGather (t : Nat)
  /-- CART_SCATTER (R100). -/
  | cartScatter (t : Nat)
  /-- CART_FILL (R100). -/
  | cartFill (t : Nat)
  /-- CART_STRIDE (R100). -/
  | cartStride (t : Nat)
  /-- WELL_FILL (R106). -/
  | wellFill (t : Nat)
  /-- ENG_PASS (R127). -/
  | engPass (t : Noted Nat)
  /-- ACC_TILE_WAIT_END (R139). -/
  | accTileWaitEnd (t : Noted Nat)
  /-- ENG_EW (R131). -/
  | engEw (t : Nat)
  /-- IDLE_FILL_START (R134). -/
  | idleFillStart (e : Nat)
  /-- IDLE_FILL_TAPER (R134). -/
  | idleFillTaper (e : Nat)
  /-- IDLE_FILL_STOP (R134). -/
  | idleFillStop (e : Nat)
  /-- DRIFT_MAP (R172). -/
  | driftMap (t : Nat)
  /-- DRIFT_UNMAP (R174). -/
  | driftUnmap (t : Nat)
  /-- DRIFT_PIN (R170). -/
  | driftPin (t : Nat)
  /-- DRIFT_UNPIN (R172). -/
  | driftUnpin (t : Nat)
  /-- DRIFT_HINT (R171). -/
  | driftHint (t : Nat)
  /-- DRIFT_SETTLE (R175). -/
  | driftSettle (t : Nat)
  /-- DRIFT_MOVE (R176). -/
  | driftMove (page : Nat) (granule : Option Nat) (toSt toFrame : Nat) (why : MoveWhy)
  /-- ERA_ADVANCE (R165). -/
  | eraAdvance
  /-- FAULT_RESOLVED_RERUN (R185). -/
  | faultResolvedRerun (r : Ref)
  /-- PAGE_HOLD_EXPIRY (R30). -/
  | pageHoldExpiry (page : Nat)
  /-- FRAME_RETIRE (R192). -/
  | frameRetire (stk frame row : Nat) (repaired : Bool)
  /-- CHANNEL_GROUP_RETIRE (R193). -/
  | channelGroupRetire (stk grp : Nat) (channel : Option Nat)
  /-- GRANULE_POISON (R194). -/
  | granulePoison (granule : Nat) (r : Ref)
  /-- POISON_REBUILD (R194). -/
  | poisonRebuild (granule : Nat)
  /-- CELLAR_MEDIA_EVENT (R206). -/
  | cellarMediaEvent (e : MediaEvent)
  /-- CELLAR_CHANNEL_FAIL (R206). -/
  | cellarChannelFail (ch : Nat)
  /-- CEL_GATHER (R202). -/
  | celGather (t : Nat)
  /-- CEL_PROG (R203). -/
  | celProg (t : Nat)
  /-- CEL_TRIM (R204). -/
  | celTrim (t : Nat)
  /-- SCAN_PROBE (R231). -/
  | scanProbe (t : Nat)
  /-- SCAN_RESCORE (R235). -/
  | scanRescore (t : Nat)
  /-- SCAN_SNAP (R224). -/
  | scanSnap (t : Nat)
  /-- SCAN_INSERT (R227). -/
  | scanInsert (t : Nat)
  /-- SCAN_DELETE (R227). -/
  | scanDelete (t : Nat)
  /-- SCAN_FOLD (R229). -/
  | scanFold (t : Nat)
  /-- SCAN_GATHER (R238). -/
  | scanGather (t : Nat)
  /-- TXT_TOK (R282). -/
  | txtTok (t : Nat)
  /-- TXT_OPEN (R291). -/
  | txtOpen (t : Nat)
  /-- TXT_FEED (R286). -/
  | txtFeed (t : Nat)
  /-- TXT_CLOSE (R291). -/
  | txtClose (t : Nat)
  /-- GRM_LOAD (R302). -/
  | grmLoad (t : Nat)
  /-- GRM_UNLOAD (R316). -/
  | grmUnload (t : Nat)
  /-- GRM_OPEN (R304). -/
  | grmOpen (t : Nat)
  /-- GRM_STEP (R307). -/
  | grmStep (t : Nat)
  /-- GRM_PATH (R315). -/
  | grmPath (t : Nat)
  /-- GRM_PEEK (R313). -/
  | grmPeek (t : Nat)
  /-- EMB_GATHER (R451). -/
  | embGather (t : Nat)
  /-- EMB_ADD (R452). -/
  | embAdd (t : Nat)
  /-- EMB_SWAP (R456). -/
  | embSwap (t : Nat)
  /-- NET_EMIT (R432). -/
  | netEmit (t : Nat)
  /-- FAB_READ (R429). -/
  | fabRead (t : Nat)
  /-- FAB_WRITE (R430). -/
  | fabWrite (t : Nat)
  /-- FAB_ATOMIC (R431). -/
  | fabAtomic (t : Nat)
  /-- SEC_BFW (R520). -/
  | secBfw (t : Nat)
  /-- SEC_QUOTE_CMD (R516). -/
  | secQuoteCmd (t : Nat)
  /-- PROMPT_PACK (R263). -/
  | promptPack (batch row : Nat) (rank : Option RankIn) (gather : Nat) (arrived : List (Nat × List Nat))
  /-- SPLICE_MASK_SEND (R270). -/
  | spliceMaskSend (batch row : Nat) (plan : PlanIn)
  /-- SPLICE_AGREE (R270). -/
  | spliceAgree (home batch row ten : Nat) (stages masks : List Nat)
  /-- SPLICE_BUILD (R266). -/
  | spliceBuild (passage tokens : Nat) (place : BuildAt) (data : List (BitVec 8))
  /-- STEP_FEED_SEND (R324). -/
  | stepFeedSend (batch : Nat) (grms : List (Nat × Nat))
  /-- DRAFT_PROPOSE (R340). -/
  | draftPropose (batch row : Nat) (draft : DraftIn)
  /-- SAMPLE_DECIDE (R341). -/
  | sampleDecide (batch row : Nat) (step : DecideIn)
  /-- STEP_COMMIT (R322). -/
  | stepCommit (batch : Nat) (recs : List StepRec)
  /-- BATCH (R393). -/
  | batch (qp ahead : Nat) (msg : List (BitVec 8))
  /-- CANCEL (R395). -/
  | cancel (qp : Nat) (msg : List (BitVec 8))
  /-- STATUS_QUERY (R404). -/
  | statusQuery (qp : Nat) (msg : List (BitVec 8))
  /-- HELLO (R386). -/
  | hello (qp : Nat) (msg : List (BitVec 8))
  /-- SLICE_END (R368). -/
  | sliceEnd (rota : Nat)
  /-- EARLY_SLICE_END (R369). -/
  | earlySliceEnd (rota : Nat)
  /-- ROTA_IDLE_RESUME (R367). -/
  | rotaIdleResume (rota : Nat)
  /-- SCH_REBIND (R353). -/
  | schRebind (via : Via) (v : Nat)
  /-- REBIND_COMPLETE (R353). -/
  | rebindComplete
  /-- TENANCY_ENABLE (R352). -/
  | tenancyEnable (via : Via) (n v : Nat)
  /-- TENANCY_DRAIN_WRITE (R352). -/
  | tenancyDrainWrite (via : Via) (ten drain : Nat)
  /-- TENANCY_DISABLE (R352). -/
  | tenancyDisable (via : Via) (n v : Nat)
  /-- TENANCY_FREE (R352). -/
  | tenancyFree (ten : Nat)
  /-- KV_PAGES_WRITE (R438). -/
  | kvPagesWrite (via : Via) (ten pages : Nat)
  /-- RDMA_WRITE (R384). -/
  | rdmaWrite (qp rkey va : Nat) (data : List (BitVec 8))
  /-- RDMA_READ_REQUEST (R384). -/
  | rdmaReadRequest (qp rkey va len : Nat)
  /-- CW_RDMA_WRITE (R526). -/
  | cwRdmaWrite (qp rkey off : Nat) (data : List (BitVec 8))
  /-- ROCE_ACKNOWLEDGE (R380). -/
  | roceAcknowledge (qp upto : Nat) (nak : Bool)
  /-- ROCE_ACK_TIMEOUT (R380). -/
  | roceAckTimeout (qp : Nat)
  /-- CNP_RECEIVE (R382). -/
  | cnpReceive (qp : Nat)
  /-- ECN_MARKED_RECEIVE (R382). -/
  | ecnMarkedReceive (qp : Nat)
  /-- RATE_RECOVERY (R382). -/
  | rateRecovery (qp : Nat)
  /-- PFC_PAUSE_RECEIVE (R382). -/
  | pfcPauseReceive (port prio ns : Nat)
  /-- HOST_FRAME_DROP (R379). -/
  | hostFrameDrop (port : Nat) (why : HostDrop)
  /-- CM_REQ (R381). -/
  | cmReq (port remote priv : Nat)
  /-- QP_LOST (R401). -/
  | qpLost (qp : Nat) (err : Bool)
  /-- RNR_NAK (R398). -/
  | rnrNak (qp seq : Nat)
  /-- RNR_RETRY_EXHAUSTED (R403). -/
  | rnrRetryExhausted (qp : Nat)
  /-- RING_CONS_POLL (R399). -/
  | ringConsPoll (order row : Nat)
  /-- HST_IMG_BEGIN (R406). -/
  | hstImgBegin (via : Via) (kind target : Nat)
  /-- HST_IMG_CHUNK (R406). -/
  | hstImgChunk (via : Via)
  /-- HST_IMG_END (R406). -/
  | hstImgEnd (via : Via)
  /-- IMAGE_CHECK_DONE (R510). -/
  | imageCheckDone (content : ImgContent)
  /-- LINK_HELLO (R422). -/
  | linkHello (port : Nat) (car : Car)
  /-- LINK_ACK (R416). -/
  | linkAck (port : Nat) (car : Car)
  /-- TOPO (R423). -/
  | topo (port : Nat) (car : Car) (ident : Nat)
  /-- CREDIT (R438). -/
  | credit (port : Nat) (car : Car)
  /-- TWIN_OFFER (R439). -/
  | twinOffer (port : Nat) (car : Car) (epoch : Nat)
  /-- SUBST (R475). -/
  | subst (port : Nat) (car : Car)
  /-- SUBST_ACK (R475). -/
  | substAck (port : Nat) (car : Car)
  /-- WRITE (R430). -/
  | write (port : Nat) (car : Car) (last : Bool)
  /-- WRITE_COMMIT (R430). -/
  | writeCommit (port : Nat) (car : Car)
  /-- WRITE_DISCARD (R430). -/
  | writeDiscard (port : Nat) (car : Car)
  /-- WRITE_ACK (R430). -/
  | writeAck (port : Nat) (car : Car)
  /-- READ_REQ (R429). -/
  | readReq (port : Nat) (car : Car)
  /-- READ_RESP (R429). -/
  | readResp (port : Nat) (car : Car)
  /-- ATOMIC (R431). -/
  | atomic (port : Nat) (car : Car)
  /-- ATOMIC_RESP (R431). -/
  | atomicResp (port : Nat) (car : Car)
  /-- EMB (R453). -/
  | emb (port : Nat) (car : Car)
  /-- MIR_ADMIT (R468). -/
  | mirAdmit (port : Nat) (car : Car)
  /-- MIR_KV (R469). -/
  | mirKv (port : Nat) (car : Car)
  /-- MIR_STEP (R471). -/
  | mirStep (port : Nat) (car : Car)
  /-- MIR_CANCEL (R468). -/
  | mirCancel (port : Nat) (car : Car)
  /-- MIR_END (R468). -/
  | mirEnd (port : Nat) (car : Car)
  /-- MIR_ACK (R440). -/
  | mirAck (port : Nat) (car : Car)
  /-- TWIN_BEAT (R440). -/
  | twinBeat (port : Nat) (car : Car)
  /-- CARAVAN_FORWARD (R425). -/
  | caravanForward (port : Nat) (car : Car)
  /-- POOL_FRAME_REQUEST (R434). -/
  | poolFrameRequest (borrower frame : Nat)
  /-- LINK_HELLO_TIMER (R422). -/
  | linkHelloTimer (port : Nat)
  /-- NEIGHBOUR_TIMEOUT (R422). -/
  | neighbourTimeout (port : Nat)
  /-- LINK_SIGNAL_LOSS (R422). -/
  | linkSignalLoss (port : Nat)
  /-- TOPO_REFRESH_TIMER (R423). -/
  | topoRefreshTimer
  /-- LINK_RETRANSMIT_TIMER (R416). -/
  | linkRetransmitTimer (port : Nat)
  /-- INJECT_WINDOW_GROW (R419). -/
  | injectWindowGrow (dst : Nat)
  /-- ALIEN_TIMEOUT (R410). -/
  | alienTimeout (port : Nat)
  /-- LANE_FAIL (R411). -/
  | laneFail (port lane : Nat)
  /-- LANE_RETRAIN_DONE (R411). -/
  | laneRetrainDone (port lanes : Nat)
  /-- ROUTE_RECOMPUTE_DONE (R423). -/
  | routeRecomputeDone
  /-- TWIN_BEAT_TIMER (R440). -/
  | twinBeatTimer (port : Nat)
  /-- ACK_WAIT_EXPIRY (R441). -/
  | ackWaitExpiry
  /-- CONFIRM_WAIT_EXPIRY (R472). -/
  | confirmWaitExpiry (pipe : List Nat)
  /-- RESYNC_BATCH_PROTECT (R474). -/
  | resyncBatchProtect
  /-- UNIT_ERROR_REPORT (R463). -/
  | unitErrorReport (err : UnitErr)
  /-- UNIT_WAIT_EXPIRY (R463). -/
  | unitWaitExpiry (t : Nat)
  /-- INPUT_LOW_FALL (R486). -/
  | inputLowFall (v : Nat)
  /-- INPUT_LOW_RISE (R486). -/
  | inputLowRise (v : Nat)
  /-- NV_CUTOFF (R488). -/
  | nvCutoff (v : Nat)
  /-- NV_RESTORE (R487). -/
  | nvRestore (v : Nat)
  /-- UNDERVOLTAGE_SHUTDOWN (R491). -/
  | undervoltageShutdown (v : Nat)
  /-- INPUT_HIGH_RISE (R486). -/
  | inputHighRise (v : Nat)
  /-- INPUT_HIGH_FALL (R486). -/
  | inputHighFall (v : Nat)
  /-- OVERVOLTAGE_SHUTDOWN (R491). -/
  | overvoltageShutdown (v : Nat)
  /-- SHUTDOWN_FIELD_GATE (R491). -/
  | shutdownFieldGate
  /-- SHUTDOWN_GATE_DIE_GATE (R491). -/
  | shutdownGateDieGate
  /-- SHUTDOWN_RESTART (R492). -/
  | shutdownRestart (fd0 fd1 gate hbm : Nat)
  /-- PWR_DOM_CTL_WRITE (R494). -/
  | pwrDomCtlWrite (via : Via) (v : Nat)
  /-- DOMAIN_GATE_DONE (R494). -/
  | domainGateDone (dom : Nat)
  /-- DOMAIN_POWER_UP_DONE (R494). -/
  | domainPowerUpDone (dom : Nat)
  /-- PWR_SLEEP_WRITE (R495). -/
  | pwrSleepWrite (via : Via) (sleep : Nat)
  /-- PACER_WINDOW (R497). -/
  | pacerWindow (die count : Nat)
  /-- POWER_AVERAGE_WINDOW (R498). -/
  | powerAverageWindow (watts : Nat)
  /-- VCORE_STEP (R496). -/
  | vcoreStep (die : Nat)
  /-- TJ_HIGH_CROSSING (R499). -/
  | tjHighCrossing (die tj : Nat)
  /-- TJ_OVER (R499). -/
  | tjOver (die tj : Nat)
  /-- THERMAL_SHUTDOWN (R499). -/
  | thermalShutdown (sensor : Sensor) (temp : Nat)
  /-- HBM_HOT (R499). -/
  | hbmHot (stk temp : Nat)
  /-- CURRENT_STEP_WINDOW (R500). -/
  | currentStepWindow (die amps : Nat)
  /-- HOST_REFCLK_LOSS (R556). -/
  | hostRefclkLoss
  /-- FAB_REFCLK_LOSS (R556). -/
  | fabRefclkLoss (q : Nat)
  /-- MEM_REFCLK_LOSS (R556). -/
  | memRefclkLoss (long : Bool)
  /-- ROM_BOOT (R504). -/
  | romBoot
  /-- ROM_TRY_CLEAR (R504). -/
  | romTryClear (written : Bool)
  /-- FW_START (R506). -/
  | fwStart (via : Via) (bytes : Nat)
  /-- FW_CONFIRM (R506). -/
  | fwConfirm (via : Via)
  /-- FW_ADVANCE (R506). -/
  | fwAdvance (via : Via)
  /-- SEC_QUOTE_GO (R517). -/
  | secQuoteGo (via : Via)
  /-- KS_INSTALL_SM4 (R518). -/
  | ksInstallSm4 (via : Via) (slot : Nat)
  /-- KS_INSTALL_SIGNER (R518). -/
  | ksInstallSigner (via : Via) (slot : Nat)
  /-- KS_REVOKE (R518). -/
  | ksRevoke (via : Via) (slot : Nat)
  /-- KS_WRITE_DONE (R519). -/
  | ksWriteDone (written : Bool)
  /-- REGISTER_WRITE (R527). -/
  | registerWrite (via : Via) (off v : Nat)
  /-- HAM_ENABLE (R83). -/
  | hamEnable (via : Via) (n v : Nat)
  /-- HAM_DISABLE (R57). -/
  | hamDisable (via : Via) (n v : Nat)
  /-- WEL_ENABLE (R108). -/
  | welEnable (via : Via) (n v : Nat)
  /-- ENG_ENABLE (R136). -/
  | engEnable (via : Via) (n v : Nat)
  /-- MEM_ENABLE (R207). -/
  | memEnable (via : Via) (v : Nat)
  /-- MEM_LOOKUP_VA (R207). -/
  | memLookupVa (via : Via) (v : Nat)
  /-- CEL_ENABLE (R208). -/
  | celEnable (via : Via) (v : Nat)
  /-- SCN_ENABLE (R243). -/
  | scnEnable (via : Via) (n v : Nat)
  /-- SCN_IDX_ENABLE (R244). -/
  | scnIdxEnable (via : Via) (n v : Nat)
  /-- SCN_IDX_DISABLE (R244). -/
  | scnIdxDisable (via : Via) (n v : Nat)
  /-- TXT_ENABLE (R295). -/
  | txtEnable (via : Via) (v : Nat)
  /-- TXT_GRM_ENABLE (R319). -/
  | txtGrmEnable (via : Via) (v : Nat)
  /-- SCH_ENABLE (R377). -/
  | schEnable (via : Via) (v : Nat)
  /-- HST_ENABLE (R407). -/
  | hstEnable (via : Via) (n v : Nat)
  /-- FAB_ENABLE (R443). -/
  | fabEnable (via : Via) (v : Nat)
  /-- FAB_RT_ROW_WRITE (R427). -/
  | fabRtRowWrite (via : Via) (v : Nat)
  /-- FAB_LEND_WRITE (R435). -/
  | fabLendWrite (via : Via) (offer : Nat)
  /-- FAB_PORT_RETRY (R411). -/
  | fabPortRetry (via : Via) (port : Nat)
  /-- EMB_ENABLE (R458). -/
  | embEnable (via : Via) (v : Nat)
  /-- EMB_TAB_ENABLE (R458). -/
  | embTabEnable (via : Via) (n v : Nat)
  /-- TWN_ENABLE (R483). -/
  | twnEnable (via : Via) (v : Nat)
  /-- PWR_ENABLE (R501). -/
  | pwrEnable (via : Via) (v : Nat)
  /-- SEC_ENABLE (R522). -/
  | secEnable (via : Via) (v : Nat)
  /-- OAS_ENABLE (R540). -/
  | oasEnable (via : Via) (n v : Nat)
  /-- CONSISTENCY_CHECK_END (R534). -/
  | consistencyCheckEnd (ctl : Nat)
  /-- UNIT_DISABLE (R536). -/
  | unitDisable (via : Via) (ctl v : Nat)
  /-- ERR_LOG_CLEAR (R550). -/
  | errLogClear (via : Via)
  /-- I3C_READ (R571). -/
  | i3cRead (addr off : Nat)
  /-- I3C_WRITE (R572). -/
  | i3cWrite (addr off v : Nat)
  /-- I3C_PRIVATE_READ (R571). -/
  | i3cPrivateRead (addr : Nat)
  /-- RECOV_DATA (R571). -/
  | recovData (addr : Nat) (data : List (BitVec 8))
  /-- RECOV_END (R572). -/
  | recovEnd (addr : Nat)
  /-- ENTDAA (R570). -/
  | entdaa (dyn : Nat)
  /-- SETDASA (R570). -/
  | setdasa (static dyn : Nat)
  /-- RSTDAA (R570). -/
  | rstdaa
  /-- SETNEWDA (R570). -/
  | setnewda (addr dyn : Nat)
  /-- GETPID (R570). -/
  | getpid (addr : Nat)
  /-- GETBCR (R570). -/
  | getbcr (addr : Nat)
  /-- GETDCR (R570). -/
  | getdcr (addr : Nat)
  /-- GETSTATUS (R570). -/
  | getstatus (addr : Nat)
  /-- GETMWL (R570). -/
  | getmwl (addr : Nat)
  /-- GETMRL (R570). -/
  | getmrl (addr : Nat)
  /-- BYPASS (R573). -/
  | bypass
  /-- IDCODE (R574). -/
  | idcode
  /-- SAMPLE_PRELOAD (R573). -/
  | samplePreload (cells : List Bool)
  /-- EXTEST (R573). -/
  | extest
  /-- CLAMP (R573). -/
  | clamp
  /-- HIGHZ (R573). -/
  | highz
  /-- RST_N_ASSERT (R569). -/
  | rstNAssert
  /-- RST_N_RELEASE (R569). -/
  | rstNRelease
  /-- VDDIO_SB_RISE (R569). -/
  | vddioSbRise (strap : Nat)
  /-- HOT_INSERT_PRECHARGE (R564). -/
  | hotInsertPrecharge (v : Nat)
  /-- BRING_UP_STAGE_END (R575). -/
  | bringUpStageEnd (r : StageRes)
  /-- PROGRAM_BIND (R150). -/
  | programBind (ten port : Nat) (m : Manifest)
  /-- VARIANT_LOAD (R153). -/
  | variantLoad (v base size : Nat)
  /-- VARIANT_REMOVAL (R346). -/
  | variantRemoval (v : Nat)
  /-- FABRIC_FRAME_DROP (R412). -/
  | fabricFrameDrop (port : Nat) (crc : Bool)
  /-- RDMA_READ_RESPONSE (R399). -/
  | rdmaReadResponse (order row value : Nat)
  /-- CM_RTU (R381). -/
  | cmRtu (qp : Nat)
  /-- RNR_TIMER_EXPIRY (R380). -/
  | rnrTimerExpiry (qp : Nat)
  /-- PFC_PAUSE_EXPIRY (R382). -/
  | pfcPauseExpiry (port : Nat)
  /-- REFCLK_RETURN (R559). -/
  | refclkReturn (clock : Nat)
  /-- POOL_FRAME_RECALL (R435). -/
  | poolFrameRecall (frame toSt toFrame : Nat)
  /-- POOL_FRAME_RETURN (R435). -/
  | poolFrameReturn (borrower frame : Nat)
  /-- RAILS_FAIL (R569). -/
  | railsFail
deriving DecidableEq, Repr

end Sys2Proof
end

