-- ==== Sys2Proof/Decode.lean ====
section
/-!
DEFINITION. The decoder of a core's instruction words (03 R59, R60, Tables 3.2 to 3.8), total on every word and
refusing by `illegal`; the encoder written from the same tables; and the host's decodeTableWord, which answers
none because the spec gives no row of the command table any bits.
-/
namespace Sys2Proof

/-- The element type of a code of Table 3.5; codes 0x9 to 0xF are reserved. -/
def ETy.ofCode (c : Nat) : Option ETy :=
  match c with
  | 0 => some .i8 | 1 => some .i16 | 2 => some .i32 | 3 => some .i64 | 4 => some .e4m3
  | 5 => some .e5m2 | 6 => some .bf16 | 7 => some .fp16 | 8 => some .fp32
  | _ => none

/-- The code of an element type (Table 3.5). -/
def ETy.code : ETy → BitVec 4
  | .i8 => 0 | .i16 => 1 | .i32 => 2 | .i64 => 3 | .e4m3 => 4 | .e5m2 => 5 | .bf16 => 6 | .fp16 => 7 | .fp32 => 8

/-- Whether a type is an integer type. -/
def ETy.isInt : ETy → Bool
  | .i8 | .i16 | .i32 | .i64 => true
  | _ => false

/-- Whether arithmetic is defined for a type (Table 3.5, last column). -/
def ETy.arith : ETy → Bool
  | .i8 | .i16 | .i32 | .i64 | .bf16 | .fp32 => true
  | _ => false

/-- Whether a minor of `vec.op` is defined for a type (R66, Table 3.6). -/
def VopFn.accepts (f : VopFn) (t : ETy) : Bool :=
  match f with
  | .add | .sub | .mul | .fma | .min | .max => t.arith
  | .and | .or | .xor | .shl | .shr | .sra | .adds | .subs => t.isInt
  | .exp2 | .recip => t == .fp32

def IntFn.ofMinor (c : Nat) : Option IntFn :=
  match c with
  | 0x00 => some .add | 0x01 => some .sub | 0x02 => some .and | 0x03 => some .or | 0x04 => some .xor
  | 0x05 => some .shl | 0x06 => some .shr | 0x07 => some .sra | 0x08 => some .mul | 0x09 => some .mulh
  | 0x0A => some .mulhu | 0x0B => some .div | 0x0C => some .divu | 0x0D => some .rem | 0x0E => some .remu
  | 0x0F => some .min | 0x10 => some .max | 0x11 => some .slt | 0x12 => some .sltu | 0x13 => some .clz
  | 0x14 => some .popc
  | _ => none

def IntFn.minor : IntFn → BitVec 8
  | .add => 0x00 | .sub => 0x01 | .and => 0x02 | .or => 0x03 | .xor => 0x04 | .shl => 0x05 | .shr => 0x06
  | .sra => 0x07 | .mul => 0x08 | .mulh => 0x09 | .mulhu => 0x0A | .div => 0x0B | .divu => 0x0C | .rem => 0x0D
  | .remu => 0x0E | .min => 0x0F | .max => 0x10 | .slt => 0x11 | .sltu => 0x12 | .clz => 0x13 | .popc => 0x14

def VopFn.ofMinor (c : Nat) : VopFn :=
  match c with
  | 0x0 => .add | 0x1 => .sub | 0x2 => .mul | 0x3 => .fma | 0x4 => .min | 0x5 => .max | 0x6 => .and | 0x7 => .or
  | 0x8 => .xor | 0x9 => .shl | 0xA => .shr | 0xB => .sra | 0xC => .adds | 0xD => .subs | 0xE => .exp2
  | _ => .recip

def VopFn.minor : VopFn → BitVec 4
  | .add => 0x0 | .sub => 0x1 | .mul => 0x2 | .fma => 0x3 | .min => 0x4 | .max => 0x5 | .and => 0x6 | .or => 0x7
  | .xor => 0x8 | .shl => 0x9 | .shr => 0xA | .sra => 0xB | .adds => 0xC | .subs => 0xD | .exp2 => 0xE | .recip => 0xF

def RedFn.ofMinor (c : Nat) : Option RedFn :=
  match c with
  | 0 => some .sum | 1 => some .min | 2 => some .max
  | _ => none

def RedFn.minor : RedFn → BitVec 4
  | .sum => 0 | .min => 1 | .max => 2

def PermFn.ofMinor (c : Nat) : Option PermFn :=
  match c with
  | 0 => some .bcast | 1 => some .extract | 2 => some .insert | 3 => some .move | 4 => some .shuffle | 5 => some .compress
  | _ => none

def PermFn.minor : PermFn → BitVec 4
  | .bcast => 0 | .extract => 1 | .insert => 2 | .move => 3 | .shuffle => 4 | .compress => 5

def CmpFn.ofMinor (c : Nat) : Option CmpFn :=
  match c with
  | 0 => some .eq | 1 => some .ne | 2 => some .lt | 3 => some .le | 4 => some .gt | 5 => some .ge
  | _ => none

def CmpFn.minor : CmpFn → BitVec 4
  | .eq => 0 | .ne => 1 | .lt => 2 | .le => 3 | .gt => 4 | .ge => 5

def MskFn.ofMinor (c : Nat) : Option MskFn :=
  match c with
  | 0 => some .and | 1 => some .or | 2 => some .xor | 3 => some .andn | 4 => some .popc
  | _ => none

def MskFn.minor : MskFn → BitVec 4
  | .and => 0 | .or => 1 | .xor => 2 | .andn => 3 | .popc => 4

/-- The space of format M's bits [15:14]; 0b10 and 0b11 are reserved opcodes (R63). -/
def Space.ofCode (c : Nat) : Option Space :=
  match c with
  | 0 => some .scratch | 1 => some .virt
  | _ => none

def Space.code : Space → BitVec 2
  | .scratch => 0 | .virt => 1

/-- The major opcode, bits [31:26]. -/
def majorOf (w : BitVec 32) : Nat := (w.extractLsb' 26 6).toNat

/-- A decoded instruction or `illegal`. -/
def orIllegal (o : Option CoreOp) : CoreOp := o.getD .illegal

/-- Format V (Table 3.2), with an element type that is not reserved. -/
def decodeVec (major : Nat) (w : BitVec 32) : CoreOp :=
  let vd := w.extractLsb' 21 5
  let va := w.extractLsb' 16 5
  let vb := w.extractLsb' 11 5
  let m := w.extractLsb' 8 3
  let minor := (w.extractLsb' 0 4).toNat
  orIllegal <| (ETy.ofCode (w.extractLsb' 4 4).toNat).bind fun t =>
    match major with
    | 0x28 => let f := VopFn.ofMinor minor; if f.accepts t then some (.vop f t m vd va vb) else none
    | 0x29 => (ETy.ofCode minor).map fun dst => .vcvt t dst m vd va
    | 0x2A => if t.arith then (RedFn.ofMinor minor).map fun f => .vred f t m vd va else none
    | 0x2B => (PermFn.ofMinor minor).map fun f => .vperm f t m vd va vb
    | 0x2C => if t.arith then (CmpFn.ofMinor minor).map fun f => .vcmp f t m (w.extractLsb' 21 3) va vb else none
    | 0x2D => (MskFn.ofMinor minor).map fun f => .vmsk f t vd (w.extractLsb' 16 3) (w.extractLsb' 11 3)
    | _ => none

/-- Format M. -/
def decodeMem (major : Nat) (w : BitVec 32) : CoreOp :=
  let r := w.extractLsb' 21 5
  let base := w.extractLsb' 16 5
  let off := w.extractLsb' 0 14
  orIllegal <| (Space.ofCode (w.extractLsb' 14 2).toNat).bind fun sp =>
    match major with
    | 0x10 => some (.ld .u8 r base sp off)
    | 0x11 => some (.ld .u16 r base sp off)
    | 0x12 => some (.ld .u32 r base sp off)
    | 0x13 => some (.ld .d64 r base sp off)
    | 0x14 => some (.ld .s8 r base sp off)
    | 0x15 => some (.ld .s16 r base sp off)
    | 0x16 => some (.ld .s32 r base sp off)
    | 0x18 => some (.st .b8 r base sp off)
    | 0x19 => some (.st .b16 r base sp off)
    | 0x1A => some (.st .b32 r base sp off)
    | 0x1B => some (.st .b64 r base sp off)
    | 0x1C => some (.vld r base sp off)
    | 0x1D => some (.vst r base sp off)
    | 0x1F => some (.touch base sp off)
    | _ => none

/-- Format C, majors 0x30 to 0x33 (Table 3.8, R72, R73, R79). -/
def decodeSys (major : Nat) (w : BitVec 32) : CoreOp :=
  let d := w.extractLsb' 21 5
  let a := w.extractLsb' 16 5
  let b := w.extractLsb' 11 5
  let minor := (w.extractLsb' 0 11).toNat
  match major, minor with
  | 0x30, 0 => .issue d a b
  | 0x30, 1 => .wait d a
  | 0x30, 2 => .waitAll d a b
  | 0x30, 3 => .abort a b
  | 0x31, 0 => .draw d a
  | 0x32, 0 => .bar a
  | 0x32, 1 => .commit
  | 0x32, 2 => .halt
  | 0x33, 0 => .sysRd d a
  | 0x33, 1 => .sysWr a b
  | 0x33, 2 => .sysBreak
  | _, _ => .illegal

/-- The instruction of a word and, for `mov.l`, the word after it. -/
def decodeCore (w w1 : BitVec 32) : CoreOp :=
  let d := w.extractLsb' 21 5
  let a := w.extractLsb' 16 5
  let b := w.extractLsb' 11 5
  let i := w.extractLsb' 0 16
  match majorOf w with
  | 0x01 => orIllegal ((IntFn.ofMinor (w.extractLsb' 0 8).toNat).map fun f => .int f d a b)
  | 0x02 => .imm .addi d a i
  | 0x03 => .imm .andi d a i
  | 0x04 => .imm .ori d a i
  | 0x05 => .imm .xori d a i
  | 0x06 => .imm .slti d a i
  | 0x07 => .imm .sltui d a i
  | 0x08 => .imm .hi d a i
  | 0x09 => .imm .shli d a i
  | 0x0A => .imm .shri d a i
  | 0x0B => .imm .srai d a i
  | 0x0C => .movl d (i ++ w1)
  | 0x20 => .br .eq d a i
  | 0x21 => .br .ne d a i
  | 0x22 => .br .lt d a i
  | 0x23 => .br .ge d a i
  | 0x24 => .br .ltu d a i
  | 0x25 => .br .geu d a i
  | 0x26 => .call (w.extractLsb' 0 26)
  | 0x27 => if w.extractLsb' 0 8 = 0 then .jr d a else .illegal
  | major =>
    if major < 0x20 then decodeMem major w
    else if major < 0x30 then decodeVec major w
    else decodeSys major w

/-- Formats A, V and C by their fields. -/
def packA (major : BitVec 6) (d a b : Reg) (low : BitVec 11) : BitVec 32 := major ++ d ++ a ++ b ++ low

/-- Format I and format B by their fields. -/
def packI (major : BitVec 6) (d a : Reg) (i : BitVec 16) : BitVec 32 := major ++ d ++ a ++ i

/-- Format M by its fields. -/
def packM (major : BitVec 6) (r base : Reg) (sp : Space) (off : BitVec 14) : BitVec 32 :=
  major ++ r ++ base ++ sp.code ++ off

/-- Format V by its fields. -/
def packV (major : BitVec 6) (vd va vb : Reg) (m : BitVec 3) (t : ETy) (minor : BitVec 4) : BitVec 32 :=
  major ++ vd ++ va ++ vb ++ m ++ t.code ++ minor

def ImmFn.major : ImmFn → BitVec 6
  | .addi => 0x02 | .andi => 0x03 | .ori => 0x04 | .xori => 0x05 | .slti => 0x06 | .sltui => 0x07 | .hi => 0x08
  | .shli => 0x09 | .shri => 0x0A | .srai => 0x0B

def LdFn.major : LdFn → BitVec 6
  | .u8 => 0x10 | .u16 => 0x11 | .u32 => 0x12 | .d64 => 0x13 | .s8 => 0x14 | .s16 => 0x15 | .s32 => 0x16

def StFn.major : StFn → BitVec 6
  | .b8 => 0x18 | .b16 => 0x19 | .b32 => 0x1A | .b64 => 0x1B

def BrFn.major : BrFn → BitVec 6
  | .eq => 0x20 | .ne => 0x21 | .lt => 0x22 | .ge => 0x23 | .ltu => 0x24 | .geu => 0x25

/-- The word, and for `mov.l` the word after it, of an instruction; reserved fields are written zero (R1). -/
def encodeCore : CoreOp → BitVec 32 × BitVec 32
  | .int f d a b => (packA 0x01 d a b (f.minor.zeroExtend 11), 0)
  | .imm f d a i => (packI f.major d a i, 0)
  | .movl d i => (packI 0x0C d 0 (i.extractLsb' 32 16), i.extractLsb' 0 32)
  | .ld f d b sp o => (packM f.major d b sp o, 0)
  | .st f s b sp o => (packM f.major s b sp o, 0)
  | .vld d b sp o => (packM 0x1C d b sp o, 0)
  | .vst s b sp o => (packM 0x1D s b sp o, 0)
  | .touch b sp o => (packM 0x1F 0 b sp o, 0)
  | .br f a b o => (packI f.major a b o, 0)
  | .call o => ((0x26 : BitVec 6) ++ o, 0)
  | .jr d a => (packA 0x27 d a 0 0, 0)
  | .vop f t m vd va vb => (packV 0x28 vd va vb m t f.minor, 0)
  | .vcvt src dst m vd va => (packV 0x29 vd va 0 m src dst.code, 0)
  | .vred f t m vd va => (packV 0x2A vd va 0 m t f.minor, 0)
  | .vperm f t m vd va vb => (packV 0x2B vd va vb m t f.minor, 0)
  | .vcmp f t m md va vb => (packV 0x2C (md.zeroExtend 5) va vb m t f.minor, 0)
  | .vmsk f t d ma mb => (packV 0x2D d (ma.zeroExtend 5) (mb.zeroExtend 5) 0 t f.minor, 0)
  | .issue d a b => (packA 0x30 d a b 0, 0)
  | .wait d a => (packA 0x30 d a 0 1, 0)
  | .waitAll d a b => (packA 0x30 d a b 2, 0)
  | .abort a b => (packA 0x30 0 a b 3, 0)
  | .draw d a => (packA 0x31 d a 0 0, 0)
  | .bar a => (packA 0x32 0 a 0 0, 0)
  | .commit => (packA 0x32 0 0 0 1, 0)
  | .halt => (packA 0x32 0 0 0 2, 0)
  | .sysRd d a => (packA 0x33 d a 0 0, 0)
  | .sysWr a b => (packA 0x33 0 a b 1, 0)
  | .sysBreak => (packA 0x33 0 0 0 2, 0)
  | .illegal => (0, 0)

/-- Whether an instruction is one the encoding admits: arithmetic only on the types that have it (R66, R71),
and `vec.perm`'s and `vec.msk`'s fields only where the instruction uses them. -/
def CoreOp.wf : CoreOp → Bool
  | .vop f t _ _ _ _ => f.accepts t
  | .vred _ t _ _ _ => t.arith
  | .vcmp _ t _ _ _ _ => t.arith
  | _ => true

/-- The command a word of the table's bits spells: no row of the table has bits, so no word spells one. -/
def decodeTableWord (_nbits _w : Nat) : Option Instr := none

end Sys2Proof
end

