-- ==== Sys2Proof/Config.lean ====
section
/-!
DEFINITION. What the spec leaves to the part or to a standard it names without giving: the values that a
register has per module, per part or by fuse (named values), and the free values, which have no body.
-/
namespace Sys2Proof

/-- A value the spec leaves open, one for every place that asks: the number counts the questions (log entry 2). -/
opaque Config.freeValue : Nat → Nat

/-- Which of the FP32 numbers within 2 units in the last place exp2 gives, for an operand's bits (03 R68, log entry 3). -/
opaque Config.exp2Error : Nat → Fin 5

/-- Which of the FP32 numbers within 1 unit in the last place the reciprocal gives, for an operand's bits (03 R68, log entry 3). -/
opaque Config.recipError : Nat → Fin 3

/-- SM3 (GB/T 32905) of a run of bytes, as a 256-bit number (00, companion documents; log entry 4). -/
opaque Config.sm3 : List (BitVec 8) → BitVec 256

/-- SM4 (GB/T 32907) in counter mode under a key, from a counter, over a run of bytes (log entry 4). -/
opaque Config.sm4ctr : Nat → Nat → List (BitVec 8) → List (BitVec 8)

/-- Verification of an SM2 signature (GB/T 32918) over a digest by a public key (log entry 4). -/
opaque Config.sm2Verify : Nat → Nat → Nat → Bool

/-- The module's SM2 signature over a digest (log entry 4). -/
opaque Config.sm2Sign : Nat → Nat

/-- HMAC with SM3 (RFC 2104) of a run of bytes under a key (log entry 4). -/
opaque Config.hmacSm3 : Nat → List (BitVec 8) → BitVec 256

/-- Unwrapping of a key-store blob: the key and whether its check holds (log entry 4). -/
opaque Config.ksUnwrap : List (BitVec 8) → Option Nat

/-- What the island reads in a firmware-signing certificate (GB/T 20518), given the bytes that follow an image header: whether its
issuer key's digest is ROOT_HASH and its signature verifies, its public key, its length (20 R504, log entry 4). -/
opaque Config.certOk : List (BitVec 8) → Bool
opaque Config.certKey : List (BitVec 8) → Nat
opaque Config.certLen : List (BitVec 8) → Nat

/-- CRC-32C over a run of bytes, for the checks that name it (log entry 4). -/
opaque Config.crc32c : List (BitVec 8) → BitVec 32

/-- The sets of the embedding row cache of a number of granules, which the spec leaves open (17 R448, log entry 5). -/
opaque Config.embSets : Nat → Nat

/-- The set of a key among a number of sets, and the counter of a key in each of the admission sketch's four rows (17 R448,
log entry 5). -/
opaque Config.embSet : Nat → Nat → Nat
opaque Config.embHash : Nat → Nat → Nat

/-- The DRAM row, within a frame's rows, that a line of 64 bytes lies in, by frame * 32768 + line (07 R190, R192, log entry 70). -/
opaque Config.dramRow : Nat → Nat

namespace Reset

/-- MOD_ID.STEPPING, per part (21 Table 21.3): the first stepping. DESIGN CHOICE, log entry 6. -/
def stepping : Nat := 1
/-- MOD_IDENT.IDENTITY, per module. DESIGN CHOICE, log entry 6. -/
def identity : Nat := 0x4800_0000_0000_0001
/-- MOD_MAC.BASE_MAC, per module. DESIGN CHOICE, log entry 6. -/
def baseMac : Nat := 0x0200_0000_0000
/-- CEL_SPARE.SPARE, per module. DESIGN CHOICE, log entry 6. -/
def celSpare : Nat := 4096
/-- HST_KEY.KEY_SALT, per module. DESIGN CHOICE, log entry 6. -/
def keySalt : Nat := 0x5A17
/-- SEC_STS.LIFECYCLE, by fuse. DESIGN CHOICE, log entry 6. -/
def lifecycle : Nat := 1
/-- SEC_STS.SVN_FLOOR, by fuse. DESIGN CHOICE, log entry 6. -/
def svnFloor : Nat := 0
/-- SEC_CERT.LEN, the length of the certificate chain. DESIGN CHOICE, log entry 6. -/
def certLen : Nat := 8
/-- A word of the certificate chain. DESIGN CHOICE, log entry 6. -/
def certWord : Nat := 0

end Reset

end Sys2Proof
end

