-- ==== Sys2Proof/Machine/Bits.lean ====
section
/-!
DEFINITION. Bit fields, sign extension, byte order and the sparse table's operations.
-/
namespace Sys2Proof.Machine

/-- Bits [lo + w - 1 : lo] of a number. -/
def bits (x lo w : Nat) : Nat := x / 2 ^ lo % 2 ^ w

/-- A number with bits [lo + w - 1 : lo] replaced by the low w bits of v. -/
def setBits (x lo w v : Nat) : Nat :=
  x / 2 ^ (lo + w) * 2 ^ (lo + w) + v % 2 ^ w * 2 ^ lo + x % 2 ^ lo

/-- The signed value of the low w bits of a number. -/
def signed (w x : Nat) : Int :=
  let y := x % 2 ^ w
  if y < 2 ^ (w - 1) then (y : Int) else (y : Int) - (2 ^ w : Nat)

/-- The low w bits of an integer in two's complement. -/
def unsigned (w : Nat) (i : Int) : Nat := (i % ((2 ^ w : Nat) : Int)).toNat

/-- A 64-bit word from a number, modulo 2^64. -/
def word (n : Nat) : Word := BitVec.ofNat 64 n

/-- The bytes of the low 8n bits of a number, least significant first. -/
def leBytes : Nat → Nat → List Byte
  | 0, _ => []
  | n + 1, x => BitVec.ofNat 8 (x % 256) :: leBytes n (x / 256)

/-- The number a run of bytes spells, least significant first. -/
def ofLe : List Byte → Nat
  | [] => 0
  | b :: bs => b.toNat + 256 * ofLe bs

/-- The bytes of the low 8n bits of a number, most significant first. -/
def beBytes (n x : Nat) : List Byte := (leBytes n x).reverse

/-- A run of bytes cut into 64-bit words, least significant byte first, the last one filled with zeros. -/
def wordsOf : Nat → List Byte → List Nat
  | 0, _ => []
  | n + 1, bs => ofLe (bs.take 8) :: wordsOf n (bs.drop 8)

/-- The bytes of a list of 64-bit words. -/
def bytesOf (ws : List Nat) : List Byte := ws.flatMap (leBytes 8)

/-- The ceiling of a / b. -/
def ceilDiv (a b : Nat) : Nat := (a + b - 1) / b

/-- The smallest multiple of b at or above a. -/
def roundUp (a b : Nat) : Nat := ceilDiv a b * b

/-- Whether the half-open ranges [a, a + n) and [b, b + m) share a byte. -/
def overlaps (a n b m : Nat) : Bool := decide (0 < n) && decide (0 < m) && decide (a < b + m) && decide (b < a + n)

/-- The entry of a table at a number. -/
def tfind {α : Type} : Tab α → Nat → Option α
  | [], _ => none
  | (k, v) :: t, i => if i = k then some v else if i < k then none else tfind t i

/-- The entry of a table at a number, or a default. -/
def tget {α : Type} (t : Tab α) (i : Nat) (d : α) : α := (tfind t i).getD d

/-- A table with the entry at a number set, in rising order. -/
def tset {α : Type} : Tab α → Nat → α → Tab α
  | [], i, x => [(i, x)]
  | (k, v) :: t, i, x =>
    if i = k then (i, x) :: t else if i < k then (i, x) :: (k, v) :: t else (k, v) :: tset t i x

/-- A table without the entry at a number. -/
def tdel {α : Type} : Tab α → Nat → Tab α
  | [], _ => []
  | (k, v) :: t, i => if i = k then t else (k, v) :: tdel t i

/-- A table with the entry at a number changed by a function, where there is one. -/
def tmod {α : Type} (t : Tab α) (i : Nat) (f : α → α) : Tab α :=
  match tfind t i with
  | some v => tset t i (f v)
  | none => t

/-- A table whose every entry is changed by a function of its number and value. -/
def tmap {α : Type} (f : Nat → α → α) (t : Tab α) : Tab α := t.map fun p => (p.1, f p.1 p.2)

/-- A table's entries that a test keeps. -/
def tfilter {α : Type} (f : Nat → α → Bool) (t : Tab α) : Tab α := t.filter fun p => f p.1 p.2

/-- The numbers of a table's entries. -/
def tkeys {α : Type} (t : Tab α) : List Nat := t.map (·.1)

/-- The values of a table. -/
def tvals {α : Type} (t : Tab α) : List α := t.map (·.2)

/-- The value at a place of a list, or a default. -/
def nth {α : Type} (l : List α) (i : Nat) (d : α) : α := (l[i]?).getD d

/-- The word at a place of a list of words, or zero. -/
def nw (l : List Nat) (i : Nat) : Nat := (l[i]?).getD 0

/-- The numbers lo, lo + 1, ... of a run of a given length. -/
def upto (lo n : Nat) : List Nat := (List.range n).map (lo + ·)

/-- The sum of a list of numbers. -/
def lsum (l : List Nat) : Nat := l.foldl (· + ·) 0

/-- The largest of a list of numbers, 0 when there is none. -/
def lmax (l : List Nat) : Nat := l.foldl max 0

/-- A list with the value at a place replaced. -/
def lset {α : Type} (l : List α) (i : Nat) (x : α) : List α := l.set i x

/-- A number added to a list of numbers unless it is there. -/
def addNew (l : List Nat) (x : Nat) : List Nat := if l.contains x then l else l ++ [x]

/-- Insertion into a list sorted by a test. -/
def insertBy {α : Type} (le : α → α → Bool) (x : α) : List α → List α
  | [] => [x]
  | y :: ys => if le x y then x :: y :: ys else y :: insertBy le x ys

/-- A list sorted by a test, equal elements kept in their order. -/
def sortBy {α : Type} (le : α → α → Bool) (l : List α) : List α := l.foldr (insertBy le) []

/-- The n low bits of a number that are set, counted. -/
def popCount : Nat → Nat → Nat
  | 0, _ => 0
  | n + 1, x => x % 2 + popCount n (x / 2)

/-- The places of the set bits among a number's n low bits, in rising order. -/
def setPlaces (n x : Nat) : List Nat := (List.range n).filter fun i => x.testBit i

end Sys2Proof.Machine
end

