-- ==== Sys2Proof/Machine/Float.lean ====
section
/-!
DEFINITION. The number formats of the cores and the engines (03 R66-R70, 05), as exact values: an operand is
decoded, the operation is done exactly, and the result is rounded once to nearest with ties to even.
-/
namespace Sys2Proof.Machine

/-- A floating-point value: a NaN, an infinity, or (-1)^neg * m * 2^e. -/
inductive FVal where
  | nan
  | inf (neg : Bool)
  | fin (neg : Bool) (m : Nat) (e : Int)
deriving DecidableEq, Repr

/-- A binary format: exponent bits, fraction bits, whether it has infinities, its canonical NaN. -/
structure FFmt where
  eb : Nat
  mb : Nat
  hasInf : Bool
  cnan : Nat
deriving DecidableEq, Repr

def FFmt.fp64 : FFmt := ⟨11, 52, true, 0x7FF8_0000_0000_0000⟩
def FFmt.fp32 : FFmt := ⟨8, 23, true, 0x7FC0_0000⟩
def FFmt.bf16 : FFmt := ⟨8, 7, true, 0x7FC0⟩
def FFmt.fp16 : FFmt := ⟨5, 10, true, 0x7E00⟩
/-- FP8 E4M3: no infinity; the largest magnitude is 448 and the pattern above it is NaN (03 R69). -/
def FFmt.e4m3 : FFmt := ⟨4, 3, false, 0x7F⟩
/-- FP8 E5M2 (03 R69: its canonical NaN is 0x7E). -/
def FFmt.e5m2 : FFmt := ⟨5, 2, true, 0x7E⟩

/-- The width of a format in bits. -/
def FFmt.width (f : FFmt) : Nat := 1 + f.eb + f.mb

/-- The exponent bias of a format. -/
def FFmt.bias (f : FFmt) : Nat := 2 ^ (f.eb - 1) - 1

/-- The exponent of the last place of a subnormal number. -/
def FFmt.emin (f : FFmt) : Int := 1 - (f.bias : Int) - (f.mb : Int)

/-- The encoding, without sign, of the largest finite magnitude. -/
def FFmt.maxFin (f : FFmt) : Nat :=
  if f.hasInf then (2 ^ f.eb - 1) * 2 ^ f.mb - 1 else 2 ^ (f.eb + f.mb) - 2

/-- The value a pattern of bits stands for. -/
def decodeF (f : FFmt) (x : Nat) : FVal :=
  let neg := x.testBit (f.eb + f.mb)
  let mag := x % 2 ^ (f.eb + f.mb)
  let ex := mag / 2 ^ f.mb
  let fr := mag % 2 ^ f.mb
  if f.hasInf && ex == 2 ^ f.eb - 1 then (if fr == 0 then .inf neg else .nan)
  else if !f.hasInf && mag == 2 ^ (f.eb + f.mb) - 1 then .nan
  else if ex == 0 then .fin neg fr f.emin
  else .fin neg (2 ^ f.mb + fr) (f.emin + ((ex : Int) - 1))

/-- m * 2^(-s) rounded to nearest with ties to even; `sticky` says that a nonzero part lies below m. -/
def rneShift (m s : Nat) (sticky : Bool) : Nat :=
  if s = 0 then m else
  let q := m / 2 ^ s
  let r := m % 2 ^ s
  let half := 2 ^ (s - 1)
  if half < r then q + 1
  else if r = half then (if sticky then q + 1 else q + q % 2)
  else q

/-- The encoding, without sign and without an upper bound on the exponent, of m * 2^e rounded to nearest. -/
def roundMag (f : FFmt) (m : Nat) (e : Int) (sticky : Bool) : Nat :=
  if m = 0 then 0 else
  let top : Int := e + (Nat.log2 m : Int)
  let q : Int := max (top - (f.mb : Int)) f.emin
  let sig := if q ≤ e then m * 2 ^ (e - q).toNat else rneShift m (q - e).toNat sticky
  (q - f.emin).toNat * 2 ^ f.mb + sig

/-- A value rounded once to a format, to nearest with ties to even. A finite value above the largest becomes
an infinity (03 R68), or with `sat` the largest magnitude (03 R69). -/
def roundF (f : FFmt) (sat : Bool) (v : FVal) (sticky : Bool := false) : Nat :=
  let sgn (neg : Bool) (mag : Nat) := (if neg then 2 ^ (f.eb + f.mb) else 0) + mag
  match v with
  | .nan => f.cnan
  | .inf neg => sgn neg (if f.hasInf then (2 ^ f.eb - 1) * 2 ^ f.mb else f.maxFin)
  | .fin neg m e =>
    let mag := roundMag f m e sticky
    if mag ≤ f.maxFin then sgn neg mag
    else sgn neg (if sat || !f.hasInf then f.maxFin else (2 ^ f.eb - 1) * 2 ^ f.mb)

/-- A signed dyadic number as a value; `zneg` is the sign of a zero. -/
def ofDyadic (i : Int) (e : Int) (zneg : Bool) : FVal :=
  if i = 0 then .fin zneg 0 e else .fin (decide (i < 0)) i.natAbs e

/-- The signed mantissa of a finite value over a smaller exponent. -/
def mantAt (neg : Bool) (m : Nat) (e t : Int) : Int :=
  let a : Int := (m : Int) * ((2 ^ (e - t).toNat : Nat) : Int)
  if neg then -a else a

/-- The negative of a value. -/
def fneg : FVal → FVal
  | .nan => .nan
  | .inf n => .inf (!n)
  | .fin n m e => .fin (!n) m e

/-- The exact sum (IEEE 754: zeros of unlike sign give +0; infinities of unlike sign give NaN). -/
def fadd : FVal → FVal → FVal
  | .nan, _ => .nan
  | _, .nan => .nan
  | .inf a, .inf b => if a = b then .inf a else .nan
  | .inf a, _ => .inf a
  | _, .inf b => .inf b
  | .fin n1 m1 e1, .fin n2 m2 e2 =>
    let t := min e1 e2
    ofDyadic (mantAt n1 m1 e1 t + mantAt n2 m2 e2 t) t (n1 && n2)

/-- The exact difference. -/
def fsub (a b : FVal) : FVal := fadd a (fneg b)

/-- The exact product. -/
def fmul : FVal → FVal → FVal
  | .nan, _ => .nan
  | _, .nan => .nan
  | .inf a, .inf b => .inf (a != b)
  | .inf a, .fin n m _ => if m = 0 then .nan else .inf (a != n)
  | .fin n m _, .inf b => if m = 0 then .nan else .inf (n != b)
  | .fin n1 m1 e1, .fin n2 m2 e2 => .fin (n1 != n2) (m1 * m2) (e1 + e2)

/-- The order of two numbers that are not NaN, with -0 equal to +0. -/
def fcmp : FVal → FVal → Ordering
  | .inf a, .inf b => if a = b then .eq else if a then .lt else .gt
  | .inf a, _ => if a then .lt else .gt
  | _, .inf b => if b then .gt else .lt
  | .fin n1 m1 e1, .fin n2 m2 e2 =>
    let t := min e1 e2
    compare (mantAt n1 m1 e1 t) (mantAt n2 m2 e2 t)
  | _, _ => .eq

/-- Whether a value is a NaN. -/
def FVal.isNan : FVal → Bool
  | .nan => true
  | _ => false

/-- Whether a value's sign is negative. -/
def FVal.neg : FVal → Bool
  | .nan => false
  | .inf n => n
  | .fin n _ _ => n

/-- a < b, with -0 below +0 (03 R68, min and max). -/
def fltZ (a b : FVal) : Bool :=
  match fcmp a b with
  | .lt => true
  | .gt => false
  | .eq => a.neg && !b.neg

/-- The minimum: a NaN gives way to the other operand (03 R68). -/
def fmin (a b : FVal) : FVal :=
  if a.isNan then b else if b.isNan then a else if fltZ b a then b else a

/-- The maximum: a NaN gives way to the other operand (03 R68). -/
def fmax (a b : FVal) : FVal :=
  if a.isNan then b else if b.isNan then a else if fltZ a b then b else a

/-- A value rounded to an integer, to nearest with ties to even, and saturated to [lo, hi]; NaN gives 0 (03 R69). -/
def toIntSat (v : FVal) (lo hi : Int) : Int :=
  match v with
  | .nan => 0
  | .inf n => if n then lo else hi
  | .fin n m e =>
    let a : Nat := if 0 ≤ e then m * 2 ^ e.toNat else rneShift m (-e).toNat false
    let i : Int := if n then -(a : Int) else a
    max lo (min hi i)

/-- An integer as a value. -/
def ofInteger (i : Int) : FVal := ofDyadic i 0 false

/-- The quotient p / q of two naturals with k fraction bits, and whether anything lies below them. -/
def ratio (p q k : Nat) : Nat × Bool := (p * 2 ^ k / q, p * 2 ^ k % q != 0)

/-- a / b rounded to a format: the exact quotient with 200 fraction bits and a sticky bit (IEEE 754 division). -/
def divF (f : FFmt) (a b : FVal) : Nat :=
  match a, b with
  | .nan, _ => f.cnan
  | _, .nan => f.cnan
  | .inf _, .inf _ => f.cnan
  | .inf x, y => roundF f false (.inf (x != y.neg))
  | x, .inf y => roundF f false (.fin (x.neg != y) 0 0)
  | .fin n1 m1 e1, .fin n2 m2 e2 =>
    if m2 = 0 then (if m1 = 0 then f.cnan else roundF f false (.inf (n1 != n2)))
    else
      let k := 200 + Nat.log2 m2
      let (q, st) := ratio m1 m2 k
      roundF f false (.fin (n1 != n2) (if st then 2 * q + 1 else 2 * q) (e1 - e2 - (k : Int) - 1))

/-- The encoding, without sign, of the largest number of a format that is not above m * 2^e, and whether it is m * 2^e itself. -/
def floorMag (f : FFmt) (m : Nat) (e : Int) : Nat × Bool :=
  if m = 0 then (0, true) else
  let q : Int := max (e + (Nat.log2 m : Int) - (f.mb : Int)) f.emin
  let base := (q - f.emin).toNat * 2 ^ f.mb
  if q ≤ e then (base + m * 2 ^ (e - q).toNat, true)
  else (base + m / 2 ^ (q - e).toNat, m % 2 ^ (q - e).toNat == 0)

/-- A number of the format within `n` units in the last place of an exact magnitude whose floor is `lo`: d places from it, drawn in to
the places that lie within the bound. The place past the largest number is infinity. -/
def nearUlps (f : FFmt) (lo : Nat) (exact : Bool) (n : Nat) (d : Int) : Nat :=
  let least : Int := if exact then -(n : Int) else 1 - (n : Int)
  let most : Int := if 2 ^ f.mb ≤ lo then min (n : Int) ((2 ^ f.mb - lo % 2 ^ f.mb : Nat) : Int) else n
  min (f.maxFin + 1) (max 0 ((lo : Int) + max least (min most d))).toNat

/-- The natural logarithm of 2, with 96 fraction bits. -/
def ln2Fix : Nat := 54916777467707473351141471128

/-- The terms t, t*x/1, t*x*x/2, ... of the exponential series with 96 fraction bits, summed. -/
def expSeries (x : Nat) : Nat → Nat → Nat → Nat
  | 0, _, _ => 0
  | n + 1, k, t => t + expSeries x n (k + 1) (t * x / 2 ^ 96 / k)

/-- 2^x for an FP32 operand: a free one of the numbers within 2 units in the last place of what the series gives (R68). -/
def exp2F (x : Nat) : Nat :=
  let f := FFmt.fp32
  let near (lo : Nat) (exact : Bool) : Nat := nearUlps f lo exact 2 ((Config.exp2Error x : Nat) - 2 : Int)
  match decodeF f x with
  | .nan => f.cnan
  | .inf n => if n then 0 else roundF f false (.inf false)
  | .fin n m e =>
    if 9 ≤ e + (Nat.log2 m : Int) ∧ m ≠ 0 then (if n then near 0 false else roundF f false (.inf false)) else
    -- the operand with 96 fraction bits, floored
    let fx : Nat := if (-96 : Int) ≤ e then m * 2 ^ (e + 96).toNat else m / 2 ^ (-96 - e).toNat
    let lost := decide (e < (-96 : Int)) && m % 2 ^ (-96 - e).toNat != 0
    let ix : Int := if n then -((fx + (if lost then 1 else 0) : Nat) : Int) else fx
    let whole : Int := ix / ((2 ^ 96 : Nat) : Int)
    let frac : Nat := (ix % ((2 ^ 96 : Nat) : Int)).toNat
    let r := expSeries (frac * ln2Fix / 2 ^ 96) 32 1 (2 ^ 96)
    if 128 ≤ whole then roundF f false (.inf false)
    else near (floorMag f r (whole - 96)).1 (frac == 0 && !lost && (floorMag f r (whole - 96)).2)

/-- The reciprocal of an FP32 operand: a free one of the numbers within 1 unit in the last place of the exact quotient (R68). -/
def recipF (x : Nat) : Nat :=
  let f := FFmt.fp32
  let v := decodeF f x
  match v with
  | .nan => f.cnan
  | .inf n => roundF f false (.fin n 0 0)
  | .fin n m e =>
    if m = 0 then roundF f false (.inf n)
    else
      let k := 200 + Nat.log2 m
      let (q, st) := ratio 1 m k
      let (lo, exact) := floorMag f q (-e - (k : Int))
      if f.maxFin < lo then roundF f false (.inf n)
      else (if n then 2 ^ 31 else 0) + nearUlps f lo (exact && !st) 1 ((Config.recipError x : Nat) - 1 : Int)

/-- The integer square root by k binary digits, from the top down. -/
def isqrtGo (n : Nat) : Nat → Nat → Nat
  | 0, r => r
  | k + 1, r => isqrtGo n k (if (r + 2 ^ k) * (r + 2 ^ k) ≤ n then r + 2 ^ k else r)

/-- The integer square root. -/
def isqrt (n : Nat) : Nat := isqrtGo n (Nat.log2 n / 2 + 1) 0

end Sys2Proof.Machine
end

