-- ==== Sys2Proof/Machine/Flags.lean ====
section
/-!
DEFINITION. The scalar and vector computations of a core (03 R61, R62, R66 to R71). The instruction set has no flags
register: comparisons give 0 or 1, or a mask.
-/
namespace Sys2Proof.Machine

/-! ## Scalars -/

def bool1 (b : Bool) : Word := if b then 1 else 0

/-- The leading zeros of a word, 0 to 64. -/
def clz (a : Word) : Nat := if a = 0 then 64 else 63 - Nat.log2 a.toNat

/-- The result of an `int.*` minor (Table 3.4, R61). -/
def intFn (f : IntFn) (a b : Word) : Word :=
  match f with
  | .add => a + b
  | .sub => a - b
  | .and => a &&& b
  | .or => a ||| b
  | .xor => a ^^^ b
  | .shl => a <<< (b.toNat % 64)
  | .shr => a >>> (b.toNat % 64)
  | .sra => a.sshiftRight (b.toNat % 64)
  | .mul => a * b
  | .mulh => BitVec.ofInt 64 ((a.toInt * b.toInt) / (2 ^ 64 : Nat))
  | .mulhu => BitVec.ofNat 64 (a.toNat * b.toNat / 2 ^ 64)
  | .div => if b = 0 then BitVec.allOnes 64 else BitVec.ofInt 64 (a.toInt.tdiv b.toInt)
  | .divu => if b = 0 then BitVec.allOnes 64 else a / b
  | .rem => if b = 0 then a else BitVec.ofInt 64 (a.toInt.tmod b.toInt)
  | .remu => if b = 0 then a else a % b
  | .min => if a.slt b then a else b
  | .max => if a.slt b then b else a
  | .slt => bool1 (a.slt b)
  | .sltu => bool1 (a.ult b)
  | .clz => BitVec.ofNat 64 (clz a)
  | .popc => BitVec.ofNat 64 (popCount 64 a.toNat)

/-- The result of an immediate instruction (Table 3.3). -/
def immFn (f : ImmFn) (a : Word) (i : BitVec 16) : Word :=
  match f with
  | .addi => a + i.signExtend 64
  | .andi => a &&& i.zeroExtend 64
  | .ori => a ||| i.zeroExtend 64
  | .xori => a ^^^ i.zeroExtend 64
  | .slti => bool1 (a.slt (i.signExtend 64))
  | .sltui => bool1 (a.ult (i.zeroExtend 64))
  | .hi => (a &&& 0x0000_FFFF_FFFF_FFFF) ||| (i.zeroExtend 64 <<< 48)
  | .shli => a <<< (i.toNat % 64)
  | .shri => a >>> (i.toNat % 64)
  | .srai => a.sshiftRight (i.toNat % 64)

/-- Whether a branch's comparison holds (R62). -/
def brFn (f : BrFn) (a b : Word) : Bool :=
  match f with
  | .eq => a == b
  | .ne => a != b
  | .lt => a.slt b
  | .ge => !a.slt b
  | .ltu => a.ult b
  | .geu => !a.ult b

/-! ## Vectors -/

/-- The width of an element in bits (Table 3.5). -/
def eWidth : ETy → Nat
  | .i8 | .e4m3 | .e5m2 => 8
  | .i16 | .bf16 | .fp16 => 16
  | .i32 | .fp32 => 32
  | .i64 => 64

/-- The elements of a register (Table 3.5). -/
def eCount (t : ETy) : Nat := 512 / eWidth t

/-- The format of a floating-point type. -/
def eFmt : ETy → Option FFmt
  | .e4m3 => some .e4m3
  | .e5m2 => some .e5m2
  | .bf16 => some .bf16
  | .fp16 => some .fp16
  | .fp32 => some .fp32
  | _ => none

/-- Element i of a register as a pattern of bits. -/
def elem (t : ETy) (v : Vec) (i : Nat) : Nat := bits v.toNat (i * eWidth t) (eWidth t)

/-- A register from its n elements of w bits. -/
def mkVec (w n : Nat) (f : Nat → Nat) : Vec :=
  BitVec.ofNat 512 (lsum ((List.range n).map fun i => f i % 2 ^ w * 2 ^ (i * w)))

/-- Elements where the mask is set, the old ones elsewhere (R67). -/
def masked (t : ETy) (m : Word) (old : Vec) (f : Nat → Nat) : Vec :=
  mkVec (eWidth t) (eCount t) fun i => if m.getLsbD i then f i else elem t old i

/-- An integer clamped to the signed range of w bits. -/
def clampS (w : Nat) (i : Int) : Int := max (-(2 ^ (w - 1) : Nat)) (min i ((2 ^ (w - 1) : Nat) - 1))

/-- One element of `vec.op` on an integer type (Table 3.6, R66). -/
def vopInt (f : VopFn) (w a b d : Nat) : Nat :=
  let sa := signed w a
  let sb := signed w b
  match f with
  | .add => unsigned w (sa + sb)
  | .sub => unsigned w (sa - sb)
  | .mul => unsigned w (sa * sb)
  | .fma => unsigned w (sa * sb + signed w d)
  | .min => unsigned w (min sa sb)
  | .max => unsigned w (max sa sb)
  | .and => a &&& b
  | .or => a ||| b
  | .xor => a ^^^ b
  | .shl => a * 2 ^ (b % w)
  | .shr => a / 2 ^ (b % w)
  | .sra => unsigned w (sa / (2 ^ (b % w) : Nat))
  | .adds => unsigned w (clampS w (sa + sb))
  | .subs => unsigned w (clampS w (sa - sb))
  | .exp2 => a
  | .recip => a

/-- One element of `vec.op` on a floating-point type (R68). -/
def vopFloat (f : VopFn) (k : FFmt) (a b d : Nat) : Nat :=
  let x := decodeF k a
  let y := decodeF k b
  match f with
  | .add => roundF k false (fadd x y)
  | .sub => roundF k false (fsub x y)
  | .mul => roundF k false (fmul x y)
  | .fma => roundF k false (fadd (fmul x y) (decodeF k d))
  | .min => roundF k false (fmin x y)
  | .max => roundF k false (fmax x y)
  | .exp2 => exp2F a
  | .recip => recipF a
  | _ => a

/-- `vec.op` (R66, R67, R68). -/
def vecOp (f : VopFn) (t : ETy) (m : Word) (old a b : Vec) : Vec :=
  masked t m old fun i =>
    match eFmt t with
    | some k => vopFloat f k (elem t a i) (elem t b i) (elem t old i)
    | none => vopInt f (eWidth t) (elem t a i) (elem t b i) (elem t old i)

/-- One element converted (R69). -/
def cvtElem (src dst : ETy) (x : Nat) : Nat :=
  match eFmt src, eFmt dst with
  | none, none => unsigned (eWidth dst) (clampS (eWidth dst) (signed (eWidth src) x))
  | none, some k => roundF k (eWidth dst == 8) (ofInteger (signed (eWidth src) x))
  | some k, none =>
    let w := eWidth dst
    unsigned w (toIntSat (decodeF k x) (-(2 ^ (w - 1) : Nat)) ((2 ^ (w - 1) : Nat) - 1))
  | some k, some k' =>
    let v := decodeF k x
    roundF k' (eWidth dst == 8) v

/-- `vec.cvt` (R69). -/
def vecCvt (src dst : ETy) (m : Word) (old a : Vec) : Vec :=
  masked dst m old fun i => if i < eCount src then cvtElem src dst (elem src a i) else 0

/-- A list combined in adjacent pairs, k rounds (R70). -/
def treeGo {α : Type} (op : α → α → α) : Nat → List α → List α
  | 0, l => l
  | k + 1, l => treeGo op k (pairUp op l)
where
  pairUp (op : α → α → α) : List α → List α
    | x :: y :: l => op x y :: pairUp op l
    | l => l

/-- `vec.red` (R70): the fixed pairwise tree, masked elements giving the identity. -/
def vecRed (f : RedFn) (t : ETy) (m : Word) (a : Vec) : Vec :=
  let n := eCount t
  let w := eWidth t
  let r : Nat :=
    match eFmt t with
    | some k =>
      let ident : FVal := match f with | .sum => .fin false 0 0 | .min => .inf false | .max => .inf true
      let xs := (List.range n).map fun i => if m.getLsbD i then decodeF k (elem t a i) else ident
      let op : FVal → FVal → FVal := match f with
        | .sum => fun x y => decodeF k (roundF k false (fadd x y))
        | .min => fmin
        | .max => fmax
      match treeGo op 6 xs with
      | x :: _ => roundF k false x
      | [] => 0
    | none =>
      let ident : Int := match f with
        | .sum => 0
        | .min => (2 ^ (w - 1) : Nat) - 1
        | .max => -(2 ^ (w - 1) : Nat)
      let xs := (List.range n).map fun i => if m.getLsbD i then signed w (elem t a i) else ident
      let op : Int → Int → Int := match f with
        | .sum => fun x y => signed w (unsigned w (x + y))
        | .min => min
        | .max => max
      match treeGo op 6 xs with
      | x :: _ => unsigned w x
      | [] => 0
  mkVec w n fun i => if i = 0 then r else 0

/-- `vec.perm` minors that write a vector (Table 3.7); `ga` and `gb` are the general registers the va and vb fields name. -/
def vecPerm (f : PermFn) (t : ETy) (m : Word) (old a b : Vec) (ga gb : Word) : Vec :=
  let n := eCount t
  match f with
  | .bcast => masked t m old fun _ => ga.toNat
  | .insert => masked t m old fun i => if i = ga.toNat % n then gb.toNat else elem t old i
  | .move => masked t m old (elem t a)
  | .shuffle => masked t m old fun i => elem t a (elem t b i % n)
  | .compress =>
    let xs := ((List.range n).filter fun i => m.getLsbD i).map (elem t a)
    mkVec (eWidth t) n (nw xs)
  | .extract => old

/-- The element that `vec.perm` extract writes into a general register (R71). -/
def vecExtract (t : ETy) (a : Vec) (gb : Word) : Word :=
  let x := elem t a (gb.toNat % eCount t)
  match eFmt t with
  | some _ => BitVec.ofNat 64 x
  | none => BitVec.ofInt 64 (signed (eWidth t) x)

/-- One comparison of `vec.cmp` (Table 3.7): with NaN all are false but ne; -0 equals +0. -/
def cmpElem (f : CmpFn) (t : ETy) (x y : Nat) : Bool :=
  let byOrd (o : Ordering) : Bool := match f with
    | .eq => o == .eq | .ne => o != .eq | .lt => o == .lt | .le => o != .gt | .gt => o == .gt | .ge => o != .lt
  match eFmt t with
  | some k =>
    let a := decodeF k x
    let b := decodeF k y
    if a.isNan || b.isNan then f == .ne else byOrd (fcmp a b)
  | none => byOrd (compare (signed (eWidth t) x) (signed (eWidth t) y))

/-- A mask from its n bits. -/
def mkMask (n : Nat) (f : Nat → Bool) : Word :=
  BitVec.ofNat 64 (lsum ((List.range n).map fun i => if f i then 2 ^ i else 0))

/-- `vec.cmp` (R71). -/
def vecCmp (f : CmpFn) (t : ETy) (m old : Word) (a b : Vec) : Word :=
  mkMask (eCount t) fun i => if m.getLsbD i then cmpElem f t (elem t a i) (elem t b i) else old.getLsbD i

/-- The mask results of `vec.msk` (R71). -/
def vecMsk (f : MskFn) (t : ETy) (a b : Word) : Word :=
  let w : Word := match f with
    | .and => a &&& b | .or => a ||| b | .xor => a ^^^ b | .andn => a &&& ~~~b | .popc => 0
  mkMask (eCount t) fun i => w.getLsbD i

/-- The population count of `vec.msk` below the element count (R71). -/
def vecPopc (t : ETy) (a : Word) : Word := BitVec.ofNat 64 (popCount (eCount t) a.toNat)

end Sys2Proof.Machine
end

