-- ==== Sys2Proof/Machine/Regs.lean ====
section
/-!
DEFINITION. The control window's registers (21 R523), one offset and one field name for every register and
field of the spec's register tables, and the map of all of them with their access codes (00 R3, Table 0.3)
and reset values. A field whose reset the tables give per module, per part, by fuse or by certificate takes
the value that Config names (log entry 6).
-/
namespace Sys2Proof.Machine

/-- A field of a register: the register's offset in the window, the field's lowest bit and its width. -/
structure Field where
  reg : Nat
  lo : Nat
  w : Nat
deriving DecidableEq, Repr

/-- The access codes of Table 0.3. -/
inductive Access where
  | ro | rw | w1c | w1s | wo | rwl
deriving DecidableEq, Repr

/-- The blocks of the window (Table 21.1): `hst` a host port, `img` image loading, `ten` the per-tenancy
registers of the scheduler, `tab` an embedding table's, `idx` an index's. -/
inductive Blk where
  | mod | pwr | sec | err | hst | img | fab | txt | grm | cel | mem | sch | ten | wel | emb | tab | twn
  | eng | scn | idx | ham | oas
deriving DecidableEq, Repr

/-- One field of a register: lowest bit, width, access code, reset value. -/
structure FieldDef where
  lo : Nat
  w : Nat
  acc : Access
  rst : Nat
deriving DecidableEq, Repr

/-- One register, or an array of them: its block, the offset of its first copy, the strides and counts of
its copies, how many leading strides number the instances of its block, and its fields (reserved bits left out). -/
structure RegDef where
  blk : Blk
  base : Nat
  dims : List (Nat × Nat)
  udims : Nat
  fields : List FieldDef
deriving DecidableEq, Repr

namespace R

/-- HAM_CTL (Table 3.11). -/
def HAM_CTL (n : Nat) : Nat := 0x1800000 + 0x1000000 * (n / 4) + 0x40000 * (n % 4)
def HAM_CTL_EN (n : Nat) : Field := ⟨(HAM_CTL n), 0, 1⟩
def HAM_CTL_TEN (n : Nat) : Field := ⟨(HAM_CTL n), 8, 6⟩
def HAM_CTL_CORE_MASK (n : Nat) : Field := ⟨(HAM_CTL n), 16, 32⟩
/-- HAM_STS (Table 3.12). -/
def HAM_STS (n : Nat) : Nat := 0x1800008 + 0x1000000 * (n / 4) + 0x40000 * (n % 4)
def HAM_STS_CHK (n : Nat) : Field := ⟨(HAM_STS n), 0, 8⟩
def HAM_STS_RUNNING (n : Nat) : Field := ⟨(HAM_STS n), 8, 1⟩
def HAM_STS_HALTED (n : Nat) : Field := ⟨(HAM_STS n), 16, 32⟩
/-- HAM_ERR (Table 3.13). -/
def HAM_ERR (n : Nat) : Nat := 0x1800010 + 0x1000000 * (n / 4) + 0x40000 * (n % 4)
def HAM_ERR_EXC (n : Nat) : Field := ⟨(HAM_ERR n), 0, 1⟩
def HAM_ERR_ISTORE_CE (n : Nat) : Field := ⟨(HAM_ERR n), 1, 1⟩
def HAM_ERR_ISTORE_UE (n : Nat) : Field := ⟨(HAM_ERR n), 2, 1⟩
def HAM_ERR_SCRATCH_CE (n : Nat) : Field := ⟨(HAM_ERR n), 3, 1⟩
def HAM_ERR_SCRATCH_UE (n : Nat) : Field := ⟨(HAM_ERR n), 4, 1⟩
def HAM_ERR_CKPT_UE (n : Nat) : Field := ⟨(HAM_ERR n), 5, 1⟩
def HAM_ERR_CORE_FAULT (n : Nat) : Field := ⟨(HAM_ERR n), 6, 1⟩
/-- HAM_ISA (Table 3.14). -/
def HAM_ISA (n : Nat) : Nat := 0x1800018 + 0x1000000 * (n / 4) + 0x40000 * (n % 4)
def HAM_ISA_VER (n : Nat) : Field := ⟨(HAM_ISA n), 0, 32⟩
/-- HAM_CORE_STS (Table 3.15). -/
def HAM_CORE_STS (n : Nat) (m : Nat) : Nat := 0x1801000 + 0x1000000 * (n / 4) + 0x40000 * (n % 4) + 0x8 * m
def HAM_CORE_STS_STATE (n : Nat) (m : Nat) : Field := ⟨(HAM_CORE_STS n m), 0, 4⟩
def HAM_CORE_STS_EXC (n : Nat) (m : Nat) : Field := ⟨(HAM_CORE_STS n m), 4, 4⟩
def HAM_CORE_STS_EXC_PC (n : Nat) (m : Nat) : Field := ⟨(HAM_CORE_STS n m), 16, 14⟩
def HAM_CORE_STS_TURNS (n : Nat) (m : Nat) : Field := ⟨(HAM_CORE_STS n m), 32, 32⟩
/-- WEL_CTL (Table 4.9). -/
def WEL_CTL (n : Nat) : Nat := 0xA00000 + 0x100 * n
def WEL_CTL_EN (n : Nat) : Field := ⟨(WEL_CTL n), 0, 1⟩
def WEL_CTL_TEN (n : Nat) : Field := ⟨(WEL_CTL n), 8, 6⟩
/-- WEL_STS (Table 4.10). -/
def WEL_STS (n : Nat) : Nat := 0xA00008 + 0x100 * n
def WEL_STS_CHK (n : Nat) : Field := ⟨(WEL_STS n), 0, 8⟩
def WEL_STS_LIVE (n : Nat) : Field := ⟨(WEL_STS n), 8, 9⟩
def WEL_STS_RET (n : Nat) : Field := ⟨(WEL_STS n), 17, 9⟩
def WEL_STS_EXHAUSTED (n : Nat) : Field := ⟨(WEL_STS n), 26, 1⟩
/-- WEL_ERR (Table 4.11). -/
def WEL_ERR (n : Nat) : Nat := 0xA00010 + 0x100 * n
def WEL_ERR_FENCED (n : Nat) : Field := ⟨(WEL_ERR n), 0, 1⟩
def WEL_ERR_LATE_COMMIT (n : Nat) : Field := ⟨(WEL_ERR n), 1, 1⟩
def WEL_ERR_BUSY_FILL (n : Nat) : Field := ⟨(WEL_ERR n), 2, 1⟩
def WEL_ERR_FOREIGN (n : Nat) : Field := ⟨(WEL_ERR n), 3, 1⟩
/-- WEL_BASE (Table 4.12). -/
def WEL_BASE (n : Nat) : Nat := 0xA00018 + 0x100 * n
def WEL_BASE_BASE (n : Nat) : Field := ⟨(WEL_BASE n), 0, 64⟩
/-- WEL_LIMIT (Table 4.12). -/
def WEL_LIMIT (n : Nat) : Nat := 0xA00020 + 0x100 * n
def WEL_LIMIT_LIMIT (n : Nat) : Field := ⟨(WEL_LIMIT n), 0, 64⟩
/-- WEL_NEXT (Table 4.12). -/
def WEL_NEXT (n : Nat) : Nat := 0xA00030 + 0x100 * n
def WEL_NEXT_NEXT (n : Nat) : Field := ⟨(WEL_NEXT n), 0, 64⟩
/-- WEL_STEP (Table 4.13). -/
def WEL_STEP (n : Nat) : Nat := 0xA00028 + 0x100 * n
def WEL_STEP_STEP (n : Nat) : Field := ⟨(WEL_STEP n), 0, 32⟩
/-- WEL_CNT (Table 4.13). -/
def WEL_CNT (n : Nat) : Nat := 0xA00038 + 0x100 * n
def WEL_CNT_CONSUMED (n : Nat) : Field := ⟨(WEL_CNT n), 0, 32⟩
def WEL_CNT_DRAWS (n : Nat) : Field := ⟨(WEL_CNT n), 32, 32⟩
/-- ENG_CTL (Table 5.6). -/
def ENG_CTL (n : Nat) : Nat := 0x1000000 + 0x1000000 * (n / 52) + 0x10000 * (n % 52)
def ENG_CTL_EN (n : Nat) : Field := ⟨(ENG_CTL n), 0, 1⟩
def ENG_CTL_TEN (n : Nat) : Field := ⟨(ENG_CTL n), 8, 6⟩
/-- ENG_STS (Table 5.7). -/
def ENG_STS (n : Nat) : Nat := 0x1000008 + 0x1000000 * (n / 52) + 0x10000 * (n % 52)
def ENG_STS_CHK (n : Nat) : Field := ⟨(ENG_STS n), 0, 8⟩
def ENG_STS_STATE (n : Nat) : Field := ⟨(ENG_STS n), 8, 3⟩
def ENG_STS_SUBST_FOR (n : Nat) : Field := ⟨(ENG_STS n), 16, 6⟩
def ENG_STS_RUNNING (n : Nat) : Field := ⟨(ENG_STS n), 24, 1⟩
def ENG_STS_FILLING (n : Nat) : Field := ⟨(ENG_STS n), 25, 1⟩
/-- ENG_ERR (Table 5.8). -/
def ENG_ERR (n : Nat) : Nat := 0x1000010 + 0x1000000 * (n / 52) + 0x10000 * (n % 52)
def ENG_ERR_OPERAND_PARITY (n : Nat) : Field := ⟨(ENG_ERR n), 0, 1⟩
def ENG_ERR_PSUM_PARITY (n : Nat) : Field := ⟨(ENG_ERR n), 1, 1⟩
def ENG_ERR_ACC_CE (n : Nat) : Field := ⟨(ENG_ERR n), 2, 1⟩
def ENG_ERR_ACC_UE (n : Nat) : Field := ⟨(ENG_ERR n), 3, 1⟩
def ENG_ERR_STAGE_CE (n : Nat) : Field := ⟨(ENG_ERR n), 4, 1⟩
def ENG_ERR_STAGE_UE (n : Nat) : Field := ⟨(ENG_ERR n), 5, 1⟩
def ENG_ERR_DECODE_FAULT (n : Nat) : Field := ⟨(ENG_ERR n), 6, 1⟩
/-- ENG_IDLE (Table 5.9). -/
def ENG_IDLE (n : Nat) : Nat := 0x1000018 + 0x1000000 * (n / 52) + 0x10000 * (n % 52)
def ENG_IDLE_FILL_EN (n : Nat) : Field := ⟨(ENG_IDLE n), 0, 1⟩
def ENG_IDLE_GAP_MAX (n : Nat) : Field := ⟨(ENG_IDLE n), 4, 12⟩
def ENG_IDLE_TAPER (n : Nat) : Field := ⟨(ENG_IDLE n), 16, 8⟩
/-- ENG_BEATS (Table 5.9). -/
def ENG_BEATS (n : Nat) : Nat := 0x1000020 + 0x1000000 * (n / 52) + 0x10000 * (n % 52)
def ENG_BEATS_BEATS (n : Nat) : Field := ⟨(ENG_BEATS n), 0, 64⟩
/-- ENG_FILLS (Table 5.9). -/
def ENG_FILLS (n : Nat) : Nat := 0x1000028 + 0x1000000 * (n / 52) + 0x10000 * (n % 52)
def ENG_FILLS_FILLS (n : Nat) : Field := ⟨(ENG_FILLS n), 0, 64⟩
/-- MEM_CTL (Table 7.15). -/
def MEM_CTL : Nat := 0x800000
def MEM_CTL_EN : Field := ⟨MEM_CTL, 0, 1⟩
def MEM_CTL_DRIFT_EN : Field := ⟨MEM_CTL, 1, 1⟩
def MEM_CTL_DECAY_SHIFT : Field := ⟨MEM_CTL, 8, 6⟩
def MEM_CTL_IN_GRANARY : Field := ⟨MEM_CTL, 16, 8⟩
def MEM_CTL_IN_OASIS : Field := ⟨MEM_CTL, 24, 8⟩
def MEM_CTL_HIGH_PCT : Field := ⟨MEM_CTL, 32, 7⟩
def MEM_CTL_LOW_PCT : Field := ⟨MEM_CTL, 40, 7⟩
/-- MEM_STS (Table 7.15). -/
def MEM_STS : Nat := 0x800008
def MEM_STS_CHK : Field := ⟨MEM_STS, 0, 8⟩
def MEM_STS_STALLED : Field := ⟨MEM_STS, 8, 1⟩
def MEM_STS_NV_HOLD : Field := ⟨MEM_STS, 9, 1⟩
def MEM_STS_IN_FLIGHT : Field := ⟨MEM_STS, 16, 7⟩
/-- MEM_ERA (Table 7.15). -/
def MEM_ERA : Nat := 0x800018
def MEM_ERA_ERA : Field := ⟨MEM_ERA, 0, 64⟩
/-- MEM_ERR (Table 7.16). -/
def MEM_ERR : Nat := 0x800010
def MEM_ERR_HBM_CE : Field := ⟨MEM_ERR, 0, 1⟩
def MEM_ERR_HBM_UE : Field := ⟨MEM_ERR, 1, 1⟩
def MEM_ERR_FRAME_RETIRED : Field := ⟨MEM_ERR, 2, 1⟩
def MEM_ERR_GROUP_RETIRED : Field := ⟨MEM_ERR, 3, 1⟩
def MEM_ERR_PPR_FAIL : Field := ⟨MEM_ERR, 4, 1⟩
def MEM_ERR_PARITY_RETRY : Field := ⟨MEM_ERR, 5, 1⟩
def MEM_ERR_THRASH : Field := ⟨MEM_ERR, 6, 1⟩
def MEM_ERR_STALL : Field := ⟨MEM_ERR, 7, 1⟩
def MEM_ERR_POOL_LOST : Field := ⟨MEM_ERR, 8, 1⟩
/-- MEM_LOOKUP_VA (Table 7.17). -/
def MEM_LOOKUP_VA : Nat := 0x800020
def MEM_LOOKUP_VA_VA : Field := ⟨MEM_LOOKUP_VA, 0, 56⟩
def MEM_LOOKUP_VA_TEN : Field := ⟨MEM_LOOKUP_VA, 56, 6⟩
def MEM_LOOKUP_VA_MODULE : Field := ⟨MEM_LOOKUP_VA, 62, 1⟩
/-- MEM_LOOKUP_PTE (Table 7.17). -/
def MEM_LOOKUP_PTE : Nat := 0x800028
def MEM_LOOKUP_PTE_MAPPED : Field := ⟨MEM_LOOKUP_PTE, 0, 1⟩
def MEM_LOOKUP_PTE_WRITABLE : Field := ⟨MEM_LOOKUP_PTE, 1, 1⟩
def MEM_LOOKUP_PTE_STATE : Field := ⟨MEM_LOOKUP_PTE, 2, 3⟩
def MEM_LOOKUP_PTE_MODULE : Field := ⟨MEM_LOOKUP_PTE, 5, 1⟩
def MEM_LOOKUP_PTE_PIN : Field := ⟨MEM_LOOKUP_PTE, 6, 2⟩
def MEM_LOOKUP_PTE_HELD : Field := ⟨MEM_LOOKUP_PTE, 8, 1⟩
def MEM_LOOKUP_PTE_POISON : Field := ⟨MEM_LOOKUP_PTE, 9, 1⟩
def MEM_LOOKUP_PTE_MOVING : Field := ⟨MEM_LOOKUP_PTE, 10, 1⟩
def MEM_LOOKUP_PTE_IMAGE : Field := ⟨MEM_LOOKUP_PTE, 11, 1⟩
def MEM_LOOKUP_PTE_HINT : Field := ⟨MEM_LOOKUP_PTE, 12, 2⟩
def MEM_LOOKUP_PTE_FRAME : Field := ⟨MEM_LOOKUP_PTE, 16, 39⟩
/-- MEM_LOOKUP_AUX (Table 7.17). -/
def MEM_LOOKUP_AUX : Nat := 0x800030
def MEM_LOOKUP_AUX_OASIS_MAP : Field := ⟨MEM_LOOKUP_AUX, 0, 32⟩
def MEM_LOOKUP_AUX_HEAT : Field := ⟨MEM_LOOKUP_AUX, 32, 16⟩
/-- MEM_MOVES (Table 7.17). -/
def MEM_MOVES : Nat := 0x800038
def MEM_MOVES_INWARD : Field := ⟨MEM_MOVES, 0, 32⟩
def MEM_MOVES_OUTWARD : Field := ⟨MEM_MOVES, 32, 32⟩
/-- MEM_FAULTS (Table 7.17). -/
def MEM_FAULTS : Nat := 0x800040
def MEM_FAULTS_FAULTS : Field := ⟨MEM_FAULTS, 0, 64⟩
/-- MEM_RESV (Table 7.17). -/
def MEM_RESV : Nat := 0x800048
def MEM_RESV_OASIS : Field := ⟨MEM_RESV, 0, 14⟩
def MEM_RESV_GRANARY : Field := ⟨MEM_RESV, 16, 20⟩
/-- MEM_QUOTA (Table 7.18). -/
def MEM_QUOTA (n : Nat) : Nat := 0x801000 + 0x20 * n
def MEM_QUOTA_OASIS (n : Nat) : Field := ⟨(MEM_QUOTA n), 0, 14⟩
def MEM_QUOTA_GRANARY (n : Nat) : Field := ⟨(MEM_QUOTA n), 16, 20⟩
def MEM_QUOTA_CELLAR (n : Nat) : Field := ⟨(MEM_QUOTA n), 36, 24⟩
/-- MEM_QUOTA_POOL (Table 7.18). -/
def MEM_QUOTA_POOL (n : Nat) : Nat := 0x801008 + 0x20 * n
def MEM_QUOTA_POOL_POOL (n : Nat) : Field := ⟨(MEM_QUOTA_POOL n), 0, 20⟩
/-- MEM_USE (Table 7.18). -/
def MEM_USE (n : Nat) : Nat := 0x801010 + 0x20 * n
def MEM_USE_OASIS (n : Nat) : Field := ⟨(MEM_USE n), 0, 14⟩
def MEM_USE_GRANARY (n : Nat) : Field := ⟨(MEM_USE n), 16, 20⟩
def MEM_USE_CELLAR (n : Nat) : Field := ⟨(MEM_USE n), 36, 24⟩
/-- MEM_USE_POOL (Table 7.18). -/
def MEM_USE_POOL (n : Nat) : Nat := 0x801018 + 0x20 * n
def MEM_USE_POOL_POOL (n : Nat) : Field := ⟨(MEM_USE_POOL n), 0, 20⟩
def MEM_USE_POOL_PINNED (n : Nat) : Field := ⟨(MEM_USE_POOL n), 20, 20⟩
/-- MEM_STACK (Table 7.19). -/
def MEM_STACK (n : Nat) : Nat := 0x802000 + 0x8 * n
def MEM_STACK_GROUPS_RETIRED (n : Nat) : Field := ⟨(MEM_STACK n), 0, 8⟩
def MEM_STACK_FRAMES_RETIRED (n : Nat) : Field := ⟨(MEM_STACK n), 8, 16⟩
def MEM_STACK_CE_COUNT (n : Nat) : Field := ⟨(MEM_STACK n), 32, 32⟩
/-- CEL_CTL (Table 7.20). -/
def CEL_CTL : Nat := 0x700000
def CEL_CTL_EN : Field := ⟨CEL_CTL, 0, 1⟩
def CEL_CTL_SPILL_EN : Field := ⟨CEL_CTL, 8, 1⟩
/-- CEL_STS (Table 7.20). -/
def CEL_STS : Nat := 0x700008
def CEL_STS_CHK : Field := ⟨CEL_STS, 0, 8⟩
def CEL_STS_NV_OK : Field := ⟨CEL_STS, 8, 1⟩
def CEL_STS_CH_FAIL : Field := ⟨CEL_STS, 16, 32⟩
/-- CEL_ERR (Table 7.20). -/
def CEL_ERR : Nat := 0x700010
def CEL_ERR_READ_CE : Field := ⟨CEL_ERR, 0, 1⟩
def CEL_ERR_READ_UE : Field := ⟨CEL_ERR, 1, 1⟩
def CEL_ERR_PROG_FAIL : Field := ⟨CEL_ERR, 2, 1⟩
def CEL_ERR_ERASE_FAIL : Field := ⟨CEL_ERR, 3, 1⟩
def CEL_ERR_BLOCK_RETIRED : Field := ⟨CEL_ERR, 4, 1⟩
def CEL_ERR_CHANNEL_FAIL : Field := ⟨CEL_ERR, 5, 1⟩
def CEL_ERR_NV_REFUSED : Field := ⟨CEL_ERR, 6, 1⟩
def CEL_ERR_STORE_UE : Field := ⟨CEL_ERR, 7, 1⟩
/-- CEL_CAP (Table 7.21). -/
def CEL_CAP : Nat := 0x700018
def CEL_CAP_CAP : Field := ⟨CEL_CAP, 0, 32⟩
/-- CEL_STORE (Table 7.21). -/
def CEL_STORE : Nat := 0x700020
def CEL_STORE_STORE : Field := ⟨CEL_STORE, 0, 32⟩
/-- CEL_SPILL (Table 7.21). -/
def CEL_SPILL : Nat := 0x700028
def CEL_SPILL_SPILL : Field := ⟨CEL_SPILL, 0, 32⟩
/-- CEL_SPARE (Table 7.21). -/
def CEL_SPARE : Nat := 0x700030
def CEL_SPARE_SPARE : Field := ⟨CEL_SPARE, 0, 32⟩
def CEL_SPARE_RETIRED : Field := ⟨CEL_SPARE, 32, 32⟩
/-- CEL_PROG (Table 7.21). -/
def CEL_PROG : Nat := 0x700038
def CEL_PROG_BYTES : Field := ⟨CEL_PROG, 0, 64⟩
/-- SCN_CTL (Table 8.12). -/
def SCN_CTL (n : Nat) : Nat := 0x1400000 + 0x1000000 * (n / 8) + 0x10000 * (n % 8)
def SCN_CTL_EN (n : Nat) : Field := ⟨(SCN_CTL n), 0, 1⟩
def SCN_CTL_TEN (n : Nat) : Field := ⟨(SCN_CTL n), 8, 6⟩
/-- SCN_STS (Table 8.12). -/
def SCN_STS (n : Nat) : Nat := 0x1400008 + 0x1000000 * (n / 8) + 0x10000 * (n % 8)
def SCN_STS_CHK (n : Nat) : Field := ⟨(SCN_STS n), 0, 8⟩
def SCN_STS_BUSY (n : Nat) : Field := ⟨(SCN_STS n), 8, 1⟩
def SCN_STS_SIDE_READER (n : Nat) : Field := ⟨(SCN_STS n), 9, 1⟩
/-- SCN_ERR (Table 8.12). -/
def SCN_ERR (n : Nat) : Nat := 0x1400010 + 0x1000000 * (n / 8) + 0x10000 * (n % 8)
def SCN_ERR_LUT_CE (n : Nat) : Field := ⟨(SCN_ERR n), 0, 1⟩
def SCN_ERR_LUT_UE (n : Nat) : Field := ⟨(SCN_ERR n), 1, 1⟩
def SCN_ERR_SIDE_CE (n : Nat) : Field := ⟨(SCN_ERR n), 2, 1⟩
def SCN_ERR_SIDE_UE (n : Nat) : Field := ⟨(SCN_ERR n), 3, 1⟩
def SCN_ERR_ARITH_FAULT (n : Nat) : Field := ⟨(SCN_ERR n), 4, 1⟩
def SCN_ERR_RESCORE_SKIP (n : Nat) : Field := ⟨(SCN_ERR n), 5, 1⟩
/-- SCN_CODES (Table 8.13). -/
def SCN_CODES (n : Nat) : Nat := 0x1400018 + 0x1000000 * (n / 8) + 0x10000 * (n % 8)
def SCN_CODES_CODES (n : Nat) : Field := ⟨(SCN_CODES n), 0, 64⟩
/-- SCN_FILTERED (Table 8.13). -/
def SCN_FILTERED (n : Nat) : Nat := 0x1400020 + 0x1000000 * (n / 8) + 0x10000 * (n % 8)
def SCN_FILTERED_FILTERED (n : Nat) : Field := ⟨(SCN_FILTERED n), 0, 64⟩
/-- SCN_BYTES (Table 8.13). -/
def SCN_BYTES (n : Nat) : Nat := 0x1400028 + 0x1000000 * (n / 8) + 0x10000 * (n % 8)
def SCN_BYTES_BYTES (n : Nat) : Field := ⟨(SCN_BYTES n), 0, 64⟩
/-- SCN_IDX_CTL (Table 8.14). -/
def SCN_IDX_CTL (n : Nat) : Nat := 0x1600000 + 0x40 * n
def SCN_IDX_CTL_EN (n : Nat) : Field := ⟨(SCN_IDX_CTL n), 0, 1⟩
def SCN_IDX_CTL_WRITER (n : Nat) : Field := ⟨(SCN_IDX_CTL n), 8, 6⟩
def SCN_IDX_CTL_WRITER_EN (n : Nat) : Field := ⟨(SCN_IDX_CTL n), 14, 1⟩
/-- SCN_IDX_STS (Table 8.14). -/
def SCN_IDX_STS (n : Nat) : Nat := 0x1600008 + 0x40 * n
def SCN_IDX_STS_CHK (n : Nat) : Field := ⟨(SCN_IDX_STS n), 0, 8⟩
/-- SCN_IDX_HDR (Table 8.14). -/
def SCN_IDX_HDR (n : Nat) : Nat := 0x1600010 + 0x40 * n
def SCN_IDX_HDR_HDR (n : Nat) : Field := ⟨(SCN_IDX_HDR n), 0, 64⟩
/-- SCN_IDX_TENS (Table 8.14). -/
def SCN_IDX_TENS (n : Nat) : Nat := 0x1600018 + 0x40 * n
def SCN_IDX_TENS_TENS (n : Nat) : Field := ⟨(SCN_IDX_TENS n), 0, 64⟩
/-- SCN_IDX_SEQ (Table 8.14). -/
def SCN_IDX_SEQ (n : Nat) : Nat := 0x1600020 + 0x40 * n
def SCN_IDX_SEQ_SEQ (n : Nat) : Field := ⟨(SCN_IDX_SEQ n), 0, 64⟩
/-- SCN_IDX_FLOOR (Table 8.14). -/
def SCN_IDX_FLOOR (n : Nat) : Nat := 0x1600028 + 0x40 * n
def SCN_IDX_FLOOR_FLOOR (n : Nat) : Field := ⟨(SCN_IDX_FLOOR n), 0, 64⟩
/-- SCN_IDX_SIDE (Table 8.14). -/
def SCN_IDX_SIDE (n : Nat) : Nat := 0x1600030 + 0x40 * n
def SCN_IDX_SIDE_LIVE (n : Nat) : Field := ⟨(SCN_IDX_SIDE n), 0, 25⟩
def SCN_IDX_SIDE_HEAD (n : Nat) : Field := ⟨(SCN_IDX_SIDE n), 32, 25⟩
/-- TXT_CTL (Table 11.6). -/
def TXT_CTL : Nat := 0x600000
def TXT_CTL_EN : Field := ⟨TXT_CTL, 0, 1⟩
def TXT_CTL_TOK_LANES : Field := ⟨TXT_CTL, 16, 16⟩
def TXT_CTL_DET_LANES : Field := ⟨TXT_CTL, 32, 16⟩
/-- TXT_STS (Table 11.6). -/
def TXT_STS : Nat := 0x600008
def TXT_STS_CHK : Field := ⟨TXT_STS, 0, 8⟩
def TXT_STS_TABLES : Field := ⟨TXT_STS, 8, 1⟩
def TXT_STS_OPEN : Field := ⟨TXT_STS, 12, 13⟩
/-- TXT_ERR (Table 11.6). -/
def TXT_ERR : Nat := 0x600010
def TXT_ERR_TABLE_CE : Field := ⟨TXT_ERR, 0, 1⟩
def TXT_ERR_TABLE_UE : Field := ⟨TXT_ERR, 1, 1⟩
def TXT_ERR_STREAM_CE : Field := ⟨TXT_ERR, 2, 1⟩
def TXT_ERR_STREAM_UE : Field := ⟨TXT_ERR, 3, 1⟩
def TXT_ERR_LANE_FAULT : Field := ⟨TXT_ERR, 4, 1⟩
/-- TXT_TAB (Table 11.7). -/
def TXT_TAB : Nat := 0x600018
def TXT_TAB_HDR : Field := ⟨TXT_TAB, 0, 64⟩
/-- TXT_BYTES (Table 11.7). -/
def TXT_BYTES : Nat := 0x600020
def TXT_BYTES_BYTES : Field := ⟨TXT_BYTES, 0, 64⟩
/-- TXT_TOKENS (Table 11.7). -/
def TXT_TOKENS : Nat := 0x600028
def TXT_TOKENS_TOKENS : Field := ⟨TXT_TOKENS, 0, 64⟩
/-- TXT_FALLBACK (Table 11.7). -/
def TXT_FALLBACK : Nat := 0x600030
def TXT_FALLBACK_FALLBACK : Field := ⟨TXT_FALLBACK, 0, 32⟩
def TXT_FALLBACK_TRUNCATED : Field := ⟨TXT_FALLBACK, 32, 32⟩
/-- TXT_STOPS (Table 11.7). -/
def TXT_STOPS : Nat := 0x600038
def TXT_STOPS_STOPS : Field := ⟨TXT_STOPS, 0, 32⟩
def TXT_STOPS_FEEDS : Field := ⟨TXT_STOPS, 32, 32⟩
/-- TXT_GRM_CTL (Table 12.10). -/
def TXT_GRM_CTL : Nat := 0x608000
def TXT_GRM_CTL_EN : Field := ⟨TXT_GRM_CTL, 0, 1⟩
def TXT_GRM_CTL_LANES : Field := ⟨TXT_GRM_CTL, 32, 32⟩
/-- TXT_GRM_STS (Table 12.10). -/
def TXT_GRM_STS : Nat := 0x608008
def TXT_GRM_STS_CHK : Field := ⟨TXT_GRM_STS, 0, 8⟩
def TXT_GRM_STS_SLOTS : Field := ⟨TXT_GRM_STS, 8, 7⟩
def TXT_GRM_STS_BUSY : Field := ⟨TXT_GRM_STS, 15, 7⟩
/-- TXT_GRM_ERR (Table 12.10). -/
def TXT_GRM_ERR : Nat := 0x608010
def TXT_GRM_ERR_LANE_CE : Field := ⟨TXT_GRM_ERR, 0, 1⟩
def TXT_GRM_ERR_LANE_UE : Field := ⟨TXT_GRM_ERR, 1, 1⟩
def TXT_GRM_ERR_LANE_FAULT : Field := ⟨TXT_GRM_ERR, 2, 1⟩
def TXT_GRM_ERR_OVERLOAD : Field := ⟨TXT_GRM_ERR, 3, 1⟩
/-- TXT_GRM_MASKS (Table 12.11). -/
def TXT_GRM_MASKS : Nat := 0x608018
def TXT_GRM_MASKS_MASKS : Field := ⟨TXT_GRM_MASKS, 0, 64⟩
/-- TXT_GRM_ENDS (Table 12.11). -/
def TXT_GRM_ENDS : Nat := 0x608020
def TXT_GRM_ENDS_DEAD : Field := ⟨TXT_GRM_ENDS, 0, 32⟩
def TXT_GRM_ENDS_FALLBACKS : Field := ⟨TXT_GRM_ENDS, 32, 32⟩
/-- TXT_GRM_RUNS (Table 12.11). -/
def TXT_GRM_RUNS : Nat := 0x608028
def TXT_GRM_RUNS_RUN_TOKENS : Field := ⟨TXT_GRM_RUNS, 0, 64⟩
/-- TXT_GRM_SLOT (Table 12.11). -/
def TXT_GRM_SLOT (n : Nat) : Nat := 0x609000 + 0x20 * n
def TXT_GRM_SLOT_VALID (n : Nat) : Field := ⟨(TXT_GRM_SLOT n), 0, 1⟩
def TXT_GRM_SLOT_TEN (n : Nat) : Field := ⟨(TXT_GRM_SLOT n), 8, 6⟩
/-- TXT_GRM_IMAGE (Table 12.11). -/
def TXT_GRM_IMAGE (n : Nat) : Nat := 0x609008 + 0x20 * n
def TXT_GRM_IMAGE_IMAGE (n : Nat) : Field := ⟨(TXT_GRM_IMAGE n), 0, 64⟩
/-- TXT_GRM_SERIAL (Table 12.11). -/
def TXT_GRM_SERIAL (n : Nat) : Nat := 0x609010 + 0x20 * n
def TXT_GRM_SERIAL_SERIAL (n : Nat) : Field := ⟨(TXT_GRM_SERIAL n), 0, 64⟩
/-- SCH_CTL (Table 14.8). -/
def SCH_CTL : Nat := 0x900000
def SCH_CTL_EN : Field := ⟨SCH_CTL, 0, 1⟩
/-- SCH_STS (Table 14.8). -/
def SCH_STS : Nat := 0x900008
def SCH_STS_CHK : Field := ⟨SCH_STS, 0, 8⟩
def SCH_STS_BATCHES : Field := ⟨SCH_STS, 8, 11⟩
def SCH_STS_REQUESTS : Field := ⟨SCH_STS, 32, 13⟩
def SCH_STS_REBIND_BUSY : Field := ⟨SCH_STS, 45, 1⟩
/-- SCH_ERR (Table 14.8). -/
def SCH_ERR : Nat := 0x900010
def SCH_ERR_SLICE_SKIPPED : Field := ⟨SCH_ERR, 0, 1⟩
def SCH_ERR_REBIND_REFUSED : Field := ⟨SCH_ERR, 1, 1⟩
def SCH_ERR_REBIND_BUSY : Field := ⟨SCH_ERR, 2, 1⟩
def SCH_ERR_SHELTER_OVERRUN : Field := ⟨SCH_ERR, 3, 1⟩
/-- SCH_CANCELS (Table 14.8). -/
def SCH_CANCELS : Nat := 0x900018
def SCH_CANCELS_APPLIED : Field := ⟨SCH_CANCELS, 0, 32⟩
def SCH_CANCELS_IGNORED : Field := ⟨SCH_CANCELS, 32, 32⟩
/-- SCH_REBIND (Table 14.9). -/
def SCH_REBIND : Nat := 0x900020
def SCH_REBIND_KIND : Field := ⟨SCH_REBIND, 0, 4⟩
def SCH_REBIND_TO : Field := ⟨SCH_REBIND, 4, 6⟩
def SCH_REBIND_FROM : Field := ⟨SCH_REBIND, 10, 6⟩
def SCH_REBIND_QP : Field := ⟨SCH_REBIND, 16, 16⟩
def SCH_REBIND_TAG : Field := ⟨SCH_REBIND, 32, 16⟩
/-- SCH_REBIND_SET (Table 14.9). -/
def SCH_REBIND_SET : Nat := 0x900028
def SCH_REBIND_SET_SET : Field := ⟨SCH_REBIND_SET, 0, 64⟩
/-- SCH_REBIND_STS (Table 14.9). -/
def SCH_REBIND_STS : Nat := 0x900030
def SCH_REBIND_STS_CHK : Field := ⟨SCH_REBIND_STS, 0, 8⟩
def SCH_REBIND_STS_BUSY : Field := ⟨SCH_REBIND_STS, 8, 1⟩
def SCH_REBIND_STS_TAG : Field := ⟨SCH_REBIND_STS, 16, 16⟩
/-- SCH_TEN_CTL (Table 14.10). -/
def SCH_TEN_CTL (n : Nat) : Nat := 0x901000 + 0x40 * n
def SCH_TEN_CTL_EN (n : Nat) : Field := ⟨(SCH_TEN_CTL n), 0, 1⟩
def SCH_TEN_CTL_DRAIN (n : Nat) : Field := ⟨(SCH_TEN_CTL n), 1, 1⟩
def SCH_TEN_CTL_LATE_BOOST (n : Nat) : Field := ⟨(SCH_TEN_CTL n), 2, 1⟩
def SCH_TEN_CTL_PORT (n : Nat) : Field := ⟨(SCH_TEN_CTL n), 8, 2⟩
def SCH_TEN_CTL_ROTA (n : Nat) : Field := ⟨(SCH_TEN_CTL n), 16, 5⟩
def SCH_TEN_CTL_CEILING (n : Nat) : Field := ⟨(SCH_TEN_CTL n), 24, 3⟩
/-- SCH_TEN_STS (Table 14.10). -/
def SCH_TEN_STS (n : Nat) : Nat := 0x901008 + 0x40 * n
def SCH_TEN_STS_CHK (n : Nat) : Field := ⟨(SCH_TEN_STS n), 0, 8⟩
def SCH_TEN_STS_STATE (n : Nat) : Field := ⟨(SCH_TEN_STS n), 8, 3⟩
def SCH_TEN_STS_BATCHES (n : Nat) : Field := ⟨(SCH_TEN_STS n), 16, 9⟩
def SCH_TEN_STS_REQUESTS (n : Nat) : Field := ⟨(SCH_TEN_STS n), 32, 13⟩
def SCH_TEN_STS_LIVE_LEVEL (n : Nat) : Field := ⟨(SCH_TEN_STS n), 48, 3⟩
def SCH_TEN_STS_LIVE_NONE (n : Nat) : Field := ⟨(SCH_TEN_STS n), 51, 1⟩
/-- SCH_TEN_SLICE (Table 14.10). -/
def SCH_TEN_SLICE (n : Nat) : Nat := 0x901010 + 0x40 * n
def SCH_TEN_SLICE_SLICE (n : Nat) : Field := ⟨(SCH_TEN_SLICE n), 0, 14⟩
/-- SCH_TEN_LIMITS (Table 14.10). -/
def SCH_TEN_LIMITS (n : Nat) : Nat := 0x901018 + 0x40 * n
def SCH_TEN_LIMITS_MAX_BATCHES (n : Nat) : Field := ⟨(SCH_TEN_LIMITS n), 0, 9⟩
def SCH_TEN_LIMITS_KV_PAGES (n : Nat) : Field := ⟨(SCH_TEN_LIMITS n), 16, 25⟩
/-- SCH_TEN_RUNLIST (Table 14.10). -/
def SCH_TEN_RUNLIST (n : Nat) : Nat := 0x901020 + 0x40 * n
def SCH_TEN_RUNLIST_ADDR (n : Nat) : Field := ⟨(SCH_TEN_RUNLIST n), 0, 64⟩
/-- SCH_TEN_OVERRUN (Table 14.10). -/
def SCH_TEN_OVERRUN (n : Nat) : Nat := 0x901028 + 0x40 * n
def SCH_TEN_OVERRUN_CHARGE (n : Nat) : Field := ⟨(SCH_TEN_OVERRUN n), 0, 32⟩
def SCH_TEN_OVERRUN_TOTAL (n : Nat) : Field := ⟨(SCH_TEN_OVERRUN n), 32, 32⟩
/-- SCH_TEN_LATE (Table 14.10). -/
def SCH_TEN_LATE (n : Nat) : Nat := 0x901030 + 0x40 * n
def SCH_TEN_LATE_TTFT_MISSED (n : Nat) : Field := ⟨(SCH_TEN_LATE n), 0, 32⟩
def SCH_TEN_LATE_TBT_MISSED (n : Nat) : Field := ⟨(SCH_TEN_LATE n), 32, 32⟩
/-- SCH_TEN_SLICENO (Table 14.10). -/
def SCH_TEN_SLICENO (n : Nat) : Nat := 0x901038 + 0x40 * n
def SCH_TEN_SLICENO_SLICE_NO (n : Nat) : Field := ⟨(SCH_TEN_SLICENO n), 0, 64⟩
/-- SCH_ROTA_CTL (Table 14.11). -/
def SCH_ROTA_CTL (n : Nat) : Nat := 0x903000 + 0x10 * n
def SCH_ROTA_CTL_PREEMPT_EN (n : Nat) : Field := ⟨(SCH_ROTA_CTL n), 0, 1⟩
def SCH_ROTA_CTL_PREEMPT_LEVEL (n : Nat) : Field := ⟨(SCH_ROTA_CTL n), 1, 3⟩
/-- SCH_ROTA_STS (Table 14.11). -/
def SCH_ROTA_STS (n : Nat) : Nat := 0x903008 + 0x10 * n
def SCH_ROTA_STS_HOLDER (n : Nat) : Field := ⟨(SCH_ROTA_STS n), 0, 6⟩
def SCH_ROTA_STS_IDLE (n : Nat) : Field := ⟨(SCH_ROTA_STS n), 6, 1⟩
def SCH_ROTA_STS_SLICES (n : Nat) : Field := ⟨(SCH_ROTA_STS n), 32, 32⟩
/-- HST_CTL (Table 15.15). -/
def HST_CTL (n : Nat) : Nat := 0x400000 + 0x10000 * n
def HST_CTL_EN (n : Nat) : Field := ⟨(HST_CTL n), 0, 1⟩
def HST_CTL_MANAGE (n : Nat) : Field := ⟨(HST_CTL n), 1, 1⟩
def HST_CTL_MTU (n : Nat) : Field := ⟨(HST_CTL n), 2, 2⟩
def HST_CTL_PFC_EN (n : Nat) : Field := ⟨(HST_CTL n), 4, 1⟩
def HST_CTL_PFC_PRIO (n : Nat) : Field := ⟨(HST_CTL n), 5, 3⟩
def HST_CTL_DSCP (n : Nat) : Field := ⟨(HST_CTL n), 8, 6⟩
def HST_CTL_ECN_EN (n : Nat) : Field := ⟨(HST_CTL n), 14, 1⟩
def HST_CTL_BACKLOG_MAX (n : Nat) : Field := ⟨(HST_CTL n), 16, 24⟩
/-- HST_STS (Table 15.15). -/
def HST_STS (n : Nat) : Nat := 0x400008 + 0x10000 * n
def HST_STS_CHK (n : Nat) : Field := ⟨(HST_STS n), 0, 8⟩
def HST_STS_LINK (n : Nat) : Field := ⟨(HST_STS n), 8, 1⟩
def HST_STS_HOLDOVER (n : Nat) : Field := ⟨(HST_STS n), 9, 1⟩
def HST_STS_QPS (n : Nat) : Field := ⟨(HST_STS n), 16, 9⟩
/-- HST_ERR (Table 15.15). -/
def HST_ERR (n : Nat) : Nat := 0x400010 + 0x10000 * n
def HST_ERR_OVERSIZE (n : Nat) : Field := ⟨(HST_ERR n), 0, 1⟩
def HST_ERR_FEC_UNCORR (n : Nat) : Field := ⟨(HST_ERR n), 1, 1⟩
def HST_ERR_UNSUPPORTED (n : Nat) : Field := ⟨(HST_ERR n), 2, 1⟩
def HST_ERR_ACCESS (n : Nat) : Field := ⟨(HST_ERR n), 3, 1⟩
def HST_ERR_BAD_VERSION (n : Nat) : Field := ⟨(HST_ERR n), 4, 1⟩
def HST_ERR_RNR_FALLBACK (n : Nat) : Field := ⟨(HST_ERR n), 5, 1⟩
def HST_ERR_RNR_EXHAUSTED (n : Nat) : Field := ⟨(HST_ERR n), 6, 1⟩
def HST_ERR_BACKLOG_HOLD (n : Nat) : Field := ⟨(HST_ERR n), 7, 1⟩
def HST_ERR_QP_LOST (n : Nat) : Field := ⟨(HST_ERR n), 8, 1⟩
def HST_ERR_LINK_DOWN (n : Nat) : Field := ⟨(HST_ERR n), 9, 1⟩
/-- HST_TIME (Table 15.15). -/
def HST_TIME (n : Nat) : Nat := 0x400018 + 0x10000 * n
def HST_TIME_TIME (n : Nat) : Field := ⟨(HST_TIME n), 0, 64⟩
/-- HST_KEY (Table 15.16). -/
def HST_KEY (n : Nat) : Nat := 0x400020 + 0x10000 * n
def HST_KEY_KEY_SALT (n : Nat) : Field := ⟨(HST_KEY n), 0, 24⟩
/-- HST_CNT0 (Table 15.16). -/
def HST_CNT0 (n : Nat) : Nat := 0x400028 + 0x10000 * n
def HST_CNT0_ADMITTED (n : Nat) : Field := ⟨(HST_CNT0 n), 0, 32⟩
def HST_CNT0_REFUSED (n : Nat) : Field := ⟨(HST_CNT0 n), 32, 32⟩
/-- HST_CNT1 (Table 15.16). -/
def HST_CNT1 (n : Nat) : Nat := 0x400030 + 0x10000 * n
def HST_CNT1_CANCEL_MISS (n : Nat) : Field := ⟨(HST_CNT1 n), 0, 32⟩
def HST_CNT1_EVENT_LOST (n : Nat) : Field := ⟨(HST_CNT1 n), 32, 32⟩
/-- HST_CNT2 (Table 15.16). -/
def HST_CNT2 (n : Nat) : Nat := 0x400038 + 0x10000 * n
def HST_CNT2_TOKENS_SENT (n : Nat) : Field := ⟨(HST_CNT2 n), 0, 64⟩
/-- HST_QP (Table 15.16). -/
def HST_QP (n : Nat) (m : Nat) : Nat := 0x401000 + 0x10000 * n + 0x10 * m
def HST_QP_STATE (n : Nat) (m : Nat) : Field := ⟨(HST_QP n m), 0, 3⟩
def HST_QP_ROLE (n : Nat) (m : Nat) : Field := ⟨(HST_QP n m), 3, 1⟩
def HST_QP_TEN (n : Nat) (m : Nat) : Field := ⟨(HST_QP n m), 4, 6⟩
def HST_QP_VER (n : Nat) (m : Nat) : Field := ⟨(HST_QP n m), 10, 2⟩
def HST_QP_EVENTS (n : Nat) (m : Nat) : Field := ⟨(HST_QP n m), 12, 1⟩
def HST_QP_RING_ALL (n : Nat) (m : Nat) : Field := ⟨(HST_QP n m), 13, 1⟩
def HST_QP_REMOTE_QPN (n : Nat) (m : Nat) : Field := ⟨(HST_QP n m), 32, 24⟩
/-- HST_IMG_CTL (Table 15.17). -/
def HST_IMG_CTL : Nat := 0x480000
def HST_IMG_CTL_OP : Field := ⟨HST_IMG_CTL, 0, 2⟩
def HST_IMG_CTL_KIND : Field := ⟨HST_IMG_CTL, 2, 2⟩
def HST_IMG_CTL_TARGET : Field := ⟨HST_IMG_CTL, 4, 6⟩
/-- HST_IMG_LEN (Table 15.17). -/
def HST_IMG_LEN : Nat := 0x480008
def HST_IMG_LEN_BYTES : Field := ⟨HST_IMG_LEN, 0, 31⟩
/-- HST_IMG_STS (Table 15.17). -/
def HST_IMG_STS : Nat := 0x480010
def HST_IMG_STS_CHK : Field := ⟨HST_IMG_STS, 0, 8⟩
def HST_IMG_STS_ACTIVE : Field := ⟨HST_IMG_STS, 8, 1⟩
def HST_IMG_STS_STAGE_FREE : Field := ⟨HST_IMG_STS, 9, 1⟩
def HST_IMG_STS_RECEIVED : Field := ⟨HST_IMG_STS, 16, 48⟩
/-- FAB_CTL (Table 16.10). -/
def FAB_CTL : Nat := 0x500000
def FAB_CTL_EN : Field := ⟨FAB_CTL, 0, 1⟩
def FAB_CTL_ROUTE_HOST : Field := ⟨FAB_CTL, 1, 1⟩
def FAB_CTL_ADDR : Field := ⟨FAB_CTL, 8, 20⟩
def FAB_CTL_PORTS : Field := ⟨FAB_CTL, 32, 16⟩
/-- FAB_STS (Table 16.10). -/
def FAB_STS : Nat := 0x500008
def FAB_STS_CHK : Field := ⟨FAB_STS, 0, 8⟩
def FAB_STS_ROUTED : Field := ⟨FAB_STS, 8, 1⟩
def FAB_STS_RECOMPUTING : Field := ⟨FAB_STS, 9, 1⟩
def FAB_STS_UP : Field := ⟨FAB_STS, 16, 16⟩
def FAB_STS_DEGRADED : Field := ⟨FAB_STS, 32, 16⟩
/-- FAB_ERR (Table 16.10). -/
def FAB_ERR : Nat := 0x500010
def FAB_ERR_LANE_FAIL : Field := ⟨FAB_ERR, 0, 1⟩
def FAB_ERR_LINK_DOWN : Field := ⟨FAB_ERR, 1, 1⟩
def FAB_ERR_ADDR_CONFLICT : Field := ⟨FAB_ERR, 2, 1⟩
def FAB_ERR_TABLE_FULL : Field := ⟨FAB_ERR, 3, 1⟩
def FAB_ERR_HOP_LIMIT : Field := ⟨FAB_ERR, 4, 1⟩
def FAB_ERR_E2E_CRC : Field := ⟨FAB_ERR, 5, 1⟩
def FAB_ERR_RETRANSMIT : Field := ⟨FAB_ERR, 6, 1⟩
def FAB_ERR_FOREIGN_FRAME : Field := ⟨FAB_ERR, 7, 1⟩
def FAB_ERR_ALIEN : Field := ⟨FAB_ERR, 8, 1⟩
def FAB_ERR_TWIN_MISMATCH : Field := ⟨FAB_ERR, 9, 1⟩
def FAB_ERR_TWIN_LOS : Field := ⟨FAB_ERR, 10, 1⟩
def FAB_ERR_ACK_MISS : Field := ⟨FAB_ERR, 11, 1⟩
def FAB_ERR_RECALL : Field := ⟨FAB_ERR, 12, 1⟩
def FAB_ERR_LENDER_LOST : Field := ⟨FAB_ERR, 13, 1⟩
/-- FAB_GROUP (Table 16.11). -/
def FAB_GROUP : Nat := 0x500018
def FAB_GROUP_GROUP_ADDR : Field := ⟨FAB_GROUP, 0, 64⟩
/-- FAB_ISET (Table 16.11). -/
def FAB_ISET : Nat := 0x500020
def FAB_ISET_ISET_ADDR : Field := ⟨FAB_ISET, 0, 64⟩
/-- FAB_PIPE (Table 16.11). -/
def FAB_PIPE : Nat := 0x500028
def FAB_PIPE_PIPE_ADDR : Field := ⟨FAB_PIPE, 0, 64⟩
/-- FAB_LEND (Table 16.11). -/
def FAB_LEND : Nat := 0x500030
def FAB_LEND_OFFER : Field := ⟨FAB_LEND, 0, 20⟩
def FAB_LEND_LENT : Field := ⟨FAB_LEND, 20, 20⟩
def FAB_LEND_BORROWED : Field := ⟨FAB_LEND, 40, 20⟩
/-- FAB_TWIN (Table 16.11). -/
def FAB_TWIN : Nat := 0x500038
def FAB_TWIN_TWIN : Field := ⟨FAB_TWIN, 0, 20⟩
def FAB_TWIN_TWIN_PORTS : Field := ⟨FAB_TWIN, 20, 16⟩
def FAB_TWIN_STATE : Field := ⟨FAB_TWIN, 36, 3⟩
def FAB_TWIN_ACK_WAIT : Field := ⟨FAB_TWIN, 40, 16⟩
/-- FAB_INJECT (Table 16.11). -/
def FAB_INJECT : Nat := 0x500040
def FAB_INJECT_CE_KIB : Field := ⟨FAB_INJECT, 0, 16⟩
/-- FAB_RT_SEL (Table 16.11). -/
def FAB_RT_SEL : Nat := 0x500048
def FAB_RT_SEL_ADDR : Field := ⟨FAB_RT_SEL, 0, 20⟩
def FAB_RT_SEL_TABLE : Field := ⟨FAB_RT_SEL, 20, 5⟩
/-- FAB_RT_ROW (Table 16.11). -/
def FAB_RT_ROW : Nat := 0x500050
def FAB_RT_ROW_ORD_PORT : Field := ⟨FAB_RT_ROW, 0, 4⟩
def FAB_RT_ROW_VALID : Field := ⟨FAB_RT_ROW, 4, 1⟩
def FAB_RT_ROW_HOPS : Field := ⟨FAB_RT_ROW, 5, 4⟩
def FAB_RT_ROW_MASK : Field := ⟨FAB_RT_ROW, 16, 16⟩
/-- FAB_PORT_CTL (Table 16.12). -/
def FAB_PORT_CTL (n : Nat) : Nat := 0x501000 + 0x20 * n
def FAB_PORT_CTL_RETRY (n : Nat) : Field := ⟨(FAB_PORT_CTL n), 0, 1⟩
/-- FAB_PORT_STS (Table 16.12). -/
def FAB_PORT_STS (n : Nat) : Nat := 0x501008 + 0x20 * n
def FAB_PORT_STS_LINK (n : Nat) : Field := ⟨(FAB_PORT_STS n), 0, 1⟩
def FAB_PORT_STS_HOLDOVER (n : Nat) : Field := ⟨(FAB_PORT_STS n), 1, 1⟩
def FAB_PORT_STS_ALIEN (n : Nat) : Field := ⟨(FAB_PORT_STS n), 2, 1⟩
def FAB_PORT_STS_TWIN_LINK (n : Nat) : Field := ⟨(FAB_PORT_STS n), 3, 1⟩
def FAB_PORT_STS_LANES (n : Nat) : Field := ⟨(FAB_PORT_STS n), 4, 4⟩
def FAB_PORT_STS_FAILED (n : Nat) : Field := ⟨(FAB_PORT_STS n), 8, 4⟩
def FAB_PORT_STS_NBR_ADDR (n : Nat) : Field := ⟨(FAB_PORT_STS n), 16, 20⟩
def FAB_PORT_STS_NBR_PORT (n : Nat) : Field := ⟨(FAB_PORT_STS n), 36, 4⟩
/-- FAB_PORT_CNT (Table 16.12). -/
def FAB_PORT_CNT (n : Nat) : Nat := 0x501010 + 0x20 * n
def FAB_PORT_CNT_SENT (n : Nat) : Field := ⟨(FAB_PORT_CNT n), 0, 32⟩
def FAB_PORT_CNT_RESENT (n : Nat) : Field := ⟨(FAB_PORT_CNT n), 32, 32⟩
/-- FAB_PORT_TIME (Table 16.12). -/
def FAB_PORT_TIME (n : Nat) : Nat := 0x501018 + 0x20 * n
def FAB_PORT_TIME_TIME (n : Nat) : Field := ⟨(FAB_PORT_TIME n), 0, 64⟩
/-- EMB_CTL (Table 17.5). -/
def EMB_CTL : Nat := 0xB00000
def EMB_CTL_EN : Field := ⟨EMB_CTL, 0, 1⟩
def EMB_CTL_CACHE_EN : Field := ⟨EMB_CTL, 1, 1⟩
def EMB_CTL_CACHE_GRANULES : Field := ⟨EMB_CTL, 16, 14⟩
def EMB_CTL_AGE_SHIFT : Field := ⟨EMB_CTL, 32, 5⟩
/-- EMB_STS (Table 17.5). -/
def EMB_STS : Nat := 0xB00008
def EMB_STS_CHK : Field := ⟨EMB_STS, 0, 8⟩
def EMB_STS_PAUSED : Field := ⟨EMB_STS, 8, 1⟩
/-- EMB_ERR (Table 17.5). -/
def EMB_ERR : Nat := 0xB00010
def EMB_ERR_SATURATE : Field := ⟨EMB_ERR, 0, 1⟩
def EMB_ERR_CACHE_CE : Field := ⟨EMB_ERR, 1, 1⟩
def EMB_ERR_CACHE_UE : Field := ⟨EMB_ERR, 2, 1⟩
def EMB_ERR_ADD_LOST : Field := ⟨EMB_ERR, 3, 1⟩
/-- EMB_CNT (Table 17.5). -/
def EMB_CNT : Nat := 0xB00018
def EMB_CNT_HITS : Field := ⟨EMB_CNT, 0, 32⟩
def EMB_CNT_MISSES : Field := ⟨EMB_CNT, 32, 32⟩
/-- EMB_ADDS (Table 17.5). -/
def EMB_ADDS : Nat := 0xB00020
def EMB_ADDS_ADDS : Field := ⟨EMB_ADDS, 0, 64⟩
/-- EMB_TAB_CTL (Table 17.6). -/
def EMB_TAB_CTL (n : Nat) : Nat := 0xB01000 + 0x20 * n
def EMB_TAB_CTL_EN (n : Nat) : Field := ⟨(EMB_TAB_CTL n), 0, 1⟩
def EMB_TAB_CTL_ADD_EN (n : Nat) : Field := ⟨(EMB_TAB_CTL n), 1, 1⟩
def EMB_TAB_CTL_TEN (n : Nat) : Field := ⟨(EMB_TAB_CTL n), 8, 6⟩
/-- EMB_TAB_DESC (Table 17.6). -/
def EMB_TAB_DESC (n : Nat) : Nat := 0xB01008 + 0x20 * n
def EMB_TAB_DESC_DESC (n : Nat) : Field := ⟨(EMB_TAB_DESC n), 0, 64⟩
/-- EMB_TAB_STS (Table 17.6). -/
def EMB_TAB_STS (n : Nat) : Nat := 0xB01010 + 0x20 * n
def EMB_TAB_STS_CHK (n : Nat) : Field := ⟨(EMB_TAB_STS n), 0, 8⟩
def EMB_TAB_STS_PAUSED (n : Nat) : Field := ⟨(EMB_TAB_STS n), 8, 1⟩
def EMB_TAB_STS_VERSION (n : Nat) : Field := ⟨(EMB_TAB_STS n), 32, 32⟩
/-- TWN_CTL (Table 18.7). -/
def TWN_CTL : Nat := 0xC00000
def TWN_CTL_EN : Field := ⟨TWN_CTL, 0, 1⟩
def TWN_CTL_REF_PORT : Field := ⟨TWN_CTL, 8, 2⟩
def TWN_CTL_CONFIRM_WAIT : Field := ⟨TWN_CTL, 16, 16⟩
def TWN_CTL_UNIT_WAIT : Field := ⟨TWN_CTL, 32, 16⟩
/-- TWN_STS (Table 18.7). -/
def TWN_STS : Nat := 0xC00008
def TWN_STS_CHK : Field := ⟨TWN_STS, 0, 8⟩
def TWN_STS_STATE : Field := ⟨TWN_STS, 8, 3⟩
def TWN_STS_UNPROTECTED : Field := ⟨TWN_STS, 16, 11⟩
/-- TWN_ERR (Table 18.7). -/
def TWN_ERR : Nat := 0xC00010
def TWN_ERR_SUSPECT : Field := ⟨TWN_ERR, 0, 1⟩
def TWN_ERR_DECLARED : Field := ⟨TWN_ERR, 1, 1⟩
def TWN_ERR_PARTED : Field := ⟨TWN_ERR, 2, 1⟩
def TWN_ERR_ISOLATED : Field := ⟨TWN_ERR, 3, 1⟩
def TWN_ERR_HANDOVER : Field := ⟨TWN_ERR, 4, 1⟩
def TWN_ERR_ABANDONED : Field := ⟨TWN_ERR, 5, 1⟩
def TWN_ERR_UNIT_LOST : Field := ⟨TWN_ERR, 6, 1⟩
def TWN_ERR_SPARE_NONE : Field := ⟨TWN_ERR, 7, 1⟩
/-- TWN_EPOCH (Table 18.8). -/
def TWN_EPOCH : Nat := 0xC00018
def TWN_EPOCH_EPOCH : Field := ⟨TWN_EPOCH, 0, 32⟩
def TWN_EPOCH_PEER_FENCED : Field := ⟨TWN_EPOCH, 32, 32⟩
/-- TWN_CNT (Table 18.8). -/
def TWN_CNT : Nat := 0xC00020
def TWN_CNT_TAKEOVERS : Field := ⟨TWN_CNT, 0, 32⟩
def TWN_CNT_REDELIVERED : Field := ⟨TWN_CNT, 32, 32⟩
/-- TWN_SUBST (Table 18.8). -/
def TWN_SUBST (n : Nat) : Nat := 0xC00100 + 0x8 * n
def TWN_SUBST_LOST (n : Nat) : Field := ⟨(TWN_SUBST n), 0, 20⟩
def TWN_SUBST_SUBST (n : Nat) : Field := ⟨(TWN_SUBST n), 20, 20⟩
def TWN_SUBST_VALID (n : Nat) : Field := ⟨(TWN_SUBST n), 40, 1⟩
/-- PWR_CTL (Table 19.6). -/
def PWR_CTL : Nat := 0x100000
def PWR_CTL_EN : Field := ⟨PWR_CTL, 0, 1⟩
def PWR_CTL_SLEEP : Field := ⟨PWR_CTL, 1, 1⟩
def PWR_CTL_REF_PORT : Field := ⟨PWR_CTL, 2, 2⟩
def PWR_CTL_TJ_HIGH : Field := ⟨PWR_CTL, 8, 8⟩
def PWR_CTL_CAP : Field := ⟨PWR_CTL, 16, 16⟩
/-- PWR_STS (Table 19.6). -/
def PWR_STS : Nat := 0x100008
def PWR_STS_CHK : Field := ⟨PWR_STS, 0, 8⟩
def PWR_STS_NV_OK : Field := ⟨PWR_STS, 8, 1⟩
def PWR_STS_SHUTDOWN : Field := ⟨PWR_STS, 9, 1⟩
def PWR_STS_CAUSE : Field := ⟨PWR_STS, 10, 3⟩
def PWR_STS_IN_LOW : Field := ⟨PWR_STS, 13, 1⟩
def PWR_STS_IN_HIGH : Field := ⟨PWR_STS, 14, 1⟩
def PWR_STS_IN_V : Field := ⟨PWR_STS, 16, 16⟩
def PWR_STS_IN_W : Field := ⟨PWR_STS, 32, 16⟩
/-- PWR_ERR (Table 19.6). -/
def PWR_ERR : Nat := 0x100010
def PWR_ERR_IN_LOW : Field := ⟨PWR_ERR, 0, 1⟩
def PWR_ERR_IN_HIGH : Field := ⟨PWR_ERR, 1, 1⟩
def PWR_ERR_NV_CUT : Field := ⟨PWR_ERR, 2, 1⟩
def PWR_ERR_CAP_MISS : Field := ⟨PWR_ERR, 3, 1⟩
def PWR_ERR_TJ_OVER : Field := ⟨PWR_ERR, 4, 1⟩
def PWR_ERR_HBM_HOT : Field := ⟨PWR_ERR, 5, 1⟩
def PWR_ERR_STEP : Field := ⟨PWR_ERR, 6, 1⟩
def PWR_ERR_GATE_REFUSED : Field := ⟨PWR_ERR, 7, 1⟩
def PWR_ERR_RATE_LOW : Field := ⟨PWR_ERR, 8, 1⟩
/-- PWR_DOM_CTL (Table 19.7). -/
def PWR_DOM_CTL : Nat := 0x100018
def PWR_DOM_CTL_ON : Field := ⟨PWR_DOM_CTL, 0, 50⟩
/-- PWR_DOM_STS (Table 19.7). -/
def PWR_DOM_STS : Nat := 0x100020
def PWR_DOM_STS_POWERED : Field := ⟨PWR_DOM_STS, 0, 50⟩
/-- PWR_GATE_STS (Table 19.7). -/
def PWR_GATE_STS : Nat := 0x100028
def PWR_GATE_STS_CHK : Field := ⟨PWR_GATE_STS, 0, 8⟩
def PWR_GATE_STS_DOMAIN : Field := ⟨PWR_GATE_STS, 8, 6⟩
def PWR_GATE_STS_PENDING : Field := ⟨PWR_GATE_STS, 14, 1⟩
/-- PWR_TEMP (Table 19.7). -/
def PWR_TEMP : Nat := 0x100030
def PWR_TEMP_GATE_TJ : Field := ⟨PWR_TEMP, 0, 8⟩
def PWR_TEMP_HBM_MAX : Field := ⟨PWR_TEMP, 8, 8⟩
def PWR_TEMP_HBM_STACK : Field := ⟨PWR_TEMP, 16, 4⟩
/-- PWR_FD_CTL (Table 19.8). -/
def PWR_FD_CTL (n : Nat) : Nat := 0x100100 + 0x20 * n
def PWR_FD_CTL_VSET (n : Nat) : Field := ⟨(PWR_FD_CTL n), 0, 10⟩
/-- PWR_FD_STS (Table 19.8). -/
def PWR_FD_STS (n : Nat) : Nat := 0x100108 + 0x20 * n
def PWR_FD_STS_VCORE (n : Nat) : Field := ⟨(PWR_FD_STS n), 0, 10⟩
def PWR_FD_STS_RATE (n : Nat) : Field := ⟨(PWR_FD_STS n), 16, 16⟩
def PWR_FD_STS_TJ (n : Nat) : Field := ⟨(PWR_FD_STS n), 32, 8⟩
/-- PWR_FD_STEP (Table 19.8). -/
def PWR_FD_STEP (n : Nat) : Nat := 0x100110 + 0x20 * n
def PWR_FD_STEP_STEP_MAX (n : Nat) : Field := ⟨(PWR_FD_STEP n), 0, 16⟩
def PWR_FD_STEP_STEP_PEAK (n : Nat) : Field := ⟨(PWR_FD_STEP n), 16, 16⟩
/-- SEC_CTL (Table 20.9). -/
def SEC_CTL : Nat := 0x200000
def SEC_CTL_EN : Field := ⟨SEC_CTL, 0, 1⟩
/-- SEC_STS (Table 20.9). -/
def SEC_STS : Nat := 0x200008
def SEC_STS_CHK : Field := ⟨SEC_STS, 0, 8⟩
def SEC_STS_STAGE : Field := ⟨SEC_STS, 8, 2⟩
def SEC_STS_SLOT : Field := ⟨SEC_STS, 10, 1⟩
def SEC_STS_QUOTE_BUSY : Field := ⟨SEC_STS, 11, 1⟩
def SEC_STS_LIFECYCLE : Field := ⟨SEC_STS, 12, 2⟩
def SEC_STS_FW_SVN : Field := ⟨SEC_STS, 16, 8⟩
def SEC_STS_SVN_FLOOR : Field := ⟨SEC_STS, 24, 8⟩
def SEC_STS_LOG_COUNT : Field := ⟨SEC_STS, 32, 13⟩
/-- SEC_ERR (Table 20.9). -/
def SEC_ERR : Nat := 0x200010
def SEC_ERR_BOOT_SLOT_FAIL : Field := ⟨SEC_ERR, 0, 1⟩
def SEC_ERR_IMG_REFUSED : Field := ⟨SEC_ERR, 1, 1⟩
def SEC_ERR_KS_REFUSED : Field := ⟨SEC_ERR, 2, 1⟩
def SEC_ERR_BFW_FAIL : Field := ⟨SEC_ERR, 3, 1⟩
def SEC_ERR_COPY_INVALID : Field := ⟨SEC_ERR, 4, 1⟩
def SEC_ERR_LOG_FULL : Field := ⟨SEC_ERR, 5, 1⟩
/-- SEC_NONCE (Table 20.10). -/
def SEC_NONCE (n : Nat) : Nat := 0x200020 + 0x8 * n
def SEC_NONCE_NONCE (n : Nat) : Field := ⟨(SEC_NONCE n), 0, 64⟩
/-- SEC_QUOTE (Table 20.10). -/
def SEC_QUOTE : Nat := 0x200040
def SEC_QUOTE_GO : Field := ⟨SEC_QUOTE, 0, 1⟩
/-- SEC_KS_CTL (Table 20.10). -/
def SEC_KS_CTL : Nat := 0x200048
def SEC_KS_CTL_OP : Field := ⟨SEC_KS_CTL, 0, 2⟩
def SEC_KS_CTL_SLOT : Field := ⟨SEC_KS_CTL, 2, 4⟩
/-- SEC_KS_STS (Table 20.10). -/
def SEC_KS_STS : Nat := 0x200050
def SEC_KS_STS_CHK : Field := ⟨SEC_KS_STS, 0, 8⟩
def SEC_KS_STS_BUSY : Field := ⟨SEC_KS_STS, 8, 1⟩
/-- SEC_FW_CTL (Table 20.10). -/
def SEC_FW_CTL : Nat := 0x200058
def SEC_FW_CTL_OP : Field := ⟨SEC_FW_CTL, 0, 2⟩
def SEC_FW_CTL_BYTES : Field := ⟨SEC_FW_CTL, 32, 32⟩
/-- SEC_FW_STS (Table 20.10). -/
def SEC_FW_STS : Nat := 0x200060
def SEC_FW_STS_CHK : Field := ⟨SEC_FW_STS, 0, 8⟩
def SEC_FW_STS_BUSY : Field := ⟨SEC_FW_STS, 8, 1⟩
/-- SEC_LOG_SEL (Table 20.10). -/
def SEC_LOG_SEL : Nat := 0x200068
def SEC_LOG_SEL_INDEX : Field := ⟨SEC_LOG_SEL, 0, 12⟩
/-- SEC_LOG_ENT (Table 20.10). -/
def SEC_LOG_ENT : Nat := 0x200070
def SEC_LOG_ENT_REG : Field := ⟨SEC_LOG_ENT, 0, 2⟩
/-- SEC_LOG_V (Table 20.10). -/
def SEC_LOG_V (n : Nat) : Nat := 0x200080 + 0x8 * n
def SEC_LOG_V_V (n : Nat) : Field := ⟨(SEC_LOG_V n), 0, 64⟩
/-- SEC_MEAS (Table 20.10). -/
def SEC_MEAS (n : Nat) (m : Nat) : Nat := 0x200100 + 0x20 * n + 0x8 * m
def SEC_MEAS_M (n : Nat) (m : Nat) : Field := ⟨(SEC_MEAS n m), 0, 64⟩
/-- SEC_REPORT (Table 20.10). -/
def SEC_REPORT (n : Nat) : Nat := 0x201000 + 0x8 * n
/-- SEC_KS_IN (Table 20.10). -/
def SEC_KS_IN (n : Nat) : Nat := 0x202000 + 0x8 * n
/-- SEC_CERT (Table 20.10). -/
def SEC_CERT : Nat := 0x204000
def SEC_CERT_LEN : Field := ⟨SEC_CERT, 0, 16⟩
/-- MOD_ID (Table 21.3). -/
def MOD_ID : Nat := 0x0
def MOD_ID_VENDOR : Field := ⟨MOD_ID, 0, 16⟩
def MOD_ID_PART : Field := ⟨MOD_ID, 16, 16⟩
def MOD_ID_STEPPING : Field := ⟨MOD_ID, 32, 8⟩
/-- MOD_VER (Table 21.3). -/
def MOD_VER : Nat := 0x8
def MOD_VER_ISA : Field := ⟨MOD_VER, 0, 16⟩
def MOD_VER_CQP_MAX : Field := ⟨MOD_VER, 16, 8⟩
def MOD_VER_CQP_MIN : Field := ⟨MOD_VER, 24, 8⟩
def MOD_VER_CARAVAN : Field := ⟨MOD_VER, 32, 8⟩
def MOD_VER_DESC : Field := ⟨MOD_VER, 40, 8⟩
/-- MOD_FW (Table 21.3). -/
def MOD_FW : Nat := 0x10
def MOD_FW_BUILD : Field := ⟨MOD_FW, 0, 32⟩
def MOD_FW_SVN : Field := ⟨MOD_FW, 32, 8⟩
/-- MOD_IDENT (Table 21.3). -/
def MOD_IDENT : Nat := 0x18
def MOD_IDENT_IDENTITY : Field := ⟨MOD_IDENT, 0, 64⟩
/-- MOD_MAC (Table 21.3). -/
def MOD_MAC : Nat := 0x20
def MOD_MAC_BASE_MAC : Field := ⟨MOD_MAC, 0, 48⟩
/-- MOD_CW (Table 21.3). -/
def MOD_CW : Nat := 0x28
def MOD_CW_CW_VA : Field := ⟨MOD_CW, 0, 64⟩
/-- MOD_ERR (Table 21.3). -/
def MOD_ERR : Nat := 0x30
def MOD_ERR_MISALIGNED : Field := ⟨MOD_ERR, 0, 1⟩
def MOD_ERR_UNASSIGNED : Field := ⟨MOD_ERR, 1, 1⟩
def MOD_ERR_LOCKED_WRITE : Field := ⟨MOD_ERR, 2, 1⟩
def MOD_ERR_RO_WRITE : Field := ⟨MOD_ERR, 3, 1⟩
/-- MOD_LASTBAD (Table 21.3). -/
def MOD_LASTBAD : Nat := 0x38
def MOD_LASTBAD_OFFSET : Field := ⟨MOD_LASTBAD, 0, 26⟩
def MOD_LASTBAD_PORT : Field := ⟨MOD_LASTBAD, 26, 2⟩
def MOD_LASTBAD_STEWARD : Field := ⟨MOD_LASTBAD, 28, 1⟩
/-- OAS_CTL (Table 21.4). -/
def OAS_CTL (n : Nat) : Nat := 0x1C00000 + 0x1000000 * n
def OAS_CTL_EN (n : Nat) : Field := ⟨(OAS_CTL n), 0, 1⟩
/-- OAS_STS (Table 21.4). -/
def OAS_STS (n : Nat) : Nat := 0x1C00008 + 0x1000000 * n
def OAS_STS_CHK (n : Nat) : Field := ⟨(OAS_STS n), 0, 8⟩
def OAS_STS_HOMED (n : Nat) : Field := ⟨(OAS_STS n), 8, 14⟩
/-- OAS_ERR (Table 21.4). -/
def OAS_ERR (n : Nat) : Nat := 0x1C00010 + 0x1000000 * n
def OAS_ERR_SRAM_CE (n : Nat) : Field := ⟨(OAS_ERR n), 0, 1⟩
def OAS_ERR_SRAM_UE (n : Nat) : Field := ⟨(OAS_ERR n), 1, 1⟩
/-- ERR_LOG_HDR (Table 22.3). -/
def ERR_LOG_HDR (n : Nat) : Nat := 0x301000 + 0x40 * n
def ERR_LOG_HDR_BLOCK (n : Nat) : Field := ⟨(ERR_LOG_HDR n), 0, 6⟩
def ERR_LOG_HDR_INSTANCE (n : Nat) : Field := ⟨(ERR_LOG_HDR n), 6, 7⟩
def ERR_LOG_HDR_KIND (n : Nat) : Field := ⟨(ERR_LOG_HDR n), 13, 2⟩
def ERR_LOG_HDR_VALID (n : Nat) : Field := ⟨(ERR_LOG_HDR n), 15, 1⟩
def ERR_LOG_HDR_CODE (n : Nat) : Field := ⟨(ERR_LOG_HDR n), 16, 8⟩
def ERR_LOG_HDR_TEN (n : Nat) : Field := ⟨(ERR_LOG_HDR n), 24, 6⟩
def ERR_LOG_HDR_MODULE (n : Nat) : Field := ⟨(ERR_LOG_HDR n), 30, 1⟩
def ERR_LOG_HDR_REPEAT (n : Nat) : Field := ⟨(ERR_LOG_HDR n), 32, 32⟩
/-- ERR_LOG_SEQ (Table 22.3). -/
def ERR_LOG_SEQ (n : Nat) : Nat := 0x301008 + 0x40 * n
def ERR_LOG_SEQ_SEQ (n : Nat) : Field := ⟨(ERR_LOG_SEQ n), 0, 64⟩
/-- ERR_LOG_FIRST (Table 22.3). -/
def ERR_LOG_FIRST (n : Nat) : Nat := 0x301010 + 0x40 * n
def ERR_LOG_FIRST_FIRST_STAMP (n : Nat) : Field := ⟨(ERR_LOG_FIRST n), 0, 64⟩
/-- ERR_LOG_LAST (Table 22.3). -/
def ERR_LOG_LAST (n : Nat) : Nat := 0x301018 + 0x40 * n
def ERR_LOG_LAST_LAST_STAMP (n : Nat) : Field := ⟨(ERR_LOG_LAST n), 0, 64⟩
/-- ERR_LOG_D0 (Table 22.3). -/
def ERR_LOG_D0 (n : Nat) : Nat := 0x301020 + 0x40 * n
def ERR_LOG_D0_DETAIL0 (n : Nat) : Field := ⟨(ERR_LOG_D0 n), 0, 64⟩
/-- ERR_LOG_D1 (Table 22.3). -/
def ERR_LOG_D1 (n : Nat) : Nat := 0x301028 + 0x40 * n
def ERR_LOG_D1_DETAIL1 (n : Nat) : Field := ⟨(ERR_LOG_D1 n), 0, 64⟩
/-- ERR_SUM (Table 22.4). -/
def ERR_SUM : Nat := 0x300000
def ERR_SUM_BLOCKS : Field := ⟨ERR_SUM, 0, 18⟩
def ERR_SUM_ALERT : Field := ⟨ERR_SUM, 63, 1⟩
/-- ERR_CTL (Table 22.4). -/
def ERR_CTL : Nat := 0x300008
def ERR_CTL_REF_PORT : Field := ⟨ERR_CTL, 0, 2⟩
/-- ERR_ALERT_EN (Table 22.4). -/
def ERR_ALERT_EN : Nat := 0x300010
def ERR_ALERT_EN_EN : Field := ⟨ERR_ALERT_EN, 0, 18⟩
/-- ERR_LOG_CTL (Table 22.4). -/
def ERR_LOG_CTL : Nat := 0x300018
def ERR_LOG_CTL_CLEAR : Field := ⟨ERR_LOG_CTL, 0, 1⟩
/-- ERR_LOG_STS (Table 22.4). -/
def ERR_LOG_STS : Nat := 0x300020
def ERR_LOG_STS_NEXT : Field := ⟨ERR_LOG_STS, 0, 64⟩
/-- ERR_LOG_OLD (Table 22.4). -/
def ERR_LOG_OLD : Nat := 0x300028
def ERR_LOG_OLD_OLDEST : Field := ⟨ERR_LOG_OLD, 0, 64⟩
/-- ERR_BRING (Table 25.2). -/
def ERR_BRING : Nat := 0x300030
def ERR_BRING_STAGE : Field := ⟨ERR_BRING, 0, 4⟩
def ERR_BRING_DONE : Field := ⟨ERR_BRING, 4, 1⟩
def ERR_BRING_HALTED : Field := ⟨ERR_BRING, 5, 1⟩
def ERR_BRING_BLOCK : Field := ⟨ERR_BRING, 8, 5⟩
def ERR_BRING_BIT : Field := ⟨ERR_BRING, 16, 6⟩
/-- ERR_BRING_T (Table 25.2). -/
def ERR_BRING_T : Nat := 0x300038
def ERR_BRING_T_TIME : Field := ⟨ERR_BRING_T, 0, 64⟩
/-- SEC_CERT_BODY (Table 20.10). -/
def SEC_CERT_BODY (n : Nat) : Nat := 0x204008 + 0x8 * n

/-- Part 0 of the register map. -/
def map0 : List RegDef :=
  [⟨.ham, 0x1800000, [(0x1000000, 2), (0x40000, 4)], 2, [⟨0, 1, .rw, 0⟩, ⟨8, 6, .rwl, 0⟩, ⟨16, 32, .rwl, 0⟩]⟩,
   ⟨.ham, 0x1800008, [(0x1000000, 2), (0x40000, 4)], 2, [⟨0, 8, .ro, 0⟩, ⟨8, 1, .ro, 0⟩, ⟨16, 32, .ro, 0⟩]⟩,
   ⟨.ham, 0x1800010, [(0x1000000, 2), (0x40000, 4)], 2, [⟨0, 1, .w1c, 0⟩, ⟨1, 1, .w1c, 0⟩, ⟨2, 1, .w1c, 0⟩, ⟨3, 1, .w1c, 0⟩, ⟨4, 1, .w1c, 0⟩, ⟨5, 1, .w1c, 0⟩, ⟨6, 1, .w1c, 0⟩]⟩,
   ⟨.ham, 0x1800018, [(0x1000000, 2), (0x40000, 4)], 2, [⟨0, 32, .ro, 1207960064⟩]⟩,
   ⟨.ham, 0x1801000, [(0x1000000, 2), (0x40000, 4), (0x8, 32)], 2, [⟨0, 4, .ro, 0⟩, ⟨4, 4, .ro, 0⟩, ⟨16, 14, .ro, 0⟩, ⟨32, 32, .ro, 0⟩]⟩,
   ⟨.wel, 0xA00000, [(0x100, 128)], 1, [⟨0, 1, .rw, 0⟩, ⟨8, 6, .rwl, 0⟩]⟩,
   ⟨.wel, 0xA00008, [(0x100, 128)], 1, [⟨0, 8, .ro, 0⟩, ⟨8, 9, .ro, 0⟩, ⟨17, 9, .ro, 0⟩, ⟨26, 1, .ro, 0⟩]⟩,
   ⟨.wel, 0xA00010, [(0x100, 128)], 1, [⟨0, 1, .w1c, 0⟩, ⟨1, 1, .w1c, 0⟩, ⟨2, 1, .w1c, 0⟩, ⟨3, 1, .w1c, 0⟩]⟩,
   ⟨.wel, 0xA00018, [(0x100, 128)], 1, [⟨0, 64, .rwl, 0⟩]⟩,
   ⟨.wel, 0xA00020, [(0x100, 128)], 1, [⟨0, 64, .rwl, 0⟩]⟩,
   ⟨.wel, 0xA00030, [(0x100, 128)], 1, [⟨0, 64, .ro, 0⟩]⟩,
   ⟨.wel, 0xA00028, [(0x100, 128)], 1, [⟨0, 32, .rwl, 1⟩]⟩]

/-- Part 1 of the register map. -/
def map1 : List RegDef :=
  [⟨.wel, 0xA00038, [(0x100, 128)], 1, [⟨0, 32, .ro, 0⟩, ⟨32, 32, .ro, 0⟩]⟩,
   ⟨.eng, 0x1000000, [(0x1000000, 2), (0x10000, 52)], 2, [⟨0, 1, .rw, 0⟩, ⟨8, 6, .rwl, 0⟩]⟩,
   ⟨.eng, 0x1000008, [(0x1000000, 2), (0x10000, 52)], 2, [⟨0, 8, .ro, 0⟩, ⟨8, 3, .ro, 1⟩, ⟨16, 6, .ro, 63⟩, ⟨24, 1, .ro, 0⟩, ⟨25, 1, .ro, 0⟩]⟩,
   ⟨.eng, 0x1000010, [(0x1000000, 2), (0x10000, 52)], 2, [⟨0, 1, .w1c, 0⟩, ⟨1, 1, .w1c, 0⟩, ⟨2, 1, .w1c, 0⟩, ⟨3, 1, .w1c, 0⟩, ⟨4, 1, .w1c, 0⟩, ⟨5, 1, .w1c, 0⟩, ⟨6, 1, .w1c, 0⟩]⟩,
   ⟨.eng, 0x1000018, [(0x1000000, 2), (0x10000, 52)], 2, [⟨0, 1, .rwl, 0⟩, ⟨4, 12, .rwl, 0⟩, ⟨16, 8, .rwl, 0⟩]⟩,
   ⟨.eng, 0x1000020, [(0x1000000, 2), (0x10000, 52)], 2, [⟨0, 64, .ro, 0⟩]⟩,
   ⟨.eng, 0x1000028, [(0x1000000, 2), (0x10000, 52)], 2, [⟨0, 64, .ro, 0⟩]⟩,
   ⟨.mem, 0x800000, [], 0, [⟨0, 1, .rw, 0⟩, ⟨1, 1, .rw, 1⟩, ⟨8, 6, .rwl, 30⟩, ⟨16, 8, .rwl, 8⟩, ⟨24, 8, .rwl, 12⟩, ⟨32, 7, .rwl, 95⟩, ⟨40, 7, .rwl, 85⟩]⟩,
   ⟨.mem, 0x800008, [], 0, [⟨0, 8, .ro, 0⟩, ⟨8, 1, .ro, 0⟩, ⟨9, 1, .ro, 0⟩, ⟨16, 7, .ro, 0⟩]⟩,
   ⟨.mem, 0x800018, [], 0, [⟨0, 64, .ro, 0⟩]⟩,
   ⟨.mem, 0x800010, [], 0, [⟨0, 1, .w1c, 0⟩, ⟨1, 1, .w1c, 0⟩, ⟨2, 1, .w1c, 0⟩, ⟨3, 1, .w1c, 0⟩, ⟨4, 1, .w1c, 0⟩, ⟨5, 1, .w1c, 0⟩, ⟨6, 1, .w1c, 0⟩, ⟨7, 1, .w1c, 0⟩, ⟨8, 1, .w1c, 0⟩]⟩,
   ⟨.mem, 0x800020, [], 0, [⟨0, 56, .wo, 0⟩, ⟨56, 6, .wo, 0⟩, ⟨62, 1, .wo, 0⟩, ⟨63, 1, .wo, 0⟩]⟩]

/-- Part 2 of the register map. -/
def map2 : List RegDef :=
  [⟨.mem, 0x800028, [], 0, [⟨0, 1, .ro, 0⟩, ⟨1, 1, .ro, 0⟩, ⟨2, 3, .ro, 0⟩, ⟨5, 1, .ro, 0⟩, ⟨6, 2, .ro, 0⟩, ⟨8, 1, .ro, 0⟩, ⟨9, 1, .ro, 0⟩, ⟨10, 1, .ro, 0⟩, ⟨11, 1, .ro, 0⟩, ⟨12, 2, .ro, 0⟩, ⟨16, 39, .ro, 0⟩]⟩,
   ⟨.mem, 0x800030, [], 0, [⟨0, 32, .ro, 0⟩, ⟨32, 16, .ro, 0⟩]⟩,
   ⟨.mem, 0x800038, [], 0, [⟨0, 32, .ro, 0⟩, ⟨32, 32, .ro, 0⟩]⟩,
   ⟨.mem, 0x800040, [], 0, [⟨0, 64, .ro, 0⟩]⟩,
   ⟨.mem, 0x800048, [], 0, [⟨0, 14, .rwl, 0⟩, ⟨16, 20, .rwl, 0⟩]⟩,
   ⟨.mem, 0x801000, [(0x20, 64)], 0, [⟨0, 14, .rwl, 0⟩, ⟨16, 20, .rwl, 0⟩, ⟨36, 24, .rwl, 0⟩]⟩,
   ⟨.mem, 0x801008, [(0x20, 64)], 0, [⟨0, 20, .rwl, 0⟩]⟩,
   ⟨.mem, 0x801010, [(0x20, 64)], 0, [⟨0, 14, .ro, 0⟩, ⟨16, 20, .ro, 0⟩, ⟨36, 24, .ro, 0⟩]⟩,
   ⟨.mem, 0x801018, [(0x20, 64)], 0, [⟨0, 20, .ro, 0⟩, ⟨20, 20, .ro, 0⟩]⟩,
   ⟨.mem, 0x802000, [(0x8, 16)], 0, [⟨0, 8, .ro, 0⟩, ⟨8, 16, .ro, 0⟩, ⟨32, 32, .ro, 0⟩]⟩,
   ⟨.cel, 0x700000, [], 0, [⟨0, 1, .rw, 0⟩, ⟨8, 1, .rwl, 1⟩]⟩,
   ⟨.cel, 0x700008, [], 0, [⟨0, 8, .ro, 0⟩, ⟨8, 1, .ro, 0⟩, ⟨16, 32, .ro, 0⟩]⟩]

/-- Part 3 of the register map. -/
def map3 : List RegDef :=
  [⟨.cel, 0x700010, [], 0, [⟨0, 1, .w1c, 0⟩, ⟨1, 1, .w1c, 0⟩, ⟨2, 1, .w1c, 0⟩, ⟨3, 1, .w1c, 0⟩, ⟨4, 1, .w1c, 0⟩, ⟨5, 1, .w1c, 0⟩, ⟨6, 1, .w1c, 0⟩, ⟨7, 1, .w1c, 0⟩]⟩,
   ⟨.cel, 0x700018, [], 0, [⟨0, 32, .ro, 7864320⟩]⟩,
   ⟨.cel, 0x700020, [], 0, [⟨0, 32, .rwl, 0⟩]⟩,
   ⟨.cel, 0x700028, [], 0, [⟨0, 32, .rwl, 0⟩]⟩,
   ⟨.cel, 0x700030, [], 0, [⟨0, 32, .ro, Reset.celSpare⟩, ⟨32, 32, .ro, 0⟩]⟩,
   ⟨.cel, 0x700038, [], 0, [⟨0, 64, .ro, 0⟩]⟩,
   ⟨.scn, 0x1400000, [(0x1000000, 2), (0x10000, 8)], 2, [⟨0, 1, .rw, 0⟩, ⟨8, 6, .rwl, 0⟩]⟩,
   ⟨.scn, 0x1400008, [(0x1000000, 2), (0x10000, 8)], 2, [⟨0, 8, .ro, 0⟩, ⟨8, 1, .ro, 0⟩, ⟨9, 1, .ro, 0⟩]⟩,
   ⟨.scn, 0x1400010, [(0x1000000, 2), (0x10000, 8)], 2, [⟨0, 1, .w1c, 0⟩, ⟨1, 1, .w1c, 0⟩, ⟨2, 1, .w1c, 0⟩, ⟨3, 1, .w1c, 0⟩, ⟨4, 1, .w1c, 0⟩, ⟨5, 1, .w1c, 0⟩]⟩,
   ⟨.scn, 0x1400018, [(0x1000000, 2), (0x10000, 8)], 2, [⟨0, 64, .ro, 0⟩]⟩,
   ⟨.scn, 0x1400020, [(0x1000000, 2), (0x10000, 8)], 2, [⟨0, 64, .ro, 0⟩]⟩,
   ⟨.scn, 0x1400028, [(0x1000000, 2), (0x10000, 8)], 2, [⟨0, 64, .ro, 0⟩]⟩]

/-- Part 4 of the register map. -/
def map4 : List RegDef :=
  [⟨.idx, 0x1600000, [(0x40, 64)], 1, [⟨0, 1, .rw, 0⟩, ⟨8, 6, .rwl, 0⟩, ⟨14, 1, .rwl, 0⟩]⟩,
   ⟨.idx, 0x1600008, [(0x40, 64)], 1, [⟨0, 8, .ro, 0⟩]⟩,
   ⟨.idx, 0x1600010, [(0x40, 64)], 1, [⟨0, 64, .rwl, 0⟩]⟩,
   ⟨.idx, 0x1600018, [(0x40, 64)], 1, [⟨0, 64, .rwl, 0⟩]⟩,
   ⟨.idx, 0x1600020, [(0x40, 64)], 1, [⟨0, 64, .ro, 0⟩]⟩,
   ⟨.idx, 0x1600028, [(0x40, 64)], 1, [⟨0, 64, .ro, 0⟩]⟩,
   ⟨.idx, 0x1600030, [(0x40, 64)], 1, [⟨0, 25, .ro, 0⟩, ⟨32, 25, .ro, 0⟩]⟩,
   ⟨.txt, 0x600000, [], 0, [⟨0, 1, .rw, 0⟩, ⟨16, 16, .rwl, 65535⟩, ⟨32, 16, .rwl, 65535⟩]⟩,
   ⟨.txt, 0x600008, [], 0, [⟨0, 8, .ro, 0⟩, ⟨8, 1, .ro, 0⟩, ⟨12, 13, .ro, 0⟩]⟩,
   ⟨.txt, 0x600010, [], 0, [⟨0, 1, .w1c, 0⟩, ⟨1, 1, .w1c, 0⟩, ⟨2, 1, .w1c, 0⟩, ⟨3, 1, .w1c, 0⟩, ⟨4, 1, .w1c, 0⟩]⟩,
   ⟨.txt, 0x600018, [], 0, [⟨0, 64, .ro, 0⟩]⟩,
   ⟨.txt, 0x600020, [], 0, [⟨0, 64, .ro, 0⟩]⟩]

/-- Part 5 of the register map. -/
def map5 : List RegDef :=
  [⟨.txt, 0x600028, [], 0, [⟨0, 64, .ro, 0⟩]⟩,
   ⟨.txt, 0x600030, [], 0, [⟨0, 32, .ro, 0⟩, ⟨32, 32, .ro, 0⟩]⟩,
   ⟨.txt, 0x600038, [], 0, [⟨0, 32, .ro, 0⟩, ⟨32, 32, .ro, 0⟩]⟩,
   ⟨.grm, 0x608000, [], 0, [⟨0, 1, .rw, 0⟩, ⟨32, 32, .rwl, 4294967295⟩]⟩,
   ⟨.grm, 0x608008, [], 0, [⟨0, 8, .ro, 0⟩, ⟨8, 7, .ro, 0⟩, ⟨15, 7, .ro, 0⟩]⟩,
   ⟨.grm, 0x608010, [], 0, [⟨0, 1, .w1c, 0⟩, ⟨1, 1, .w1c, 0⟩, ⟨2, 1, .w1c, 0⟩, ⟨3, 1, .w1c, 0⟩]⟩,
   ⟨.grm, 0x608018, [], 0, [⟨0, 64, .ro, 0⟩]⟩,
   ⟨.grm, 0x608020, [], 0, [⟨0, 32, .ro, 0⟩, ⟨32, 32, .ro, 0⟩]⟩,
   ⟨.grm, 0x608028, [], 0, [⟨0, 64, .ro, 0⟩]⟩,
   ⟨.grm, 0x609000, [(0x20, 64)], 0, [⟨0, 1, .ro, 0⟩, ⟨8, 6, .ro, 0⟩]⟩,
   ⟨.grm, 0x609008, [(0x20, 64)], 0, [⟨0, 64, .ro, 0⟩]⟩,
   ⟨.grm, 0x609010, [(0x20, 64)], 0, [⟨0, 64, .ro, 0⟩]⟩]

/-- Part 6 of the register map. -/
def map6 : List RegDef :=
  [⟨.sch, 0x900000, [], 0, [⟨0, 1, .rw, 0⟩]⟩,
   ⟨.sch, 0x900008, [], 0, [⟨0, 8, .ro, 0⟩, ⟨8, 11, .ro, 0⟩, ⟨32, 13, .ro, 0⟩, ⟨45, 1, .ro, 0⟩]⟩,
   ⟨.sch, 0x900010, [], 0, [⟨0, 1, .w1c, 0⟩, ⟨1, 1, .w1c, 0⟩, ⟨2, 1, .w1c, 0⟩, ⟨3, 1, .w1c, 0⟩]⟩,
   ⟨.sch, 0x900018, [], 0, [⟨0, 32, .ro, 0⟩, ⟨32, 32, .ro, 0⟩]⟩,
   ⟨.sch, 0x900020, [], 0, [⟨0, 4, .wo, 0⟩, ⟨4, 6, .wo, 0⟩, ⟨10, 6, .wo, 0⟩, ⟨16, 16, .wo, 0⟩, ⟨32, 16, .wo, 0⟩]⟩,
   ⟨.sch, 0x900028, [], 0, [⟨0, 64, .rw, 0⟩]⟩,
   ⟨.sch, 0x900030, [], 0, [⟨0, 8, .ro, 0⟩, ⟨8, 1, .ro, 0⟩, ⟨16, 16, .ro, 0⟩]⟩,
   ⟨.ten, 0x901000, [(0x40, 64)], 1, [⟨0, 1, .rw, 0⟩, ⟨1, 1, .rw, 0⟩, ⟨2, 1, .rwl, 0⟩, ⟨8, 2, .rwl, 0⟩, ⟨16, 5, .rwl, 31⟩, ⟨24, 3, .rwl, 0⟩]⟩,
   ⟨.ten, 0x901008, [(0x40, 64)], 1, [⟨0, 8, .ro, 0⟩, ⟨8, 3, .ro, 0⟩, ⟨16, 9, .ro, 0⟩, ⟨32, 13, .ro, 0⟩, ⟨48, 3, .ro, 0⟩, ⟨51, 1, .ro, 1⟩]⟩,
   ⟨.ten, 0x901010, [(0x40, 64)], 1, [⟨0, 14, .rwl, 0⟩]⟩,
   ⟨.ten, 0x901018, [(0x40, 64)], 1, [⟨0, 9, .rwl, 0⟩, ⟨16, 25, .rw, 0⟩]⟩,
   ⟨.ten, 0x901020, [(0x40, 64)], 1, [⟨0, 64, .rwl, 0⟩]⟩]

/-- Part 7 of the register map. -/
def map7 : List RegDef :=
  [⟨.ten, 0x901028, [(0x40, 64)], 1, [⟨0, 32, .ro, 0⟩, ⟨32, 32, .ro, 0⟩]⟩,
   ⟨.ten, 0x901030, [(0x40, 64)], 1, [⟨0, 32, .ro, 0⟩, ⟨32, 32, .ro, 0⟩]⟩,
   ⟨.ten, 0x901038, [(0x40, 64)], 1, [⟨0, 64, .ro, 0⟩]⟩,
   ⟨.sch, 0x903000, [(0x10, 16)], 0, [⟨0, 1, .rw, 0⟩, ⟨1, 3, .rw, 1⟩]⟩,
   ⟨.sch, 0x903008, [(0x10, 16)], 0, [⟨0, 6, .ro, 0⟩, ⟨6, 1, .ro, 1⟩, ⟨32, 32, .ro, 0⟩]⟩,
   ⟨.hst, 0x400000, [(0x10000, 4)], 1, [⟨0, 1, .rw, 0⟩, ⟨1, 1, .rwl, 0⟩, ⟨2, 2, .rwl, 2⟩, ⟨4, 1, .rwl, 0⟩, ⟨5, 3, .rwl, 3⟩, ⟨8, 6, .rwl, 26⟩, ⟨14, 1, .rwl, 1⟩, ⟨16, 24, .rwl, 8192⟩]⟩,
   ⟨.hst, 0x400008, [(0x10000, 4)], 1, [⟨0, 8, .ro, 0⟩, ⟨8, 1, .ro, 0⟩, ⟨9, 1, .ro, 1⟩, ⟨16, 9, .ro, 0⟩]⟩,
   ⟨.hst, 0x400010, [(0x10000, 4)], 1, [⟨0, 1, .w1c, 0⟩, ⟨1, 1, .w1c, 0⟩, ⟨2, 1, .w1c, 0⟩, ⟨3, 1, .w1c, 0⟩, ⟨4, 1, .w1c, 0⟩, ⟨5, 1, .w1c, 0⟩, ⟨6, 1, .w1c, 0⟩, ⟨7, 1, .w1c, 0⟩, ⟨8, 1, .w1c, 0⟩, ⟨9, 1, .w1c, 0⟩]⟩,
   ⟨.hst, 0x400018, [(0x10000, 4)], 1, [⟨0, 64, .ro, 0⟩]⟩,
   ⟨.hst, 0x400020, [(0x10000, 4)], 1, [⟨0, 24, .rwl, Reset.keySalt⟩]⟩,
   ⟨.hst, 0x400028, [(0x10000, 4)], 1, [⟨0, 32, .ro, 0⟩, ⟨32, 32, .ro, 0⟩]⟩,
   ⟨.hst, 0x400030, [(0x10000, 4)], 1, [⟨0, 32, .ro, 0⟩, ⟨32, 32, .ro, 0⟩]⟩]

/-- Part 8 of the register map. -/
def map8 : List RegDef :=
  [⟨.hst, 0x400038, [(0x10000, 4)], 1, [⟨0, 64, .ro, 0⟩]⟩,
   ⟨.hst, 0x401000, [(0x10000, 4), (0x10, 256)], 1, [⟨0, 3, .ro, 0⟩, ⟨3, 1, .ro, 0⟩, ⟨4, 6, .ro, 0⟩, ⟨10, 2, .ro, 0⟩, ⟨12, 1, .ro, 0⟩, ⟨13, 1, .ro, 0⟩, ⟨32, 24, .ro, 0⟩]⟩,
   ⟨.img, 0x480000, [], 0, [⟨0, 2, .wo, 0⟩, ⟨2, 2, .wo, 0⟩, ⟨4, 6, .wo, 0⟩]⟩,
   ⟨.img, 0x480008, [], 0, [⟨0, 31, .rw, 0⟩]⟩,
   ⟨.img, 0x480010, [], 0, [⟨0, 8, .ro, 0⟩, ⟨8, 1, .ro, 0⟩, ⟨9, 1, .ro, 1⟩, ⟨16, 48, .ro, 0⟩]⟩,
   ⟨.fab, 0x500000, [], 0, [⟨0, 1, .rw, 0⟩, ⟨1, 1, .rwl, 0⟩, ⟨8, 20, .rwl, 0⟩, ⟨32, 16, .rwl, 65535⟩]⟩,
   ⟨.fab, 0x500008, [], 0, [⟨0, 8, .ro, 0⟩, ⟨8, 1, .ro, 0⟩, ⟨9, 1, .ro, 0⟩, ⟨16, 16, .ro, 0⟩, ⟨32, 16, .ro, 0⟩]⟩,
   ⟨.fab, 0x500010, [], 0, [⟨0, 1, .w1c, 0⟩, ⟨1, 1, .w1c, 0⟩, ⟨2, 1, .w1c, 0⟩, ⟨3, 1, .w1c, 0⟩, ⟨4, 1, .w1c, 0⟩, ⟨5, 1, .w1c, 0⟩, ⟨6, 1, .w1c, 0⟩, ⟨7, 1, .w1c, 0⟩, ⟨8, 1, .w1c, 0⟩, ⟨9, 1, .w1c, 0⟩, ⟨10, 1, .w1c, 0⟩, ⟨11, 1, .w1c, 0⟩, ⟨12, 1, .w1c, 0⟩, ⟨13, 1, .w1c, 0⟩]⟩,
   ⟨.fab, 0x500018, [], 0, [⟨0, 64, .rwl, 0⟩]⟩,
   ⟨.fab, 0x500020, [], 0, [⟨0, 64, .rwl, 0⟩]⟩,
   ⟨.fab, 0x500028, [], 0, [⟨0, 64, .rwl, 0⟩]⟩,
   ⟨.fab, 0x500030, [], 0, [⟨0, 20, .rw, 0⟩, ⟨20, 20, .ro, 0⟩, ⟨40, 20, .ro, 0⟩]⟩]

/-- Part 9 of the register map. -/
def map9 : List RegDef :=
  [⟨.fab, 0x500038, [], 0, [⟨0, 20, .rwl, 0⟩, ⟨20, 16, .rwl, 0⟩, ⟨36, 3, .ro, 0⟩, ⟨40, 16, .rwl, 2000⟩]⟩,
   ⟨.fab, 0x500040, [], 0, [⟨0, 16, .rwl, 256⟩]⟩,
   ⟨.fab, 0x500048, [], 0, [⟨0, 20, .wo, 0⟩, ⟨20, 5, .wo, 0⟩]⟩,
   ⟨.fab, 0x500050, [], 0, [⟨0, 4, .rw, 0⟩, ⟨4, 1, .rw, 0⟩, ⟨5, 4, .rw, 0⟩, ⟨16, 16, .rw, 0⟩]⟩,
   ⟨.fab, 0x501000, [(0x20, 16)], 0, [⟨0, 1, .w1s, 0⟩]⟩,
   ⟨.fab, 0x501008, [(0x20, 16)], 0, [⟨0, 1, .ro, 0⟩, ⟨1, 1, .ro, 1⟩, ⟨2, 1, .ro, 0⟩, ⟨3, 1, .ro, 0⟩, ⟨4, 4, .ro, 0⟩, ⟨8, 4, .ro, 0⟩, ⟨16, 20, .ro, 0⟩, ⟨36, 4, .ro, 0⟩]⟩,
   ⟨.fab, 0x501010, [(0x20, 16)], 0, [⟨0, 32, .ro, 0⟩, ⟨32, 32, .ro, 0⟩]⟩,
   ⟨.fab, 0x501018, [(0x20, 16)], 0, [⟨0, 64, .ro, 0⟩]⟩,
   ⟨.emb, 0xB00000, [], 0, [⟨0, 1, .rw, 0⟩, ⟨1, 1, .rwl, 1⟩, ⟨16, 14, .rwl, 0⟩, ⟨32, 5, .rwl, 20⟩]⟩,
   ⟨.emb, 0xB00008, [], 0, [⟨0, 8, .ro, 0⟩, ⟨8, 1, .ro, 0⟩]⟩,
   ⟨.emb, 0xB00010, [], 0, [⟨0, 1, .w1c, 0⟩, ⟨1, 1, .w1c, 0⟩, ⟨2, 1, .w1c, 0⟩, ⟨3, 1, .w1c, 0⟩]⟩,
   ⟨.emb, 0xB00018, [], 0, [⟨0, 32, .ro, 0⟩, ⟨32, 32, .ro, 0⟩]⟩]

/-- Part 10 of the register map. -/
def map10 : List RegDef :=
  [⟨.emb, 0xB00020, [], 0, [⟨0, 64, .ro, 0⟩]⟩,
   ⟨.tab, 0xB01000, [(0x20, 32)], 1, [⟨0, 1, .rw, 0⟩, ⟨1, 1, .rwl, 0⟩, ⟨8, 6, .rwl, 0⟩]⟩,
   ⟨.tab, 0xB01008, [(0x20, 32)], 1, [⟨0, 64, .rwl, 0⟩]⟩,
   ⟨.tab, 0xB01010, [(0x20, 32)], 1, [⟨0, 8, .ro, 0⟩, ⟨8, 1, .ro, 0⟩, ⟨32, 32, .ro, 0⟩]⟩,
   ⟨.twn, 0xC00000, [], 0, [⟨0, 1, .rw, 0⟩, ⟨8, 2, .rwl, 0⟩, ⟨16, 16, .rwl, 10000⟩, ⟨32, 16, .rwl, 10000⟩]⟩,
   ⟨.twn, 0xC00008, [], 0, [⟨0, 8, .ro, 0⟩, ⟨8, 3, .ro, 0⟩, ⟨16, 11, .ro, 0⟩]⟩,
   ⟨.twn, 0xC00010, [], 0, [⟨0, 1, .w1c, 0⟩, ⟨1, 1, .w1c, 0⟩, ⟨2, 1, .w1c, 0⟩, ⟨3, 1, .w1c, 0⟩, ⟨4, 1, .w1c, 0⟩, ⟨5, 1, .w1c, 0⟩, ⟨6, 1, .w1c, 0⟩, ⟨7, 1, .w1c, 0⟩]⟩,
   ⟨.twn, 0xC00018, [], 0, [⟨0, 32, .ro, 0⟩, ⟨32, 32, .ro, 0⟩]⟩,
   ⟨.twn, 0xC00020, [], 0, [⟨0, 32, .ro, 0⟩, ⟨32, 32, .ro, 0⟩]⟩,
   ⟨.twn, 0xC00100, [(0x8, 16)], 0, [⟨0, 20, .ro, 0⟩, ⟨20, 20, .ro, 0⟩, ⟨40, 1, .ro, 0⟩]⟩,
   ⟨.pwr, 0x100000, [], 0, [⟨0, 1, .rw, 0⟩, ⟨1, 1, .rw, 0⟩, ⟨2, 2, .rwl, 0⟩, ⟨8, 8, .rwl, 90⟩, ⟨16, 16, .rwl, 4000⟩]⟩,
   ⟨.pwr, 0x100008, [], 0, [⟨0, 8, .ro, 0⟩, ⟨8, 1, .ro, 0⟩, ⟨9, 1, .ro, 0⟩, ⟨10, 3, .ro, 0⟩, ⟨13, 1, .ro, 0⟩, ⟨14, 1, .ro, 0⟩, ⟨16, 16, .ro, 0⟩, ⟨32, 16, .ro, 0⟩]⟩]

/-- Part 11 of the register map. -/
def map11 : List RegDef :=
  [⟨.pwr, 0x100010, [], 0, [⟨0, 1, .w1c, 0⟩, ⟨1, 1, .w1c, 0⟩, ⟨2, 1, .w1c, 0⟩, ⟨3, 1, .w1c, 0⟩, ⟨4, 1, .w1c, 0⟩, ⟨5, 1, .w1c, 0⟩, ⟨6, 1, .w1c, 0⟩, ⟨7, 1, .w1c, 0⟩, ⟨8, 1, .w1c, 0⟩]⟩,
   ⟨.pwr, 0x100018, [], 0, [⟨0, 50, .rw, 0x3FFFFFFFFFFFF⟩]⟩,
   ⟨.pwr, 0x100020, [], 0, [⟨0, 50, .ro, 0x3FFFFFFFFFFFF⟩]⟩,
   ⟨.pwr, 0x100028, [], 0, [⟨0, 8, .ro, 0⟩, ⟨8, 6, .ro, 0⟩, ⟨14, 1, .ro, 0⟩]⟩,
   ⟨.pwr, 0x100030, [], 0, [⟨0, 8, .ro, 0⟩, ⟨8, 8, .ro, 0⟩, ⟨16, 4, .ro, 0⟩]⟩,
   ⟨.pwr, 0x100100, [(0x20, 2)], 0, [⟨0, 10, .rwl, 780⟩]⟩,
   ⟨.pwr, 0x100108, [(0x20, 2)], 0, [⟨0, 10, .ro, 780⟩, ⟨16, 16, .ro, 0⟩, ⟨32, 8, .ro, 0⟩]⟩,
   ⟨.pwr, 0x100110, [(0x20, 2)], 0, [⟨0, 16, .ro, 400⟩, ⟨16, 16, .ro, 0⟩]⟩,
   ⟨.sec, 0x200000, [], 0, [⟨0, 1, .rw, 0⟩]⟩,
   ⟨.sec, 0x200008, [], 0, [⟨0, 8, .ro, 0⟩, ⟨8, 2, .ro, 0⟩, ⟨10, 1, .ro, 0⟩, ⟨11, 1, .ro, 0⟩, ⟨12, 2, .ro, Reset.lifecycle⟩, ⟨16, 8, .ro, 0⟩, ⟨24, 8, .ro, Reset.svnFloor⟩, ⟨32, 13, .ro, 0⟩]⟩,
   ⟨.sec, 0x200010, [], 0, [⟨0, 1, .w1c, 0⟩, ⟨1, 1, .w1c, 0⟩, ⟨2, 1, .w1c, 0⟩, ⟨3, 1, .w1c, 0⟩, ⟨4, 1, .w1c, 0⟩, ⟨5, 1, .w1c, 0⟩]⟩,
   ⟨.sec, 0x200020, [(0x8, 4)], 0, [⟨0, 64, .rw, 0⟩]⟩]

/-- Part 12 of the register map. -/
def map12 : List RegDef :=
  [⟨.sec, 0x200040, [], 0, [⟨0, 1, .wo, 0⟩]⟩,
   ⟨.sec, 0x200048, [], 0, [⟨0, 2, .wo, 0⟩, ⟨2, 4, .wo, 0⟩]⟩,
   ⟨.sec, 0x200050, [], 0, [⟨0, 8, .ro, 0⟩, ⟨8, 1, .ro, 0⟩]⟩,
   ⟨.sec, 0x200058, [], 0, [⟨0, 2, .wo, 0⟩, ⟨32, 32, .wo, 0⟩]⟩,
   ⟨.sec, 0x200060, [], 0, [⟨0, 8, .ro, 0⟩, ⟨8, 1, .ro, 0⟩]⟩,
   ⟨.sec, 0x200068, [], 0, [⟨0, 12, .rw, 0⟩]⟩,
   ⟨.sec, 0x200070, [], 0, [⟨0, 2, .ro, 0⟩]⟩,
   ⟨.sec, 0x200080, [(0x8, 4)], 0, [⟨0, 64, .ro, 0⟩]⟩,
   ⟨.sec, 0x200100, [(0x20, 4), (0x8, 4)], 0, [⟨0, 64, .ro, 0⟩]⟩,
   ⟨.sec, 0x201000, [(0x8, 40)], 0, [⟨0, 64, .ro, 0⟩]⟩,
   ⟨.sec, 0x202000, [(0x8, 32)], 0, [⟨0, 64, .rw, 0⟩]⟩,
   ⟨.sec, 0x204000, [], 0, [⟨0, 16, .ro, Reset.certLen⟩]⟩]

/-- Part 13 of the register map. -/
def map13 : List RegDef :=
  [⟨.mod, 0x0, [], 0, [⟨0, 16, .ro, 19785⟩, ⟨16, 16, .ro, 18432⟩, ⟨32, 8, .ro, Reset.stepping⟩]⟩,
   ⟨.mod, 0x8, [], 0, [⟨0, 16, .ro, 512⟩, ⟨16, 8, .ro, 3⟩, ⟨24, 8, .ro, 2⟩, ⟨32, 8, .ro, 1⟩, ⟨40, 8, .ro, 1⟩]⟩,
   ⟨.mod, 0x10, [], 0, [⟨0, 32, .ro, 0⟩, ⟨32, 8, .ro, 0⟩]⟩,
   ⟨.mod, 0x18, [], 0, [⟨0, 64, .ro, Reset.identity⟩]⟩,
   ⟨.mod, 0x20, [], 0, [⟨0, 48, .ro, Reset.baseMac⟩]⟩,
   ⟨.mod, 0x28, [], 0, [⟨0, 64, .ro, 72057593970819072⟩]⟩,
   ⟨.mod, 0x30, [], 0, [⟨0, 1, .w1c, 0⟩, ⟨1, 1, .w1c, 0⟩, ⟨2, 1, .w1c, 0⟩, ⟨3, 1, .w1c, 0⟩]⟩,
   ⟨.mod, 0x38, [], 0, [⟨0, 26, .ro, 0⟩, ⟨26, 2, .ro, 0⟩, ⟨28, 1, .ro, 0⟩]⟩,
   ⟨.oas, 0x1C00000, [(0x1000000, 2)], 1, [⟨0, 1, .rw, 0⟩]⟩,
   ⟨.oas, 0x1C00008, [(0x1000000, 2)], 1, [⟨0, 8, .ro, 0⟩, ⟨8, 14, .ro, 0⟩]⟩,
   ⟨.oas, 0x1C00010, [(0x1000000, 2)], 1, [⟨0, 1, .w1c, 0⟩, ⟨1, 1, .w1c, 0⟩]⟩,
   ⟨.err, 0x301000, [(0x40, 64)], 0, [⟨0, 6, .ro, 0⟩, ⟨6, 7, .ro, 0⟩, ⟨13, 2, .ro, 0⟩, ⟨15, 1, .ro, 0⟩, ⟨16, 8, .ro, 0⟩, ⟨24, 6, .ro, 0⟩, ⟨30, 1, .ro, 0⟩, ⟨32, 32, .ro, 0⟩]⟩]

/-- Part 14 of the register map. -/
def map14 : List RegDef :=
  [⟨.err, 0x301008, [(0x40, 64)], 0, [⟨0, 64, .ro, 0⟩]⟩,
   ⟨.err, 0x301010, [(0x40, 64)], 0, [⟨0, 64, .ro, 0⟩]⟩,
   ⟨.err, 0x301018, [(0x40, 64)], 0, [⟨0, 64, .ro, 0⟩]⟩,
   ⟨.err, 0x301020, [(0x40, 64)], 0, [⟨0, 64, .ro, 0⟩]⟩,
   ⟨.err, 0x301028, [(0x40, 64)], 0, [⟨0, 64, .ro, 0⟩]⟩,
   ⟨.err, 0x300000, [], 0, [⟨0, 18, .ro, 0⟩, ⟨63, 1, .ro, 0⟩]⟩,
   ⟨.err, 0x300008, [], 0, [⟨0, 2, .rw, 0⟩]⟩,
   ⟨.err, 0x300010, [], 0, [⟨0, 18, .rw, 0x3FFFF⟩]⟩,
   ⟨.err, 0x300018, [], 0, [⟨0, 1, .w1s, 0⟩]⟩,
   ⟨.err, 0x300020, [], 0, [⟨0, 64, .ro, 0⟩]⟩,
   ⟨.err, 0x300028, [], 0, [⟨0, 64, .ro, 0⟩]⟩,
   ⟨.err, 0x300030, [], 0, [⟨0, 4, .ro, 0⟩, ⟨4, 1, .ro, 0⟩, ⟨5, 1, .ro, 0⟩, ⟨8, 5, .ro, 0⟩, ⟨16, 6, .ro, 0⟩]⟩]

/-- Part 15 of the register map. -/
def map15 : List RegDef :=
  [⟨.err, 0x300038, [], 0, [⟨0, 64, .ro, 0⟩]⟩,
   ⟨.sec, 0x204008, [(0x8, 2047)], 0, [⟨0, 64, .ro, Reset.certWord⟩]⟩]

/-- The register map: every register the spec assigns. -/
def regMap : List RegDef :=
  map0 ++ map1 ++ map2 ++ map3 ++ map4 ++ map5 ++ map6 ++ map7 ++ map8 ++ map9 ++ map10 ++ map11 ++ map12 ++ map13 ++ map14 ++ map15

end R

end Sys2Proof.Machine
end

