-- ==== Sys2Proof/Machine/State.lean ====
section
/-!
DEFINITION. The state of the module as plain data, the reasons a step can stop, and the state after reset.
Every numbered collection is a sparse table: what it does not list is at its reset value.
-/
namespace Sys2Proof.Machine

/-- Why a step stops with a fault. -/
inductive Fault where
  /-- Raised by a command whose operand names a unit, port, core or index that Table 0.4 and Table 1.1 do not
  give the module (00, 01 R7). Safe: no such event exists. -/
  | noSuchUnit
deriving DecidableEq, Repr

/-- Why a step has no meaning. -/
inductive Refusal where
  /-- Raised by exec for a command that the model gives no meaning yet. Safe. -/
  | notModelled (mnemonic : String)
deriving DecidableEq, Repr

/-! ## Cores and turns (03) -/

/-- The states of a core (HAM_CORE_STS.STATE, Table 3.15). -/
inductive CoreMode where
  | idle | running | waiting | excHalted | syncHalted
deriving DecidableEq, Repr

/-- What a core's task waits for: a ticket (cmd.wait, with d), a range (cmd.waitall, with d), a barrier, room in a
queue (cmd.issue), a lease (well.draw), its older turn's commit (R54), or the answer to a read of a shared pool page (02 R23), by OP_ID. -/
inductive Wait where
  | none
  | ticket (d t : Nat)
  | range (d first last : Nat)
  | barrier (ham num : Nat)
  | issue
  | draw
  | turn
  | pool (op : Nat)
deriving DecidableEq, Repr

/-- How a turn ended (R52, R80); `open_` while it runs, an exception with its cause and word index. -/
inductive TurnEnd where
  | open_
  | plain
  | barrier (ham num : Nat)
  | halt
  | exception (code pc : Nat)
deriving DecidableEq, Repr

/-- What a core saves at the start of a turn (R55): registers, masks, program counter, ticket counts (R76). -/
structure Ckpt where
  g : Tab Word
  v : Tab Vec
  m : Tab Word
  pc : Word
  counts : Tab Nat
deriving DecidableEq, Repr

/-- A command that a turn has issued and that enters Issued at the turn's commit (R75). -/
structure PendIssue where
  queue : Nat
  seq : Nat
  words : List Nat
  depBad : Bool
deriving DecidableEq, Repr

/-- One turn of a core (R51 to R55): its number in the task, its checkpoint, the old contents of the scratch lines it
wrote, its deferred stores by key, the 64-byte lines they cover, the granules it read, the granules whose heat it has
added to, its deferred register write, issues and aborts, its
counts of retired instructions and draws, how it ended, and the granules of the pool it read (07 R174). -/
structure Turn where
  num : Nat
  ckpt : Ckpt
  kept : Tab (BitVec 512)
  stores : Tab Byte
  lines : List Nat
  reads : List Nat
  touched : List Nat
  arg : Option Word
  issues : List PendIssue
  aborts : List (Nat × Nat)
  retired : Nat
  draws : Nat
  fin : TurnEnd
  far : List Nat
deriving DecidableEq, Repr

/-- What the kills of one turn have come to: kills in a row for the causes of R31, kills in a row for TRANSLATION (07 R187), the
shelter mark. -/
structure TurnMark where
  kills : Nat := 0
  trans : Nat := 0
  sheltered : Bool := false
deriving DecidableEq, Repr

/-- A hamlet core and the task it holds (Table 3.1, Table 3.9, Table 3.15). `istore` lists the words of the
instruction store that are not zero; `bank` is the scratch bank the task holds (R56); `handles`, `wells` and `bars`
are what the task holds; `counts` is the number of commands issued per queue; `marks` holds, by number, the kills of the turns
not yet committed; `await` lists the pages whose resolution its rerun waits for; `held` says that its turns are killed and their rerun has not begun,
`discarding` that the kill is not complete (R26), `lastKill` the code of the kill; `ending` says that the task ends when its sheltered turn
has committed (R57), `down` that the core failed and the task waits for another (R56); `pool` is the run of a shared pool page, key and length,
that a peer has just sent for its load. -/
structure Core where
  mode : CoreMode := .idle
  exc : Nat := 0
  excPc : Nat := 0
  wait : Wait := .none
  g : Tab Word := []
  v : Tab Vec := []
  m : Tab Word := []
  pc : Word := 0
  istore : Tab (BitVec 32) := []
  bank : Nat := 0
  ten : Nat := 0
  epoch : Nat := 0
  arg : Word := 0
  turnsDone : Nat := 0
  turnNum : Nat := 0
  turns : List Turn := []
  counts : Tab Nat := []
  handles : List Nat := []
  wells : List Nat := []
  bars : List (Nat × Nat) := []
  marks : Tab TurnMark := []
  await : List Nat := []
  held : Bool := false
  discarding : Bool := false
  lastKill : Nat := 0
  ending : Bool := false
  down : Bool := false
  pool : Option (Nat × Nat) := none
deriving DecidableEq, Repr

/-! ## Embedding tables (17) -/

/-- A table's descriptor (Table 17.1): whether codes have 4 bits, elements, rows, rows a home, the address of each home's
first row, the homes. -/
structure EmbDesc where
  nibbles : Bool
  dim : Nat
  rows : Nat
  per : Nat
  base : Nat
  homes : List Nat
deriving DecidableEq, Repr

/-! ## Queues, commands and wells (02, 04) -/

/-- The command states of Table 2.1, with Irrevocable (R33) and void, the end of a command killed for STREAM_ABORT (R96). -/
inductive CmdSt where
  | issued | running | ready | irrevocable | committed | killed | void
deriving DecidableEq, Repr

/-- A detokenizer stream (11 R284 to R292): its tenancy, STOP_INCLUDE, REPAIR, stop strings, held tail, whether it has
stopped. -/
structure Strm where
  ten : Nat
  incl : Bool
  repair : Bool
  stops : List (List Byte)
  held : List Byte
  stopped : Bool
deriving DecidableEq, Repr

/-- One deferred effect of a command (Table 2.2), applied at its commit. A write names the key of its
first byte; `count` adds to a field of a register, `work` does as the work happens (02 R17); `embSwap` installs a table's descriptor; `send` is a caravan and `msg` a CQP message, sent at the start point of
a non-killable command or at the commit. `late` stands for the effect of a command whose outcome its class decides at the commit point (R588). -/
inductive Effect where
  | write (key : Nat) (data : List Byte)
  | fill (key len pattern : Nat)
  | wellFill (n base limit step : Nat)
  | stream (n : Nat) (v : Option Strm)
  | count (reg lo w n : Nat)
  | work (reg lo w n : Nat)
  | late
  | embSwap (table : Nat) (addr : Nat) (d : EmbDesc)
  | send (port : Option Nat) (c : Car)
  | msg (q : Nat) (words : List Nat)
deriving DecidableEq, Repr

/-- What a Running command has made ready to commit: its status, RESULT0 to RESULT3 and its effects. -/
structure Done where
  status : Nat
  res : List Nat
  effs : List Effect
deriving DecidableEq, Repr

/-- A command (R14, R87, R93): the tenancy and core that issued it, the descriptor as issued and as patched, whether a
dependency word was bad when it was issued (R91), its state, the unit that runs it and that unit's bind epoch when it
started, attempts, the latest kill's code, kills in a row (R31, R187), the shelter mark, the lease it holds (well and
value), the index sequence at its start (08 R224), whether a draw waits (R103), the granules it has read, the pages it touches (R34), the accumulator tiles it has reserved (R139), what it has
made ready, whether its irrevocable effect is complete (R35), the first word of its record once committed, the pages whose
resolution it waits for (R184), whether its unit has yet to finish a kill (R26), the port and stamp of its start (18 R463), the granules of the pool it has
read (07 R174), the runs of shared pool pages, each key and length, that peers have sent for this attempt (02 R23), and the refusal of its
index as it left Issued (08 R241, R244). -/
structure Cmd where
  ten : Nat := 0
  core : Nat := 0
  words : List Nat := []
  patched : List Nat := []
  depBad : Bool := false
  st : CmdSt := .issued
  unit : Nat := 0
  epoch : Nat := 0
  attempts : Nat := 0
  lastKill : Nat := 0
  kills : Nat := 0
  transKills : Nat := 0
  sheltered : Bool := false
  lease : Option (Nat × Nat) := none
  snap : Nat := 0
  drawWait : Bool := false
  reads : List Nat := []
  pages : List Nat := []
  tiles : Nat := 0
  done : Option Done := none
  nkDone : Bool := false
  record : Nat := 0
  await : List Nat := []
  discarding : Bool := false
  runAt : Nat × Nat := (0, 0)
  far : List Nat := []
  fetched : List (Nat × Nat) := []
  barred : Option Nat := none
  cutAt : Option Nat := none
deriving DecidableEq, Repr

/-- A queue (R84, R85, R94): the core whose task holds it, its class, the units that serve it, its completion ring,
and its outstanding maximum. -/
structure Queue where
  core : Nat
  ten : Nat
  cls : Nat
  units : List Nat
  ringBase : Nat
  ringSize : Nat
  maxOut : Nat
deriving DecidableEq, Repr

/-- Who drew a lease (R102): a turn of a core by its number, or a command by its ticket. -/
inductive Drawer where
  | turn (core num : Nat)
  | cmd (ticket : Nat)
deriving DecidableEq, Repr

/-- A live lease of a well: value, drawer, the drawing unit and its bind epoch (R102). -/
structure Lease where
  value : Nat
  drawer : Drawer
  unit : Nat
  epoch : Nat
deriving DecidableEq, Repr

/-- A well's tables (R102): live leases, the returned list, the fenced leases' drawers (R105). The registers hold the rest. -/
structure Well where
  live : List Lease := []
  returned : List Nat := []
  fenced : List Lease := []
deriving DecidableEq, Repr

/-- A hamlet barrier (R72): participant count and the cores whose arrival has committed. -/
structure Bar where
  count : Nat
  arrived : List Nat
deriving DecidableEq, Repr

/-- A bound program (06): its manifest, the port of the bind, the granules of the spill areas the loader reserved (R144), its
shadow demand in bytes (R152), and the cores whose tasks have not yet started (03 R83). -/
structure Program where
  manifest : Manifest
  port : Nat
  spill : Nat
  shadow : Nat
  waiting : List Nat
deriving DecidableEq, Repr

/-- The figures of a load verdict (Table 6.3), with the tenancy it goes to. -/
structure Verdict where
  ten : Nat
  reason : Nat
  task : Nat
  site : Nat
  wordIx : Nat
  value : Nat
  limit : Nat
deriving DecidableEq, Repr

/-- Everything the commit machinery holds: the next commit serial (02 R20), cores, queues, commands by ticket, wells,
barriers by tenancy, hamlet and number, programs by tenancy, load verdicts delivered (the tenancy and the record's four words), granules whose copy-back is not complete (07 R180), bind
epochs by unit, and the count of free values taken (the model's own field). -/
structure Exec where
  serial : Nat := 0
  cores : Tab Core := []
  queues : Tab Queue := []
  cmds : Tab Cmd := []
  wells : Tab Well := []
  bars : Tab Bar := []
  progs : Tab Program := []
  verdicts : List (Nat × List Nat) := []
  copybacks : List Nat := []
  epochs : Tab Nat := []
  free : Nat := 0
deriving DecidableEq, Repr

/-! ## Pages, moves and faults (07) -/

/-- A page's entry (Table 7.2, Table 7.17): whether writable, the one tenancy a fold has made it writable for (08 R229), its home state and frame, pin and pinned stack, hint,
when its hold ends, at which port and for whose reruns (R30), its store image, the tenancies a module-owned page is mapped into, its
oasis bits, its heat with the era of the last update, its granules' heats with theirs, its poisoned granules, and what
it can be rebuilt from (Table 7.11: 0 nothing, 1 model set, 2 store image, 3 the twin). -/
structure Page where
  writable : Bool := false
  writer : Option Nat := none
  st : Nat := 0
  frame : Nat := 0
  pin : Nat := 0
  pinStack : Option Nat := none
  hint : Nat := 0
  held : Bool := false
  holdPort : Nat := 0
  holdEnd : Nat := 0
  holdFor : List Drawer := []
  image : Bool := false
  imageUnit : Nat := 0
  users : List Nat := []
  oasis : Nat := 0
  heat : Nat := 0
  era : Nat := 0
  gheat : Tab (Nat × Nat) := []
  poison : Nat := 0
  source : Nat := 0
deriving DecidableEq, Repr

/-- A `drift.move` in flight (R176): the page's key, the granule for an oasis move, the new home state and frame,
whether it moves inward, its command state, and why. -/
structure Move where
  page : Nat
  granule : Option Nat
  toSt : Nat
  toFrame : Nat
  inward : Bool
  st : CmdSt
  why : MoveWhy
  die : Nat
deriving DecidableEq, Repr

/-- The memory system: pages by key (space * 2^35 + page number), moves in flight, the next move's number, the lines
moved since the era last advanced (R165), frames out of use (R192), the rows in which an error was corrected, one entry (frame, row) an
error (R192), bad store sectors (R206), the pages whose resolution has been found waiting (R188), the retirement list of rows in boot
flash (R192), the pages that a remote or host access to this module waits for (16 R428, 15 R384), consecutive accesses repeated for parity
by channel, 32 * stack + channel (R193), frames with an uncorrectable line (R192), retired frames whose soft repair waits for their page to
move, each with its row and whether the repair will succeed (R192), the next place of each space's round over stacks and groups (R190),
and the tiers being emptied from HIGH_PCT to LOW_PCT, each space * 4 + tier (R167). -/
structure Vm where
  pages : Tab Page := []
  moves : Tab Move := []
  nextMove : Nat := 0
  lines : Nat := 0
  retired : List Nat := []
  corrRows : List (Nat × Nat) := []
  badSectors : List Nat := []
  waitPages : List Nat := []
  retireList : List (Nat × Nat) := []
  awaited : List Nat := []
  parity : Tab Nat := []
  ueFrames : List Nat := []
  repairs : List (Nat × Nat × Bool) := []
  rota : Tab Nat := []
  shrink : List Nat := []
deriving DecidableEq, Repr

/-! ## Engines (05, 06) -/

/-- The engines beside their registers: the idle-fill phase of each (0 none since the last pass, 1 filling, 2 taper, 3
stopped; 05 R134), the passes that each has received and that have reserved no accumulator tiles (06 R139), and the variant table: base and size of each
resident variant's delta region (05 R124). -/
structure EngineSt where
  fill : Tab Nat := []
  tileWait : Tab (List Nat) := []
  variants : Tab (Nat × Nat) := []
deriving DecidableEq, Repr

/-! ## The text unit (11, 12) -/

/-- The text unit beside its registers: open streams by number, and the bytes of the image in each grammar slot. -/
structure TextSt where
  streams : Tab Strm := []
  slotBytes : Tab Nat := []
deriving DecidableEq, Repr

/-! ## The fabric (16) -/

/-- A row of a routing table (R424). -/
structure RtRow where
  ord : Nat
  valid : Bool
  hops : Nat
  mask : Nat
deriving DecidableEq, Repr

/-- One neighbour in a TOPO record (Table 16.2): its address, its port, the origin's port, lanes up. -/
structure TopoLink where
  addr : Nat
  port : Nat
  lport : Nat
  lanes : Nat
deriving DecidableEq, Repr

/-- What a port has heard of its neighbour (R422): identity, address, port, twin bit, consecutive LINK_HELLOs, the stamp of
the latest. -/
structure Nbr where
  ident : Nat := 0
  addr : Nat := 0
  port : Nat := 0
  twin : Bool := false
  count : Nat := 0
  stamp : Nat := 0
deriving DecidableEq, Repr

/-- A write or an emitted message held at its destination (R430, R432): source, OP_ID, tenancy, space, whether a caravan of
it had CE, the pieces. -/
structure Staged where
  src : Nat
  op : Nat
  ten : Nat
  space : Nat
  ce : Bool
  pieces : List (Nat × List Byte)
deriving DecidableEq, Repr

/-- A command that waits for a peer (R429 to R431, 17): its ticket, what it waits for (1 read data, 2 a staged write, 3 an
atomic, 4 adds, 5 an embedding row, 6 a confirming read, 7 a part of a shared pool page), destination and hops, the row an embedding read is for or
the part's key, bytes expected, answers so far. Kind 8 is the part that a load reads; `hops` is then the core. Kind 9 is a part that a host or a peer reads. -/
structure RemoteOp where
  ticket : Nat
  kind : Nat
  dst : Nat
  hops : Nat
  arg : Nat
  total : Nat
  got : List (Nat × List Byte)
deriving DecidableEq, Repr

/-- A mirror caravan without MIR_ACK: its OSEQ, the port and stamp of its sending (R441). -/
structure MirWait where
  oseq : Nat
  port : Nat
  stamp : Nat
deriving DecidableEq, Repr

/-- The fabric beside its registers: by port, the next LSEQ to send, the caravans not acknowledged with the stamps of their
sending, the next LSEQ to take (R416) and the neighbour; caravans that wait for a route, with the table they wait in
(R424), and caravans this module takes itself; PSEQ and OSEQ counters (keys: destination, or destination * 4 + class)
and, by source * 2^20 + destination, the highest PSEQ and the PSEQs taken (R417), and by that * 4 + class the OSEQ last
taken, with the ordered caravans held back (R414); TOPO records and numbers (R423); whether the module has withdrawn
(R421); routing rows by table * 2^20 + address and the row selected (R424, R427); injection windows with the stamps of
their last change (R419); staged writes, partly received messages, commands that wait by OP_ID, the next OP_ID; frames
lent with their borrowers and the frames recalled (R434, R435); key/value credits by tenancy * 2^20 + stage address:
granted and taken up (R438); mirror caravans unacknowledged; peers declared lost; the stamps of the periodic
sends by port * 4 (hello, beat, lock) and, at 1000, of the last TOPO refresh. -/
structure FabricSt where
  lseq : Tab Nat := []
  unacked : Tab (List (Nat × Car)) := []
  rx : Tab Nat := []
  nbrs : Tab Nbr := []
  waiting : List (Nat × Car) := []
  selfIn : List Car := []
  pseq : Tab Nat := []
  oseq : Tab Nat := []
  taken : Tab (Nat × List Nat) := []
  oseqIn : Tab Nat := []
  held : List Car := []
  topo : Tab (Nat × List TopoLink) := []
  topoSeq : Nat := 0
  rows : Tab RtRow := []
  rtSel : Nat := 0
  inject : Tab (Nat × Nat × Nat) := []
  withdrawn : Bool := false
  timers : Tab Nat := []
  staged : List Staged := []
  emits : List Staged := []
  ops : Tab RemoteOp := []
  nextOp : Nat := 0
  lent : List (Nat × Nat) := []
  recalls : List Nat := []
  credits : Tab (Nat × Nat) := []
  mirrors : List MirWait := []
  lost : List Nat := []
  acks : Tab Nat := []
  fetched : List (Nat × Nat) := []
  denied : List (Nat × Nat) := []
deriving DecidableEq, Repr

/-- The embedding unit (17) beside its registers: descriptors by table * 2^32 + version; the row cache by set * 16 + way, each a
key with the row's bytes when its home is another module; the admission sketch's counters and the look-ups since they were
halved (R448); the swaps that a step commit has let leave Issued (R456). -/
structure EmbSt where
  descs : Tab EmbDesc := []
  cache : Tab (Nat × List Byte) := []
  sketch : Tab Nat := []
  lookups : Nat := 0
  released : List Nat := []
deriving DecidableEq, Repr

/-! ## Ports (02) -/

/-- The port-time meters of the 4 host ports (0 to 3) and the 16 fabric ports (4 to 19), which port's PCS holds lock, and
the deadlines set and not yet reached, each a port and a value (02 R40, R41, R45). -/
structure Ports where
  meters : Tab Nat := []
  locked : List Nat := []
  deadlines : List (Nat × Nat) := []
deriving DecidableEq, Repr

/-! ## Host queue pairs (15) -/

/-- A latency report's figures (Table 14.6). -/
structure Lat where
  ttftOver : Bool := false
  ttftNone : Bool := true
  ttft : Nat := 0
  tbtMax : Nat := 0
  intervals : Nat := 0
  tbtSum : Nat := 0
  tbtOver : Nat := 0
  unmeasured : Nat := 0
deriving DecidableEq, Repr

/-- What a delivery stamp changed, kept until the message is acknowledged: the row, its figures and its latest delivery
before. -/
structure Undo where
  row : Nat
  lat : Lat
  last : Option (Nat × Nat)
deriving DecidableEq, Repr

/-- A message the module has sent on a queue pair and that is not yet acknowledged: its number on the pair, its TYPE
(Table 15.4), its 64-bit words, and for TOKENS and DONE the batch's admission order, the entries in it by row, what
its stamps changed, and whether its stamps are due when it next leaves. -/
structure HostMsg where
  seq : Nat
  kind : Nat
  words : List Nat
  order : Nat := 0
  entries : List (Nat × List Byte) := []
  undo : List Undo := []
  due : Bool := false
deriving DecidableEq, Repr

/-- A host queue pair beside its HST_QP register (R380, R382): the number of the next message, the messages sent and not
acknowledged, the stamp of the latest sending, retries and RNR retries taken, the stamp at which the RNR timer started, whether
RNR_EXHAUSTED has been raised for the message refused, the
send rate in kb/s, the stamps of the latest CNP received or rate step and of the latest CNP sent, and the rings, by admission order and row, whose
consumer word is being read: the first 4 are outstanding (15 Table 15.1). -/
structure Qp where
  next : Nat := 0
  sent : List HostMsg := []
  sentAt : Nat := 0
  retries : Nat := 0
  rnr : Nat := 0
  rnrAt : Option Nat := none
  exhausted : Bool := false
  rate : Nat := 200000000
  cnpAt : Nat := 0
  cnpSent : Option Nat := none
  reads : List (Nat × Nat) := []
deriving DecidableEq, Repr

/-- What leaves a host port other than a CQP message (the model's own record of the wire): an acknowledgement, a NAK with its
code (0 invalid request, 1 remote access, 2 RNR), a CNP, the data of a READ response, an RDMA WRITE, a READ request, a CM reply
(0 REP, 1 REJ). -/
inductive HostOut where
  | ack (q : Nat)
  | nak (q code : Nat)
  | cnp (q : Nat)
  | readData (q : Nat) (data : List Byte)
  | write (q rkey va : Nat) (data : List Byte)
  | readReq (q rkey va len : Nat)
  | cm (port reply : Nat)
deriving DecidableEq, Repr

/-- An image load (R406): kind, target, bytes received, whether a `cel.prog` of it met NV_BLOCKED, whether END was written. -/
structure ImgLoad where
  kind : Nat
  target : Nat
  received : Nat
  nv : Bool
  ended : Bool
deriving DecidableEq, Repr

/-- An RDMA access of a host that waits for pages (R384): its pair, key, address, length, data; a read or a write. -/
structure HostOp where
  q : Nat
  rkey : Nat
  va : Nat
  len : Nat
  data : List Byte
  read : Bool
deriving DecidableEq, Repr

/-- The host ports' state: queue pairs by handle (256 * port + index), the handles that have completed a HELLO, the most recent
first, the end of the PFC pause of each paused port, accesses that wait, the wire record, the image load. -/
structure HostSt where
  qps : Tab Qp := []
  hellos : List Nat := []
  paused : Tab Nat := []
  held : List HostOp := []
  out : List HostOut := []
  img : Option ImgLoad := none
deriving DecidableEq, Repr

/-! ## Requests and batches (10, 13 to 15) -/

/-- A packing block (Table 10.1). -/
structure PackBlk where
  template : Nat
  splice : Bool
  lastFirst : Bool
  b : Nat
  perShard : Nat
  packN : Nat
  budget : Nat
  gatherWait : Nat
deriving DecidableEq, Repr

/-- A generation block (Table 13.3). -/
structure GenBlk where
  variant : Nat
  seedEn : Bool
  draftMax : Nat
  grammarEn : Bool
  seed : Nat
  temp : Nat
  topP : Nat
  topK : Nat
  maxNew : Nat
  bias : List (Nat × Nat)
deriving DecidableEq, Repr

/-- A ring block (R392). -/
structure RingBlk where
  va : Nat
  rkey : Nat
  log2 : Nat
  consVa : Nat
  consRkey : Nat
deriving DecidableEq, Repr

/-- A request section as received (Table 15.7): REQ_ID, ISET, RING, its blocks, the stop block (STOP_INCLUDE, REPAIR, strings), the
question; the search and grammar blocks as bytes. -/
structure Req where
  reqId : Nat
  iset : Nat
  ring : Bool
  pack : PackBlk
  gen : GenBlk
  search : Option (List Byte)
  stopIncl : Bool
  stopRepair : Bool
  stops : List (List Byte)
  gram : Option (List Byte)
  ringBlk : Option RingBlk
  question : List Byte
deriving DecidableEq, Repr

/-- A packing summary (Table 10.4). -/
structure PackSum where
  packed : Nat := 0
  spliced : Nat := 0
  bUsed : Nat := 0
  cut : Nat := 0
  prompt : Nat := 0
  prefilled : Nat := 0
  reranked : Nat := 0
deriving DecidableEq, Repr

/-- The key/value state of a request on this module (13 R327 to R331, 10 R270): its tenancy, the number of its page table, the private
pages it holds by table entry, the home's plan and B when the request is homed elsewhere, this stage's splice mask once sent, the
fetched blocks of the packed passages whose entries passed, and whether the agreed blocks are placed. -/
structure KvReq where
  ten : Nat
  table : Nat
  pages : Tab Nat := []
  plan : List (Nat × Nat × Nat × Nat) := []
  b : Nat := 0
  mask : Option Nat := none
  fetched : Tab (List Byte) := []
  placed : Bool := false
deriving DecidableEq, Repr

/-- What the serving program sends another module of the pipeline (the model's own record; the spec gives these messages no layout):
the plan, a splice mask, a feed, proposals, a step record (10 R270, 13 R322 to R324, R340). -/
inductive StageOut where
  | plan (dst batch row : Nat) (plan : List (Nat × Nat × Nat × Nat))
  | mask (dst home batch row mask : Nat)
  | feed (dst batch step level : Nat) (rows : List Nat)
  | masks (dst batch step : Nat) (rows : List Nat)
  | proposals (dst batch row : Nat) (tokens : List Nat)
  | record (dst batch : Nat) (r : StepRec)
deriving DecidableEq, Repr

/-- A row of a batch (R357, R358): its request; whether live, and its status (Table 15.11, 7 live); flags; the serial of a cancel
commit that awaits its step; whether its prompt is placed; the prompt's tokens, the packing plan (passage, start, packed length,
tokens) and the splice mask agreed; its detokenizer stream; tokens generated; the draft length rule's counts; proposals
with the draft's logits; the run fed and what the grammar step said of it, and that `grm.step`'s ticket; a mirrored row's shadow grammar session (18 R471); the step record decided; figures of its reports
and the stamp and port of the latest delivery; ring delivery: on its ring, PROD, the copy of CONS, the
stamp at which CONS was last asked for, records that wait (an empty one is the DONE entry, made when it is written), whether the
batch ends with its DONE entry; the records and the output entries of its last 16 steps, the latter with their steps, and its
DONE entry; key/value pages reserved by stage, whether they are freed; the valid length V (13 R328) and the pages released by
window layer of this stage (R330). -/
structure Row where
  req : Req
  live : Bool := true
  status : Nat := 7
  cancel : Option Nat := none
  cancelLate : Bool := false
  truncated : Bool := false
  short : Bool := false
  fallback : Bool := false
  packed : Bool := false
  prompt : List Nat := []
  plan : List (Nat × Nat × Nat × Nat) := []
  agreed : Option Nat := none
  sum : PackSum := {}
  strm : Strm
  generated : Nat := 0
  draftLen : Nat := 0
  zeroRun : Nat := 0
  probeWait : Nat := 0
  props : List (Nat × List Nat) := []
  feed : Option FeedIn := none
  grm : Option Nat := none
  sess : List Byte := []
  stepRec : Option StepRec := none
  lat : Lat := {}
  lastAt : Option (Nat × Nat) := none
  onRing : Bool := false
  prod : Nat := 0
  cons : Nat := 0
  consAsked : Option Nat := none
  records : List (List Byte) := []
  endsBatch : Bool := false
  recs : List StepRec := []
  history : List (Nat × List Byte) := []
  done : List Byte := []
  pages : List Nat := []
  freed : Bool := false
  valid : Nat := 0
  released : List Nat := []
deriving DecidableEq, Repr

/-- A message of a batch taken over that waits for a queue pair (18 R477): its TYPE, whether its tokens are new, its words, its
entries by row. -/
structure Owed where
  kind : Nat
  fresh : Bool
  words : List Nat
  entries : List (Nat × List Byte)
deriving DecidableEq, Repr

/-- A batch (R357 to R363): tenancy, BATCH_ID, queue pair, version, level, targets in µs, home port, admission stamp and order; its
step, whether it is fed; its rows; the message as received; the mirror OSEQs its ADMIT and its step commit wait for (18
R468), cancels that wait for theirs; the rows whose MIR_END is sent; whether mirrored; whether it was taken over and has no queue
pair yet, and the messages that wait for one (18 R477). -/
structure Batch where
  ten : Nat
  id : Nat
  qp : Nat
  ver : Nat
  level : Nat
  ttft : Nat
  tbt : Nat
  port : Nat
  stamp : Nat
  order : Nat
  step : Nat := 0
  fed : Bool := false
  rows : List Row
  msg : List Byte
  admitWait : Option Nat := none
  stepWait : Option Nat := none
  cancelWait : List (Nat × Nat) := []
  mirEnded : List Nat := []
  mirrored : Bool := false
  noQp : Bool := false
  owed : List Owed := []
deriving DecidableEq, Repr

/-- Serving on this module: batches by handle, batches that have ended with ring records still to write (15 R401), the next
admission order, the model set with its measurement, variants whose removal is pending (13 R346), the key/value
state of requests by home, handle and row, the pairs that the re-ranker has scored last (10 R258), what has been sent to other
modules of the pipeline. -/
structure ServeSt where
  batches : Tab Batch := []
  tails : List Batch := []
  nextOrder : Nat := 0
  model : Option (ModelSet × Nat) := none
  removing : List Nat := []
  kv : Tab KvReq := []
  pairs : List (List Nat) := []
  out : List StageOut := []
deriving DecidableEq, Repr

/-! ## The scheduler (14) -/

/-- A re-bind under way (R353): KIND, TO, FROM, QP, TAG, SET, and who wrote it. -/
structure Rebind where
  kind : Nat
  dest : Nat
  frm : Nat
  qp : Nat
  tag : Nat
  set : Nat
  via : Via
deriving DecidableEq, Repr

/-- A slice that has ended with work of its holder running past its end (R370): the holder, the end, the overrun so far, and
the commands and turns that run on. -/
structure Past where
  ten : Nat
  finish : Nat
  beyond : Nat
  refs : List Ref
deriving DecidableEq, Repr

/-- The scheduler beside its registers: the end of the slice in progress by rota (0 to 15, or 64 + t for a tenancy of its own
rota), the slices with work past their end, each tenancy's total overrun in ns and the slices it has held, the re-bind under
way. -/
structure SchedSt where
  ends : Tab Nat := []
  past : List Past := []
  totals : Tab Nat := []
  held : Tab Nat := []
  rebind : Option Rebind := none
deriving DecidableEq, Repr

/-! ## The window arbiter (21) -/

/-- A unit's consistency check in progress (R531, R532): who set EN, the stamp of the write at its port, and the writes
that wait for its end. -/
structure CheckRun where
  via : Via
  stamp : Nat
  held : List (Via × Nat × Nat)
deriving DecidableEq, Repr

/-! ## Twin mode (18) -/

/-- Twin mode beside its registers: the partner's batches mirrored here by their handle at the partner, the pieces of MIR_ADMITs
not yet complete, the key/value pieces mirrored (by handle * 64 + row, each with its words and bytes), the twin ports that show
TWIN_LOS and those that show ACK_MISS, the stamp of the suspicion and its cause, the OP_ID of the confirming read, the partner's
epoch as last offered, whether a partner declared lost has yet to pair at a higher one, whether beats have come back in each
direction in PARTED, modules that have answered a SUBST, the tenancies handed over, and those of them whose commands still run on (03 R589). -/
structure TwinSt where
  batches : Tab Batch := []
  pieces : Tab (List Byte) := []
  kv : Tab (List (List Nat × List Byte)) := []
  los : List Nat := []
  miss : List Nat := []
  suspectAt : Option Nat := none
  cause : Nat := 0
  confirm : Option Nat := none
  peerEpoch : Nat := 0
  fenced : Bool := false
  beatIn : Bool := false
  beatOut : Bool := false
  substAcks : List Nat := []
  handed : List Nat := []
  leaving : List Nat := []
deriving DecidableEq, Repr

/-! ## Power and clocks (19, 23) -/

/-- A crossing from clockless logic into a clocked edge (23 R557, R558): the sender's toggle level and the receiver's acknowledge level, which
differ while an acknowledge is outstanding; the holding register with the value sent (its sender and its number there) and what the
receiver sampled last; the events that wait, oldest first; whether the edge's reference has stopped since the last reset of the crossing. -/
structure Crossing where
  level : Bool := false
  ack : Bool := false
  hold : Option (Nat × Nat) := none
  sample : Option (Nat × Nat) := none
  waiting : List (Nat × Nat) := []
  stopped : Bool := false
deriving DecidableEq, Repr

/-- The power manager beside its registers: domain changes requested and not served (domain, on), each die's cap limit of R498 and
thermal limit of R499 in mV, the port and stamp of each die's latest VCORE step, those since which the input has lain in range after a controlled shutdown
(R492), the steps of a controlled shutdown done (R491),
references that are absent (0 HOST_REFCLK, 1 to 4 FAB_REFCLK0 to 3, 5 MEM_REFCLK), whether RST_N is low, whether every rail
is in regulation (PWRGD), whether the bulk capacitance is charged (R564), whether the module sleeps. -/
structure PwrSt where
  queue : List (Nat × Bool) := []
  capLimit : Tab Nat := []
  thermal : Tab Nat := []
  stepAt : Tab (Nat × Nat) := []
  steadyAt : Option (Nat × Nat) := none
  phase : Nat := 0
  absent : List Nat := []
  rstLow : Bool := false
  pwrgd : Bool := true
  charged : Bool := true
  asleep : Bool := false
deriving DecidableEq, Repr

/-! ## The security island (20) -/

/-- One copy of the boot control block (R503): its sequence number, whether its digest verifies, the ACTIVE slot (0 A, 1 B), the
TRY slot, the module epoch. -/
structure BootCtl where
  seq : Nat := 0
  valid : Bool := true
  active : Nat := 0
  try_ : Option Nat := none
  epoch : Nat := 0
deriving DecidableEq, Repr

/-- One copy of the key store (R518): its sequence number, whether its digest verifies, SM4 keys and signer keys by slot, the
slots revoked (SM4 slot n as n, signer slot n as 16 + n). -/
structure KeyCopy where
  seq : Nat := 0
  valid : Bool := true
  keys : Tab Nat := []
  signers : Tab Nat := []
  revoked : List Nat := []
deriving DecidableEq, Repr

/-- The island beside its registers: the measurement log, oldest first (the register and the value), the two copies of the boot
control block and of the key store, a key-store write in progress with what it installs, whether the ROM waits to clear TRY
(R504), whether the slot booted came from TRY, the bytes in the recovery buffer. -/
structure SecSt where
  log : List (Nat × Nat) := []
  boot : List BootCtl := [{}, {}]
  store : List KeyCopy := [{}, {}]
  writing : Option KeyCopy := none
  tryWait : Option Nat := none
  tried : Bool := false
  recovery : Nat := 0
deriving DecidableEq, Repr

/-- What the flash arrays keep without power (07 R199, 25 R581, R584): the sizes of the store and spill regions, and the images in the store
region (0 the model set, 1 + x index x) with their length in bytes and what their body holds. -/
structure NvSt where
  regions : Nat × Nat := (0, 0)
  images : Tab (Nat × ImgContent) := []
deriving DecidableEq, Repr

/-! ## Sideband pins (24) -/

/-- The sideband: the straps as read (2 * SB_ADDR1 + SB_ADDR0), whether VDDIO_SB is present, the I3C dynamic address, the register
sampled by the latest READ, the bytes the latest transfer returned and whether it was acknowledged (the model's own record of
the bus), the TAP's instruction (0 BYPASS, 1 IDCODE, 2 SAMPLE/PRELOAD, 3 EXTEST, 4 CLAMP, 5 HIGHZ), the value that the register it
selects captures, and the boundary register. -/
structure SideSt where
  strap : Nat := 0
  vddio : Bool := false
  dyn : Option Nat := none
  sample : Option Nat := none
  reply : List Nat := []
  acked : Bool := false
  tap : Nat := 0
  dr : Nat := 0
  boundary : List Bool := []
deriving DecidableEq, Repr

/-- The state of the module: the commands that wait, the control window's registers by offset, memory, and what each
unit holds. -/
structure State where
  pending : List Instr := []
  cw : Tab Word := []
  mem : List Host.Cell := []
  x : Exec := {}
  vm : Vm := {}
  en : EngineSt := {}
  tx : TextSt := {}
  fa : FabricSt := {}
  em : EmbSt := {}
  sv : ServeSt := {}
  sc : SchedSt := {}
  pt : Ports := {}
  ho : HostSt := {}
  checks : Tab CheckRun := []
  tw : TwinSt := {}
  pw : PwrSt := {}
  se : SecSt := {}
  sb : SideSt := {}
  nv : NvSt := {}
  cx : Tab Crossing := []
deriving DecidableEq, Repr

/-- The module right after reset. -/
def State.reset : State := {}

end Sys2Proof.Machine
end

