-- ==== Sys2Proof/Machine/Ops.lean ====
section
/-!
DEFINITION. The operations every command shares: memory, the control window's registers, port time, the error
record (22), messages to hosts, free values.
-/
namespace Sys2Proof.Machine

/-! ## Memory: one store of bytes, keyed by space and address -/

/-- What an address that is not listed reads as: unfilled pages and zeroed banks read zero (07 Table 7.2, 03 R57). -/
def unlisted : Byte := 0

/-- The form of a memory: addresses strictly rising, no entry equal to what an unlisted address reads as. -/
def memWf : List Host.Cell → Bool
  | [] => true
  | [(_, b)] => b != unlisted
  | (a, b) :: (a', b') :: t => b != unlisted && decide (a < a') && memWf ((a', b') :: t)

/-- One byte. -/
def memGet : List Host.Cell → Nat → Byte
  | [], _ => unlisted
  | (k, b) :: t, a => if a = k then b else if a < k then unlisted else memGet t a

/-- One byte put in front of a memory that lies above it: nothing when it reads as unlisted. -/
def memCons (a : Nat) (b : Byte) (t : List Host.Cell) : List Host.Cell := if b = unlisted then t else (a, b) :: t

/-- A memory with one byte written. -/
def memSet : List Host.Cell → Nat → Byte → List Host.Cell
  | [], a, b => memCons a b []
  | (k, v) :: t, a, b =>
    if a = k then memCons a b t else if a < k then memCons a b ((k, v) :: t) else (k, v) :: memSet t a b

/-- A run of bytes written from an address. -/
def memSetRun : List Host.Cell → Nat → List Byte → List Host.Cell
  | m, _, [] => m
  | m, a, b :: bs => memSetRun (memSet m a b) (a + 1) bs

/-- A run of n bytes from an address. -/
def memRun (m : List Host.Cell) : Nat → Nat → List Byte
  | _, 0 => []
  | a, n + 1 => memGet m a :: memRun m (a + 1) n

/-- A memory with n bytes from an address reading as unlisted. -/
def memClear (m : List Host.Cell) (a n : Nat) : List Host.Cell := m.filter fun c => decide (c.1 < a) || decide (a + n ≤ c.1)

/-- The key of an address of a space: spaces 0 to 63 are the tenancies' virtual ranges, 64 the module-owned pages, 65 the
boot flash, 66 the stage region, 67 the recovery buffer, 68 the frames lent to peers, 69 an image being loaded, 128 + b scratch bank b, 512 + i
the images of the store region (log entry 10). -/
def key (space va : Nat) : Nat := space * 2 ^ 56 + va

def spModule : Nat := 64
def spFlash : Nat := 65
def spStage : Nat := 66
def spRecovery : Nat := 67
def spLent : Nat := 68
def spLoad : Nat := 69
def spImage (i : Nat) : Nat := 512 + i
def spScratch (bank : Nat) : Nat := 128 + bank

def State.byte (s : State) (k : Nat) : Byte := memGet s.mem k
def State.run (s : State) (k n : Nat) : List Byte := memRun s.mem k n
/-- The 64-bit word at a key, least significant byte first. -/
def State.word (s : State) (k : Nat) : Nat := ofLe (s.run k 8)
def State.writeRun (s : State) (k : Nat) (bs : List Byte) : State := { s with mem := memSetRun s.mem k bs }
def State.clearRun (s : State) (k n : Nat) : State := { s with mem := memClear s.mem k n }

/-! ## The control window -/

/-- The numbers of the copy of a register array that an offset names, if it names one exactly. -/
def matchDims : Nat → List (Nat × Nat) → Option (List Nat)
  | r, [] => if r = 0 then some [] else none
  | r, (st, c) :: ds => if r / st < c then (matchDims (r % st) ds).map (r / st :: ·) else none

/-- The register at an offset and its copy's numbers. -/
def regIn : List RegDef → Nat → Option (RegDef × List Nat)
  | [], _ => none
  | d :: ds, off =>
    if off < d.base then regIn ds off
    else match matchDims (off - d.base) d.dims with
      | some ix => some (d, ix)
      | none => regIn ds off

def findReg (off : Nat) : Option (RegDef × List Nat) := regIn R.regMap off

/-- The number of a block's copy from its leading numbers: 52d + e, 8d + s, 4d + h, or the number itself. -/
def copyNumber (d : RegDef) (ix : List Nat) : Nat :=
  (List.zip (d.dims.take d.udims) ix).foldl (fun a p => a * p.1.2 + p.2) 0

/-- A register's reset value from its fields. -/
def fieldsReset (fs : List FieldDef) : Nat := fs.foldl (fun a f => a + f.rst * 2 ^ f.lo) 0

/-- Whether engine e of a die is a spare E6 (05 Table 5.5). -/
def isSpare (e : Nat) : Bool := e % 52 == 6 || e % 52 == 19 || e % 52 == 32 || e % 52 == 45

/-- The reset value of the register at an offset; the spares' ENG_STS.STATE is 2 (05 Table 5.7). -/
def resetWord (off : Nat) : Nat :=
  match findReg off with
  | some (d, ix) =>
    let w := fieldsReset d.fields
    if d.blk = .eng ∧ d.base = 0x1000008 ∧ isSpare (copyNumber d ix) then setBits w 8 3 2 else w
  | none => 0

/-- The stored word of a register. -/
def State.reg (s : State) (off : Nat) : Word :=
  match tfind s.cw off with
  | some w => w
  | none => Machine.word (resetWord off)

def State.setReg (s : State) (off : Nat) (v : Nat) : State := { s with cw := tset s.cw off (Machine.word v) }

/-- A field of a stored register. -/
def State.get (s : State) (f : Field) : Nat := bits (s.reg f.reg).toNat f.lo f.w

/-- A field of a stored register set. -/
def State.put (s : State) (f : Field) (v : Nat) : State := s.setReg f.reg (setBits (s.reg f.reg).toNat f.lo f.w v)

/-- A field increased, wrapping at its width. -/
def State.bump (s : State) (f : Field) (n : Nat) : State := s.put f (s.get f + n)

/-- A register set back to its reset value. -/
def State.resetReg (s : State) (off : Nat) : State := { s with cw := tdel s.cw off }

/-- Whether a power domain is powered (19 Table 19.3, PWR_DOM_STS). -/
def State.powered (s : State) (dom : Nat) : Bool := (s.get R.PWR_DOM_STS_POWERED).testBit dom

/-- Whether a powered domain is requested off (19 R494). -/
def State.domLeaving (s : State) (dom : Nat) : Bool := s.powered dom && !(s.get R.PWR_DOM_CTL_ON).testBit dom

/-! ## Port time -/

/-- The meter of a port: host ports 0 to 3, fabric port n at 4 + n (02 R40). -/
def State.time (s : State) (port : Nat) : Nat := tget s.pt.meters port 0

/-- The host port through which a tenancy is bound (14 R351), the port of durations that name none (00 R5). -/
def State.tenPort (s : State) (ten : Nat) : Nat := s.get (R.SCH_TEN_CTL_PORT ten)

/-- The power domain of a port: 40 for the host ports, the quadrant's for a fabric port (19 Table 19.3). -/
def portDomain (port : Nat) : Nat := if port < 4 then 40 else 41 + (port - 4) / 4

/-- The host port in whose time the power manager's durations run (19 R485); while PWR_CTL.EN is 0, the reset value of the field (R501). -/
def State.pwrPort (s : State) : Nat := if s.get R.PWR_CTL_EN = 1 then s.get R.PWR_CTL_REF_PORT else 0

/-- Whether a port's meter counts: its power domain is on (R40), or the power manager keeps the time of its reference port by it while the
module waits to start again after a controlled shutdown (19 R485, R492). -/
def State.counts (s : State) (port : Nat) : Bool :=
  s.powered (portDomain port) || (s.pw.phase == 4 && port == s.pwrPort)

/-- One nanosecond of port time: every port that counts, out of reset (R40). -/
def State.tick (s : State) : State :=
  if s.pw.rstLow then s
  else { s with pt := { s.pt with meters := (List.range 20).foldl (fun m port =>
      if s.counts port then tset m port ((tget m port 0 + 1) % 2 ^ 64) else m) s.pt.meters } }

/-! ## Free values -/

/-- The next free value, and the state with it counted as taken. -/
def State.takeFree (s : State) : Nat × State :=
  (Config.freeValue s.x.free, { s with x := { s.x with free := s.x.free + 1 } })

/-! ## Crossings into the clocked edges (23)

Edges are numbered as the ports are: host ports 0 to 3, fabric port n at 4 + n. -/

/-- The events a crossing can hold while an acknowledge is outstanding. -/
def crossMax : Nat := 65535

/-- An acknowledge is outstanding. -/
def Crossing.busy (x : Crossing) : Bool := x.level != x.ack

/-- The events held in the crossing's count; those beyond it stand at senders that have stalled (R557). -/
def Crossing.count (x : Crossing) : Nat := min x.waiting.length crossMax

/-- Whether a sender has stalled at the crossing. -/
def Crossing.stalled (x : Crossing) : Bool := decide (crossMax < x.waiting.length)

/-- A value sent (R558): placed in the holding register and the level inverted, or kept waiting while an acknowledge is outstanding. -/
def Crossing.send (x : Crossing) (v : Nat × Nat) : Crossing :=
  if x.busy then { x with waiting := x.waiting ++ [v] } else { x with hold := some v, level := !x.level }

/-- The receiver turns a change of the level into one pulse, samples the holding register and acknowledges; the sender then sends the next
event that waits. -/
def Crossing.take (x : Crossing) : Crossing :=
  if x.busy then
    let x := { x with sample := x.hold, ack := x.level }
    match x.waiting with
    | [] => x
    | v :: vs => { x with hold := some v, level := !x.level, waiting := vs }
  else x

/-- So many takes. -/
def Crossing.takes : Nat → Crossing → Crossing
  | 0, x => x
  | n + 1, x => takes n x.take

/-- Everything held delivered (R559). -/
def Crossing.drain (x : Crossing) : Crossing := x.takes (x.waiting.length + 1)

def State.crossing (s : State) (edge : Nat) : Crossing := tget s.cx edge {}

/-- The reference that an edge's clock comes from (Table 23.1): 0 HOST_REFCLK, 1 + q FAB_REFCLKq. -/
def edgeClock (edge : Nat) : Nat := if edge < 4 then 0 else 1 + (edge - 4) / 4

/-- A value sent across an edge: taken at once while the edge's clock runs. -/
def State.cross (s : State) (edge : Nat) (v : Nat × Nat) : State :=
  let x := (s.crossing edge).send v
  { s with cx := tset s.cx edge (if s.pw.absent.contains (edgeClock edge) then x else x.drain) }

/-- A crossing reset on both sides (R560): what it held is discarded. -/
def State.crossReset (s : State) (edge : Nat) : State := { s with cx := tdel s.cx edge }

/-! ## Messages to hosts -/

/-- A queue pair's registers: port and index of a handle. -/
def qpReg (f : Nat → Nat → Field) (q : Nat) : Field := f (q / 256) (q % 256)

def State.qpOf (s : State) (q : Nat) : Qp := tget s.ho.qps q {}

/-- A CQP message sent on a queue pair (15 R385). -/
def State.sendMsg (s : State) (q kind : Nat) (words : List Nat) : State :=
  let p := s.qpOf q
  let s := s.cross (q / 256) (q, p.next)
  { s with ho := { s.ho with qps := tset s.ho.qps q { p with
    next := p.next + 1, sent := p.sent ++ [⟨p.next, kind, words, 0, [], [], false⟩], sentAt := s.time (q / 256) } } }

/-- Whether a queue pair is connected, in a role (0 request, 1 manager), with EVENTS set (Table 15.16). -/
def State.evPair (s : State) (role q : Nat) : Bool :=
  s.get (qpReg R.HST_QP_STATE q) == 2 && s.get (qpReg R.HST_QP_ROLE q) == role && s.get (qpReg R.HST_QP_EVENTS q) == 1

/-- The tenancy's event queue pair: of the pairs whose HELLO set EVENTS, the most recent (15 R387). -/
def State.eventQp (s : State) (ten : Nat) : Option Nat :=
  s.ho.hellos.find? fun q => s.evPair 0 q && s.get (qpReg R.HST_QP_TEN q) == ten

/-- The tenancy that a cause on a queue pair concerns (22 Table 22.3): a request pair's own. -/
def State.qpTen (s : State) (q : Nat) : Option Nat :=
  if s.get (qpReg R.HST_QP_ROLE q) = 0 then some (s.get (qpReg R.HST_QP_TEN q)) else none

/-- The tenancy that a cause of an engine, a scan unit or a core concerns (22 Table 22.6): the one it is bound to. -/
def State.unitTen (s : State) (cls n : Nat) : Option Nat :=
  match cls with
  | 0x01 => if s.get (R.ENG_CTL_EN n) = 1 then some (s.get (R.ENG_CTL_TEN n)) else none
  | 0x02 => if s.get (R.SCN_CTL_EN n) = 1 then some (s.get (R.SCN_CTL_TEN n)) else none
  | 0x20 => if s.get (R.HAM_CTL_EN (n / 32)) = 1 then some (s.get (R.HAM_CTL_TEN (n / 32))) else none
  | _ => none

/-- Every manager queue pair whose HELLO set EVENTS (15 R402). -/
def State.managerQps (s : State) : List Nat := s.ho.hellos.filter fun q => s.evPair 1 q

/-- An EVENT's words (15 R402): header, kind word, stamp, four words of detail. -/
def eventWords (ver kind reason : Nat) (ten : Option Nat) (stamp : Nat) (detail : List Nat) : List Nat :=
  [ver + 0x85 * 2 ^ 8 + 64 * 2 ^ 32, 0,
   kind + reason * 2 ^ 8 + (match ten with | some t => t * 2 ^ 16 | none => 2 ^ 22), stamp,
   nw detail 0, nw detail 1, nw detail 2, nw detail 3]

/-- The EVENT sent on one queue pair, at the pair's version. -/
def State.eventOn (s : State) (kind reason : Nat) (ten : Option Nat) (stamp : Nat) (detail : List Nat) (q : Nat) : State :=
  s.sendMsg q 0x85 (eventWords (s.get (qpReg R.HST_QP_VER q)) kind reason ten stamp detail)

/-- An EVENT sent to its tenancy's event queue pair, or, with no tenancy, to every manager pair; one that no pair
receives is counted in HST_CNT.EVENT_LOST of the tenancy's port, or of the reference port (15 R402). -/
def State.sendEvent (s : State) (kind reason : Nat) (ten : Option Nat) (stamp : Nat) (detail : List Nat) : State :=
  match ten with
  | some t =>
    match s.eventQp t with
    | some q => s.eventOn kind reason ten stamp detail q
    | none => s.bump (R.HST_CNT1_EVENT_LOST (s.tenPort t)) 1
  | none =>
    match s.managerQps with
    | [] => s.bump (R.HST_CNT1_EVENT_LOST (s.get R.ERR_CTL_REF_PORT)) 1
    | qs => qs.foldl (fun s q => s.eventOn kind reason ten stamp detail q) s

/-! ## The error record (22) -/

/-- The ERR registers: block code (Table 22.5), offset of the first, strides and counts. -/
def errRegs : List (Nat × Nat × List (Nat × Nat)) :=
  [(0, 0x30, []), (1, 0x100010, []), (2, 0x200010, []), (4, 0x400010, [(0x10000, 4)]), (5, 0x500010, []),
   (6, 0x600010, []), (7, 0x608010, []), (8, 0x700010, []), (9, 0x800010, []), (10, 0x900010, []),
   (11, 0xA00010, [(0x100, 128)]), (12, 0xB00010, []), (13, 0xC00010, []),
   (14, 0x1000010, [(0x1000000, 2), (0x10000, 52)]), (15, 0x1400010, [(0x1000000, 2), (0x10000, 8)]),
   (16, 0x1800010, [(0x1000000, 2), (0x40000, 4)]), (17, 0x1C00010, [(0x1000000, 2)])]

/-- The block and instance number of the ERR register at an offset (22 R554). -/
def errBlockIn : List (Nat × Nat × List (Nat × Nat)) → Nat → Option (Nat × Nat)
  | [], _ => none
  | (b, base, dims) :: t, off =>
    if off < base then errBlockIn t off
    else match matchDims (off - base) dims with
      | some ix => some (b, (List.zip dims ix).foldl (fun a p => a * p.1.2 + p.2) 0)
      | none => errBlockIn t off

def errBlock (off : Nat) : Option (Nat × Nat) := errBlockIn errRegs off

/-- The Event bits and the Alert bits of each block's ERR register, as masks (Table 22.1). -/
def errMasks (block : Nat) : Nat × Nat :=
  match block with
  | 1 => (0x048, 0x137)   -- PWR: STEP, CAP_MISS; IN_LOW, IN_HIGH, NV_CUT, TJ_OVER, HBM_HOT, RATE_LOW
  | 2 => (0x006, 0x019)   -- SEC: IMG_REFUSED, KS_REFUSED; BOOT_SLOT_FAIL, BFW_FAIL, COPY_INVALID
  | 4 => (0x1C0, 0x200)   -- HST: RNR_EXHAUSTED, BACKLOG_HOLD, QP_LOST; LINK_DOWN
  | 5 => (0xC1B, 0x2304)  -- FAB: LANE_FAIL, LINK_DOWN, HOP_LIMIT, TABLE_FULL, ACK_MISS, TWIN_LOS; the alerts
  | 6 => (0x008, 0x012)   -- TXT: STREAM_UE; TABLE_UE, LANE_FAULT
  | 7 => (0x002, 0x004)   -- TXT_GRM: LANE_UE; LANE_FAULT
  | 8 => (0x08A, 0x020)   -- CEL: READ_UE, ERASE_FAIL, STORE_UE; CHANNEL_FAIL
  | 9 => (0x142, 0x018)   -- MEM: HBM_UE, THRASH, POOL_LOST; GROUP_RETIRED, PPR_FAIL
  | 10 => (0x00B, 0)      -- SCH: SLICE_SKIPPED, REBIND_REFUSED, SHELTER_OVERRUN
  | 11 => (0x00B, 0)      -- WEL: FENCED, LATE_COMMIT, FOREIGN
  | 12 => (0x00C, 0)      -- EMB: CACHE_UE, ADD_LOST
  | 13 => (0x054, 0x0AA)  -- TWN: PARTED, HANDOVER, UNIT_LOST; DECLARED, ISOLATED, ABANDONED, SPARE_NONE
  | 14 => (0x06B, 0)      -- ENG: OPERAND_PARITY, PSUM_PARITY, ACC_UE, STAGE_UE, DECODE_FAULT
  | 15 => (0x01A, 0)      -- SCN: LUT_UE, SIDE_UE, ARITH_FAULT
  | 16 => (0x071, 0x004)  -- HAM: EXC, SCRATCH_UE, CKPT_UE, CORE_FAULT; ISTORE_UE
  | 17 => (0x002, 0)      -- OAS: SRAM_UE
  | _ => (0, 0)

/-- An entry's header word without REPEAT (Table 22.3). -/
def logHdr (block inst kind code : Nat) (ten : Option Nat) : Nat :=
  block + inst * 2 ^ 6 + kind * 2 ^ 13 + 2 ^ 15 + code * 2 ^ 16 +
    (match ten with | some t => t * 2 ^ 24 | none => 2 ^ 30)

/-- The log arbiter takes a cause (22 R545 to R550): a repeat of the newest entry, or a new entry. It answers the entry's
SEQ, whether it is new, and its FIRST_STAMP. -/
def State.logCause (s : State) (block inst kind code : Nat) (ten : Option Nat) (d0 d1 : Nat) : State × Nat × Bool × Nat :=
  let seq := (s.reg R.ERR_LOG_STS).toNat
  let now := s.time (s.get R.ERR_CTL_REF_PORT)
  let hdr := logHdr block inst kind code ten
  let last := (seq + 63) % 64
  let lastHdr := (s.reg (R.ERR_LOG_HDR last)).toNat
  if 0 < seq ∧ lastHdr % 2 ^ 31 = hdr then
    let rep := lastHdr / 2 ^ 32
    let s := s.put (R.ERR_LOG_HDR_REPEAT last) (min (rep + 1) (2 ^ 32 - 1))
    (s.setReg (R.ERR_LOG_LAST last) now, (s.reg (R.ERR_LOG_SEQ last)).toNat, false, (s.reg (R.ERR_LOG_FIRST last)).toNat)
  else
    let i := seq % 64
    let s := s.setReg (R.ERR_LOG_HDR i) hdr
    let s := s.setReg (R.ERR_LOG_SEQ i) seq
    let s := s.setReg (R.ERR_LOG_FIRST i) now
    let s := s.setReg (R.ERR_LOG_LAST i) now
    let s := s.setReg (R.ERR_LOG_D0 i) d0
    let s := s.setReg (R.ERR_LOG_D1 i) d1
    let s := s.setReg R.ERR_LOG_STS (seq + 1)
    let old := (s.reg R.ERR_LOG_OLD).toNat
    let s := s.setReg R.ERR_LOG_OLD (max old (seq + 1 - 64))
    (s, seq, true, now)

/-- The EVENT of kind ERROR of a new entry (22 R551). -/
def State.errorEvent (s : State) (seq stamp hdr : Nat) (ten : Option Nat) : State :=
  s.sendEvent 0x06 0 ten stamp [seq, s.get R.ERR_CTL_REF_PORT + hdr % 2 ^ 32 * 2 ^ 32, 0, 0]

/-- A cause of an ERR register (22 R543, R544, R547): the bit is set; a bit set from 0 takes an entry, and an Event or
Alert bit's new entry sends its EVENT unless the cause sends a kind of its own. It answers the entry's SEQ, if any. -/
def State.raiseSeq (s : State) (f : Field) (ten : Option Nat) (d0 d1 : Nat) (own : Bool) : State × Option Nat :=
  if s.get f = 1 then (s, none)
  else
    let s := s.put f 1
    match errBlock f.reg with
    | none => (s, none)
    | some (b, n) =>
      let (s, seq, fresh, stamp) := s.logCause b n 0 f.lo ten d0 d1
      let masks := errMasks b
      let s := if fresh && !own && (masks.1.testBit f.lo || masks.2.testBit f.lo)
        then s.errorEvent seq stamp (logHdr b n 0 f.lo ten) ten else s
      (s, some seq)

/-- All ones: no ticket met the cause (Table 22.2). -/
def noTicket : Nat := 2 ^ 64 - 1

/-- A cause of an ERR register with its details. -/
def State.raiseAt (s : State) (f : Field) (ten : Option Nat) (d0 d1 : Nat) : State := (s.raiseSeq f ten d0 d1 false).1

/-- A cause of an ERR register that concerns no address and no command. -/
def State.raise (s : State) (f : Field) (ten : Option Nat) : State := s.raiseAt f ten 0 noTicket

/-- A logged cause of kinds 1 to 3, which sets no bit (22 R546): a new entry sends an ERROR unless the cause has a kind
of its own. It answers the entry's SEQ. -/
def State.logKind (s : State) (block inst kind code : Nat) (ten : Option Nat) (d0 d1 : Nat) (own : Bool) : State × Nat :=
  let (s, seq, fresh, stamp) := s.logCause block inst kind code ten d0 d1
  (if fresh && !own then s.errorEvent seq stamp (logHdr block inst kind code ten) ten else s, seq)

/-- The blocks that hold a set sticky bit (ERR_SUM.BLOCKS), from the stored registers. -/
def State.errBlocks (s : State) : List Nat :=
  s.cw.foldl (fun (acc : List Nat) (p : Nat × Word) => match errBlock p.1 with
    | some (b, _) => if p.2.toNat = 0 then acc else addNew acc b
    | none => acc) []

/-- Whether the alert pin is asserted (22 R553): some block holds a set Alert bit and is enabled in ERR_ALERT_EN. -/
def State.alert (s : State) : Bool :=
  s.cw.any fun p => match errBlock p.1 with
    | some (b, _) => (p.2.toNat &&& (errMasks b).2) != 0 && (s.reg R.ERR_ALERT_EN).toNat.testBit b
    | none => false

/-! ## Bind epochs -/

/-- A unit by class (Table 4.1; 0x20 for cores) and number. -/
def unitKey (cls n : Nat) : Nat := cls * 2 ^ 16 + n
def clsCore : Nat := 0x20

/-- A unit's bind epoch (14 R353, 18 R463); 0 until first raised. -/
def State.epochOf (s : State) (cls n : Nat) : Nat := tget s.x.epochs (unitKey cls n) 0

/-- A unit's bind epoch raised by 1. -/
def State.raiseEpoch (s : State) (cls n : Nat) : State :=
  { s with x := { s.x with epochs := tset s.x.epochs (unitKey cls n) (s.epochOf cls n + 1) } }

end Sys2Proof.Machine
end

