-- ==== Sys2Proof/Machine/Wire.lean ====
section
/-!
DEFINITION. What the fabric's senders share (16): the routing row of a destination, the numbers a caravan takes, the
port it leaves by, retransmission.
-/
namespace Sys2Proof.Machine

def FabricSt.row (f : FabricSt) (table addr : Nat) : Option RtRow :=
  match tfind f.rows (table * 2 ^ 20 + addr) with
  | some r => if r.valid then some r else none
  | none => none

/-- The module's own address (R421). -/
def State.ownAddr (s : State) : Nat := s.get R.FAB_CTL_ADDR

/-- The first address of the multicast groups (Table 16.3). -/
def groupBase : Nat := 0xFFF00

/-- Whether an address names a group; the link partner's address. -/
def isGroup (a : Nat) : Bool := groupBase ≤ a && a ≤ 0xFFF3F
def linkPartner : Nat := 0xFFFFF

/-- The hops to a destination: none without a row (R418, R424). -/
def State.hopsTo (s : State) (dst : Nat) : Option Nat :=
  if dst = s.ownAddr then some 0 else (s.fa.row 16 dst).map (·.hops)

/-- Whether the module may send to a destination (R418): a withdrawn module sends CONTROL only (R421). -/
def State.reachable (s : State) (dst : Nat) : Bool :=
  match s.hopsTo dst with
  | some h => decide (h ≤ 8) && (!s.fa.withdrawn || dst == s.ownAddr)
  | none => false

/-- Whether port n is in routing (FAB_STS.UP). -/
def State.portUp (s : State) (n : Nat) : Bool := (s.get R.FAB_STS_UP).testBit n

/-- Whether port n is a twin port. -/
def State.twinPort (s : State) (n : Nat) : Bool := (s.get R.FAB_TWIN_TWIN_PORTS).testBit n

/-- A caravan's bytes on the wire, its header with them. -/
def carBytes (c : Car) : Nat := 32 + 8 * c.words.length + c.data.length

/-- The bytes queued at a port: its caravans not yet acknowledged. -/
def State.queued (s : State) (n : Nat) : Nat := lsum ((tget s.fa.unacked n []).map fun p => carBytes p.2)

/-- The lanes a port runs on. -/
def State.lanes (s : State) (n : Nat) : Nat := popCount 4 (s.get (R.FAB_PORT_STS_LANES n))

/-- The port of a mask with the least queued bytes for its rate, ties to the lower number (R425). -/
def State.adaptive (s : State) (mask : Nat) : Option Nat :=
  (setPlaces 16 mask).foldl (fun (b : Option Nat) n =>
    match b with
    | none => some n
    | some m => if s.queued n * s.lanes m < s.queued m * s.lanes n then some n else some m) none

/-- The port a caravan leaves by, from a routing row: ORD_PORT, or the adaptive choice (R425); none while MASK is empty. -/
def State.egress (s : State) (r : RtRow) (cls : Nat) : Option Nat :=
  let up := r.mask &&& s.get R.FAB_STS_UP
  if up = 0 then none
  else if cls = 2 then s.adaptive up
  else if up.testBit r.ord then some r.ord else (setPlaces 16 up).head?

/-- A caravan put on a port's wire: the link's next LSEQ, kept until acknowledged, counted (R416); CE when the egress has
more queued than CE_KIB (R419). -/
def State.sendOn (s : State) (n : Nat) (c : Car) : State :=
  let q := tget s.fa.lseq n 0
  let ce := c.ce || decide (s.get R.FAB_INJECT_CE_KIB * 1024 < s.queued n)
  let c := { c with lseq := q, lack := (tget s.fa.rx n 0 + 2 ^ 32 - 1) % 2 ^ 32, ce := ce }
  let s := { s with fa := { s.fa with
    lseq := tset s.fa.lseq n ((q + 1) % 2 ^ 32)
    unacked := tset s.fa.unacked n (tget s.fa.unacked n [] ++ [(s.time (4 + n), c)]) } }
  let s := s.cross (4 + n) (n, q)
  s.bump (R.FAB_PORT_CNT_SENT n) 1

/-- The members of a group by the port of their rows: one copy a port, the module's own taken locally (R426). -/
def State.groupMember (s : State) (g i : Nat) : Nat :=
  bits (ofLe (s.run (key spModule (s.get R.FAB_GROUP_GROUP_ADDR + g * 512 + 8 + 4 * i)) 4)) 0 20

/-- The count of a group's members; 0 for a group no table defines (R437). -/
def State.groupCount (s : State) (g : Nat) : Nat :=
  if s.get R.FAB_GROUP_GROUP_ADDR = 0 then 0 else bits (s.word (key spModule (s.get R.FAB_GROUP_GROUP_ADDR + g * 512))) 0 7

/-- The members of a group that a caravan's mask names. -/
def State.membersOf (s : State) (c : Car) : List Nat :=
  (setPlaces 64 (nw c.words 0)).filter fun i => decide (i < s.groupCount (c.dst - groupBase))

/-- The members that are this module. -/
def State.ownMembers (s : State) (c : Car) : List Nat :=
  (s.membersOf c).filter fun i => s.groupMember (c.dst - groupBase) i == s.ownAddr

/-- The mask of a list of members. -/
def maskOf (is : List Nat) : Nat := lsum (is.map (2 ^ ·))

/-- A caravan kept until its row has a port (R424). -/
def State.holdCar (s : State) (table : Nat) (c : Car) : State := { s with fa := { s.fa with waiting := s.fa.waiting ++ [(table, c)] } }

/-- The copies of a group's caravan for the other members: one a port, by the ORD_PORT of their rows; the members without a
port keep one that waits (R424, R426). -/
def State.copies (s : State) (table : Nat) (c : Car) : State :=
  let g := c.dst - groupBase
  let far := (s.membersOf c).filter fun i => s.groupMember g i != s.ownAddr
  let portOf (i : Nat) : Option Nat := match s.fa.row table (s.groupMember g i) with
    | some r => s.egress r 1
    | none => none
  let s' := (List.range 16).foldl (fun st n =>
    let here := far.filter fun i => portOf i == some n
    if here.isEmpty then st else st.sendOn n { c with words := maskOf here :: c.words.drop 1 }) s
  let none_ := far.filter fun i => portOf i == none
  if none_.isEmpty then s' else s'.holdCar table { c with words := maskOf none_ :: c.words.drop 1 }

/-- A caravan taken by this module itself. -/
def State.selfTake (s : State) (c : Car) : State := { s with fa := { s.fa with selfIn := s.fa.selfIn ++ [c] } }

/-- A caravan sent by way of a routing table (16 for the module's own): forwarded, taken locally, or waiting. -/
def State.route (s : State) (table : Nat) (c : Car) : State :=
  if c.dst = s.ownAddr then s.selfTake c
  else if s.fa.withdrawn && c.cls != 0 then s.holdCar table c
  else if isGroup c.dst then
    let s := if (s.ownMembers c).isEmpty then s else s.selfTake { c with words := maskOf (s.ownMembers c) :: c.words.drop 1 }
    s.copies table c
  else match s.fa.row table c.dst with
    | some r =>
      match s.egress r c.cls with
      | some n => s.sendOn n c
      | none => s.holdCar table c
    | none => s.holdCar table c

/-- The numbers a caravan takes at its source: PSEQ outside CONTROL, OSEQ in ORDERED and MIRROR (R414, R417). -/
def State.number (s : State) (c : Car) : State × Car :=
  if c.cls = 0 then (s, c)
  else
    let p := (tget s.fa.pseq c.dst 0 + 1) % 2 ^ 32
    let s := { s with fa := { s.fa with pseq := tset s.fa.pseq c.dst p } }
    let c := { c with pseq := p }
    if c.cls = 1 ∨ c.cls = 3 then
      let k := c.dst * 4 + c.cls
      let o := (tget s.fa.oseq k 0 + 1) % 2 ^ 32
      ({ s with fa := { s.fa with oseq := tset s.fa.oseq k o } }, { c with oseq := o })
    else (s, c)

/-- A caravan of the module's own. -/
def State.newCar (s : State) (kind cls dst ten space : Nat) (words : List Nat) (data : List Byte) : Car :=
  { kind := kind, cls := cls, hop := 0, ce := false, dst := dst, src := s.ownAddr, lseq := 0, lack := 0, pseq := 0, oseq := 0,
    ten := ten, space := space, words := words, data := data, ver := 1 }

/-- A caravan numbered and sent by way of table 16. -/
def State.sendCar (s : State) (kind cls dst ten space : Nat) (words : List Nat) (data : List Byte) : State :=
  let p := s.number (s.newCar kind cls dst ten space words data)
  p.1.route 16 p.2

/-- A caravan numbered and sent on a given port. -/
def State.sendOnPort (s : State) (n kind cls dst ten space : Nat) (words : List Nat) (data : List Byte) : State :=
  let p := s.number (s.newCar kind cls dst ten space words data)
  p.1.sendOn n p.2

/-- A CONTROL caravan to the link partner of a port. -/
def State.sendLink (s : State) (n kind : Nat) (words : List Nat) : State := s.sendOnPort n kind 0 linkPartner 0 0 words []

/-- The twin ports in routing. -/
def State.twinPorts (s : State) : List Nat := (List.range 16).filter fun n => s.twinPort n && s.portUp n

/-- Whether the module is paired (Table 16.6). -/
def State.paired (s : State) : Bool := s.get R.FAB_TWIN_STATE == 2

/-- The mirror caravan just numbered waits for MIR_ACK at a port, unless it is one itself (R440, R441). -/
def State.awaitMir (s : State) (kind n : Nat) : State :=
  if kind = 0x25 then s
  else { s with fa := { s.fa with mirrors := s.fa.mirrors ++ [⟨tget s.fa.oseq (s.get R.FAB_TWIN_TWIN * 4 + 3) 0, n, s.time (4 + n)⟩] } }

/-- A mirror caravan to the twin on a port. -/
def State.mirrorOn (s : State) (n kind ten : Nat) (words : List Nat) (data : List Byte) : State :=
  (s.sendOnPort n kind 3 (s.get R.FAB_TWIN_TWIN) ten 0 words data).awaitMir kind n

/-- The first twin port, in routing or not. -/
def State.firstTwin (s : State) : Nat := ((List.range 16).find? s.twinPort).getD 0

/-- A mirror caravan to the twin on its first twin port in routing; while none is, it waits (R424, R440). -/
def State.mirror (s : State) (kind ten : Nat) (words : List Nat) (data : List Byte) : State :=
  match s.twinPorts with
  | [] =>
    let p := s.number (s.newCar kind 3 (s.get R.FAB_TWIN_TWIN) ten 0 words data)
    (p.1.holdCar 16 p.2).awaitMir kind s.firstTwin
  | n :: _ => s.mirrorOn n kind ten words data

end Sys2Proof.Machine
end

