-- ==== Sys2Proof/Machine/Vm.lean ====
section
/-!
DEFINITION. Translation, the reach of each accessor, heat and poison (07): what every access to a virtual range
shares.
-/
namespace Sys2Proof.Machine

/-- The key of a page: space * 2^35 + page number. -/
def pageKey (space vpn : Nat) : Nat := space * 2 ^ 35 + vpn

/-- The bytes of a page, 2 MiB, and of a granule, 64 KiB (07 R157, R158). -/
def pageBytes : Nat := 2 ^ 21
def granuleBytes : Nat := 2 ^ 16

/-- The first address of the window's view, 2^56 - 64 MiB (21 R528). -/
def cwVa : Nat := 0x00FF_FFFF_FC00_0000

def State.page (s : State) (pk : Nat) : Option Page := tfind s.vm.pages pk
def State.setPage (s : State) (pk : Nat) (p : Page) : State := { s with vm := { s.vm with pages := tset s.vm.pages pk p } }
def State.modPage (s : State) (pk : Nat) (f : Page → Page) : State := { s with vm := { s.vm with pages := tmod s.vm.pages pk f } }

/-- The page that an address of a tenancy's range names: its private page, or a module-owned page mapped into it (07 R158). -/
def State.pageOf (s : State) (ten va : Nat) : Option (Nat × Page) :=
  if 2 ^ 56 ≤ va then none else
  let vpn := va / pageBytes
  match s.page (pageKey ten vpn) with
  | some p => some (pageKey ten vpn, p)
  | none =>
    match s.page (pageKey spModule vpn) with
    | some p => if p.users.contains ten || ten == spModule then some (pageKey spModule vpn, p) else none
    | none => none

/-- The key of a byte of a tenancy's range, in the space of the page that holds it. -/
def State.dkey (s : State) (ten va : Nat) : Nat :=
  match s.pageOf ten va with
  | some (pk, _) => key (pk / 2 ^ 35) va
  | none => key ten va

/-- A run of bytes of a tenancy's range, as committed. -/
def State.vrun (s : State) (ten va : Nat) : Nat → List Byte
  | 0 => []
  | n + 1 => s.byte (s.dkey ten va) :: s.vrun ten (va + 1) n

/-- A committed 64-bit word of a tenancy's range. -/
def State.vword (s : State) (ten va : Nat) : Nat := ofLe (s.vrun ten va 8)

/-- n committed 64-bit words of a tenancy's range. -/
def State.vwords (s : State) (ten va n : Nat) : List Nat := (List.range n).map fun i => s.vword ten (va + 8 * i)

/-- The pages that a range of bytes touches. -/
def pagesIn (va len : Nat) : List Nat :=
  if len = 0 then [] else upto (va / pageBytes) ((va + len - 1) / pageBytes - va / pageBytes + 1)

/-- The granules, by key / 2^16, that a range of bytes of a space touches. -/
def granulesIn (k len : Nat) : List Nat :=
  if len = 0 then [] else upto (k / granuleBytes) ((k + len - 1) / granuleBytes - k / granuleBytes + 1)

/-- The accessors of Table 7.3. -/
inductive Accessor where
  | unit | scan | cellar | drift
deriving DecidableEq, Repr

/-- What Table 7.3 says of an access. -/
inductive Reach where
  | ok | fault | prot
deriving DecidableEq, Repr

/-- Table 7.3, by accessor, home state and whether the access writes. Cores, engines, carts and the text, embedding and
network units share a row (`unit`). -/
def reachTable (a : Accessor) (st : Nat) (wr : Bool) : Reach :=
  match a, st with
  | .drift, 5 => .prot
  | .drift, _ => .ok
  | _, 0 => if wr then .fault else .ok
  | _, 1 => .ok
  | .cellar, 2 => if wr then .fault else .ok
  | .cellar, 3 => if wr then .prot else .ok
  | _, 2 => .fault
  | _, 3 => .fault
  | .scan, 4 => .fault
  | _, 4 => if wr then .fault else .ok
  | .scan, _ => .prot
  | _, _ => if wr then .prot else .ok

/-- One access to a page of a tenancy: unmapped is PROTECTION (04 Table 4.5), as is a write to a read-only mapping or to
a store page (07 R162). -/
def State.reachPage (s : State) (a : Accessor) (ten vpn : Nat) (wr : Bool) : Reach :=
  match s.pageOf ten (vpn * pageBytes) with
  | none => .prot
  | some (_, p) => if wr && (!(p.writable || p.writer == some ten) || p.image) then .prot else reachTable a p.st wr

/-- What the accesses of a command come to: all reach, PROTECTION, a translation fault with the pages that would fault
(07 R184), or a poisoned granule read (07 R194). -/
inductive AccRes where
  | ok
  | prot
  | fault (pages : List Nat)
  | poison (granule : Nat)
deriving DecidableEq, Repr

/-- The key of the page of a tenancy's address. -/
def State.pkOf (s : State) (ten vpn : Nat) : Nat :=
  match s.pageOf ten (vpn * pageBytes) with
  | some (pk, _) => pk
  | none => pageKey ten vpn

/-- A poisoned granule among those a range of reads touches (07 R194). -/
def State.poisonIn (s : State) (ten : Nat) (r : Nat × Nat) : Option Nat :=
  (granulesIn (key ten r.1) r.2).findSome? fun g =>
    match s.pageOf ten (g * granuleBytes % 2 ^ 56) with
    | some (pk, p) => if p.poison.testBit (g % 32) then some (pk * 32 + g % 32) else none
    | none => none

/-- The accesses of a command: its reads and its writes, each an address and a length in bytes. -/
def State.access (s : State) (a : Accessor) (ten : Nat) (rds wrs : List (Nat × Nat)) : AccRes :=
  let pages := (rds.flatMap fun r => (pagesIn r.1 r.2).map fun v => (v, false)) ++
    (wrs.flatMap fun r => (pagesIn r.1 r.2).map fun v => (v, true))
  let high := (rds ++ wrs).any fun r => decide (0 < r.2) && decide (cwVa < r.1 + r.2)
  if high || pages.any (fun p => s.reachPage a ten p.1 p.2 == .prot) then .prot
  else
    let bad := (pages.filter fun p => s.reachPage a ten p.1 p.2 == .fault).map fun p => s.pkOf ten p.1
    if bad ≠ [] then .fault (bad.foldl addNew [])
    else match rds.findSome? (s.poisonIn ten) with
      | some g => .poison g
      | none => .ok

/-- Two outcomes of accesses joined: PROTECTION first, then faults together, then poison. -/
def AccRes.join (a b : AccRes) : AccRes :=
  match a, b with
  | .prot, _ => .prot
  | _, .prot => .prot
  | .fault x, .fault y => .fault (y.foldl addNew x)
  | .fault x, _ => .fault x
  | _, .fault y => .fault y
  | .poison g, _ => .poison g
  | .ok, b => b

/-- A read of a command outside its tenancy's own range, or by another accessor: who reads, whose range, address, bytes. -/
structure Read where
  by_ : Accessor
  ten : Nat
  va : Nat
  len : Nat
deriving DecidableEq, Repr

/-- The accesses of a list of such reads. -/
def State.accessReads (s : State) (rs : List Read) : AccRes :=
  rs.foldl (fun a r => a.join (s.access r.by_ r.ten [(r.va, r.len)] [])) .ok

/-- The granules a list of ranges of a tenancy touches, by the key of the space that holds them. -/
def State.granules (s : State) (ten : Nat) (rs : List (Nat × Nat)) : List Nat :=
  (rs.flatMap fun r => (granulesIn (key ten r.1) r.2).map fun g => s.dkey ten (g * granuleBytes % 2 ^ 56) / granuleBytes).foldl addNew []

/-- The keys of the pages that ranges of a tenancy touch. -/
def State.pageKeys (s : State) (ten : Nat) (rs : List (Nat × Nat)) : List Nat :=
  (rs.flatMap fun r => (pagesIn r.1 r.2).map (s.pkOf ten)).foldl addNew []

/-! ## Use and quotas (07 R167, R169) -/

/-- The granules homed in a die's oasis. -/
def State.oasisHomed (s : State) (die : Nat) : Nat :=
  lsum (s.vm.pages.map fun p => if p.2.st = 1 ∧ p.2.frame / 262144 = die then popCount 32 p.2.oasis else 0)

/-- Current use of the tiers by a space: oasis granules, granary frames, spill units, borrowed frames, pinned frames
(Table 7.18). An oasis pin counts 32 granules and its frame (07 R170). -/
def State.memUse (s : State) (space : Nat) : Nat × Nat × Nat × Nat × Nat :=
  let ps := (s.vm.pages.filter fun p => p.1 / 2 ^ 35 == space).map (·.2)
  (lsum (ps.map fun p => if p.pin = 1 then 32 else if p.st = 1 then popCount 32 p.oasis else 0),
   (ps.filter fun p => p.st == 1 || p.pin != 0).length,
   (ps.filter fun p => p.st == 2).length,
   (ps.filter fun p => p.st == 4).length,
   (ps.filter fun p => p.pin != 0).length)

/-- The quotas of a space: oasis granules, granary frames, spill units, borrowed frames. The module's reserve names the first
two; the others have no quota there (R167). -/
def State.quota (s : State) (space : Nat) : Nat × Nat × Nat × Nat :=
  if space = spModule then (s.get R.MEM_RESV_OASIS, s.get R.MEM_RESV_GRANARY, 7864320, 2 ^ 20)
  else (s.get (R.MEM_QUOTA_OASIS space), s.get (R.MEM_QUOTA_GRANARY space), s.get (R.MEM_QUOTA_CELLAR space),
    s.get (R.MEM_QUOTA_POOL_POOL space))

/-- Whether non-volatile writes are permitted (19 R487). -/
def State.nvOk (s : State) : Bool := s.get R.PWR_STS_NV_OK == 1

/-- Whether a page of a space may go outward to the cellar, or to the pool (R167, R182). -/
def State.cellarOpen (s : State) (space : Nat) : Bool :=
  s.nvOk && s.get R.CEL_CTL_EN == 1 && s.get R.CEL_CTL_SPILL_EN == 1 && decide ((s.memUse space).2.2.1 < (s.quota space).2.2.1) &&
    decide (lsum (s.vm.pages.map fun p => if p.2.st = 2 then 1 else 0) < s.get R.CEL_SPILL_SPILL)
def State.poolOpen (s : State) (space : Nat) : Bool :=
  s.get R.FAB_CTL_EN == 1 && decide ((s.memUse space).2.2.2.1 < (s.quota space).2.2.2)

/-- Whether a space has granary room for one more page, or a victim could make it (R168, R186). -/
def State.granaryRoom (s : State) (space : Nat) : Bool :=
  let pinned := (s.vm.pages.filter fun p => p.1 / 2 ^ 35 == space && (p.2.pin != 0 || p.2.held)).length
  decide ((s.memUse space).2.1 < (s.quota space).2.1) || decide (pinned < (s.quota space).2.1)

/-- The pages that commands, turns, and remote or host accesses wait for. -/
def State.awaitedPages (s : State) : List Nat :=
  s.vm.awaited ++ s.x.cmds.flatMap (fun c => c.2.await) ++ s.x.cores.flatMap fun c => c.2.await

/-- Whether the resolution of a page needs a victim that no destination takes (R188): the granary is at quota. -/
def State.stuck (s : State) (pk : Nat) : Bool :=
  let sp := pk / 2 ^ 35
  decide ((s.quota sp).2.1 ≤ (s.memUse sp).2.1) && !s.cellarOpen sp && !s.poolOpen sp

/-- Resolutions found waiting for room (R188). -/
def State.noteStalls (s : State) (pages : List Nat) : State :=
  match (pages.filter fun pk => s.stuck pk && !s.vm.waitPages.contains pk).foldl addNew [] with
  | [] => s
  | pk :: pks =>
    let ten := if pk / 2 ^ 35 < 64 then some (pk / 2 ^ 35) else none
    ({ s with vm := { s.vm with waitPages := s.vm.waitPages ++ pk :: pks } } : State).raise R.MEM_ERR_STALL ten

/-- A translation fault met and counted; a resolution that needs a victim no destination takes waits (R183, R188). -/
def State.faulted (s : State) (pages : List Nat) : State := (s.bump R.MEM_FAULTS_FAULTS 1).noteStalls pages

/-! ## Heat (07 R164, R165) -/

/-- The era counter. -/
def State.era (s : State) : Nat := (s.reg R.MEM_ERA).toNat

/-- A heat halved once for each era passed since its update; 0 after 16 or more. -/
def decay (now era heat : Nat) : Nat := if 16 ≤ now - era then 0 else heat / 2 ^ (now - era)

/-- A page's heat decayed to the current era. -/
def State.pageHeat (s : State) (p : Page) : Nat := decay s.era p.era p.heat

/-- A granule's heat decayed to the current era. -/
def State.granHeat (s : State) (p : Page) (g : Nat) : Nat :=
  match tfind p.gheat g with
  | some (h, e) => decay s.era e h
  | none => 0

/-- One granule's access added to its heat and its page's (R164): nothing under hint STREAM. -/
def State.addHeat (s : State) (g : Nat) : State :=
  match s.page (g / 32) with
  | none => s
  | some p =>
    if p.hint = 3 then s else
    let p' := { p with heat := min (s.pageHeat p + 1) 65535, era := s.era }
    let p' := if p.st = 1 then { p' with gheat := tset p.gheat (g % 32) (min (s.granHeat p (g % 32) + 1) 255, s.era) } else p'
    s.setPage (g / 32) p'

/-- A range cut at the pages' edges. -/
def byPage (r : Nat × Nat) : List (Nat × Nat) :=
  (pagesIn r.1 r.2).map fun v => (max r.1 (v * pageBytes), min (r.1 + r.2) ((v + 1) * pageBytes) - max r.1 (v * pageBytes))

/-- The lines of 64 bytes of ranges of a tenancy that are homed in the oasis, the granary or the cellar (R165). -/
def State.homeLines (s : State) (ten : Nat) (rs : List (Nat × Nat)) : Nat :=
  lsum ((rs.flatMap byPage).map fun r =>
    match s.pageOf ten r.1 with
    | some (_, p) => if 1 ≤ p.st ∧ p.st ≤ 3 then (r.1 + r.2 - 1) / 64 - r.1 / 64 + 1 else 0
    | none => 0)

/-- The parts of ranges that reads of an accessor reach. -/
def State.reached (s : State) (a : Accessor) (ten : Nat) (rs : List (Nat × Nat)) : List (Nat × Nat) :=
  (rs.flatMap byPage).filter fun r => s.reachPage a ten (r.1 / pageBytes) false == .ok

/-- The heat of an attempt: each granule once (R164), and the lines it moves toward the era (R165). -/
def State.accessHeat (s : State) (gs : List Nat) (lines : Nat) : State :=
  let s := gs.foldl State.addHeat s
  { s with vm := { s.vm with lines := s.vm.lines + lines } }

/-- The channel, 32 * stack + channel, that serves an address of a frame (R190): units of 256 bytes over the group's eight pseudo
channels, two a channel. -/
def channelOf (frame va : Nat) : Nat := frame / 32768 * 32 + 4 * (frame / 4096 % 8) + va / 256 % 8 / 2

/-- What the granary reports of an access to a page (R189, R191): n errors that on-die ECC corrected in its row, and whether a parity error
repeated it. -/
def State.corrected (s : State) (ten va n : Nat) (parity : Bool) : State :=
  match s.pageOf ten va with
  | some (_, p) =>
    if p.st = 1 ∧ !p.oasis.testBit (va / granuleBytes % 32) then
      let owner := if ten < 64 then some ten else none
      let ch := channelOf p.frame va
      let row := Config.dramRow (p.frame * 32768 + va % pageBytes / 64)
      let s : State := { s with vm := { s.vm with
        parity := if parity then tset s.vm.parity ch (tget s.vm.parity ch 0 + 1) else tdel s.vm.parity ch
        corrRows := s.vm.corrRows ++ List.replicate n (p.frame, row) } }
      let s := if parity then s.raiseAt R.MEM_ERR_PARITY_RETRY owner va noTicket else s
      if n = 0 then s else (s.raiseAt R.MEM_ERR_HBM_CE owner va noTicket).bump (R.MEM_STACK_CE_COUNT (p.frame / 32768)) n
    else s
  | none => s

/-! ## Committed writes -/

/-- Whether runs of bytes together cover the range from a to b. -/
def covers (ws : List (Nat × Nat)) (a b : Nat) : Bool :=
  decide (b ≤ (sortBy (fun x y => decide (x.1 ≤ y.1)) ws).foldl (fun at_ w => if w.1 ≤ at_ then max at_ (w.1 + w.2) else at_) a)

/-- Poison marks cleared in the granules that a commit's writes, each a key and a length, cover whole (R194). -/
def State.clearPoison (s : State) (ws : List (Nat × Nat)) : State :=
  let gs := (ws.flatMap fun w => granulesIn w.1 w.2).foldl addNew []
  (gs.filter fun g => covers (ws.filter fun w => decide (w.1 / granuleBytes ≤ g)) (g * granuleBytes) ((g + 1) * granuleBytes)).foldl
    (fun s g => s.modPage (g / 32) fun p => { p with poison := setBits p.poison (g % 32) 1 0 }) s

/-- The writes of one commit: the granules' contents are replaced, and their copy-back to their homes is under way (R180). -/
def State.commitWrites (s : State) (ws : List (Nat × List Byte)) : State :=
  let s := ws.foldl (fun (s : State) w => s.writeRun w.1 w.2) s
  let s := s.clearPoison (ws.map fun w => (w.1, w.2.length))
  { s with x := { s.x with copybacks := (ws.flatMap fun w => granulesIn w.1 w.2.length).foldl addNew s.x.copybacks } }

/-- A commit of one run of bytes. -/
def State.commitWrite (s : State) (k : Nat) (bs : List Byte) : State := s.commitWrites [(k, bs)]

end Sys2Proof.Machine
end

