-- ==== Sys2Proof/Machine/CmdOps.lean ====
section
/-!
DEFINITION. Commands, turns and wells as shared operations (02, 03, 04): looking one up, drawing, returning and
fencing leases, killing, and whether a unit may start a command.
-/
namespace Sys2Proof

/-- The kill codes of Table 4.6. -/
def Cause.code : Cause → Nat
  | .sliceEnd => 1 | .translation => 2 | .unitFault => 3 | .readClash => 4 | .rebind => 5 | .powerGate => 6 | .streamAbort => 7

/-- The causes that a shelter mark shuts out and that count toward it (02 R31). -/
def Cause.shelters : Cause → Bool
  | .sliceEnd | .readClash | .rebind => true
  | _ => false

end Sys2Proof

namespace Sys2Proof.Machine

/-! ## Looking up and changing -/

def State.core (s : State) (c : Nat) : Core := tget s.x.cores c { bank := c }
def State.setCore (s : State) (c : Nat) (k : Core) : State := { s with x := { s.x with cores := tset s.x.cores c k } }
def State.cmd (s : State) (t : Nat) : Option Cmd := tfind s.x.cmds t
def State.setCmd (s : State) (t : Nat) (c : Cmd) : State := { s with x := { s.x with cmds := tset s.x.cmds t c } }
def State.queue (s : State) (q : Nat) : Option Queue := tfind s.x.queues q
def State.well (s : State) (n : Nat) : Well := tget s.x.wells n {}
def State.setWell (s : State) (n : Nat) (w : Well) : State := { s with x := { s.x with wells := tset s.x.wells n w } }

/-- The number of a tenancy's barrier in a hamlet (03 R72). -/
def barKey (ten ham num : Nat) : Nat := 128 * ten + 16 * ham + num

/-- The queue handle and the sequence number of a ticket (03 R76). -/
def qOf (t : Nat) : Nat := t / 2 ^ 48
def seqOf (t : Nat) : Nat := t % 2 ^ 48
def ticket (q seq : Nat) : Nat := q * 2 ^ 48 + seq

/-- The fields of a descriptor's header (Table 4.3). -/
def dVer (w : List Nat) : Nat := bits (nw w 0) 0 8
def dLen (w : List Nat) : Nat := bits (nw w 0) 8 8
def dClass (w : List Nat) : Nat := bits (nw w 0) 16 8
def dOp (w : List Nat) : Nat := bits (nw w 0) 24 8
def dNdep (w : List Nat) : Nat := bits (nw w 0) 32 3
def dDepStart (w : List Nat) (i : Nat) : Bool := (nw w 0).testBit (36 + i)
def dWellEn (w : List Nat) : Bool := (nw w 0).testBit 40
def dWell (w : List Nat) : Nat := bits (nw w 0) 41 7
def dTag (w : List Nat) : Nat := bits (nw w 0) 48 16
def dPatch (w : List Nat) : Nat := bits (nw w 1) 0 6
/-- The dependency words. -/
def dDeps (w : List Nat) : List Nat := (w.drop 2).take (dNdep w)
/-- Body word i, counted from the first word after the dependency words. -/
def dBody (w : List Nat) (i : Nat) : Nat := nw w (2 + dNdep w + i)

/-- The body word of a running command. -/
def Cmd.body (c : Cmd) (i : Nat) : Nat := dBody c.patched i

/-- The descriptor a unit sees: patched once started, as issued otherwise. -/
def Cmd.seen (c : Cmd) : List Nat := if c.patched = [] then c.words else c.patched

/-- Whether a command is over: committed or void (R92). -/
def CmdSt.isOver : CmdSt → Bool
  | .committed | .void => true
  | _ => false

def CmdSt.live : CmdSt → Bool
  | .running | .ready => true
  | _ => false

/-- Whether the command of a ticket has committed or is void. -/
def State.isOver (s : State) (t : Nat) : Bool :=
  match s.cmd t with
  | some c => c.st.isOver
  | none => false

def State.isVoid (s : State) (t : Nat) : Bool :=
  match s.cmd t with
  | some c => c.st == .void
  | none => false

/-! ## Wells (04 R102 to R107) -/

/-- Whether a well is enabled and bound to a tenancy (R107). -/
def State.wellMine (s : State) (n ten : Nat) : Bool :=
  decide (n < 128) && s.get (R.WEL_CTL_EN n) == 1 && s.get (R.WEL_CTL_TEN n) == ten

/-- The uncommitted commands that cannot commit before the one of a ticket: later ones of its queue and those that name it,
directly or through a chain (R103), found in k rounds. -/
def dependantsGo (cs : Tab Cmd) : Nat → List Nat → List Nat
  | 0, acc => acc
  | k + 1, acc =>
    let more := cs.filter fun p => !p.2.st.isOver && !acc.contains p.1 &&
      (acc.any fun t => qOf t == qOf p.1 && decide (seqOf t < seqOf p.1)) ||
      (!p.2.st.isOver && !acc.contains p.1 && (dDeps p.2.words).any fun d => acc.contains d)
    dependantsGo cs k (acc ++ more.map (·.1))

def State.dependants (s : State) (t : Nat) : List Nat := dependantsGo s.x.cmds s.x.cmds.length [t]

/-- Whether a live lease is held by the drawer itself or by a dependant of the drawer. -/
def State.leaseMine (s : State) (dr : Drawer) (l : Lease) : Bool :=
  match dr, l.drawer with
  | .turn c n, .turn c' n' => c == c' && n == n'
  | .cmd t, .cmd t' => (s.dependants t).contains t'
  | _, _ => false

/-- What a draw comes to. -/
inductive DrawRes where
  | value (v : Nat) (s : State)
  | wait
  | exhausted

/-- The smallest number of a non-empty list. -/
def least : List Nat → Nat
  | [] => 0
  | [x] => x
  | x :: xs => min x (least xs)

/-- The lease recorded with the state, and the draw counted. -/
def State.recordLease (s : State) (n v : Nat) (dr : Drawer) (unit epoch : Nat) : State :=
  let w := s.well n
  let s := s.setWell n { w with live := w.live ++ [⟨v, dr, unit, epoch⟩] }
  s.bump (R.WEL_CNT_DRAWS n) 1

/-- The draw of R103. -/
def State.draw (s : State) (n : Nat) (dr : Drawer) (unit epoch : Nat) : DrawRes :=
  let w := s.well n
  let next := (s.reg (R.WEL_NEXT n)).toNat
  let limit := (s.reg (R.WEL_LIMIT n)).toNat
  if 256 ≤ w.live.length then .wait
  else if w.returned ≠ [] then
    let v := least w.returned
    .value v ((s.setWell n { w with returned := w.returned.erase v }).recordLease n v dr unit epoch)
  else if next < limit then
    let nx := next + s.get (R.WEL_STEP_STEP n)
    let s := s.setReg (R.WEL_NEXT n) (if 2 ^ 64 ≤ nx then limit else nx)
    .value next (s.recordLease n next dr unit epoch)
  else if w.live.any (fun l => !s.leaseMine dr l) then .wait
  else .exhausted

/-- The leases of a drawer consumed at its commit (R104). -/
def State.consumeLeases (s : State) (mine : Drawer → Bool) : State :=
  s.x.wells.foldl (fun s p =>
    let gone := p.2.live.filter fun l => mine l.drawer
    if gone.isEmpty then s else
    let s := s.setWell p.1 { p.2 with live := p.2.live.filter (fun l => !mine l.drawer) }
    s.bump (R.WEL_CNT_CONSUMED p.1) gone.length) s

/-- The leases of a drawer returned at its kill (R104). -/
def State.returnLeases (s : State) (mine : Drawer → Bool) : State :=
  s.x.wells.foldl (fun s p =>
    let gone := p.2.live.filter fun l => mine l.drawer
    if gone.isEmpty then s else
    s.setWell p.1 { p.2 with live := p.2.live.filter (fun l => !mine l.drawer), returned := p.2.returned ++ gone.map (·.value) }) s

def Drawer.isCmd (t : Nat) : Drawer → Bool
  | .cmd t' => t == t'
  | .turn _ _ => false

/-- Whether a drawer is a turn of a core numbered n or later. -/
def Drawer.isTurnFrom (c n : Nat) : Drawer → Bool
  | .turn c' n' => c == c' && decide (n ≤ n')
  | _ => false

/-- Every live lease that a lost unit drew, as a test picks them, is fenced and its value returned at once (R105). -/
def State.fenceLeases (s : State) (lost : Lease → Bool) : State :=
  s.x.wells.foldl (fun s p =>
    let gone := p.2.live.filter lost
    if gone.isEmpty then s else
    let s := s.setWell p.1 { p.2 with
      live := p.2.live.filter (fun l => !lost l),
      returned := p.2.returned ++ gone.map (·.value), fenced := p.2.fenced ++ gone }
    s.raiseAt (R.WEL_ERR_FENCED p.1) (some (s.get (R.WEL_CTL_TEN p.1))) p.1 noTicket) s

/-! ## Reads of shared pool pages (02 R23, 16 R436) -/

/-- A remote operation registered under the next OP_ID. -/
def State.addOp (s : State) (o : RemoteOp) : State × Nat :=
  let id := s.fa.nextOp % 2 ^ 32
  ({ s with fa := { s.fa with ops := tset s.fa.ops id o, nextOp := s.fa.nextOp + 1 } }, id)

/-- A read of part of a shared pool page asked of the peer that exports it, in the ADAPTIVE class (DESIGN CHOICE, log entry 72): SPACE 1. -/
def State.askPeer (s : State) (ticket kind hops ten : Nat) (part : Nat × Nat) : State × Nat :=
  let frame := match s.page (part.1 / pageBytes) with
    | some p => p.frame
    | none => 0
  let r := s.addOp ⟨ticket, kind, frame / 2 ^ 35, hops, part.1, part.2, []⟩
  (r.1.sendCar 0x14 2 (frame / 2 ^ 35) ten 1 [frame % 2 ^ 35 * pageBytes + part.1 % pageBytes, r.2, part.2] [], r.2)

/-- The runs of shared pool pages, key and length, in ranges that an accessor may read there. -/
def State.poolParts (s : State) (a : Accessor) (ten : Nat) (rds : List (Nat × Nat)) : List (Nat × Nat) :=
  if a = .scan then [] else
  (rds.flatMap byPage).filterMap fun r => match s.pageOf ten r.1 with
    | some (pk, p) => if p.st = 5 then some (pk * pageBytes + r.1 % pageBytes, r.2) else none
    | none => none

/-- The answer to a read of a shared pool page is complete: its bytes as the peer had them when the read arrived. -/
def State.poolRead (s : State) (o : RemoteOp) (got : List (Nat × List Byte)) : State := s.writeRun o.arg (got.flatMap (·.2))

/-! ## Kills (02 R24 to R31) -/

/-- The remote operations of a command dropped: a staged write is discarded at its destination (16 R430), and a response that
arrives later finds nothing (R429). -/
def State.dropOps (s : State) (t : Nat) : State :=
  s.fa.ops.foldl (fun s p =>
    if p.2.ticket = t then
      let s := { s with fa := { s.fa with ops := tdel s.fa.ops p.1 } }
      if p.2.kind = 2 then s.sendCar 0x12 1 p.2.dst 0 0 [p.1] [] else s
    else s) s

/-- A command killed for a cause (R25): its effects, leases, tiles and staged outputs are discarded; a shelter mark shuts
out the causes of R31; past the start point nothing is discarded (R35); an aborted one is void (R96); in a controlled shutdown no
kill is raised (19 R491). The kill of a command still Issued sets its cause and adds no attempt (DESIGN CHOICE, log entry 85). -/
def State.killCmd (s : State) (t : Nat) (cause : Cause) : State :=
  match s.cmd t with
  | none => s
  | some c =>
    if c.st.isOver || c.st == .irrevocable || s.get R.PWR_STS_SHUTDOWN == 1 then s
    else if c.sheltered && cause.shelters then s
    else if cause = .streamAbort then
      ((s.returnLeases (Drawer.isCmd t)).dropOps t).setCmd t
        { c with st := .void, done := none, reads := [], far := [], patched := [], lease := none, tiles := 0, drawWait := false, await := [] }
    else if c.st == .killed then
      if cause == .rebind && c.lastKill == Cause.sliceEnd.code && c.cutAt == some (s.time (s.tenPort c.ten)) then
        s.setCmd t { c with lastKill := cause.code }
      else s
    else
      let kills := if cause.shelters then c.kills + 1 else 0
      let trans := if cause = .translation then c.transKills + 1 else 0
      let s := (s.returnLeases (Drawer.isCmd t)).dropOps t
      let s := s.setCmd t { c with
        st := .killed, done := none, reads := [], far := [], patched := [], lease := none, tiles := 0,
        drawWait := false, lastKill := cause.code, kills := kills, transKills := trans,
        sheltered := c.sheltered || decide (8 ≤ kills), discarding := c.st.live }
      if 16 ≤ trans then s.raiseAt R.MEM_ERR_THRASH (some c.ten) 0 t else s

/-- A turn's mark after one more kill (R31, 07 R187). -/
def TurnMark.after (m : TurnMark) (cause : Cause) : TurnMark :=
  let kills := if cause.shelters then m.kills + 1 else 0
  { kills := kills, trans := if cause = .translation then m.trans + 1 else 0, sheltered := m.sheltered || decide (8 ≤ kills) }

/-- Whether a turn of a core is sheltered. -/
def Core.shelters (k : Core) (num : Nat) : Bool := (tget k.marks num {}).sheltered

/-- The old contents of the scratch lines a turn wrote, put back (03 R55). -/
def State.restoreLines (s : State) (bank : Nat) (kept : Tab (BitVec 512)) : State :=
  kept.foldl (fun s p => s.writeRun (key (spScratch bank) (64 * p.1)) (leBytes 64 p.2.toNat)) s

/-- A core's turns killed from the i-th outstanding one on (03 R54, R55): leases returned, kept lines restored from the
latest turn back, the checkpoint of the oldest killed turn restored, each killed turn's mark kept. The core waits for the rerun. -/
def State.killTurns (s : State) (c i : Nat) (cause : Cause) : State :=
  let k := s.core c
  match k.turns[i]? with
  | none => s
  | some tn =>
    if (k.shelters tn.num && cause.shelters) || s.get R.PWR_STS_SHUTDOWN == 1 then s
    else
      let gone := k.turns.drop i
      let s := s.returnLeases (Drawer.isTurnFrom c tn.num)
      let s := gone.reverse.foldl (fun s t => s.restoreLines k.bank t.kept) s
      let marks := gone.foldl (fun (m : Tab TurnMark) t => tset m t.num ((tget m t.num {}).after cause)) k.marks
      let s := s.setCore c { k with
        g := tn.ckpt.g, v := tn.ckpt.v, m := tn.ckpt.m, pc := tn.ckpt.pc, counts := tn.ckpt.counts,
        turns := k.turns.take i, turnNum := tn.num, wait := .none, mode := .running, marks := marks,
        held := true, discarding := true, lastKill := cause.code, pool := none }
      if 16 ≤ (tget marks tn.num {}).trans then s.raiseAt R.MEM_ERR_THRASH (some k.ten) 0 noTicket else s

/-- Whether a non-killable command past its start point holds a page (02 R34). -/
def State.nkHolds (s : State) (pk : Nat) : Bool := s.x.cmds.any fun c => c.2.st == .irrevocable && c.2.pages.contains pk

/-- A move of drift killed: drift decides afresh (07 R178). -/
def State.killMove (s : State) (id : Nat) : State := { s with vm := { s.vm with moves := tdel s.vm.moves id } }

/-- The oldest outstanding turn of a core, not sheltered, that has read one of the granules. -/
def Core.clashing (k : Core) (gs : List Nat) : Option Nat :=
  k.turns.findIdx? fun t => (t.reads.any fun g => gs.contains g) && !k.shelters t.num

/-- The readers of granules that a commit has written, killed with READ_CLASH (02 R22): every other Running or Ready
command, the turns of other cores, and the moves that have read them (07 R178). -/
def State.clash (s : State) (who : Ref) (gs : List Nat) : State :=
  let s := s.x.cmds.foldl (fun s p =>
    if decide (who ≠ .cmd p.1) && p.2.st.live && p.2.reads.any (fun g => gs.contains g) then s.killCmd p.1 .readClash else s) s
  let s := s.x.cores.foldl (fun s p =>
    if who = .turn p.1 then s else
    match (s.core p.1).clashing gs with
    | some i => s.killTurns p.1 i .readClash
    | none => s) s
  s.vm.moves.foldl (fun s p =>
    let mine : Nat → Bool := fun g => match p.2.granule with
      | some x => g == p.2.page * 32 + x
      | none => g / 32 == p.2.page
    if p.2.st.live && decide (who ≠ .move p.1) && gs.any mine then s.killMove p.1 else s) s

/-! ## Slices and units -/

/-- Whether a tenancy has a batch admitted (14 R357). -/
def State.hasBatch (s : State) (ten : Nat) : Bool := s.sv.batches.any fun b => b.2.ten == ten

/-- The rota of a tenancy (14 R365): 0 to 15, 64 + t for one of its own, none without slices (R368). -/
def State.rotaOf (s : State) (ten : Nat) : Option Nat :=
  let r := s.get (R.SCH_TEN_CTL_ROTA ten)
  if r < 16 then some r else if s.get (R.SCH_TEN_SLICE_SLICE ten) = 0 then none else some (64 + ten)

/-- The member that holds a rota's present or latest slice. -/
def State.rotaHolder (s : State) (r : Nat) : Nat := if r < 16 then s.get (R.SCH_ROTA_STS_HOLDER r) else r - 64

/-- Whether a tenancy may run now: it has no slices, or it is in a slice of its own (14 R366). -/
def State.mayRun (s : State) (ten : Nat) : Bool :=
  match s.rotaOf ten with
  | none => true
  | some r =>
    match tfind s.sc.ends r with
    | none => false
    | some e => s.rotaHolder r == ten && decide (s.time (s.tenPort ten) < e)

/-- The engine, 52d + e, in whose place engine n serves: itself, but for a spare in service (18 R464). -/
def State.servesFor (s : State) (n : Nat) : Nat :=
  if isSpare n ∧ s.get (R.ENG_STS_SUBST_FOR n) ≠ 0x3F then n / 52 * 52 + s.get (R.ENG_STS_SUBST_FOR n) else n

/-- The group of engine e of a die (05 Table 5.5). -/
def engGroup (e : Nat) : Nat :=
  if e < 7 then 0 else if e < 13 then 1 else if e < 20 then 2 else if e < 26 then 3
  else if e < 33 then 4 else if e < 39 then 5 else if e < 46 then 6 else 7

/-- The group, 8d + g, that engine n = 52d + e belongs to: a spare in service, the group it serves (18 R464). -/
def State.groupNow (s : State) (n : Nat) : Nat :=
  let m := s.servesFor n
  8 * (m / 52) + engGroup (m % 52)

/-- Whether a re-bind under way names a unit (14 R353 step 1). -/
def State.rebinding (s : State) (cls n : Nat) : Bool :=
  match s.sc.rebind with
  | none => false
  | some r =>
    (r.kind == 1 && cls == 0x01 && r.set.testBit (s.groupNow n)) || (r.kind == 3 && cls == 0x02 && r.set.testBit n) ||
      (r.kind == 2 && cls == clsCore && r.set.testBit (n / 32))

/-- The units of a class that the module has (Table 0.4, Table 1.1): 104 engines, 16 scan units, 40 carts (FD0's 0 to 15, FD1's 16 to 31,
the gate die's 32 to 39), drift and wells by field die, 20 ports, one of every other (log entry 26). -/
def unitCount (cls : Nat) : Nat :=
  match cls with
  | 0x01 => 104
  | 0x02 => 16
  | 0x03 => 40
  | 0x04 | 0x0B => 2
  | 0x07 => 20
  | _ => 1

/-- Whether an engine or a scan unit bound to a tenancy serves another (14 R365): it is the same, or a member of the same rota. -/
def State.sameTurn (s : State) (owner ten : Nat) : Bool :=
  owner == ten || (decide (s.get (R.SCH_TEN_CTL_ROTA ten) < 16) && s.get (R.SCH_TEN_CTL_ROTA owner) == s.get (R.SCH_TEN_CTL_ROTA ten))

/-- Whether a unit of a class takes commands of a tenancy (14 R350, R353): the module has it, it is enabled and, where units of its
class are bound, bound to the tenancy or to a member of its rota. Carts, drift's dies, wells and the security island have no enable of their own but
the block's. -/
def State.unitTakes (s : State) (cls n ten : Nat) : Bool :=
  decide (n < unitCount cls) && s.get R.PWR_STS_SHUTDOWN == 0 && !s.rebinding cls n &&
  match cls with
  | 0x01 => s.get (R.ENG_CTL_EN n) == 1 && s.sameTurn (s.get (R.ENG_CTL_TEN n)) ten && s.get (R.ENG_STS_STATE n) == 1
  | 0x02 => s.get (R.SCN_CTL_EN n) == 1 && s.sameTurn (s.get (R.SCN_CTL_TEN n)) ten
  | 0x04 => s.get R.MEM_CTL_EN == 1
  | 0x05 => s.get R.TXT_CTL_EN == 1
  | 0x06 => s.get R.EMB_CTL_EN == 1
  | 0x07 => if n < 4 then s.get (R.HST_CTL_EN n) == 1 else s.get R.FAB_CTL_EN == 1
  | 0x08 => s.get R.CEL_CTL_EN == 1
  | 0x0A => s.get R.FAB_CTL_EN == 1
  | _ => true

end Sys2Proof.Machine
end

