-- ==== Sys2Proof/Machine/Window.lean ====
section
/-!
DEFINITION. Reading the control window (21 R523 to R530): the registers whose value follows from other state, power
gating, what a core's view shows.
-/
namespace Sys2Proof.Machine

/-- Whether a block's copy is powered and out of reset (24 R569). The blocks that Table 19.3 does not place gate only in deep sleep, with the
die-link hub (log entry 12). -/
def State.unitPowered (s : State) (blk : Blk) (n : Nat) : Bool :=
  let out := !s.pw.rstLow
  match blk with
  | .mod | .pwr | .err | .sec => true
  | .eng => out && s.powered (20 * (n / 52) + engGroup (n % 52))
  | .ham => out && s.powered (20 * (n / 4) + 8 + n % 4)
  | .oas => out && (s.powered (20 * n + 12) || s.powered (20 * n + 13))
  | .scn => out && s.powered (20 * (n / 8) + 14 + n % 8 / 2)
  | .hst | .img => out && s.powered 40
  | .fab => out && (s.powered 41 || s.powered 42 || s.powered 43 || s.powered 44)
  | .txt | .grm => out && s.powered 45
  | .cel => out && s.powered 46
  | _ => out && s.powered 47

/-- The state code of a core (Table 3.15). -/
def CoreMode.code : CoreMode → Nat
  | .idle => 0 | .running => 1 | .waiting => 2 | .excHalted => 3 | .syncHalted => 4

/-- HAM_CORE_STS of a core (Table 3.15). -/
def State.coreSts (s : State) (c : Nat) : Nat :=
  let k := s.core c
  k.mode.code + k.exc * 2 ^ 4 + k.excPc % 2 ^ 14 * 2 ^ 16 + k.turnsDone % 2 ^ 32 * 2 ^ 32

/-- HAM_STS of a hamlet: the stored CHK, RUNNING, HALTED (Table 3.12). A core that has halted holds no task that RUNNING counts
(DESIGN CHOICE, log entry 59). -/
def State.hamSts (s : State) (h : Nat) : Nat :=
  let cs := upto (32 * h) 32
  let run := cs.any fun c => (s.core c).mode == .running || (s.core c).mode == .waiting
  s.get (R.HAM_STS_CHK h) + (if run then 2 ^ 8 else 0) +
    lsum (cs.map fun c => if (s.core c).mode == .excHalted then 2 ^ (16 + c % 32) else 0)

/-- WEL_STS of a well: the stored CHK, LIVE, RET, EXHAUSTED (Table 4.10), which reads its reset value while EN is 0 (DESIGN CHOICE, log
entry 60). -/
def State.welSts (s : State) (n : Nat) : Nat :=
  let w := s.well n
  let out := s.get (R.WEL_CTL_EN n) == 1 && decide ((s.reg (R.WEL_LIMIT n)).toNat ≤ (s.reg (R.WEL_NEXT n)).toNat) && w.returned.isEmpty
  s.get (R.WEL_STS_CHK n) + w.live.length * 2 ^ 8 + w.returned.length * 2 ^ 17 + (if out then 2 ^ 26 else 0)

/-- ERR_SUM (Table 22.4). -/
def State.errSum (s : State) : Nat := lsum (s.errBlocks.map (2 ^ ·)) + (if s.alert then 2 ^ 63 else 0)

/-- Whether a table is paused (17 R456): a swap of it has left Issued and is not over. -/
def State.embPaused (s : State) (table : Nat) : Bool :=
  s.x.cmds.any fun p => dClass p.2.words == 0x06 && dOp p.2.words == 0x03 && bits (dBody p.2.seen 0) 0 5 == table &&
    decide (0 < p.2.attempts) && !p.2.st.isOver

/-- A bit of a register. -/
def flagBit (b : Bool) (n : Nat) : Nat := if b then 2 ^ n else 0

/-- Whether a scan unit has a command Running (08 Table 8.12): one that left Issued on it, or a probe, whose lists the units serving its
queue divide among themselves (08 R217; log entry 74). -/
def State.scanBusy (s : State) (u : Nat) : Bool :=
  s.x.cmds.any fun p => dClass p.2.words == 2 && p.2.st == .running &&
    (p.2.unit == u || (dOp p.2.words == 1 && (s.queue (qOf p.1)).any fun q => q.units.contains u && s.unitTakes 2 u q.ten))

/-- Whether a scan unit is reading a side list for a probe (08 R231, Table 8.12): the unit of a Running probe that has yet to scan (log
entry 74). -/
def State.sideReader (s : State) (u : Nat) : Bool :=
  s.x.cmds.any fun p => dClass p.2.words == 2 && dOp p.2.words == 1 && p.2.st == .running && p.2.unit == u && p.2.done == none

/-- The registers of the text, embedding and twin units, of the host ports, of the fabric's row and of the measurement log that
follow from other state, by the offset of their first copy. -/
def State.derivedMore (s : State) (base off : Nat) (ix : List Nat) : Option Nat :=
  let n := nw ix 0
  let w := (s.reg off).toNat
  if base = R.TXT_STS then some (setBits w 12 13 s.tx.streams.length)
  else if base = R.TXT_GRM_STS then
    let slots := (List.range 64).countP fun i => s.get (R.TXT_GRM_SLOT_VALID i) == 1
    let busy := s.x.cmds.countP fun p => dClass p.2.words == 5 && decide (0x10 ≤ dOp p.2.words) && p.2.st == .running
    some (setBits (setBits w 8 7 slots) 15 7 (min busy 127))
  else if base = R.EMB_STS then some (setBits w 8 1 (flagBit ((List.range 32).any s.embPaused) 0))
  else if base = R.EMB_TAB_STS 0 then some (setBits w 8 1 (flagBit (s.embPaused n) 0))
  else if base = R.HST_STS 0 then
    some (setBits w 16 9 ((List.range 256).countP fun i => s.get (R.HST_QP_STATE n i) == 2))
  else if base = R.TWN_STS then some (setBits w 16 11 (s.sv.batches.countP fun b => !b.2.mirrored))
  else if base = R.FAB_RT_ROW then
    match tfind s.fa.rows s.fa.rtSel with
    | some r => some (r.ord % 2 ^ 4 + flagBit r.valid 4 + r.hops % 2 ^ 4 * 2 ^ 5 + r.mask % 2 ^ 16 * 2 ^ 16)
    | none => some 0
  else if base = R.SEC_LOG_ENT then some (s.se.log.getD (s.get R.SEC_LOG_SEL_INDEX) (0, 0)).1
  else if base = R.SEC_LOG_V 0 then some (nw (wordsOf 4 (beBytes 32 (s.se.log.getD (s.get R.SEC_LOG_SEL_INDEX) (0, 0)).2)) n)
  else none

/-- The registers whose value follows from other state, by the offset of their first copy. -/
def State.derived (s : State) (base off : Nat) (ix : List Nat) : Option Nat :=
  let n := nw ix 0
  let m := nw ix 1
  if base = 0x1800008 then some (s.hamSts (4 * n + m))
  else if base = 0x1801000 then some (s.coreSts (32 * (4 * n + m) + nw ix 2))
  else if base = 0xA00008 then some (s.welSts n)
  else if base = 0x300000 then some s.errSum
  else if base = 0x400018 then some (s.time n)
  else if base = 0x501018 then some (s.time (4 + n))
  else if base = 0x1C00008 then some (setBits (s.reg off).toNat 8 14 (s.oasisHomed n))
  else if base = 0x801010 then
    let u := s.memUse n
    some (u.1 % 2 ^ 14 + u.2.1 % 2 ^ 20 * 2 ^ 16 + u.2.2.1 % 2 ^ 24 * 2 ^ 36)
  else if base = 0x801018 then
    let u := s.memUse n
    some (u.2.2.2.1 % 2 ^ 20 + u.2.2.2.2 % 2 ^ 20 * 2 ^ 20)
  else if base = 0x800008 then
    let w := setBits (s.reg off).toNat 16 7 (s.vm.moves.filter fun m => m.2.st.live).length
    let w := setBits w 8 1 (if s.awaitedPages.any s.stuck then 1 else 0)
    some (setBits w 9 1 (1 - s.get R.PWR_STS_NV_OK))
  else if base = 0x700008 then some (setBits (s.reg off).toNat 8 1 (s.get R.PWR_STS_NV_OK))
  else if base = 0x500030 then
    let b := lsum (s.vm.pages.map fun p => if p.2.st = 4 then 1 else 0)
    some (setBits (setBits (s.reg off).toNat 20 20 s.fa.lent.length) 40 20 b)
  else if base = 0x1400008 then
    some (setBits (setBits (s.reg off).toNat 8 1 (flagBit (s.scanBusy (8 * n + m)) 0)) 9 1 (flagBit (s.sideReader (8 * n + m)) 0))
  else if base = 0x1000008 then
    let busy := s.x.cmds.any fun p => p.2.unit == 52 * n + m && dClass p.2.words == 1 && p.2.st == .running
    some (setBits (s.reg off).toNat 24 1 (if busy then 1 else 0))
  else s.derivedMore base off ix

/-- The bits of a register's write-only fields, which read zero (00 R3). -/
def woMask (fs : List FieldDef) : Nat := fs.foldl (fun a f => if f.acc = .wo then setBits a f.lo f.w (2 ^ f.w - 1) else a) 0

/-- Whether a register's unit is powered; a fabric port's registers lie with its quadrant (16 Table 16.12). -/
def State.regPowered (s : State) (d : RegDef) (ix : List Nat) : Bool :=
  s.unitPowered d.blk (copyNumber d ix) &&
    (if 0x501000 ≤ d.base ∧ d.base < 0x501020 then s.powered (41 + nw ix 0 / 4) else true)

/-- A register of the window as it reads now: an unassigned offset and a gated unit read zero (R524, R538). -/
def State.view (s : State) (off : Nat) : Nat :=
  match findReg off with
  | none => 0
  | some (d, ix) =>
    if !s.regPowered d ix then 0
    else
      let v := (s.derived d.base off ix).getD (s.reg off).toNat
      v - (v &&& woMask d.fields)

/-- Whether a block's copy is enabled and bound to a tenancy (R529). -/
def State.boundTo (s : State) (blk : Blk) (n ten : Nat) : Bool :=
  match blk with
  | .ham => s.get (R.HAM_CTL_EN n) == 1 && s.get (R.HAM_CTL_TEN n) == ten
  | .wel => s.get (R.WEL_CTL_EN n) == 1 && s.get (R.WEL_CTL_TEN n) == ten
  | .eng => s.get (R.ENG_CTL_EN n) == 1 && s.get (R.ENG_CTL_TEN n) == ten
  | .scn => s.get (R.SCN_CTL_EN n) == 1 && s.get (R.SCN_CTL_TEN n) == ten
  | .tab => s.get (R.EMB_TAB_CTL_EN n) == 1 && s.get (R.EMB_TAB_CTL_TEN n) == ten
  | _ => false

/-- What a core of a tenancy reads at an offset of the view (R529): the MOD block, its own units, its tenancy's
registers; everything else zero, and so the ports' times (R74). -/
def State.coreView (s : State) (ten off : Nat) : Nat :=
  match findReg off with
  | none => 0
  | some (d, ix) =>
    let mine := match d.blk with
      | .mod => true
      | .ten => nw ix 0 == ten
      | .mem => decide (d.base = 0x801000 ∨ d.base = 0x801008 ∨ d.base = 0x801010 ∨ d.base = 0x801018) && nw ix 0 == ten
      | b => s.boundTo b (copyNumber d ix) ten
    if mine then s.view off else 0

end Sys2Proof.Machine
end

