-- ==== Sys2Proof/Machine/Operands.lean ====
section
/-!
DEFINITION. A core's registers, its fetch, its turns (03 R48 to R55), its memory operands (R63 to R65) and its
exceptions (R80, R81).
-/
namespace Sys2Proof.Machine

/-! ## Registers -/

/-- A general register; g0 reads zero (Table 3.1). -/
def Core.rd (k : Core) (r : Reg) : Word := if r = 0 then 0 else tget k.g r.toNat 0
/-- A general register written; g0 ignores writes. -/
def Core.wr (k : Core) (r : Reg) (x : Word) : Core := if r = 0 then k else { k with g := tset k.g r.toNat x }
def Core.vrd (k : Core) (r : Reg) : Vec := tget k.v r.toNat 0
def Core.vwr (k : Core) (r : Reg) (x : Vec) : Core := { k with v := tset k.v r.toNat x }
/-- A mask register; m0 reads all ones. -/
def Core.mrd (k : Core) (r : BitVec 3) : Word := if r = 0 then BitVec.allOnes 64 else tget k.m r.toNat 0
/-- A mask register written; m0 ignores writes. -/
def Core.mwr (k : Core) (r : BitVec 3) (x : Word) : Core := if r = 0 then k else { k with m := tset k.m r.toNat x }

/-! ## Turns -/

/-- The turn a core is in: its latest, while it has not ended. -/
def Core.turn (k : Core) : Option Turn :=
  match k.turns.getLast? with
  | some t => if t.fin = .open_ then some t else none
  | none => none

/-- The turn a core is in, changed. -/
def Core.onTurn (k : Core) (f : Turn → Turn) : Core :=
  match k.turns.getLast? with
  | some t => { k with turns := k.turns.dropLast ++ [f t] }
  | none => k

/-- A checkpoint of a core (R55). -/
def Core.ckpt (k : Core) : Ckpt := ⟨k.g, k.v, k.m, k.pc, k.counts⟩

/-- A new turn begins (R52), or the core stalls while two are outstanding (R54). -/
def Core.startTurn (k : Core) : Core :=
  if k.turns.length < 2 then
    { k with wait := .none, turnNum := k.turnNum + 1,
             turns := k.turns ++ [⟨k.turnNum, k.ckpt, [], [], [], [], [], none, [], [], 0, 0, .open_, []⟩] }
  else { k with wait := .turn }

/-- The turn a core is in ends (R52). -/
def Core.endTurn (k : Core) (f : TurnEnd) : Core := k.onTurn fun t => { t with fin := f }

/-- Whether the turn a core is in is the sheltered one (02 R31): it runs on past its slice and past a disable (R57). -/
def Core.inShelter (k : Core) : Bool :=
  match k.turn with
  | some t => k.shelters t.num
  | none => false

/-- Whether a core can execute its next instruction: its hamlet is enabled, it runs a task in an open turn, waits for
nothing, its kill is not pending a rerun, and its tenancy's slice allows it. -/
def State.canStep (s : State) (c : Nat) : Bool :=
  let k := s.core c
  k.mode == .running && k.wait == .none && !k.held && !k.down && k.turn.isSome &&
    ((s.mayRun k.ten && s.get (R.HAM_CTL_EN (c / 32)) == 1) || k.inShelter) && s.get R.PWR_STS_SHUTDOWN == 0

/-! ## Fetch -/

/-- The words of the instruction store (Table 3.1). -/
def istoreWords : Nat := 16384

def Core.word (k : Core) (i : Nat) : BitVec 32 := tget k.istore i 0

/-- The instruction at a core's program counter; none when the fetch leaves the instruction store (R62, Table 3.10). -/
def Core.fetch (k : Core) : Option CoreOp :=
  let i := k.pc.toNat
  if istoreWords ≤ i then none
  else
    let op := decodeCore (k.word i) (k.word (i + 1))
    match op with
    | .movl _ _ => if istoreWords ≤ i + 1 then none else some op
    | _ => some op

/-! ## Exceptions -/

/-- The causes of Table 3.10. -/
inductive Exc where
  | illegal | fetchRange | misaligned | scratchRange | protection | handle | descriptor | brk
deriving DecidableEq, Repr

def Exc.code : Exc → Nat
  | .illegal => 1 | .fetchRange => 2 | .misaligned => 3 | .scratchRange => 4 | .protection => 5 | .handle => 6
  | .descriptor => 7 | .brk => 8

/-- The die, hamlet and core fields that name core c = 32 (4d + h) + n (Table 3.9). -/
def coreId (c : Nat) : Nat := c / 128 + c / 32 % 4 * 2 + c % 32 * 8

/-- An exception (R80): the turn ends before the excepting instruction, with the cause and the word index; the core halts, and its halt
is reported, at the turn's commit (log entry 57). -/
def State.exception (s : State) (c : Nat) (e : Exc) : State :=
  let k := s.core c
  s.setCore c (k.endTurn (.exception e.code (k.pc.toNat % 2 ^ 14)))

/-! ## Completing an instruction -/

/-- An instruction done: the core as it leaves it, the program counter moved, one more retired (R53). -/
def State.retire (s : State) (c : Nat) (k : Core) (pc : Word) : State :=
  s.setCore c ({ k with pc := pc }.onTurn fun t => { t with retired := t.retired + 1 })

/-- An instruction done that goes on to the next word. -/
def State.retireNext (s : State) (c : Nat) (k : Core) : State := s.retire c k (k.pc + 1)

/-- The instruction limit of a turn (R53). -/
def retireMax : Nat := 1048576

/-- An instruction carried out in the core's turn, or, where it would exceed a limit of R53, in the turn after an
implicit end; nothing but the end happens when the core then stalls. -/
def State.inRoom (s : State) (c : Nat) (full : Turn → Bool) (act : State → State) : State :=
  match (s.core c).turn with
  | none => s
  | some t =>
    if full t || decide (retireMax ≤ t.retired) then
      let k := ((s.core c).endTurn .plain).startTurn
      let s := s.setCore c k
      if k.wait = .turn then s else act s
    else act s

/-- The row of a core: nothing while the core cannot step or its next instruction is of another row; FETCH_RANGE when
the fetch leaves the store; else the instruction's effect. -/
def State.coreRow (s : State) (c : Nat) (act : CoreOp → Option (State → State)) : Host.Outcome State Fault Refusal :=
  if 256 ≤ c then .fault .noSuchUnit
  else if !s.canStep c then .next s
  else match (s.core c).fetch with
    | none => .next (s.exception c .fetchRange)
    | some op =>
      match act op with
      | some f => .next (f s)
      | none => .next s

/-! ## Memory operands -/

/-- The address of format M: base + offset in units of the access size, modulo 2^64 (R63). -/
def memAddr (base : Word) (off : BitVec 14) (size : Nat) : Word := base + off.signExtend 64 * BitVec.ofNat 64 size

/-- The bytes of scratch a bank has. -/
def scratchBytes : Nat := 0x40000

/-- A run of a core's scratch. -/
def State.scratch (s : State) (c a n : Nat) : List Byte := s.run (key (spScratch (s.core c).bank) a) n

/-- A byte of a core's virtual range: its own deferred store, the latest turn's first, else the committed byte (R65). -/
def State.coreByte (s : State) (c k : Nat) : Byte × Bool :=
  match ((s.core c).turns.reverse).findSome? fun t => tfind t.stores k with
  | some b => (b, true)
  | none => (s.byte k, false)

/-- The read of n bytes of a core's virtual range, with its read tracking (R22) and heat (07 R164). -/
def State.coreRead (s : State) (c ten va n : Nat) : List Byte × State :=
  let ks := (List.range n).map fun i => s.dkey ten (va + i)
  let bs := ks.map (s.coreByte c)
  let g := s.dkey ten va / granuleBytes
  let local_ := match s.pageOf ten va with
    | some (_, p) => decide (p.st < 4)
    | none => false
  let track := local_ && bs.any fun b => !b.2
  let touched := match (s.core c).turn with
    | some t => t.touched.contains g
    | none => true
  let s := s.setCore c ((s.core c).onTurn fun t =>
    { t with reads := if track then addNew t.reads g else t.reads, touched := addNew t.touched g
             far := if !local_ && bs.any (fun b => !b.2) then addNew t.far g else t.far })
  (bs.map (·.1), s.accessHeat (if touched then [] else [g]) (s.homeLines ten [(va, n)]))

/-- The store of a run of bytes to a core's virtual range, deferred in its turn. -/
def State.coreWrite (s : State) (c ten va : Nat) (bs : List Byte) : State :=
  let k0 := s.dkey ten va
  let g := k0 / granuleBytes
  let touched := match (s.core c).turn with
    | some t => t.touched.contains g
    | none => true
  let s := s.setCore c ((s.core c).onTurn fun t =>
    { t with stores := (bs.zipIdx).foldl (fun m p => tset m (k0 + p.2) p.1) t.stores,
             lines := addNew t.lines (k0 / 64), touched := addNew t.touched g })
  s.accessHeat (if touched then [] else [g]) (s.homeLines ten [(va, bs.length)])

/-- The store of a run of bytes, within one line, to scratch: the line's old contents are kept once per turn (R55). -/
def State.scratchWrite (s : State) (c a : Nat) (bs : List Byte) : State :=
  let k := s.core c
  let line := a / 64
  let old := BitVec.ofNat 512 (ofLe (s.scratch c (64 * line) 64))
  let s := s.setCore c (k.onTurn fun t =>
    match tfind t.kept line with
    | some _ => t
    | none => { t with kept := tset t.kept line old })
  s.writeRun (key (spScratch k.bank) a) bs

/-- A translation fault of a core's access: the turn is killed and its rerun waits for the page (R64, 07 R183, R184). -/
def State.coreFault (s : State) (c : Nat) (cause : Cause) (await : List Nat) : State :=
  let i := (s.core c).turns.length - 1
  let s := s.killTurns c i cause
  let s := s.setCore c { s.core c with await := await }
  if cause = .translation then s.faulted await else s

/-- A load of `size` bytes (R63, R64): the bytes go to `put`. A load from a shared pool page waits for the peer's answer (02 R23). An
access both misaligned and out of the scratch, or misaligned in the window's view, raises MISALIGNED (DESIGN CHOICE, log entry 58). -/
def State.load (s : State) (c : Nat) (sp : Space) (va : Word) (size : Nat) (wide : Bool) (corr : Nat) (parity : Bool)
    (put : Core → List Byte → Core) : State :=
  let k := s.core c
  let a := va.toNat
  if a % size ≠ 0 then s.exception c .misaligned
  else match sp with
    | .scratch =>
      if scratchBytes < a + size then s.exception c .scratchRange
      else s.retireNext c (put k (s.scratch c a size))
    | .virt =>
      if cwVa ≤ a ∧ a < 2 ^ 56 then
        -- the control window's read-only view (21 R528)
        if wide then
          let ws := (List.range (size / 8)).map fun i => s.coreView k.ten (a - cwVa + 8 * i)
          s.retireNext c (put k (bytesOf ws))
        else s.exception c .protection
      else if s.pw.absent.contains 5 then s
      else match s.access .unit k.ten [(a, size)] [] with
        | .prot => s.exception c .protection
        | .fault ps => s.coreFault c .translation ps
        | .poison _ => s.coreFault c .unitFault []
        | .ok =>
          match (s.poolParts .unit k.ten [(a, size)]).filter fun p => k.pool != some p with
          | p :: _ =>
            let r := s.askPeer noTicket 8 c k.ten p
            r.1.setCore c { k with wait := .pool r.2 }
          | [] =>
            let (bs, s) := s.coreRead c k.ten a size
            let s := s.corrected k.ten a corr parity
            s.retireNext c (put { s.core c with pool := none } bs)

/-- A store of bytes (R63, R64), within the limits of R53. -/
def State.store (s : State) (c : Nat) (sp : Space) (va : Word) (bs : List Byte) : State :=
  let k := s.core c
  let a := va.toNat
  let size := bs.length
  if a % size ≠ 0 then s.exception c .misaligned
  else match sp with
    | .scratch =>
      if scratchBytes < a + size then s.exception c .scratchRange
      else s.inRoom c (fun t => (tfind t.kept (a / 64)).isNone && decide (512 ≤ t.kept.length)) fun s =>
        let s := s.scratchWrite c a bs
        s.retireNext c (s.core c)
    | .virt =>
      if cwVa ≤ a ∧ a < 2 ^ 56 then s.exception c .protection
      else match s.access .unit k.ten [] [(a, size)] with
        | .prot => s.exception c .protection
        | .fault ps => s.coreFault c .translation ps
        | .poison _ => s.coreFault c .unitFault []
        | .ok =>
          let line := s.dkey k.ten a / 64
          s.inRoom c (fun t => !t.lines.contains line && decide (1024 ≤ t.lines.length)) fun s =>
            let s := s.coreWrite c k.ten a bs
            s.retireNext c (s.core c)

end Sys2Proof.Machine
end

