-- ==== Sys2Proof/Machine/Cores.lean ====
section
/-!
DEFINITION. The instructions of a hamlet core that compute, move data, branch, draw, synchronise and read or write core
state (03 R60 to R73, R79, R80). Each row acts when core c can step and the word at its program counter is of the row.
-/
namespace Sys2Proof

/-- The access size of a scalar load. -/
def LdFn.size : LdFn → Nat
  | .u8 | .s8 => 1
  | .u16 | .s16 => 2
  | .u32 | .s32 => 4
  | .d64 => 8

/-- A loaded value, zero- or sign-extended. -/
def LdFn.extend (f : LdFn) (bs : List Byte) : Word :=
  let x := Machine.ofLe bs
  match f with
  | .s8 => BitVec.ofInt 64 (Machine.signed 8 x)
  | .s16 => BitVec.ofInt 64 (Machine.signed 16 x)
  | .s32 => BitVec.ofInt 64 (Machine.signed 32 x)
  | _ => BitVec.ofNat 64 x

/-- The access size of a scalar store. -/
def StFn.size : StFn → Nat
  | .b8 => 1 | .b16 => 2 | .b32 => 4 | .b64 => 8

end Sys2Proof

namespace Sys2Proof.Machine

/-- An instruction that changes only the core's registers. -/
def State.compute (c : Nat) (f : Core → Core) : State → State := fun s =>
  s.inRoom c (fun _ => false) fun s => s.retireNext c (f (s.core c))

/-- An immediate instruction of one function. -/
def immRow (c : Nat) (f : ImmFn) (s : State) : Host.Outcome State Fault Refusal :=
  s.coreRow c fun op => match op with
    | .imm g d a i => if g = f then some (State.compute c fun k => k.wr d (immFn f (k.rd a) i)) else none
    | _ => none

/-- INT_REG_OP (R61). -/
def execIntRegOp (c : Nat) (s : State) : Host.Outcome State Fault Refusal :=
  s.coreRow c fun op => match op with
    | .int f d a b => some (State.compute c fun k => k.wr d (intFn f (k.rd a) (k.rd b)))
    | _ => none

/-- INT_ADDI (R60). -/
def execIntAddi (c : Nat) (s : State) : Host.Outcome State Fault Refusal := immRow c .addi s
/-- INT_ANDI (R60). -/
def execIntAndi (c : Nat) (s : State) : Host.Outcome State Fault Refusal := immRow c .andi s
/-- INT_ORI (R60). -/
def execIntOri (c : Nat) (s : State) : Host.Outcome State Fault Refusal := immRow c .ori s
/-- INT_XORI (R60). -/
def execIntXori (c : Nat) (s : State) : Host.Outcome State Fault Refusal := immRow c .xori s
/-- INT_SLTI (R60). -/
def execIntSlti (c : Nat) (s : State) : Host.Outcome State Fault Refusal := immRow c .slti s
/-- INT_SLTUI (R60). -/
def execIntSltui (c : Nat) (s : State) : Host.Outcome State Fault Refusal := immRow c .sltui s
/-- INT_HI (R60). -/
def execIntHi (c : Nat) (s : State) : Host.Outcome State Fault Refusal := immRow c .hi s
/-- INT_SHLI (R60). -/
def execIntShli (c : Nat) (s : State) : Host.Outcome State Fault Refusal := immRow c .shli s
/-- INT_SHRI (R60). -/
def execIntShri (c : Nat) (s : State) : Host.Outcome State Fault Refusal := immRow c .shri s
/-- INT_SRAI (R60). -/
def execIntSrai (c : Nat) (s : State) : Host.Outcome State Fault Refusal := immRow c .srai s

/-- MOV_L (R60): two words. -/
def execMovL (c : Nat) (s : State) : Host.Outcome State Fault Refusal :=
  s.coreRow c fun op => match op with
    | .movl d i => some fun s => s.inRoom c (fun _ => false) fun s =>
        let k := s.core c
        s.retire c (k.wr d (i.signExtend 64)) (k.pc + 2)
    | _ => none

/-- MEM_LD (R63, R64), with what the granary reported of the access. -/
def execMemLd (c : Nat) (dram : Dram) (s : State) : Host.Outcome State Fault Refusal :=
  s.coreRow c fun op => match op with
    | .ld f d base sp off => some fun s => s.inRoom c (fun _ => false) fun s =>
        s.load c sp (memAddr ((s.core c).rd base) off f.size) f.size (f == .d64) dram.corrected dram.parity fun k bs => k.wr d (f.extend bs)
    | _ => none

/-- MEM_ST (R63). -/
def execMemSt (c : Nat) (s : State) : Host.Outcome State Fault Refusal :=
  s.coreRow c fun op => match op with
    | .st f r base sp off => some fun s => s.inRoom c (fun _ => false) fun s =>
        let k := s.core c
        s.store c sp (memAddr (k.rd base) off f.size) (leBytes f.size (k.rd r).toNat)
    | _ => none

/-- MEM_VLD (R63). -/
def execMemVld (c : Nat) (dram : Dram) (s : State) : Host.Outcome State Fault Refusal :=
  s.coreRow c fun op => match op with
    | .vld d base sp off => some fun s => s.inRoom c (fun _ => false) fun s =>
        s.load c sp (memAddr ((s.core c).rd base) off 64) 64 true dram.corrected dram.parity fun k bs => k.vwr d (BitVec.ofNat 512 (ofLe bs))
    | _ => none

/-- MEM_VST (R63). -/
def execMemVst (c : Nat) (s : State) : Host.Outcome State Fault Refusal :=
  s.coreRow c fun op => match op with
    | .vst r base sp off => some fun s => s.inRoom c (fun _ => false) fun s =>
        let k := s.core c
        s.store c sp (memAddr (k.rd base) off 64) (leBytes 64 (k.vrd r).toNat)
    | _ => none

/-- MEM_TOUCH (R63): no effect but the instruction's own completion. -/
def execMemTouch (c : Nat) (s : State) : Host.Outcome State Fault Refusal :=
  s.coreRow c fun op => match op with
    | .touch _ _ _ => some (State.compute c id)
    | _ => none

/-- BR_COMPARE (R62): a target outside the store is met at its fetch. -/
def execBrCompare (c : Nat) (s : State) : Host.Outcome State Fault Refusal :=
  s.coreRow c fun op => match op with
    | .br f a b off => some fun s => s.inRoom c (fun _ => false) fun s =>
        let k := s.core c
        s.retire c k (if brFn f (k.rd a) (k.rd b) then k.pc + off.signExtend 64 else k.pc + 1)
    | _ => none

/-- BR_CALL (R60): g31 takes the return word index. -/
def execBrCall (c : Nat) (s : State) : Host.Outcome State Fault Refusal :=
  s.coreRow c fun op => match op with
    | .call off => some fun s => s.inRoom c (fun _ => false) fun s =>
        let k := s.core c
        s.retire c (k.wr 31 (k.pc + 1)) (k.pc + off.signExtend 64)
    | _ => none

/-- BR_JR (R60): the target is read before d is written. -/
def execBrJr (c : Nat) (s : State) : Host.Outcome State Fault Refusal :=
  s.coreRow c fun op => match op with
    | .jr d a => some fun s => s.inRoom c (fun _ => false) fun s =>
        let k := s.core c
        s.retire c (k.wr d (k.pc + 1)) (k.rd a)
    | _ => none

/-- VEC_OP (R66 to R68). -/
def execVecOp (c : Nat) (s : State) : Host.Outcome State Fault Refusal :=
  s.coreRow c fun op => match op with
    | .vop f t m vd va vb => some (State.compute c fun k =>
        k.vwr vd (vecOp f t (k.mrd m) (k.vrd vd) (k.vrd va) (k.vrd vb)))
    | _ => none

/-- VEC_CVT (R69). -/
def execVecCvt (c : Nat) (s : State) : Host.Outcome State Fault Refusal :=
  s.coreRow c fun op => match op with
    | .vcvt src dst m vd va => some (State.compute c fun k => k.vwr vd (vecCvt src dst (k.mrd m) (k.vrd vd) (k.vrd va)))
    | _ => none

/-- VEC_RED (R70). -/
def execVecRed (c : Nat) (s : State) : Host.Outcome State Fault Refusal :=
  s.coreRow c fun op => match op with
    | .vred f t m vd va => some (State.compute c fun k => k.vwr vd (vecRed f t (k.mrd m) (k.vrd va)))
    | _ => none

/-- VEC_PERM (R71). `extract` writes a general register, which no mask governs (DESIGN CHOICE, log entry 86). -/
def execVecPerm (c : Nat) (s : State) : Host.Outcome State Fault Refusal :=
  s.coreRow c fun op => match op with
    | .vperm f t m vd va vb => some (State.compute c fun k =>
        match f with
        | .extract => k.wr vd (vecExtract t (k.vrd va) (k.rd vb))
        | .insert => k.vwr vd (vecPerm f t (k.mrd m) (k.vrd vd) (k.vrd va) (k.vrd vb) (k.rd va) (k.rd vb))
        | _ => k.vwr vd (vecPerm f t (k.mrd m) (k.vrd vd) (k.vrd va) (k.vrd vb) (k.rd va) (k.rd vb)))
    | _ => none

/-- VEC_CMP (R71). -/
def execVecCmp (c : Nat) (s : State) : Host.Outcome State Fault Refusal :=
  s.coreRow c fun op => match op with
    | .vcmp f t m md va vb => some (State.compute c fun k =>
        k.mwr md (vecCmp f t (k.mrd m) (k.mrd md) (k.vrd va) (k.vrd vb)))
    | _ => none

/-- VEC_MSK (R71). -/
def execVecMsk (c : Nat) (s : State) : Host.Outcome State Fault Refusal :=
  s.coreRow c fun op => match op with
    | .vmsk f t d ma mb => some (State.compute c fun k =>
        match f with
        | .popc => k.wr d (vecPopc t (k.mrd ma))
        | _ => k.mwr (d.extractLsb' 0 3) (vecMsk f t (k.mrd ma) (k.mrd mb)))
    | _ => none

/-- ILLEGAL_INSTRUCTION (R60): a reserved opcode or the all-zero word. -/
def execIllegalInstruction (c : Nat) (s : State) : Host.Outcome State Fault Refusal :=
  s.coreRow c fun op => match op with
    | .illegal => some fun s => s.exception c .illegal
    | _ => none

/-! ## Synchronisation -/

/-- SYNC_COMMIT (R72): the turn ends and the next begins. -/
def execSyncCommit (c : Nat) (s : State) : Host.Outcome State Fault Refusal :=
  s.coreRow c fun op => match op with
    | .commit => some fun s => s.inRoom c (fun _ => false) fun s =>
        let s := s.retireNext c (s.core c)
        s.setCore c ((s.core c).endTurn .plain).startTurn
    | _ => none

/-- SYNC_HALT (R72): the turn ends, and its commit ends the task. -/
def execSyncHalt (c : Nat) (s : State) : Host.Outcome State Fault Refusal :=
  s.coreRow c fun op => match op with
    | .halt => some fun s => s.inRoom c (fun _ => false) fun s =>
        let s := s.retireNext c (s.core c)
        s.setCore c ((s.core c).endTurn .halt)
    | _ => none

/-- SYNC_BAR (R72): the turn ends and the core waits at the barrier; its arrival counts when the turn commits. -/
def execSyncBar (c : Nat) (s : State) : Host.Outcome State Fault Refusal :=
  s.coreRow c fun op => match op with
    | .bar a => some fun s => s.inRoom c (fun _ => false) fun s =>
        let k := s.core c
        let n := (k.rd a).toNat
        let h := c / 32
        if !k.bars.contains (h, n) then s.exception c .handle
        else
          let s := s.retireNext c k
          s.setCore c { (s.core c).endTurn (.barrier h n) with mode := .waiting, wait := .barrier h n }
    | _ => none

/-- BARRIER_RELEASE (R72): once the participant count has arrived through committed turns, all of them continue. The barrier is that
of the tenancy the hamlet is bound to. -/
def execBarrierRelease (ham num : Nat) (s : State) : Host.Outcome State Fault Refusal :=
  if 8 ≤ ham ∨ 16 ≤ num then .fault .noSuchUnit
  else
    let key := barKey (s.get (R.HAM_CTL_TEN ham)) ham num
    match tfind s.x.bars key with
    | none => .next s
    | some b =>
      if b.arrived.length < b.count then .next s
      else
        let s := { s with x := { s.x with bars := tset s.x.bars key { b with arrived := [] } } }
        .next (b.arrived.foldl (fun s c =>
          let k := s.core c
          if k.wait = .barrier ham num then s.setCore c ({ k with mode := .running }.startTurn) else s) s)

/-- TURN_STALL_END (R54): once its older turn has committed, a stalled core begins its next turn. -/
def execTurnStallEnd (c : Nat) (s : State) : Host.Outcome State Fault Refusal :=
  if 256 ≤ c then .fault .noSuchUnit
  else
    let k := s.core c
    if k.wait = .turn ∧ k.turns.length < 2 then .next (s.setCore c k.startTurn) else .next s

/-! ## Wells -/

/-- The draw of a turn (R73, 04 R103): the value or all ones to d, or the core waits. -/
def State.coreDraw (s : State) (c : Nat) (d a : Reg) : State :=
  let k := s.core c
  let n := (k.rd a).toNat
  if 128 ≤ n then s.exception c .handle
  else if !s.wellMine n k.ten then
    (s.raiseAt (R.WEL_ERR_FOREIGN n) (some k.ten) n noTicket).exception c .handle
  else if !k.wells.contains n then s.exception c .handle
  else s.inRoom c (fun t => decide (8 ≤ t.draws)) fun s =>
    let k := s.core c
    match k.turn with
    | none => s
    | some t =>
      let done (s : State) (v : Word) : State :=
        s.retireNext c (({ s.core c with wait := .none }.onTurn fun t => { t with draws := t.draws + 1 }).wr d v)
      match s.draw n (.turn c t.num) (unitKey clsCore c) k.epoch with
      | .value v s => done s (BitVec.ofNat 64 v)
      | .exhausted => done s (BitVec.allOnes 64)
      | .wait => s.setCore c { k with wait := .draw }

/-- WELL_DRAW (R73). -/
def execWellDraw (c : Nat) (s : State) : Host.Outcome State Fault Refusal :=
  s.coreRow c fun op => match op with
    | .draw d a => some fun s => s.coreDraw c d a
    | _ => none

/-! ## Core state registers and debug (R79) -/

/-- A core state register (Table 3.9); none for an unlisted number. TASK_ARG is the core's own deferred write, if any. -/
def State.sysReg (s : State) (c n : Nat) : Option Word :=
  let k := s.core c
  match n with
  | 0 => some (BitVec.ofNat 64 (coreId c))
  | 1 => some 0x48000200
  | 2 => some (BitVec.ofNat 64 k.ten)
  | 3 => some (BitVec.ofNat 64 k.epoch)
  | 4 => some ((k.turns.reverse.findSome? (·.arg)).getD k.arg)
  | 5 => some (BitVec.ofNat 64 k.turnsDone)
  | _ => none

/-- SYS_RD (R79): an unlisted number raises ILLEGAL. -/
def execSysRd (c : Nat) (s : State) : Host.Outcome State Fault Refusal :=
  s.coreRow c fun op => match op with
    | .sysRd d a => some fun s => s.inRoom c (fun _ => false) fun s =>
        let k := s.core c
        match s.sysReg c (k.rd a).toNat with
        | some x => s.retireNext c (k.wr d x)
        | none => s.exception c .illegal
    | _ => none

/-- SYS_WR (R79): only TASK_ARG takes a write, at the turn's commit; the others are read-only. -/
def execSysWr (c : Nat) (s : State) : Host.Outcome State Fault Refusal :=
  s.coreRow c fun op => match op with
    | .sysWr a b => some fun s => s.inRoom c (fun _ => false) fun s =>
        let k := s.core c
        let n := (k.rd a).toNat
        if 6 ≤ n then s.exception c .illegal
        else if n = 4 then s.retireNext c (k.onTurn fun t => { t with arg := some (k.rd b) })
        else s.retireNext c k
    | _ => none

/-- SYS_BREAK (R79). -/
def execSysBreak (c : Nat) (s : State) : Host.Outcome State Fault Refusal :=
  s.coreRow c fun op => match op with
    | .sysBreak => some fun s => s.exception c .brk
    | _ => none

/-! ## Command issue (R75 to R78) -/

/-- The commands of a queue that are outstanding (04 R85): issued and not over, and those of the task's open turns. -/
def State.outstanding (s : State) (q : Nat) : Nat :=
  (s.x.cmds.filter fun p => qOf p.1 == q && !p.2.st.isOver).length +
    lsum ((s.x.cores.map fun p => lsum (p.2.turns.map fun t => (t.issues.filter fun i => i.queue == q).length)))

/-- Whether a ticket names a queue the core's task holds and a command it has issued (R77). -/
def Core.issued (k : Core) (t : Nat) : Bool := k.handles.contains (qOf t) && decide (seqOf t < tget k.counts (qOf t) 0)

/-- The checks of cmd.issue in the order of R75, for a queue handle and a scratch address: the descriptor's words, or
the exception. -/
def State.issueCheck (s : State) (c q a : Nat) : Except Exc (List Nat) :=
  let k := s.core c
  if !k.handles.contains q then .error .handle
  else if a % 8 ≠ 0 then .error .misaligned
  else if scratchBytes < a + 8 then .error .scratchRange
  else
    let w0 := ofLe (s.scratch c a 8)
    let len := bits w0 8 8
    if scratchBytes < a + 8 * len then .error .scratchRange
    else if w0 % 256 ≠ 1 ∨ len < 2 ∨ 64 < len then .error .descriptor
    else .ok (wordsOf len (s.scratch c a (8 * len)))

/-- cmd.issue with its room in the queue: the ticket to d, the issue deferred, the turn ended; without room the core
stalls (R75, 04 R85). -/
def State.issue (s : State) (c : Nat) (d a b : Reg) : State :=
  let k := s.core c
  let q := (k.rd b).toNat
  match s.issueCheck c q (k.rd a).toNat with
  | .error e => s.exception c e
  | .ok ws =>
    let room := match s.queue q with
      | some qu => decide (s.outstanding q < qu.maxOut)
      | none => false
    if !room then s.setCore c { k with wait := .issue }
    else
      let seq := tget k.counts q 0
      let bad := (dDeps ws).any fun t => !k.issued t
      let k := { k with wait := .none, counts := tset k.counts q (seq + 1) }
      let k := (k.onTurn fun t => { t with issues := t.issues ++ [⟨q, seq, ws, bad⟩] }).wr d (BitVec.ofNat 64 (ticket q seq))
      let s := s.retireNext c k
      s.setCore c ((s.core c).endTurn .plain).startTurn

/-- CMD_ISSUE (R75). -/
def execCmdIssue (c : Nat) (s : State) : Host.Outcome State Fault Refusal :=
  s.coreRow c fun op => match op with
    | .issue d a b => some fun s => s.inRoom c (fun _ => false) fun s => s.issue c d a b
    | _ => none

/-- CMD_ISSUE_STALL_END (04 R85): a stalled cmd.issue proceeds once its queue has room. -/
def execCmdIssueStallEnd (c : Nat) (s : State) : Host.Outcome State Fault Refusal :=
  if 256 ≤ c then .fault .noSuchUnit
  else
    let k := s.core c
    if k.wait ≠ .issue then .next s
    else match k.fetch with
      | some (.issue d a b) =>
        match s.queue (k.rd b).toNat with
        | some qu =>
          if s.outstanding (k.rd b).toNat < qu.maxOut then .next ((s.setCore c { k with wait := .none }).issue c d a b)
          else .next s
        | none => .next s
      | _ => .next s

/-- A core that ends its turn and waits (R52, R77). -/
def State.waitFor (s : State) (c : Nat) (w : Wait) : State :=
  let s := s.retireNext c (s.core c)
  s.setCore c { (s.core c).endTurn .plain with mode := .waiting, wait := w }

/-- CMD_WAIT (R77): a ticket the task has not issued raises HANDLE. -/
def execCmdWait (c : Nat) (s : State) : Host.Outcome State Fault Refusal :=
  s.coreRow c fun op => match op with
    | .wait d a => some fun s => s.inRoom c (fun _ => false) fun s =>
        let t := ((s.core c).rd a).toNat
        if (s.core c).issued t then s.waitFor c (.ticket d.toNat t) else s.exception c .handle
    | _ => none

/-- The check of a range of tickets (R77, 04 R97): two handles, a handle not held, or, unless the range is empty, a last
ticket not issued. -/
def Core.rangeBad (k : Core) (first last : Nat) : Bool :=
  qOf first != qOf last || !k.handles.contains (qOf first) || (decide (seqOf first ≤ seqOf last) && !k.issued last)

/-- CMD_WAITALL (R77, 04 R97). -/
def execCmdWaitall (c : Nat) (s : State) : Host.Outcome State Fault Refusal :=
  s.coreRow c fun op => match op with
    | .waitAll d a b => some fun s => s.inRoom c (fun _ => false) fun s =>
        let k := s.core c
        let f := (k.rd a).toNat
        let l := (k.rd b).toNat
        if k.rangeBad f l then s.exception c .handle else s.waitFor c (.range d.toNat f l)
    | _ => none

/-- CMD_ABORT (R78, 04 R97): the aborts take effect at the turn's commit. -/
def execCmdAbort (c : Nat) (s : State) : Host.Outcome State Fault Refusal :=
  s.coreRow c fun op => match op with
    | .abort a b => some fun s => s.inRoom c (fun _ => false) fun s =>
        let k := s.core c
        let f := (k.rd a).toNat
        let l := (k.rd b).toNat
        if k.rangeBad f l then s.exception c .handle
        else
          let s := s.retireNext c (k.onTurn fun t => { t with aborts := t.aborts ++ [(f, l)] })
          s.setCore c ((s.core c).endTurn .plain).startTurn
    | _ => none

/-- The word cmd.wait returns for a void ticket (04 R98). -/
def voidWord : Nat := 0x0000_0000_0700_0B01

/-- What a wait returns, once what it waits for is over (R77, 04 R97, R98). -/
def State.waitResult (s : State) (w : Wait) : Option (Nat × Nat) :=
  match w with
  | .ticket d t =>
    match s.cmd t with
    | some c => if c.st = .committed then some (d, c.record) else if c.st = .void then some (d, voidWord) else none
    | none => none
  | .range d f l =>
    if seqOf l < seqOf f then some (d, 0)
    else if (upto f (l - f + 1)).all s.isOver then some (d, l - f + 1) else none
  | _ => none

/-- CMD_WAIT_RETURN (R77): d takes the completion word or the count, and the core goes on in a new turn. -/
def execCmdWaitReturn (c : Nat) (s : State) : Host.Outcome State Fault Refusal :=
  if 256 ≤ c then .fault .noSuchUnit
  else
    let k := s.core c
    if k.mode ≠ .waiting then .next s
    else match s.waitResult k.wait with
      | some (d, x) =>
        .next (s.setCore c ({ k with mode := .running, wait := .none }.wr (BitVec.ofNat 5 d) (BitVec.ofNat 64 x)).startTurn)
      | none => .next s

end Sys2Proof.Machine
end

