-- ==== Sys2Proof/Machine/Commands.lean ====
section
/-!
DEFINITION. The life of a command from Issued to Ready (02 R14, 04 R88 to R92), kills and reruns (02 R24 to R31),
the carts' and wells' commands (04 R99 to R107), and the frame every other class's commands share.
-/
namespace Sys2Proof.Machine

/-! ## Statuses of Table 4.5 -/

def stDone : Nat := 0x00
def stWellEmpty : Nat := 0x01
def stDepVoid : Nat := 0x02
def stDepBad : Nat := 0x03
def stBadClass : Nat := 0x04
def stBadField : Nat := 0x05
def stProtection : Nat := 0x06
def stOverlap : Nat := 0x07
def stLength : Nat := 0x08
def stNvBlocked : Nat := 0x09
def stWellBusy : Nat := 0x0A

/-- The cap of R32 in beats. -/
def beatCap : Nat := 1450000

/-! ## Leaving Issued -/

/-- Whether a class has an operation (the tables of each class; `drift.move` is drift's own, 07 R177). -/
def opExists (cls op : Nat) : Bool :=
  match cls with
  | 0x00 => op == 0
  | 0x01 => 1 ≤ op && op ≤ 2
  | 0x02 => 1 ≤ op && op ≤ 7
  | 0x03 => 1 ≤ op && op ≤ 5
  | 0x04 => 1 ≤ op && op ≤ 6
  | 0x05 => (1 ≤ op && op ≤ 4) || (0x10 ≤ op && op ≤ 0x15)
  | 0x06 => 1 ≤ op && op ≤ 3
  | 0x07 => op == 1
  | 0x08 => 1 ≤ op && op ≤ 3
  | 0x09 => 1 ≤ op && op ≤ 2
  | 0x0A => 1 ≤ op && op ≤ 3
  | 0x0B => op == 1
  | _ => false

/-- Whether a page lies where its pin binds it (R170, R175). -/
def Page.placed (p : Page) : Bool :=
  match p.pin with
  | 0 => true
  | 1 => p.st == 1 && p.oasis == 2 ^ 32 - 1
  | _ => p.st == 1 && p.oasis == 0 && (match p.pinStack with | some k => p.frame / 32768 == k | none => true)

/-- The page numbers of a drift command's range (07 Table 7.5). -/
def Cmd.vpns (c : Cmd) : List Nat := upto (dBody c.seen 0 / pageBytes) (bits (dBody c.seen 1) 0 18 + 1)

/-- Whether a `drift.settle` may leave Issued: every mapped page of its range lies where its pin binds it (07 R175). -/
def State.settled (s : State) (c : Cmd) : Bool :=
  c.vpns.all fun v => match s.pageOf c.ten (v * pageBytes) with
    | some (_, p) => p.placed
    | none => true

/-- Whether a `scan.gather` may leave Issued: its arrival count is reached, or its deadline (08 R238). -/
def State.gathered (s : State) (c : Cmd) : Bool :=
  decide (bits (dBody c.seen 1) 0 9 ≤ s.vword c.ten (dBody c.seen 0)) || decide (dBody c.seen 4 ≤ s.time (s.tenPort c.ten))

/-- What a text command's order is kept over: the stream it names, or the session record (11 R284, 12 R303). -/
def textKey (w : List Nat) : Option (Nat × Nat) :=
  if 2 ≤ dOp w ∧ dOp w ≤ 4 then some (0, bits (dBody w 0) 0 12)
  else if 0x12 ≤ dOp w ∧ dOp w ≤ 0x15 then some (1, dBody w 0)
  else none

/-- Whether a text command may leave Issued: one of the grammar engine while that is enabled (12 R319), and whatever left Issued before it
with the same stream, or the same session record of its tenancy, is over. -/
def State.textTurn (s : State) (t : Nat) (c : Cmd) : Bool :=
  (decide (dOp c.words < 0x10) || decide (0x20 ≤ dOp c.words) || s.get R.TXT_GRM_CTL_EN == 1) &&
  match textKey c.words with
  | none => true
  | some k => !(s.x.cmds.any fun p => p.1 != t && dClass p.2.words == 0x05 && textKey p.2.words == some k &&
      (k.1 == 0 || p.2.ten == c.ten) && (p.2.st.live || p.2.st == .killed || (p.2.st == .issued && decide (0 < p.2.attempts))))

/-- Whether an embedding command may leave Issued (17 R456): a gather or add of a paused table only as a rerun; a swap once
its tenancy's step commit has let it, or with no batch of the tenancy admitted. -/
def State.embTurn (s : State) (t : Nat) (c : Cmd) : Bool :=
  if dOp c.words = 0x03 then s.em.released.contains t || !s.hasBatch c.ten || decide (0 < c.attempts)
  else decide (0 < c.attempts) || !s.embPaused (bits (dBody c.words 0) 0 5)

/-- Whether the start dependencies of a command hold (04 R90); a bad or void dependency does not hold it back (R91). -/
def State.startReady (s : State) (t : Nat) (c : Cmd) : Bool :=
  (c.depBad || ((dDeps c.words).zipIdx).all fun p => !dDepStart c.words p.2 || s.isOver p.1) &&
    (dClass c.words != 0x04 || dOp c.words != 0x06 || s.settled c) &&
    (dClass c.words != 0x02 || dOp c.words != 0x07 || s.gathered c) && (dClass c.words != 0x05 || s.textTurn t c) &&
    (dClass c.words != 0x06 || s.embTurn t c)

/-- The refusals a unit decides as a command leaves Issued, in this order (DESIGN CHOICE, log entry 61): class and operation (R84),
header fields (R88, Table 4.3), dependencies (R91). -/
def State.leaveStatus (s : State) (q : Queue) (c : Cmd) : Option Nat :=
  let w := c.words
  let cls := dClass w
  if (cls ≠ 0 ∧ cls ≠ q.cls) ∨ !opExists cls (dOp w) then some stBadClass
  else if 4 < dNdep w ∨ dLen w < 2 + dNdep w then some stBadField
  else if dWellEn w ∧ (dPatch w < 2 + dNdep w ∨ dLen w ≤ dPatch w) then some stBadField
  else if c.depBad then some stDepBad
  else if (dDeps w).any s.isVoid then some stDepVoid
  else none

/-- What a command takes as it leaves Issued, from its descriptor as patched (R89): a `scan.probe` the index sequence as its own snapshot
(08 R224), an embedding command the table's version, kept through reruns (17 R455). -/
def State.snapOf (s : State) (c : Cmd) (w : List Nat) : Nat :=
  if dClass w = 0x02 then (s.reg (R.SCN_IDX_SEQ (bits (dBody w 3) 0 6))).toNat
  else if dClass w = 0x06 then
    (if c.attempts = 0 then s.get (R.EMB_TAB_STS_VERSION (bits (dBody w 0) 0 5)) else c.snap)
  else 0

/-- The statuses of 08 Table 8.10. -/
def stSnapStale : Nat := 0x40
def stIndexOff : Nat := 0x41
def stIndexDenied : Nat := 0x42
def stSideFull : Nat := 0x43
def stSideDense : Nat := 0x44
def stIdRange : Nat := 0x45
def stCutRange : Nat := 0x46

/-- The refusal of a command on an index (08 R241). -/
def State.idxRefuse (s : State) (x ten : Nat) (writer : Bool) : Option Nat :=
  if s.get (R.SCN_IDX_CTL_EN x) = 0 then some stIndexOff
  else if !(s.reg (R.SCN_IDX_TENS x)).toNat.testBit ten then some stIndexDenied
  else if writer ∧ (s.get (R.SCN_IDX_CTL_WRITER_EN x) = 0 ∨ s.get (R.SCN_IDX_CTL_WRITER x) ≠ ten) then some stIndexDenied
  else none

/-- The refusal of a scan command's index as it leaves Issued (08 R241): a command already Running completes whatever becomes of the
index's EN (08 R244). `scan.gather` names no index. -/
def State.idxBar (s : State) (ten : Nat) (w : List Nat) : Option Nat :=
  if dClass w = 0x02 then
    if dOp w = 0x01 then s.idxRefuse (bits (dBody w 3) 0 6) ten false
    else if dOp w = 0x07 then none
    else s.idxRefuse (bits (dBody w 1) 0 6) ten (decide (4 ≤ dOp w))
  else none

/-- The stamp of a command's start, at the port that measures UNIT_WAIT (18 R463). -/
def State.unitStamp (s : State) : Nat × Nat := (s.get R.TWN_CTL_REF_PORT, s.time (s.get R.TWN_CTL_REF_PORT))

/-- Whether a command is an `eng.pass`. -/
def Cmd.isPass (c : Cmd) : Bool := dClass c.words == 1 && dOp c.words == 1

/-- An engine's passes that have reserved no tiles yet, in the order in which it received them (06 R139). -/
def State.setTileQueue (s : State) (e : Nat) (l : List Nat) : State :=
  { s with en := { s.en with tileWait := tset s.en.tileWait e l } }

/-- A pass received by an engine: the last of those that wait for tiles. -/
def State.received (s : State) (t unit : Nat) (c : Cmd) : State :=
  if c.isPass then s.setTileQueue unit ((tget s.en.tileWait unit []).filter (· != t) ++ [t]) else s

/-- A command started on a unit: Running, one attempt more (R93: 1 to 255). -/
def State.start (s : State) (t unit : Nat) (c : Cmd) (lease : Option (Nat × Nat)) (patched : List Nat) : State :=
  (s.received t unit c).setCmd t { c with
    st := .running, unit := unit, epoch := s.epochOf (dClass c.words) unit, attempts := min 255 (c.attempts + 1),
    lease := lease, patched := patched, drawWait := false, snap := s.snapOf c patched, runAt := s.unitStamp, fetched := [],
    barred := s.idxBar c.ten patched }

/-- A refusal: the command is Running with its status made ready and no effect (R88). -/
def State.refuse (s : State) (t unit : Nat) (c : Cmd) (status : Nat) : State :=
  s.setCmd t { c with
    st := .running, unit := unit, epoch := s.epochOf (dClass c.words) unit, attempts := min 255 (c.attempts + 1),
    patched := c.words, drawWait := false, runAt := s.unitStamp, done := some ⟨status, [], []⟩ }

/-- Whether a grammar command contends for the mask lanes (12 R318): a `grm.step` from its issue, a `grm.path` once its start dependencies
are met, until it is Ready. -/
def State.contends (s : State) (t : Nat) (c : Cmd) : Bool :=
  dClass c.words == 0x05 && (c.st == .running || c.st == .issued) &&
    (dOp c.words == 0x13 || (dOp c.words == 0x14 && (c.st == .running || s.startReady t c)))

/-- More than 64 such commands are noted: the bounds of R318 are not in force. -/
def State.noteContention (s : State) : State :=
  if 64 < s.x.cmds.countP fun p => s.contends p.1 p.2 then s.raise R.TXT_GRM_ERR_OVERLOAD none else s

/-- The start of a command on a unit: refusals, then the header's draw (R89), then Running. -/
def State.leave (s : State) (t unit : Nat) (q : Queue) (c : Cmd) : State :=
  match s.leaveStatus q c with
  | some st => s.refuse t unit c st
  | none =>
    if !dWellEn c.words then s.start t unit c none c.words
    else
      let n := dWell c.words
      if !s.wellMine n c.ten then (s.raiseAt (R.WEL_ERR_FOREIGN n) (some c.ten) n t).refuse t unit c stBadField
      else match s.draw n (.cmd t) (unitKey (dClass c.words) unit) (s.epochOf (dClass c.words) unit) with
        | .wait => s.setCmd t { c with drawWait := true, unit := unit }
        | .exhausted => s.refuse t unit c stWellEmpty
        | .value v s =>
          let i := dPatch c.words
          s.start t unit c (some (n, v)) (lset c.words i ((nw c.words i + v) % 2 ^ 64))

/-- Whether a unit may run a queue's commands: one the queue names, a spare in service for one (18 R464), or, where the tenancy
has lost units that the queue names, another of the kind bound to it (02 R28, 14 R353). -/
def State.mayServe (s : State) (q : Queue) (ten unit : Nat) : Bool :=
  q.units.contains unit || (q.cls == 0x01 && q.units.contains (s.servesFor unit)) ||
    ((q.cls == 0x01 || q.cls == 0x02) && q.units.any fun u => !s.unitTakes q.cls u ten)

/-- The command before one in its queue. -/
def State.before (s : State) (t : Nat) : Option Cmd := if seqOf t = 0 then none else s.cmd (t - 1)

/-- The first engine of each group of a die (05 Table 5.5). -/
def engBase (g : Nat) : Nat := nw [0, 7, 13, 20, 26, 33, 39, 46] g

/-- The place that follows an engine's in its group's ring, E0 to E5 (05 R126). -/
def ringNext (n : Nat) : Nat :=
  let base := engBase (engGroup (n % 52))
  n / 52 * 52 + base + (n % 52 - base + 1) % 6

/-- Whether a unit may take a command as the receiver of a halo (06 R146): the engine that follows the sender's in the ring, or the spare
in its place, once the sender has left Issued. Where that engine does not serve the queue or the tenancy, any that does may (DESIGN
CHOICE, log entry 66). -/
def State.haloUnit (s : State) (t : Nat) (c : Cmd) (q : Queue) (unit : Nat) : Bool :=
  if !c.isPass || bits (dBody c.words 9) 16 9 == 0 then true
  else match s.before t with
    | none => true
    | some a =>
      if !a.isPass || bits (dBody a.seen 9) 0 9 == 0 || a.st == .void then true
      else if a.attempts = 0 then false
      else
        let next := ringNext (s.servesFor a.unit)
        s.servesFor unit == next ||
          !(List.range 104).any fun u => s.servesFor u == next && s.mayServe q c.ten u && s.unitTakes 0x01 u c.ten

/-- COMMAND_LEAVE_ISSUED (R88 to R91): a unit that serves the command's queue, takes its tenancy's commands in its
slice, and finds its start dependencies met. -/
def execCommandLeaveIssued (t unit : Nat) (s : State) : Host.Outcome State Fault Refusal :=
  match s.cmd t, s.queue (qOf t) with
  | some c, some q =>
    if c.st = .issued ∧ !c.drawWait ∧ s.mayServe q c.ten unit ∧ s.unitTakes q.cls unit c.ten ∧ s.mayRun c.ten ∧ s.startReady t c ∧
        s.haloUnit t c q unit
    then .next (s.leave t unit q c).noteContention
    else .next s
  | _, _ => .next s

/-- WELL_DRAW_RETRY (R103): a waiting draw is tried again. -/
def execWellDrawRetry (r : Ref) (s : State) : Host.Outcome State Fault Refusal :=
  match r with
  | .turn c =>
    let k := s.core c
    if k.wait = .draw then
      match k.fetch with
      | some (.draw d a) => .next (s.coreDraw c d a)
      | _ => .next s
    else .next s
  | .cmd t =>
    match s.cmd t, s.queue (qOf t) with
    | some c, some q =>
      if c.st = .issued ∧ c.drawWait ∧ s.unitTakes q.cls c.unit c.ten ∧ s.mayRun c.ten then .next (s.leave t c.unit q { c with drawWait := false }) else .next s
    | _, _ => .next s
  | .move _ => .next s

/-- The five non-killable operations (Table 2.4). -/
def nonKillable (cls op : Nat) : Bool :=
  (cls == 0x07 && op == 1) || (cls == 0x08 && op == 2) || (cls == 0x09 && op == 1) || (cls == 0x0A && op == 3) ||
    (cls == 0x06 && op == 2)

/-- Whether a Running command has made itself ready: a non-killable one does so past its start point (R33), or refused. -/
def Cmd.made (c : Cmd) : Bool :=
  match c.done with
  | some d => !nonKillable (dClass c.words) (dOp c.words) || d.status != stDone
  | none => false

/-- The channels of the groups that hold pages' frames. -/
def State.channelsOf (s : State) (pks : List Nat) : List Nat :=
  (pks.flatMap fun pk => match s.page pk with
    | some p => if p.st = 1 then (List.range 4).map fun i => p.frame / 32768 * 32 + 4 * (p.frame / 4096 % 8) + i else []
    | none => []).foldl addNew []

/-- What the granary reports of accesses to pages of a space, each an address, the errors corrected there and whether parity repeated it
(07 R189, R191): a channel of those pages that no repeat names has had an access without one. -/
def State.dramNotes (s : State) (ten : Nat) (pks : List Nat) (corr : List (Nat × Nat × Bool)) : State :=
  let mine := corr.filter fun e => pks.contains (s.pkOf ten (e.1 / pageBytes))
  let hit := mine.filterMap fun e => match s.pageOf ten e.1 with
    | some (_, p) => if e.2.2 then some (channelOf p.frame e.1) else none
    | none => none
  let clear := (s.channelsOf pks).filter fun ch => !hit.contains ch
  let s : State := { s with vm := { s.vm with parity := tfilter (fun ch _ => !clear.contains ch) s.vm.parity } }
  mine.foldl (fun (s : State) e => s.corrected ten e.1 e.2.1 e.2.2) s

/-- What the granary reports of a command's accesses. -/
def State.correctedIn (s : State) (t : Nat) (corr : List (Nat × Nat × Bool)) : State :=
  match s.cmd t with
  | none => s
  | some c => s.dramNotes c.ten c.pages corr

/-- COMMAND_READY (R14): a Running command all of whose effects are complete in deferred form. A turn is Ready from its
end, which its last instruction or exception makes. The granary's report of a pass's accesses comes with its own row. -/
def execCommandReady (r : Noted Ref) (s : State) : Host.Outcome State Fault Refusal :=
  match r.of with
  | .cmd t =>
    match s.cmd t with
    | some c =>
      if c.st = .running ∧ c.made = true then
        .next ((if c.isPass then s else s.correctedIn t r.corrected).setCmd t { c with st := .ready })
      else .next s
    | none => .next s
  | .move id =>
    match tfind s.vm.moves id with
    | some m =>
      if m.st = .running then
        let s := s.dramNotes (m.page / 2 ^ 35) [m.page] r.corrected
        let s := if m.toSt = 2 ∧ m.granule = none then s.bump R.CEL_PROG_BYTES pageBytes else s
        .next { s with vm := { s.vm with moves := tset s.vm.moves id { m with st := .ready } } }
      else .next s
    | none => .next s
  | .turn _ => .next s

/-! ## Kills and reruns -/

/-- COMMAND_KILL (R24, R25): a kill for a cause, granted by the arbiter in queue order (R27). -/
def execCommandKill (r : Ref) (cause : Cause) (s : State) : Host.Outcome State Fault Refusal :=
  match r with
  | .cmd t => .next (s.killCmd t cause)
  | .turn c => .next (s.killTurns c 0 cause)
  | .move id =>
    match tfind s.vm.moves id with
    | some m => if m.st.live then .next (s.killMove id) else .next s
    | none => .next s

/-- KILL_COMPLETE (R26): the unit has discarded the command and takes its next. -/
def execKillComplete (r : Ref) (s : State) : Host.Outcome State Fault Refusal :=
  match r with
  | .cmd t =>
    match s.cmd t with
    | some c => .next (s.setCmd t { c with discarding := false })
    | none => .next s
  | .turn c => .next (s.setCore c { s.core c with discarding := false })
  | .move _ => .next s

/-- A killed command issued again from its start with the same descriptor (R28). -/
def State.rerunCmd (s : State) (t : Nat) (c : Cmd) : State := s.setCmd t { c with st := .issued, await := [] }

/-- A killed turn begun again from its first instruction (03 R55). -/
def State.rerunTurn (s : State) (c : Nat) : State :=
  s.setCore c ({ s.core c with held := false, await := [] }).startTurn

/-- COMMAND_RERUN (R28, R29): once the kill is complete, and after a SLICE_END kill in the tenancy's next slice. The
rerun of a TRANSLATION kill is FAULT_RESOLVED_RERUN's. -/
def execCommandRerun (r : Ref) (s : State) : Host.Outcome State Fault Refusal :=
  if s.get R.PWR_STS_SHUTDOWN = 1 then .next s
  else match r with
  | .cmd t =>
    match s.cmd t with
    | some c =>
      if c.st = .killed ∧ !c.discarding ∧ c.lastKill ≠ 2 ∧ s.mayRun c.ten then .next (s.rerunCmd t c) else .next s
    | none => .next s
  | .turn c =>
    let k := s.core c
    if k.held ∧ !k.discarding ∧ k.lastKill ≠ 2 ∧ s.mayRun k.ten then .next (s.rerunTurn c) else .next s
  | .move _ => .next s

/-! ## The frame of every operation -/

/-- What an operation comes to on the state it finds: a refusal with a status, store pages that are not at their images, with its reads
(`away`), accesses that do not all reach, with all the ranges that the descriptor names (`reach`), a wait, or its reads and writes with
its results and effects (`goX` with reads of other ranges, and the granules' ranges of them, as space and address, that it tracks under R22). -/
inductive Plan where
  | refuse (status : Nat)
  | away (pages : List Nat) (rds : List (Nat × Nat))
  | reach (more : List Read) (rds wrs : List (Nat × Nat))
  | wait
  | go (rds wrs : List (Nat × Nat)) (done : Done)
  | goX (more : List Read) (tracked rds wrs : List (Nat × Nat)) (done : Done)

/-- A refusal that an operation decides from what it has read: the reads count and are tracked (02 R17, R22). -/
def Plan.refuseRead (rds : List (Nat × Nat)) (status : Nat) : Plan := .go rds [] ⟨status, [], []⟩

/-- The heat and the lines of an attempt that stops at an access: of the reads that reach (R164; log entry 65). -/
def State.tried (s : State) (a : Accessor) (ten : Nat) (more : List Read) (rds : List (Nat × Nat)) : State :=
  let own := s.reached a ten rds
  let far := more.map fun r => (r.ten, s.reached r.by_ r.ten [(r.va, r.len)])
  s.accessHeat ((s.granules ten own ++ far.flatMap fun p => s.granules p.1 p.2).foldl addNew [])
    (s.homeLines ten own + lsum (far.map fun p => s.homeLines p.1 p.2))

/-- The accesses of a command that do not all reach: PROTECTION is a status (04 Table 4.5), a fault a TRANSLATION kill
whose rerun waits for the pages (07 R183, R184), poison a UNIT_FAULT kill (07 R194). -/
def State.accStop (s : State) (t : Nat) (c : Cmd) (r : AccRes) : State :=
  match r with
  | .ok => s
  | .prot => s.setCmd t { c with done := some ⟨stProtection, [], []⟩ }
  | .fault ps =>
    let s := (s.killCmd t .translation).faulted ps
    match s.cmd t with
    | some c => s.setCmd t { c with await := ps }
    | none => s
  | .poison _ => s.killCmd t .unitFault

/-- The runs of shared pool pages that an attempt reads and has not yet been sent. -/
def State.toFetch (s : State) (c : Cmd) (acc : Accessor) (more : List Read) (rds : List (Nat × Nat)) : List (Nat × Nat) :=
  ((s.poolParts acc c.ten rds ++ more.flatMap fun r => s.poolParts r.by_ r.ten [(r.va, r.len)]).foldl (fun l p => if l.contains p then l else l ++ [p]) []).filter
    (!c.fetched.contains ·)

/-- Reads of shared pool pages asked of their peers for a command, which stays Running. -/
def State.fetchAll (s : State) (t : Nat) (c : Cmd) (parts : List (Nat × Nat)) : State :=
  parts.foldl (fun (s : State) p => (s.askPeer t 7 0 c.ten p).1) s

/-- Whether a command waits for such answers. -/
def State.fetching (s : State) (t : Nat) : Bool := s.fa.ops.any fun o => o.2.kind == 7 && o.2.ticket == t

/-- The granules homed in the pool among a list, which R22 does not track (R23). -/
def State.farGranules (s : State) (gs : List Nat) : List Nat :=
  gs.filter fun g => match s.page (g / 32) with
    | some p => decide (4 ≤ p.st)
    | none => false

/-- The granules of the module's own tiers among a list: the tracked reads of R22 (R23: not those of the pool). -/
def State.localGranules (s : State) (gs : List Nat) : List Nat :=
  gs.filter fun g => match s.page (g / 32) with
    | some p => decide (p.st < 4)
    | none => false

/-- The statistics counters that an operation's work adds to, at once (02 R17). -/
def State.countWork (s : State) (es : List Effect) : State :=
  es.foldl (fun (s : State) e => match e with
    | .work reg lo w n => s.bump ⟨reg, lo, w⟩ n
    | _ => s) s

/-- What is left for the commit. -/
def Done.deferred (d : Done) : Done := { d with effs := d.effs.filter fun e => match e with | .work _ _ _ _ => false | _ => true }

/-- An operation whose accesses are checked and, when all reach, counted as heat and tracked (02 R22, 07 R164). While MEM_REFCLK is
absent, accesses wait (23 R556). -/
def State.opGo (s : State) (t : Nat) (c : Cmd) (acc : Accessor) (more : List Read) (tracked rds wrs : List (Nat × Nat)) (done : Done) :
    Host.Outcome State Fault Refusal :=
  if s.pw.absent.contains 5 then .next s
  else match (s.access acc c.ten rds wrs).join (s.accessReads more) with
  | .ok =>
    let gr := s.granules c.ten rds
    let gx := more.flatMap fun r => s.granules r.ten [(r.va, r.len)]
    let gs := (gr ++ gx ++ s.granules c.ten wrs).foldl addNew []
    let gt := tracked.flatMap fun r => s.granules r.1 [(r.2, 1)]
    let s := s.accessHeat gs (s.homeLines c.ten (rds ++ wrs) + lsum (more.map fun r => s.homeLines r.ten [(r.va, r.len)]))
    .next <| (s.setCmd t { c with
      reads := s.localGranules (gr ++ gt), far := s.farGranules (gr ++ gt)
      pages := (s.pageKeys c.ten (rds ++ wrs) ++ more.flatMap fun r => s.pageKeys r.ten [(r.va, r.len)]).foldl addNew []
      done := some done.deferred }).countWork done.effs
  | r => .next ((s.tried acc c.ten more rds).accStop t c r)

/-- The pages of a tenancy's ranges whose writes would fault. -/
def State.faultsIn (s : State) (acc : Accessor) (ten : Nat) (wrs : List (Nat × Nat)) : List Nat :=
  ((wrs.flatMap fun r => pagesIn r.1 r.2).filter fun v => s.reachPage acc ten v true == .fault).map (s.pkOf ten)

/-- An operation whose accesses do not all reach, with all the ranges its descriptor names: a fault of its reads lists the pages of its writes
that would fault, to their limits (07 R184). -/
def State.opStop (s : State) (t : Nat) (c : Cmd) (acc : Accessor) (more : List Read) (rds wrs : List (Nat × Nat)) : State :=
  let first := (s.access acc c.ten rds []).join (s.accessReads more)
  let r : AccRes := match first with
    | .prot => .prot
    | .fault ps => .fault ((s.faultsIn acc c.ten wrs).foldl addNew ps)
    | _ => (s.access acc c.ten rds wrs).join (s.accessReads more)
  match r with
  | .ok => s
  | r => (s.tried acc c.ten more rds).accStop t c r

/-- Store pages of a destination that are not at their images: a fault, joined to those of the reads (07 R183, R184). -/
def State.opAway (s : State) (t : Nat) (c : Cmd) (acc : Accessor) (pages : List Nat) (rds : List (Nat × Nat)) : State :=
  (s.tried acc c.ten [] rds).accStop t c ((AccRes.fault pages).join (s.access acc c.ten rds []))

/-- The reads of a plan: of other ranges, and of its own. -/
def Plan.reads : Plan → List Read × List (Nat × Nat)
  | .refuse _ | .wait => ([], [])
  | .away _ rds => ([], rds)
  | .reach more rds _ | .goX more _ rds _ _ => (more, rds)
  | .go rds _ _ => ([], rds)

/-- An operation's row: the Running command of a ticket, of a class and operation, not yet made ready, does its work, once peers have sent
what it reads of shared pool pages (02 R23). -/
def State.opRow (s : State) (t cls op : Nat) (acc : Accessor) (plan : Cmd → Plan) : Host.Outcome State Fault Refusal :=
  match s.cmd t with
  | none => .next s
  | some c =>
    if c.st = .running ∧ c.done = none ∧ dClass c.words = cls ∧ dOp c.words = op ∧ !s.fetching t then
      match s.toFetch c acc (plan c).reads.1 (plan c).reads.2 with
      | p :: ps => .next (s.fetchAll t c (p :: ps))
      | [] =>
      match plan c with
      | .refuse st => .next (s.setCmd t { c with done := some ⟨st, [], []⟩ })
      | .away ps rds => .next (if s.pw.absent.contains 5 then s else s.opAway t c acc ps rds)
      | .reach more rds wrs => .next (if s.pw.absent.contains 5 then s else s.opStop t c acc more rds wrs)
      | .wait => .next s
      | .go rds wrs done => s.opGo t c acc [] [] rds wrs done
      | .goX more tracked rds wrs done => s.opGo t c acc more tracked rds wrs done
    else .next s

/-- A counter increased at a command's commit; one increased as the work happens. -/
def countFx (f : Field) (n : Nat) : Effect := .count f.reg f.lo f.w n
def workFx (f : Field) (n : Nat) : Effect := .work f.reg f.lo f.w n

/-! ## Carts (04 R99 to R101) -/

/-- The most bytes a cart command may move, 64 bytes a beat (R99). -/
def cartMax : Nat := 92800000

/-- Whether one of a list of ranges shares a byte with one of another. -/
def anyOverlap (xs ys : List (Nat × Nat)) : Bool := xs.any fun x => ys.any fun y => overlaps x.1 x.2 y.1 y.2

/-- Whether two ranges of a list share a byte. -/
def selfOverlap : List (Nat × Nat) → Bool
  | [] => false
  | r :: rs => rs.any (fun q => overlaps r.1 r.2 q.1 q.2) || selfOverlap rs

/-- CART_COPY (R100). -/
def execCartCopy (t : Nat) (s : State) : Host.Outcome State Fault Refusal :=
  s.opRow t 0x03 0x01 .unit fun c =>
    let src := c.body 0
    let dst := c.body 1
    let n := bits (c.body 2) 0 32
    if src % 4 ≠ 0 ∨ dst % 4 ≠ 0 ∨ n % 4 ≠ 0 ∨ n < 4 ∨ cartMax < n then .refuse stBadField
    else if overlaps src n dst n then .refuse stOverlap
    else .go [(src, n)] [(dst, n)] ⟨stDone, [n, 0], [.write (key c.ten dst) (s.vrun c.ten src n)]⟩

/-- The records of a LIST (R100): address and length. -/
def State.listRecords (s : State) (ten list count : Nat) : List (Nat × Nat) :=
  (List.range count).map fun i => (s.vword ten (list + 16 * i), s.vword ten (list + 16 * i + 8) % 2 ^ 32)

/-- The records packed one after another, each rounded up to 64 bytes: offset, address, length (Table 4.8). -/
def packRecords : Nat → List (Nat × Nat) → List (Nat × Nat × Nat)
  | _, [] => []
  | o, r :: rs => (o, r.1, r.2) :: packRecords (o + roundUp r.2 64) rs

/-- The padded footprint of a list of records. -/
def footprint (rs : List (Nat × Nat)) : Nat := lsum (rs.map fun r => roundUp r.2 64)

/-- Whether the records of a list are in the bounds of R100: lengths 4 to `top`, multiples of 4, addresses multiples of 4. -/
def recordsOk (top : Nat) (rs : List (Nat × Nat)) : Bool :=
  rs.all fun r => r.1 % 4 == 0 && r.2 % 4 == 0 && decide (4 ≤ r.2) && decide (r.2 ≤ top)

/-- The packed bytes of a gather, padding written zero. -/
def State.packed (s : State) (ten : Nat) (rs : List (Nat × Nat)) : List Byte :=
  rs.flatMap fun r => s.vrun ten r.1 r.2 ++ List.replicate (roundUp r.2 64 - r.2) 0

/-- CART_GATHER (R100, R101). A refusal decided from the list is one of a command that has read it. DST_LIMIT is a bound, not a count that
R100 rounds (DESIGN CHOICE, log entry 62). -/
def execCartGather (t : Nat) (s : State) : Host.Outcome State Fault Refusal :=
  s.opRow t 0x03 0x02 .unit fun c =>
    let list := c.body 0
    let dst := c.body 1
    let n := bits (c.body 2) 0 32
    if list % 16 ≠ 0 ∨ dst % 64 ≠ 0 ∨ n = 0 ∨ 65536 < n then .refuse stBadField
    else match s.access .unit c.ten [(list, 16 * n)] [] with
      | .ok =>
        let rs := s.listRecords c.ten list n
        let pay := lsum (rs.map (·.2))
        let fp := footprint rs
        let refuse : Nat → Plan := Plan.refuseRead [(list, 16 * n)]
        if !recordsOk 16777216 rs then refuse stBadField
        else if beatCap < ceilDiv pay 64 + n then refuse stLength
        else if c.body 3 < fp ∨ anyOverlap [(dst, fp)] ((list, 16 * n) :: rs) then refuse stOverlap
        else .go ((list, 16 * n) :: rs) [(dst, fp)] ⟨stDone, [pay, fp], [.write (key c.ten dst) (s.packed c.ten rs)]⟩
      | _ => .reach [] [(list, 16 * n)] []

/-- CART_SCATTER (R100, R101). -/
def execCartScatter (t : Nat) (s : State) : Host.Outcome State Fault Refusal :=
  s.opRow t 0x03 0x03 .unit fun c =>
    let src := c.body 0
    let list := c.body 1
    let n := bits (c.body 2) 0 32
    if list % 16 ≠ 0 ∨ src % 64 ≠ 0 ∨ n = 0 ∨ 65536 < n then .refuse stBadField
    else match s.access .unit c.ten [(list, 16 * n)] [] with
      | .ok =>
        let rs := s.listRecords c.ten list n
        let pay := lsum (rs.map (·.2))
        let fp := footprint rs
        let srcs := (packRecords 0 rs).map fun p => (src + p.1, p.2.2)
        let refuse : Nat → Plan := Plan.refuseRead [(list, 16 * n)]
        if !recordsOk 16777216 rs then refuse stBadField
        else if beatCap < ceilDiv pay 64 + n then refuse stLength
        else if selfOverlap rs ∨ anyOverlap rs ((list, 16 * n) :: srcs) then refuse stOverlap
        else .go ((list, 16 * n) :: srcs) rs
          ⟨stDone, [pay, fp], (packRecords 0 rs).map fun p => .write (key c.ten p.2.1) (s.vrun c.ten (src + p.1) p.2.2)⟩
      | _ => .reach [] [(list, 16 * n)] []

/-- CART_FILL (R100). -/
def execCartFill (t : Nat) (s : State) : Host.Outcome State Fault Refusal :=
  s.opRow t 0x03 0x04 .unit fun c =>
    let dst := c.body 0
    let n := bits (c.body 1) 0 32
    if dst % 8 ≠ 0 ∨ n % 8 ≠ 0 ∨ n = 0 ∨ cartMax < n then .refuse stBadField
    else .go [] [(dst, n)] ⟨stDone, [n, 0], [.fill (key c.ten dst) n (c.body 2)]⟩

/-- CART_STRIDE (R100, R101). Of LENGTH, OVERLAP and PROTECTION it takes the first in this order (DESIGN CHOICE, log entry 20). -/
def execCartStride (t : Nat) (s : State) : Host.Outcome State Fault Refusal :=
  s.opRow t 0x03 0x05 .unit fun c =>
    let src := c.body 0
    let dst := c.body 1
    let rows := bits (c.body 2) 0 16 + 1
    let n := bits (c.body 2) 32 32
    let ss := bits (c.body 3) 0 32
    let ds := bits (c.body 3) 32 32
    let srcs := (List.range rows).map fun k => (src + k * ss, n)
    let dsts := (List.range rows).map fun k => (dst + k * ds, n)
    if src % 4 ≠ 0 ∨ dst % 4 ≠ 0 ∨ n % 4 ≠ 0 ∨ ss % 4 ≠ 0 ∨ ds % 4 ≠ 0 then .refuse stBadField
    else if beatCap < ceilDiv (rows * n) 64 + rows then .refuse stLength
    else if ds < n ∨ anyOverlap dsts srcs then .refuse stOverlap
    else .go srcs dsts
      ⟨stDone, [rows * n, rows], (List.range rows).map fun k => .write (key c.ten (dst + k * ds)) (s.vrun c.ten (src + k * ss) n)⟩

/-- QUEUE_JOIN (R92): no effect but its record. -/
def execQueueJoin (t : Nat) (s : State) : Host.Outcome State Fault Refusal :=
  s.opRow t 0x00 0x00 .unit fun _ => .go [] [] ⟨stDone, [], []⟩

/-- WELL_FILL (R106, R107): Running until no lease of the well is live; what the returned list then holds is decided at the commit, which
waits while a lease is live again (log entry 63). -/
def execWellFill (t : Nat) (s : State) : Host.Outcome State Fault Refusal :=
  match s.cmd t with
  | none => .next s
  | some c =>
    let n := bits (c.body 0) 0 7
    let mine := s.wellMine n c.ten
    let ok := decide (c.st = .running ∧ c.done = none ∧ dClass c.words = 0x0B ∧ dOp c.words = 0x01)
    let s := if ok && !mine then s.raiseAt (R.WEL_ERR_FOREIGN n) (some c.ten) n t else s
    s.opRow t 0x0B 0x01 .unit fun c =>
      if !mine || bits (c.body 3) 0 32 == 0 || decide (c.body 2 < c.body 1) then .refuse stBadField
      else if !(s.well n).live.isEmpty then .wait
      else .go [] [] ⟨stDone, [], [.wellFill n (c.body 1) (c.body 2) (bits (c.body 3) 0 32)]⟩

/-! ## Non-killable commands (02 R33 to R35) -/

/-- A program refused for supply is recorded (19 R487, Table 7.20). -/
def State.nvRefused (s : State) (cls ten t : Nat) : State :=
  if cls = 0x08 then s.raiseAt R.CEL_ERR_NV_REFUSED (some ten) 0 t else s

/-- The address that serves in place of a lost module (18 R475); any other address is itself. -/
def State.substOf (s : State) (a : Nat) : Nat :=
  match (List.range 16).find? fun i => s.get (R.TWN_SUBST_VALID i) == 1 && s.get (R.TWN_SUBST_LOST i) == a with
  | some i => s.get (R.TWN_SUBST_SUBST i)
  | none => a

/-- A caravan or a message that leaves, on the port it names while that port is in routing (16 R432); what is emitted to a lost
module goes to the one that serves in its place. -/
def State.sendEff (s : State) (e : Effect) : State :=
  match e with
  | .send (some n) c =>
    let c := { c with dst := s.substOf c.dst }
    if s.portUp n && !isGroup c.dst then (let p := s.number c; p.1.sendOn n p.2) else (let p := s.number c; p.1.route 16 p.2)
  | .send none c => let p := s.number c; p.1.route 16 p.2
  | .msg q ws => s.sendMsg q (bits (nw ws 0) 8 8) ws
  | _ => s

/-- Whether an effect leaves the module when its command passes its start point or commits. -/
def Effect.leaves : Effect → Bool
  | .send _ _ | .msg _ _ => true
  | _ => false

/-- What the pages of a non-killable command come to at its start point: each is still mapped and reached, and a store page that it
programs at its image (R34). -/
def State.startAccess (s : State) (c : Cmd) : AccRes :=
  let store := dClass c.words == 0x08
  let dst := s.pkOf c.ten (c.body 1 / pageBytes)
  let a : Accessor := if store then .cellar else .unit
  if c.pages.any fun pk => (s.page pk).isNone then .prot
  else
    let bad := c.pages.filter fun pk => match s.page pk with
      | some p => reachTable a p.st false == .fault || (store && pk == dst && p.st != 3)
      | none => false
    if bad = [] then .ok else .fault bad

/-- Whether the start point of a command may come (17 R453): the `emb.add` commands of one queue pass theirs in sequence order. -/
def State.nkTurn (s : State) (t : Nat) (c : Cmd) : Bool :=
  dClass c.words != 0x06 || !(s.x.cmds.any fun p => qOf p.1 == qOf t && decide (seqOf p.1 < seqOf t) && dClass p.2.words == 0x06 &&
    dOp p.2.words == 0x02 && (p.2.st == .issued || p.2.st == .running || p.2.st == .killed))

/-- NK_START_POINT (R34): the command's row has translated its pages and read its committed inputs; each page is still in reach, its unit's epoch is
current, and for `cel.prog` and `sec.bfw` the supply permits: after a clear of NV_OK the command commits with NV_BLOCKED
(R488). A refused command has no start point. Its messages and caravans leave; a `net.emit` is then complete. -/
def execNkStartPoint (t : Nat) (s : State) : Host.Outcome State Fault Refusal :=
  match s.cmd t with
  | none => .next s
  | some c =>
    let cls := dClass c.words
    match c.done with
    | none => .next s
    | some d =>
      let nv := (cls != 0x08 && cls != 0x09) || s.nvOk
      if c.st = .running ∧ nonKillable cls (dOp c.words) = true ∧ d.status = stDone ∧ c.epoch = s.epochOf cls c.unit ∧
          s.get R.PWR_STS_SHUTDOWN = 0 ∧ s.nkTurn t c then
        if s.startAccess c ≠ .ok then .next (s.accStop t c (s.startAccess c))
        else if nv then
          let s := d.effs.foldl State.sendEff s
          .next (s.setCmd t { c with
            st := .irrevocable, nkDone := c.nkDone || cls == 0x07,
            done := some { d with effs := d.effs.filter fun e => !e.leaves } })
        else .next ((s.nvRefused cls c.ten t).setCmd t { c with done := some ⟨stNvBlocked, [], []⟩ })
      else .next s

/-- ARRAY_PROGRAM_DONE (R35): the NAND or NOR program of an Irrevocable `cel.prog` or `sec.bfw` ends. -/
def execArrayProgramDone (t : Nat) (s : State) : Host.Outcome State Fault Refusal :=
  match s.cmd t with
  | none => .next s
  | some c =>
    if c.st = .irrevocable ∧ !c.nkDone ∧ (dClass c.words = 0x08 ∨ dClass c.words = 0x09) then
      let n := match c.done with
        | some d => nth d.res 0 0
        | none => 0
      let s := if dClass c.words = 0x08 then s.bump R.CEL_PROG_BYTES n else s
      .next (s.setCmd t { c with nkDone := true })
    else .next s

/-- SHADOW_COPYBACK_DONE (07 R180): a granule's copy-back to its home is complete; no reader sees a difference. -/
def execShadowCopybackDone (granule : Nat) (s : State) : Host.Outcome State Fault Refusal :=
  .next { s with x := { s.x with copybacks := s.x.copybacks.erase granule } }

/-! ## Ports (02 R40 to R45) -/

end Sys2Proof.Machine
end

