-- ==== Sys2Proof/Machine/Drift.lean ====
section
/-!
DEFINITION. The memory system's commands and drift (07): mapping, pins, hints, moves, faults and their resolution, the
granary's retirement and poison.
-/
namespace Sys2Proof.Machine

/-! ## Drift commands (R170 to R175) -/

/-- The statuses of Table 7.6. -/
def stQuota : Nat := 0x40
def stMapped : Nat := 0x41
def stNotMapped : Nat := 0x42
def stModuleOwned : Nat := 0x43
def stStackFull : Nat := 0x44
def stRingHeld : Nat := 0x45

/-- Whether the range is aligned and below 2^56 (R173), and a pin's tier is one of the two (Table 7.5). -/
def Cmd.driftOk (c : Cmd) : Bool :=
  c.body 0 % pageBytes == 0 && decide (c.body 0 + (bits (c.body 1) 0 18 + 1) * pageBytes ≤ 2 ^ 56) &&
    !(dOp c.words == 3 && decide (2 ≤ bits (c.body 1) 18 2))

/-- A drift command's row: its outcome is decided at its commit (R588). -/
def State.driftRow (s : State) (t op : Nat) (wait : Cmd → Bool) : Host.Outcome State Fault Refusal :=
  s.opRow t 0x04 op .drift fun c =>
    if !c.driftOk then .refuse stBadField else if wait c then .wait else .go [] [] ⟨stDone, [], [.late]⟩

/-- DRIFT_MAP (R172). -/
def execDriftMap (t : Nat) (s : State) : Host.Outcome State Fault Refusal := s.driftRow t 0x01 fun _ => false

/-- Whether a `drift.unmap` waits: a non-killable command past its start point holds a page of its range (R174). -/
def State.unmapWaits (s : State) (c : Cmd) : Bool :=
  dClass c.words == 0x04 && dOp c.words == 0x02 && c.vpns.any fun v => s.nkHolds (s.pkOf c.ten v)

/-- DRIFT_UNMAP (R174): it waits while an Irrevocable command holds a page of the range; so does its commit. -/
def execDriftUnmap (t : Nat) (s : State) : Host.Outcome State Fault Refusal := s.driftRow t 0x02 s.unmapWaits

/-- DRIFT_PIN (R170, R172). -/
def execDriftPin (t : Nat) (s : State) : Host.Outcome State Fault Refusal := s.driftRow t 0x03 fun _ => false
/-- DRIFT_UNPIN (R172). -/
def execDriftUnpin (t : Nat) (s : State) : Host.Outcome State Fault Refusal := s.driftRow t 0x04 fun _ => false
/-- DRIFT_HINT (R171). -/
def execDriftHint (t : Nat) (s : State) : Host.Outcome State Fault Refusal := s.driftRow t 0x05 fun _ => false
/-- DRIFT_SETTLE (R175): it has stayed Issued until its range was settled. -/
def execDriftSettle (t : Nat) (s : State) : Host.Outcome State Fault Refusal := s.driftRow t 0x06 fun _ => false

/-! ### What they do at the commit point -/

/-- The page a tenancy maps privately, or a replaced list's page that a fold has handed to it (08 R229). -/
def State.privPage (s : State) (ten vpn : Nat) : Option Page :=
  match s.page (pageKey ten vpn) with
  | some p => some p
  | none =>
    match s.page (pageKey spModule vpn) with
    | some p => if p.writer = some ten then some p else none
    | none => none

/-- The key of such a page. -/
def State.privKey (s : State) (ten vpn : Nat) : Nat :=
  if (s.page (pageKey ten vpn)).isSome then pageKey ten vpn else pageKey spModule vpn
def State.isMapped (s : State) (ten vpn : Nat) : Bool := (s.pageOf ten (vpn * pageBytes)).isSome

/-- The granules of spill areas and shadow reserve that a tenancy's program holds in its oasis quota (R167). -/
def State.oasisReserved (s : State) (ten : Nat) : Nat :=
  match tfind s.x.progs ten with
  | some p => p.spill + ceilDiv p.shadow granuleBytes
  | none => 0

/-- Whether the channel group of a frame is retired (R193). -/
def State.groupGone (s : State) (f : Nat) : Bool := (s.get (R.MEM_STACK_GROUPS_RETIRED (f / 32768))).testBit (f / 4096 % 8)

/-- The frames of a stack that may hold pages: those of a stack less the retired ones. -/
def State.stackFrames (s : State) (stk : Nat) : Nat :=
  32768 - (s.vm.retired.filter fun f => f / 32768 == stk && !s.groupGone f).length -
    4096 * popCount 8 (s.get (R.MEM_STACK_GROUPS_RETIRED stk))

/-- A pin of `tier` over page numbers: whether a quota would be exceeded (R170, Table 7.6). -/
def State.pinOver (s : State) (ten tier : Nat) (vpns : List Nat) : Bool :=
  let others := (s.vm.pages.filter fun p => p.1 / 2 ^ 35 == ten && p.2.pin != 0 && !vpns.contains (p.1 % 2 ^ 35)).map (·.2)
  let n := vpns.length
  let frames := others.length + n
  let oas := 32 * (others.filter fun p => p.pin == 1).length + (if tier = 0 then 32 * n else 0) + s.oasisReserved ten
  decide ((s.quota ten).2.1 < frames) || (decide (tier = 0) && decide ((s.quota ten).1 < oas))

/-- Whether every frame of a stack is pinned (Table 7.6). -/
def State.stackFull (s : State) (stk : Nat) : Bool :=
  decide (s.stackFrames stk ≤ (s.vm.pages.filter fun p => p.2.pin != 0 && (p.2.pinStack == some stk ||
    (p.2.st == 1 && p.2.frame / 32768 == stk))).length)

/-- The ring of a queue's instance on the k-th core of its task: one after another from the declared base (log entry 26). -/
def ringOf (q : QueueDecl) (k : Nat) : Nat := q.ringBase + k * 64 * q.ringSize

/-- Whether a completion ring of a tenancy's bound program, or of a queue of its tasks, shares a byte with a range (R94). -/
def State.ringIn (s : State) (ten va len : Nat) : Bool :=
  s.x.queues.any (fun q => q.2.ten == ten && overlaps q.2.ringBase (q.2.ringSize * 64) va len) ||
  match tfind s.x.progs ten with
  | some p => p.manifest.tasks.any fun t => t.queues.any fun q =>
      overlaps q.ringBase (t.cores.length * (q.ringSize * 64)) va len
  | none => false

/-- The granules an effect writes. -/
def Effect.granules : Effect → List Nat
  | .write k d => granulesIn k d.length
  | .fill k n _ => granulesIn k n
  | _ => []

/-- The holders of shadowed writes into granules, killed with READ_CLASH (R174): commands and turns. -/
def State.clashWriters (s : State) (who : Ref) (gs : List Nat) : State :=
  let s := s.x.cmds.foldl (fun s p =>
    let w := match p.2.done with
      | some d => d.effs.any fun e => e.granules.any gs.contains
      | none => false
    if decide (who ≠ .cmd p.1) && p.2.st.live && w then s.killCmd p.1 .readClash else s) s
  s.x.cores.foldl (fun s p =>
    match (s.core p.1).turns.findIdx? (fun t => t.stores.any fun e => gs.contains (e.1 / granuleBytes)) with
    | some i => s.killTurns p.1 i .readClash
    | none => s) s

/-- The readers of pool pages among granules, killed with READ_CLASH: `drift.unmap` kills these too (R174). -/
def State.clashFar (s : State) (who : Ref) (gs : List Nat) : State :=
  let s := s.x.cmds.foldl (fun (s : State) p =>
    if decide (who ≠ .cmd p.1) && p.2.st.live && p.2.far.any gs.contains then s.killCmd p.1 .readClash else s) s
  s.x.cores.foldl (fun (s : State) p =>
    match (s.core p.1).turns.findIdx? (fun t => t.far.any gs.contains) with
    | some i => s.killTurns p.1 i .readClash
    | none => s) s

/-- One mapping removed and its home freed (R174): its contents are gone. -/
def State.dropPage (s : State) (pk : Nat) : State :=
  let s := { s with vm := { s.vm with
    pages := tdel s.vm.pages pk, waitPages := s.vm.waitPages.erase pk,
    moves := tfilter (fun _ m => m.page != pk) s.vm.moves } }
  s.clearRun (pk * pageBytes) pageBytes

/-- A page under a hint (R171). -/
def State.hinted (s : State) (h : Nat) (p : Page) : Page :=
  match h with
  | 1 => { p with heat := max (s.pageHeat p) (s.get R.MEM_CTL_IN_GRANARY), era := s.era, hint := 1 }
  | 2 => { p with heat := 0, era := s.era, gheat := [], hint := 2 }
  | h => { p with hint := h }

/-- The soft repair of a retired frame's row, once no page and no borrower holds the frame (R192): it returns to use, or stays out. -/
def State.settleRepair (s : State) (r : Nat × Nat × Bool) : State :=
  let f := r.1
  if (s.vm.pages.any fun p => p.2.st == 1 && p.2.frame == f) || s.fa.lent.any (fun l => l.1 == f) then s
  else
    let s : State := { s with vm := { s.vm with repairs := s.vm.repairs.erase r } }
    if r.2.2 then
      let s := if s.groupGone f then s else s.put (R.MEM_STACK_FRAMES_RETIRED (f / 32768)) (s.get (R.MEM_STACK_FRAMES_RETIRED (f / 32768)) - 1)
      { s with vm := { s.vm with retired := s.vm.retired.erase f } }
    else s.raiseAt R.MEM_ERR_PPR_FAIL none f noTicket
def State.settleRepairs (s : State) : State := s.vm.repairs.foldl State.settleRepair s

/-- A drift command at its commit point: the state after, the status and the results (Tables 7.4 and 7.6). The pages of the
window's view are mapped and module-owned to it (21 R528). -/
def State.driftCommit (s : State) (t : Nat) (c : Cmd) : State × Nat × List Nat :=
  let w := c.body 1
  let vs := c.vpns
  let n := vs.length
  let ten := c.ten
  let setAll (f : Page → Page) : State := vs.foldl (fun s v => s.modPage (s.privKey ten v) f) s
  let view (v : Nat) : Bool := decide (cwVa < (v + 1) * pageBytes)
  let notMapped := vs.any fun v => !s.isMapped ten v && !view v
  let modOwned := vs.any fun v => (s.privPage ten v).isNone
  match dOp c.words with
  | 0x01 =>
    let used := (s.vm.pages.filter fun p => p.1 / 2 ^ 35 == ten).length
    let q := s.quota ten
    if q.2.1 + q.2.2.1 + q.2.2.2 < used + n then (s, stQuota, [])
    else if vs.any (fun v => s.isMapped ten v || view v) then (s, stMapped, [])
    else (vs.foldl (fun s v => s.setPage (pageKey ten v) { writable := w.testBit 27, era := s.era }) s, stDone, [n, 0])
  | 0x02 =>
    if notMapped then (s, stNotMapped, [])
    else if modOwned then (s, stModuleOwned, [])
    else if s.ringIn ten (c.body 0) (n * pageBytes) then (s, stRingHeld, [])
    else
      let gs := s.granules ten [(c.body 0, n * pageBytes)]
      let s := ((s.clash (.cmd t) gs).clashFar (.cmd t) gs).clashWriters (.cmd t) gs
      ((vs.foldl (fun s v => s.dropPage (s.privKey ten v)) s).settleRepairs, stDone, [n, 0])
  | 0x03 =>
    let tier := bits w 18 2
    let stk := if tier = 1 ∧ w.testBit 22 then some (bits w 23 4) else none
    if s.pinOver ten tier vs then (s, stQuota, [])
    else if notMapped then (s, stNotMapped, [])
    else if modOwned then (s, stModuleOwned, [])
    else if (match stk with | some k => s.stackFull k | none => false) then (s, stStackFull, [])
    else
      let s := setAll fun p => { p with pin := tier + 1, pinStack := stk }
      let there := (vs.filter fun v => match s.privPage ten v with | some p => p.placed | none => false).length
      (s, stDone, [there, n - there])
  | 0x04 =>
    if notMapped then (s, stNotMapped, [])
    else if modOwned then (s, stModuleOwned, [])
    else
      let had := (vs.filter fun v => match s.privPage ten v with | some p => p.pin != 0 | none => false).length
      (setAll fun p => { p with pin := 0, pinStack := none }, stDone, [had, 0])
  | 0x05 =>
    if notMapped then (s, stNotMapped, [])
    else if modOwned then (s, stModuleOwned, [])
    else (setAll (s.hinted (bits w 20 2)), stDone, [n, 0])
  | _ => if notMapped then (s, stNotMapped, []) else if vs.any view then (s, stModuleOwned, []) else (s, stDone, [n, 0])

/-! ## Moves (R166 to R182) -/

/-- The power domain of a frame's granary quad (19 Table 19.3). -/
def quadOf (f : Nat) : Nat := 20 * (f / 262144) + 14 + f / 65536 % 4

/-- Whether frame f is free for a page: within the granary, powered, held by no page and no move, not lent, not retired. -/
def State.frameFree (s : State) (f : Nat) : Bool :=
  decide (f < 524288) && !s.vm.retired.contains f && !s.groupGone f && s.powered (quadOf f) && !s.domLeaving (quadOf f) &&
    !(s.vm.pages.any fun p => p.2.st == 1 && p.2.frame == f) &&
    !(s.vm.moves.any fun m => m.2.granule.isNone && m.2.toSt == 1 && m.2.toFrame == f) &&
    !(s.fa.lent.any fun l => l.1 == f)

/-- The frames of channel group n, 8 * stack + group, that are taken or out of use. -/
def State.groupUsed (s : State) (n : Nat) : List Nat :=
  ((s.vm.retired ++ s.fa.lent.map (·.1) ++ (s.vm.pages.filter fun p => p.2.st == 1).map (·.2.frame) ++
    (s.vm.moves.filter fun m => m.2.granule.isNone && m.2.toSt == 1).map (·.2.toFrame)).filter fun f => f / 4096 == n).foldl addNew []

/-- Whether a channel group has a free frame. -/
def State.groupFree (s : State) (n : Nat) : Bool :=
  decide (n < 128) && !s.groupGone (4096 * n) && s.powered (quadOf (4096 * n)) && !s.domLeaving (quadOf (4096 * n)) &&
    decide ((s.groupUsed n).length < 4096)

/-- The channel group at a place of the round over stacks and groups (R190): the stacks in turn, then the next group (DESIGN CHOICE, log
entry 71). -/
def roundGroup (i : Nat) : Nat := 8 * (i % 16) + i / 16 % 8

/-- The next place of a space's round whose group has a free frame (R190). -/
def State.nextPlace (s : State) (space : Nat) : Option Nat :=
  (upto (tget s.vm.rota space 0) 128).find? fun i => s.groupFree (roundGroup i)

/-- Whether a page without a stack of its own may take a frame: the round has come to its group. -/
def State.roundOk (s : State) (space f : Nat) : Bool :=
  match s.nextPlace space with
  | some i => f / 4096 == roundGroup i
  | none => false

/-- Whether the granary has a frame for a page, in its stack where it is bound to one. -/
def State.hasFrame (s : State) (p : Page) : Bool :=
  match p.pinStack with
  | some k => (upto (8 * k) 8).any s.groupFree
  | none => (List.range 128).any s.groupFree

/-- Whether spill unit u is free. -/
def State.unitFree (s : State) (u : Nat) : Bool :=
  decide (s.get R.CEL_STORE_STORE ≤ u) && decide (u < s.get R.CEL_STORE_STORE + s.get R.CEL_SPILL_SPILL) &&
    !(s.vm.pages.any fun p => p.2.st == 2 && p.2.frame == u) && !(s.vm.moves.any fun m => m.2.toSt == 2 && m.2.toFrame == u)

/-- Whether the cellar takes pages at all, whatever the quotas (R182, R208). -/
def State.cellarUp (s : State) : Bool :=
  s.nvOk && s.get R.CEL_CTL_EN == 1 && s.get R.CEL_CTL_SPILL_EN == 1 &&
    decide (lsum (s.vm.pages.map fun p => if p.2.st = 2 then 1 else 0) < s.get R.CEL_SPILL_SPILL)

/-- Whether a page move's target is a home the page may take (R159, R161, R176). -/
def State.targetOk (s : State) (pk : Nat) (p : Page) (toSt toFrame : Nat) : Bool :=
  match toSt with
  | 1 => s.frameFree toFrame && (match p.pinStack with
    | some k => toFrame / 32768 == k
    | none => s.roundOk (pk / 2 ^ 35) toFrame)
  | 2 => p.st != 0 && p.st != 5 && s.unitFree toFrame && s.cellarUp
  | 3 => p.image && toFrame == p.imageUnit && s.nvOk
  | 4 => p.st != 0 && p.st != 5 && s.get R.FAB_CTL_EN == 1 && toFrame / 2 ^ 20 != s.ownAddr && s.reachable (toFrame / 2 ^ 20) &&
    !s.fa.lost.contains (toFrame / 2 ^ 20) && !(s.vm.pages.any fun q => q.2.st == 4 && q.2.frame == toFrame)
  | _ => false

/-- The place of a home outward: oasis 0, granary 1, cellar 2, pool 3 (R157). -/
def stOrder (st : Nat) : Nat := if st ≤ 1 then 1 else if st ≤ 3 then 2 else 3

/-- The place of a home state among the tiers with quotas (R167): oasis 0, granary 1, cellar 2, pool 3. -/
def State.tierUse (s : State) (space tier : Nat) : Nat × Nat :=
  let u := s.memUse space
  let q := s.quota space
  match tier with
  | 0 => (u.1 + s.oasisReserved space, q.1)
  | 1 => (u.2.1, q.2.1)
  | 2 => (u.2.2.1, q.2.2.1)
  | _ => (u.2.2.2.1, q.2.2.2)

/-- Whether use of a tier of a space lies above a percentage of its quota (R167). -/
def State.above (s : State) (space tier pct : Nat) : Bool :=
  decide ((s.tierUse space tier).2 * pct < (s.tierUse space tier).1 * 100)

/-- Whether drift moves a space's coldest pages or granules out of a tier: from use above HIGH_PCT of the quota until it is at or below
LOW_PCT (R167). -/
def State.shrinks (s : State) (space tier : Nat) : Bool :=
  s.above space tier (s.get R.MEM_CTL_HIGH_PCT) || (s.vm.shrink.contains (4 * space + tier) && s.above space tier (s.get R.MEM_CTL_LOW_PCT))

/-- A tier that drift has begun to empty stays so until LOW_PCT. -/
def State.setShrink (s : State) (space tier : Nat) : State :=
  if s.shrinks space tier then { s with vm := { s.vm with shrink := addNew s.vm.shrink (4 * space + tier) } } else s
def State.settleShrink (s : State) : State :=
  { s with vm := { s.vm with shrink := s.vm.shrink.filter fun x => s.above (x / 4) (x % 4) (s.get R.MEM_CTL_LOW_PCT) } }

/-- Whether a tier of a space is at quota. -/
def State.atQuota (s : State) (space tier : Nat) : Bool := decide ((s.tierUse space tier).2 ≤ (s.tierUse space tier).1)

/-- Whether a page is the coldest of its space's movable pages in its home state, ties to the lower page number (R167). -/
def State.coldest (s : State) (pk : Nat) (p : Page) : Bool :=
  s.vm.pages.all fun q => q.1 / 2 ^ 35 != pk / 2 ^ 35 || q.2.st != p.st || q.2.pin != 0 || q.2.held || s.nkHolds q.1 ||
    decide (s.pageHeat p < s.pageHeat q.2) || (s.pageHeat p == s.pageHeat q.2 && decide (pk ≤ q.1))

/-- Whether a granule is the coldest of its space's movable granules in the oasis, ties to the lower page number. -/
def State.coldestGran (s : State) (pk : Nat) (p : Page) (g : Nat) : Bool :=
  s.vm.pages.all fun q => q.1 / 2 ^ 35 != pk / 2 ^ 35 || q.2.st != 1 || q.2.pin != 0 || q.2.held || s.nkHolds q.1 ||
    (List.range 32).all fun i => !q.2.oasis.testBit i || decide (s.granHeat p g < s.granHeat q.2 i) ||
      (s.granHeat p g == s.granHeat q.2 i && decide (32 * pk + g ≤ 32 * q.1 + i))

/-- Whether a page or granule of a heat is to move into a tier of a space at quota for its heat, or a page awaited by a fault (R168, R186):
a victim leaves first, of at most half the heat of what moves in for its heat. -/
def State.wantsRoom (s : State) (space tier heat : Nat) : Bool :=
  s.vm.pages.any fun q => q.1 / 2 ^ 35 == space && (match tier with
    | 0 => q.2.st == 1 && q.2.pin == 0 && s.get R.MEM_CTL_DRIFT_EN == 1 && (List.range 32).any fun i =>
        !q.2.oasis.testBit i && decide (s.get R.MEM_CTL_IN_OASIS ≤ s.granHeat q.2 i) && decide (2 * heat ≤ s.granHeat q.2 i)
    | _ => q.2.st != 1 && q.2.st != 5 && (s.awaitedPages.contains q.1 ||
        (q.2.pin == 0 && (q.2.st == 2 || q.2.st == 4) && s.get R.MEM_CTL_DRIFT_EN == 1 &&
          decide (s.get R.MEM_CTL_IN_GRANARY ≤ s.pageHeat q.2) && decide (2 * heat ≤ s.pageHeat q.2))))

/-- Whether a victim may leave a tier of a space: the tier is being emptied, or something is to move in at quota. -/
def State.mayLeave (s : State) (space tier heat : Nat) : Bool :=
  s.shrinks space tier || (s.atQuota space tier && s.wantsRoom space tier heat)

/-- Whether a page must leave its frame: the frame or its group is retired (R192, R193), or its quad is to be gated (R181). -/
def State.mustLeave (s : State) (p : Page) : Bool :=
  p.st == 1 && (s.groupGone p.frame || s.vm.retired.contains p.frame || s.domLeaving (quadOf p.frame))

/-- Whether a command, a turn, or a remote or host access waits for a page (R185). -/
def State.awaited (s : State) (pk : Nat) : Bool := s.awaitedPages.contains pk

/-- Whether a command is one that writes store sectors. -/
def Cmd.writesStore (c : Cmd) : Bool := dClass c.words == 0x08 && (dOp c.words == 2 || dOp c.words == 3)

/-- Where the resolution of a page's faults takes it (Table 7.7): to its image for the commands that write store sectors, to the granary for
whatever else waits. -/
def State.resolvesTo (s : State) (pk : Nat) (toSt : Nat) : Bool :=
  if toSt = 3 then s.x.cmds.any fun c => c.2.await.contains pk && c.2.writesStore
  else s.vm.awaited.contains pk || s.x.cores.any (fun c => c.2.await.contains pk) ||
    s.x.cmds.any fun c => c.2.await.contains pk && !c.2.writesStore

/-- Whether the granary's room, after pins and held pages, takes every page of a list (R186). -/
def State.roomFor (s : State) (await : List Nat) : Bool :=
  await.all fun pk =>
    let sp := pk / 2 ^ 35
    let bound := (s.vm.pages.filter fun p => p.1 / 2 ^ 35 == sp && (p.2.pin != 0 || p.2.held)).length
    decide (bound + (await.filter fun q => q / 2 ^ 35 == sp).length ≤ (s.quota sp).2.1)

/-- Whether a page's turn has come in a list: all have room, or the pages before it are on their way (R186). -/
def State.listTurn (s : State) (pk : Nat) (await : List Nat) : Bool :=
  await.contains pk && (s.roomFor await ||
    (await.takeWhile (· != pk)).all fun q => s.vm.moves.any fun m => m.2.page == q && m.2.granule.isNone)

/-- Whether a fault on a page may be resolved now, by the order of the lists it stands in. -/
def State.faultTurn (s : State) (pk : Nat) : Bool :=
  s.vm.awaited.contains pk || s.x.cmds.any (fun c => s.listTurn pk c.2.await) || s.x.cores.any fun c => s.listTurn pk c.2.await

/-- The oasis room of a die: its powered halves hold 3,584 granules each (R157, 19 Table 19.3). -/
def State.oasisCap (s : State) (die : Nat) : Nat :=
  (if s.powered (20 * die + 12) then 3584 else 0) + (if s.powered (20 * die + 13) then 3584 else 0)

/-- Whether a granule can go into the oasis of its frame's die. -/
def State.oasisOpen (s : State) (die : Nat) : Bool := s.get (R.OAS_CTL_EN die) == 1 && decide (s.oasisHomed die < s.oasisCap die)

/-- Whether drift may move granule g of a page between its frame and the oasis, for a reason. -/
def State.granuleOk (s : State) (pk : Nat) (p : Page) (g : Nat) (inward : Bool) (why : MoveWhy) : Bool :=
  let space := pk / 2 ^ 35
  let die := p.frame / 262144
  p.st == 1 && decide (g < 32) && p.oasis.testBit g == !inward && !s.nkHolds pk && (!inward || s.oasisOpen die) &&
  match why with
  | .heat => inward && p.pin == 0 && s.get R.MEM_CTL_DRIFT_EN == 1 && decide (s.get R.MEM_CTL_IN_OASIS ≤ s.granHeat p g) &&
      !s.atQuota space 0
  | .outward => !inward && p.pin == 0 && !p.held && s.coldestGran pk p g && s.mayLeave space 0 (s.granHeat p g)
  | .pin => (inward && p.pin == 1) || (!inward && p.pin == 2)
  | .evacuate => !inward && p.pin != 1 && !p.held && (s.domLeaving (20 * die + 12) || s.domLeaving (20 * die + 13))
  | _ => false

/-- Whether drift may move a page to a home, for a reason. -/
def State.pageMoveOk (s : State) (pk : Nat) (p : Page) (toSt toFrame : Nat) (why : MoveWhy) : Bool :=
  let space := pk / 2 ^ 35
  s.targetOk pk p toSt toFrame && !s.nkHolds pk &&
  match why with
  | .heat => p.pin == 0 && s.get R.MEM_CTL_DRIFT_EN == 1 && (p.st == 2 || p.st == 4) && toSt == 1 &&
      decide (s.get R.MEM_CTL_IN_GRANARY ≤ s.pageHeat p) && !s.atQuota space 1
  | .outward => p.pin == 0 && !p.held && s.coldest pk p &&
      ((p.st == 1 && s.mayLeave space 1 (s.pageHeat p) &&
          ((toSt == 2 && s.cellarOpen space) || (toSt == 4 && !s.cellarOpen space && s.poolOpen space))) ||
        (p.st == 2 && s.mayLeave space 2 (s.pageHeat p) && toSt == 4 && s.poolOpen space))
  | .fault => s.faultTurn pk && s.resolvesTo pk toSt && p.st != toSt && ((toSt == 1 && p.st != 5 && !s.atQuota space 1) || toSt == 3)
  | .pin => p.pin != 0 && !p.placed && toSt == 1 && (p.st != 1 || p.pinStack != none)
  | .evacuate => s.mustLeave p && !p.held &&
      (toSt == 1 || (p.pin == 0 && !s.hasFrame p && (toSt == 2 || (toSt == 4 && !s.cellarUp))))
  | .recall => false

/-- The die whose move a page's is counted in: that of its frame, or of the frame it goes to. -/
def moveDie (p : Page) (toSt toFrame : Nat) : Nat :=
  if toSt = 1 then toFrame / 262144 else if p.st = 1 then p.frame / 262144 else 0

/-- Whether the limits of R176 leave room: 32 moves a die, 16 into or out of the cellar. -/
def State.moveRoom (s : State) (die : Nat) (cellar : Bool) : Bool :=
  decide ((s.vm.moves.filter fun m => m.2.die == die).length < 32) &&
    (!cellar || decide ((s.vm.moves.filter fun m => m.2.toSt == 2 || m.2.toSt == 3 ||
      (match s.page m.2.page with | some p => m.2.granule.isNone && (p.st == 2 || p.st == 3) | none => false)).length < 16))

/-- A move put in flight, Running (R176); a page that takes a frame by the round moves it on (R190). -/
def State.startMove (s : State) (m : Move) : State :=
  let bound := (s.page m.page).any fun p => p.pinStack.isSome
  let rota := match s.nextPlace (m.page / 2 ^ 35) with
    | some i => if m.granule.isNone && m.toSt == 1 && !bound then tset s.vm.rota (m.page / 2 ^ 35) ((i + 1) % 128) else s.vm.rota
    | none => s.vm.rota
  { s with vm := { s.vm with moves := tset s.vm.moves s.vm.nextMove m, nextMove := s.vm.nextMove + 1, rota := rota } }

/-- Whether a pinned page could now move toward where its pin binds it: those moves go ahead of all others (R170). -/
def State.pinFirst (s : State) : Bool :=
  s.vm.pages.any fun q => q.2.pin != 0 && !q.2.placed && !s.nkHolds q.1 && !(s.vm.moves.any fun m => m.2.page == q.1) &&
    (let far := decide (q.2.st ≠ 1) || (match q.2.pinStack with | some k => q.2.frame / 32768 != k | none => false)
     if far then s.hasFrame q.2 && s.moveRoom 0 (q.2.st == 2 || q.2.st == 3) && s.moveRoom 1 (q.2.st == 2 || q.2.st == 3)
     else s.moveRoom (q.2.frame / 262144) false && (q.2.pin == 2 || s.oasisOpen (q.2.frame / 262144)))

/-- DRIFT_MOVE (R176): a page to a home state and frame, or a granule of it to the oasis (`toFrame` 1) or to its frame (0). A resolution
that finds no room and no destination for a victim waits (R188). -/
def execDriftMove (page : Nat) (granule : Option Nat) (toSt toFrame : Nat) (why : MoveWhy) (s : State) :
    Host.Outcome State Fault Refusal :=
  match s.page page with
  | none => .next s
  | some p =>
    let busy := s.vm.moves.any fun m => m.2.page == page && (m.2.granule.isNone || granule.isNone || m.2.granule == granule)
    if s.get R.MEM_CTL_EN = 0 ∨ busy ∨ (why ≠ .pin ∧ s.pinFirst) then .next s
    else match granule with
      | some g =>
        let inward := toFrame == 1
        let die := p.frame / 262144
        if s.granuleOk page p g inward why ∧ s.moveRoom die false then
          .next ((if why = .outward then s.setShrink (page / 2 ^ 35) 0 else s).startMove ⟨page, some g, 1, toFrame, inward, .running, why, die⟩)
        else .next s
      | none =>
        let die := moveDie p toSt toFrame
        let cellar := toSt == 2 || toSt == 3 || p.st == 2 || p.st == 3
        if s.pageMoveOk page p toSt toFrame why ∧ s.moveRoom die cellar then
          .next ((if why = .outward then s.setShrink (page / 2 ^ 35) p.st else s).startMove
            ⟨page, none, toSt, toFrame, decide (stOrder toSt < stOrder p.st), .running, why, die⟩)
        else .next (if why = .fault ∧ s.awaited page then s.noteStalls [page] else s)

/-- A page resolved: whoever waits for it waits no longer (R185). -/
def State.resolved (s : State) (pk : Nat) : State :=
  { s with
    x := { s.x with
      cmds := tmap (fun _ c => { c with await := c.await.erase pk }) s.x.cmds,
      cores := tmap (fun _ k => { k with await := k.await.erase pk }) s.x.cores },
    vm := { s.vm with waitPages := s.vm.waitPages.erase pk, awaited := s.vm.awaited.erase pk } }

/-- Whose rerun waits for a page. -/
def State.waiters (s : State) (pk : Nat) : List Drawer :=
  ((s.x.cmds.filter fun c => c.2.await.contains pk).map fun c => Drawer.cmd c.1) ++
    ((s.x.cores.filter fun c => c.2.await.contains pk).map fun c => Drawer.turn c.1 c.2.turnNum)

/-- A page resolved for a fault: heat at least IN_GRANARY, held until the reruns commit or for 1 ms (R30, R185). -/
def State.holdPage (s : State) (pk : Nat) : State :=
  let port := if pk / 2 ^ 35 < 64 then s.tenPort (pk / 2 ^ 35) else s.get R.ERR_CTL_REF_PORT
  let who := s.waiters pk
  s.modPage pk fun p => { p with
    heat := max (s.pageHeat p) (s.get R.MEM_CTL_IN_GRANARY), era := s.era,
    held := true, holdPort := port, holdEnd := s.time port + 1000000, holdFor := who }

/-- A committed move counted: MEM_MOVES, and the lines read and written in the module's own tiers (R165, R177). -/
def State.countMove (s : State) (lines : Nat) (inward outward : Bool) : State :=
  let s := if inward then s.bump R.MEM_MOVES_INWARD 1 else if outward then s.bump R.MEM_MOVES_OUTWARD 1 else s
  { s with vm := { s.vm with lines := s.vm.lines + lines } }

/-- Whether a store sector of a unit is uncorrectable: marked bad, or on a failed channel (R197, R206). -/
def State.sectorBad (s : State) (unit k : Nat) : Bool :=
  s.vm.badSectors.contains (unit * 512 + k) || (s.get R.CEL_STS_CH_FAIL).testBit ((k + unit) % 32)

/-- The page whose image is a unit of the store region. -/
def State.storePage (s : State) (unit : Nat) : Nat :=
  match s.vm.pages.find? fun p => p.2.image && p.2.imageUnit == unit with
  | some (pk, _) => pk % 2 ^ 35 * pageBytes
  | none => 0

/-- An uncorrectable store sector met (R206): marked bad until the image is reloaded; the STORE_MEDIA event names the store page and the
sector, on every occurrence (22 R551). -/
def State.storeSector (s : State) (unit k : Nat) : State :=
  let s := { s with vm := { s.vm with badSectors := addNew s.vm.badSectors (unit * 512 + k) } }
  let s := s.raiseAt R.CEL_ERR_READ_UE none ((unit * 512 + k) * 4096) noTicket
  let (s, seq) := s.raiseSeq R.CEL_ERR_STORE_UE none ((unit * 512 + k) * 4096) noTicket true
  s.sendEvent 0x03 0 none (s.time (s.get R.ERR_CTL_REF_PORT)) [s.storePage unit, k, 0, seq.getD (2 ^ 64 - 1)]

/-- The sectors of a unit that cannot be read. -/
def State.badIn (s : State) (unit : Nat) : List Nat := (List.range 512).filter (s.sectorBad unit)

/-- A page read from its image by a move: the sectors that cannot be read poison their granules (R206). -/
def State.readImage (s : State) (pk unit : Nat) : State :=
  (s.badIn unit).foldl (fun (s : State) k =>
    (s.storeSector unit k).modPage pk fun p => { p with poison := setBits p.poison (k / 16) 1 1 }) s

/-- The commit of a move (R176): the new home is valid and the old one is not, in one step. -/
def State.commitMove (s : State) (id : Nat) (m : Move) : State :=
  let s := { s with vm := { s.vm with moves := tdel s.vm.moves id } }
  match s.page m.page with
  | none => s
  | some p =>
    match m.granule with
    | some g =>
      ((s.setPage m.page { p with oasis := setBits p.oasis g 1 (if m.inward then 1 else 0) }).countMove 2048 m.inward (!m.inward)).settleShrink
    | none =>
      let out := decide (stOrder p.st < stOrder m.toSt)
      let lines := (if 1 ≤ p.st ∧ p.st ≤ 3 then 32768 else 0) + (if m.toSt ≤ 3 then 32768 else 0)
      let s := s.setPage m.page { p with st := m.toSt, frame := m.toFrame, oasis := 0, gheat := [] }
      let s := s.countMove lines (m.inward && p.st != 0) out
      let s := if p.st = 3 then s.readImage m.page p.frame else s
      let s := if m.toSt = 3 then s.modPage m.page fun p => { p with poison := 0 } else s
      let s := if s.awaited m.page then s.holdPage m.page else s
      ((s.resolved m.page).settleRepairs).settleShrink

/-! ## The era, reruns and holds -/

/-- ERA_ADVANCE (R165): 2^DECAY_SHIFT lines have moved. -/
def execEraAdvance (s : State) : Host.Outcome State Fault Refusal :=
  let n := 2 ^ s.get R.MEM_CTL_DECAY_SHIFT
  if n ≤ s.vm.lines then
    .next (({ s with vm := { s.vm with lines := s.vm.lines - n } }).bump R.MEM_ERA_ERA 1)
  else .next s

/-- Whether a list of pages is resolved, or no further page of it can be placed (R185, R186); a return to an image needs no room. -/
def State.listDone (s : State) (toImage : Bool) (await : List Nat) : Bool :=
  await.isEmpty || (!toImage && await.all fun pk => !s.granaryRoom (pk / 2 ^ 35))

/-- FAULT_RESOLVED_RERUN (R185, R186): the rerun of a command or turn killed for TRANSLATION. -/
def execFaultResolvedRerun (r : Ref) (s : State) : Host.Outcome State Fault Refusal :=
  match r with
  | .cmd t =>
    match s.cmd t with
    | some c =>
      if c.st = .killed ∧ !c.discarding ∧ c.lastKill = 2 ∧ s.listDone c.writesStore c.await then .next (s.rerunCmd t c) else .next s
    | none => .next s
  | .turn c =>
    let k := s.core c
    if k.held ∧ !k.discarding ∧ k.lastKill = 2 ∧ s.listDone false k.await then .next (s.rerunTurn c) else .next s
  | .move _ => .next s

/-- PAGE_HOLD_EXPIRY (R30): 1 ms has passed at the port of the hold. -/
def execPageHoldExpiry (page : Nat) (s : State) : Host.Outcome State Fault Refusal :=
  match s.page page with
  | some p =>
    if p.held ∧ p.holdEnd ≤ s.time p.holdPort then .next (s.setPage page { p with held := false }) else .next s
  | none => .next s

/-! ## Retirement and poison (R192 to R194) -/

/-- Whether a frame is to be retired for a row (R192): two errors corrected in the row since it was last scrubbed, or a line of the frame
uncorrectable. No command tells of a scrub that finds nothing (log entry 70). -/
def State.frameBad (s : State) (frame row : Nat) : Bool :=
  s.vm.ueFrames.contains frame || decide (2 ≤ s.vm.corrRows.countP fun r => r == (frame, row))

/-- FRAME_RETIRE (R192): the frame is out of use; drift's moves take its page to another, its poisoned granules left poisoned; then soft
repair is tried, and after one that succeeds the frame returns to use. The row joins the retirement list. -/
def execFrameRetire (stk frame row : Nat) (repaired : Bool) (s : State) : Host.Outcome State Fault Refusal :=
  let f := stk * 32768 + frame
  if 16 ≤ stk ∨ 32768 ≤ frame then .fault .noSuchUnit
  else if s.vm.retired.contains f ∨ !s.frameBad f row then .next s
  else
    let s := s.raiseAt R.MEM_ERR_FRAME_RETIRED none f noTicket
    let s := if s.groupGone f then s else s.bump (R.MEM_STACK_FRAMES_RETIRED stk) 1
    .next ({ s with vm := { s.vm with
      retired := s.vm.retired ++ [f], retireList := s.vm.retireList ++ [(f, row)]
      corrRows := s.vm.corrRows.filter (· != (f, row)), ueFrames := s.vm.ueFrames.erase f
      repairs := s.vm.repairs ++ [(f, row, repaired)] } } : State).settleRepairs

/-- The frames of a channel group that are retired. -/
def State.groupRetired (s : State) (stk grp : Nat) : Nat :=
  (s.vm.retired.filter fun f => f / 4096 == stk * 8 + grp).length

/-- Whether a channel group is to be retired (R193): for its frames, or for one of its channels. -/
def State.groupDue (s : State) (stk grp : Nat) (channel : Option Nat) : Bool :=
  match channel with
  | none => decide (64 ≤ s.groupRetired stk grp)
  | some ch => decide (16 ≤ tget s.vm.parity (32 * stk + 4 * grp + ch) 0)

/-- A channel group retired: its frames are out of use. -/
def State.retireGroup (s : State) (stk grp : Nat) : State :=
  if (s.get (R.MEM_STACK_GROUPS_RETIRED stk)).testBit grp then s
  else
    let s := s.bump (R.MEM_STACK_FRAMES_RETIRED stk) (4096 - s.groupRetired stk grp)
    let s := s.put (R.MEM_STACK_GROUPS_RETIRED stk) (s.get (R.MEM_STACK_GROUPS_RETIRED stk) + 2 ^ grp)
    s.raiseAt R.MEM_ERR_GROUP_RETIRED none (stk * 8 + grp) noTicket

/-- CHANNEL_GROUP_RETIRE (R193): for 64 frames retired, or for a channel of the group that has repeated 16 accesses in a row for parity.
No frame of the group is allocated from then on; drift's moves evacuate it. -/
def execChannelGroupRetire (stk grp : Nat) (channel : Option Nat) (s : State) : Host.Outcome State Fault Refusal :=
  if 16 ≤ stk ∨ 8 ≤ grp ∨ 4 ≤ channel.getD 0 then .fault .noSuchUnit
  else if s.groupDue stk grp channel then .next (s.retireGroup stk grp)
  else .next s

/-- A granule marked poisoned. -/
def State.poison (s : State) (granule : Nat) : State :=
  s.modPage (granule / 32) fun p => { p with poison := setBits p.poison (granule % 32) 1 1 }

/-- Whatever reads a poisoned granule is killed with UNIT_FAULT (R194). -/
def State.poisonKill (s : State) (r : Ref) : State :=
  match r with
  | .cmd t => s.killCmd t .unitFault
  | .turn c => s.killTurns c 0 .unitFault
  | .move id => s.killMove id

/-- A line of a granule, homed in the granary or the spill region, found uncorrectable by an agent (R194); none where it has no such home. -/
def State.lineLost (s : State) (granule : Nat) (r : Ref) : Option State :=
  match s.page (granule / 32) with
  | some p =>
    if p.st = 1 ∨ p.st = 2 then
      let ten := if granule / 32 / 2 ^ 35 < 64 then some (granule / 32 / 2 ^ 35) else none
      let s := (s.poison granule).raiseAt R.MEM_ERR_HBM_UE ten (granule * granuleBytes % 2 ^ 56) noTicket
      let s : State := if p.st = 1 ∧ !p.oasis.testBit (granule % 32) then
        { s with vm := { s.vm with ueFrames := addNew s.vm.ueFrames p.frame } } else s
      some (s.poisonKill r)
    else none
  | none => none

/-- Whether a page has a source to rebuild a granule from (Table 7.11). -/
def Page.source? (p : Page) : Bool := (p.image && p.st != 3) || p.source == 1 || p.source == 3

/-- POISON_REBUILD (R194): the rebuild commits and the poison clears; the source holds the granule's bytes. -/
def execPoisonRebuild (granule : Nat) (s : State) : Host.Outcome State Fault Refusal :=
  match s.page (granule / 32) with
  | some p =>
    if p.poison.testBit (granule % 32) ∧ p.source? then
      .next (s.setPage (granule / 32) { p with poison := setBits p.poison (granule % 32) 1 0 })
    else .next s
  | none => .next s

end Sys2Proof.Machine
end

