-- ==== Sys2Proof/Machine/Cellar.lean ====
section
/-!
DEFINITION. The cellar's commands and its media (07 R201 to R206).
-/
namespace Sys2Proof.Machine

/-- The size of a NAND sector (R195). -/
def sectorBytes : Nat := 4096

/-- The sectors of a page's unit that a run of bytes within it touches. -/
def sectorsIn (va len : Nat) : List Nat :=
  if len = 0 then [] else upto (va / sectorBytes) ((va + len - 1) / sectorBytes - va / sectorBytes + 1)

/-- The NAND sectors a record is read from: page state, unit and sector, for its parts homed in the cellar. -/
def State.nandSectors (s : State) (ten : Nat) (r : Nat × Nat) : List (Nat × Nat × Nat) :=
  (sectorsIn r.1 r.2).filterMap fun q =>
    match s.pageOf ten (q * sectorBytes) with
    | some (_, p) => if p.st = 2 ∨ p.st = 3 then some (p.st, p.frame, q % 512) else none
    | none => none

/-- The uncorrectable store sectors that a record is read from, unit and sector. -/
def State.badSectorsOf (s : State) (ten : Nat) (r : Nat × Nat) : List (Nat × Nat) :=
  (s.nandSectors ten r).filterMap fun x => if x.1 = 3 ∧ s.sectorBad x.2.1 x.2.2 then some x.2 else none

/-- The index of the first record with an uncorrectable store sector. -/
def State.badRecord (s : State) (ten : Nat) (rs : List (Nat × Nat)) : Option Nat := rs.findIdx? fun r => !(s.badSectorsOf ten r).isEmpty

/-- Uncorrectable store sectors met are reported (R206). -/
def State.reportSectors (s : State) (qs : List (Nat × Nat)) : State :=
  ((qs.map fun q => q.1 * 512 + q.2).foldl addNew []).foldl (fun (s : State) q => s.storeSector (q / 512) (q % 512)) s

/-- What `cel.gather` comes to. -/
def State.gatherPlan (s : State) (c : Cmd) : Plan :=
  let list := c.body 0
  let dst := c.body 1
  let n := bits (c.body 2) 0 13
  let rd := (list, 16 * n)
  if list % 16 ≠ 0 ∨ dst % 64 ≠ 0 ∨ n = 0 ∨ 4096 < n then .refuse stBadField
  else match s.access .cellar c.ten [rd] [] with
    | .ok =>
      let rs := s.listRecords c.ten list n
      let fp := footprint rs
      if !recordsOk 65536 rs then Plan.refuseRead [rd] stBadField
      else if beatCap < ceilDiv fp 64 then Plan.refuseRead [rd] stLength
      else if c.body 3 < fp ∨ anyOverlap [(dst, fp)] (rd :: rs) then Plan.refuseRead [rd] stOverlap
      else match s.access .cellar c.ten rs [(dst, fp)], s.badRecord c.ten rs with
        | .ok, some i => .go (rd :: rs) [] ⟨0x40, [0, 0, 0, i], []⟩
        | _, _ =>
          let nand := lsum (rs.map fun r => (s.nandSectors c.ten r).length)
          .go (rd :: rs) [(dst, fp)] ⟨stDone, [lsum (rs.map (·.2)), fp, nand], [.write (key c.ten dst) (s.packed c.ten rs)]⟩
    | _ => .reach [] [rd] []

/-- The store sectors that a `cel.gather` finds uncorrectable as it runs. -/
def State.gatherBad (s : State) (t : Nat) : List (Nat × Nat) :=
  match s.cmd t with
  | none => []
  | some c =>
    if c.st = .running ∧ c.done = none ∧ dClass c.words = 0x08 ∧ dOp c.words = 0x01 ∧ !s.fetching t ∧ !s.pw.absent.contains 5 then
      match s.gatherPlan c with
      | .go rds _ d => if d.status = 0x40 ∧ s.toFetch c .cellar [] rds = [] then rds.flatMap (s.badSectorsOf c.ten) else []
      | _ => []
    else []

/-- CEL_GATHER (R202): records from every home, packed to DST; uncorrectable store sectors are reported (R206). -/
def execCelGather (t : Nat) (s : State) : Host.Outcome State Fault Refusal :=
  let bad := s.gatherBad t
  (s.reportSectors bad).opRow t 0x08 0x01 .cellar s.gatherPlan

/-- The checks of a store destination shared by `cel.prog` and `cel.trim` (R162, R183, R203): a status, a fault with those of the reads, or
none. -/
def State.storeDst (s : State) (ten dst len : Nat) (rds : List (Nat × Nat)) : Option Plan :=
  let vs := pagesIn dst len
  if vs.any fun v => !s.isMapped ten v then some (.refuse stProtection)
  else
    let ps := vs.filterMap fun v => s.pageOf ten (v * pageBytes)
    if ps.any fun p => !p.2.image then some (.refuse 0x41)
    else
      let away := ps.filter fun p => p.2.st != 3
      if away ≠ [] then some (.away (away.map (·.1)) rds) else none

/-- A store destination as one of the ranges that its command touches and holds (02 R34): no unit reads or writes it but the cellar's
programs. -/
def storeHold (ten dst len : Nat) : List Read := [⟨.drift, ten, dst, len⟩]

/-- CEL_PROG (R203): up to its start point. The bytes are in the store from the commit. -/
def execCelProg (t : Nat) (s : State) : Host.Outcome State Fault Refusal :=
  let nvBad : Bool := match s.cmd t with
    | some c => decide (c.st = .running ∧ c.done = none ∧ dClass c.words = 0x08 ∧ dOp c.words = 0x02) && !s.nvOk
    | none => false
  let s' := match s.cmd t with
    | some c => if nvBad then s.nvRefused 0x08 c.ten t else s
    | none => s
  s'.opRow t 0x08 0x02 .cellar fun c =>
    let src := c.body 0
    let dst := c.body 1
    let n := bits (c.body 2) 0 3
    let len := n * sectorBytes
    if src % 64 ≠ 0 ∨ dst % sectorBytes ≠ 0 ∨ n = 0 ∨ 4 < n then .refuse stBadField
    else if nvBad then .refuse stNvBlocked
    else match s.storeDst c.ten dst len [(src, len)] with
      | some p => p
      | none => .goX (storeHold c.ten dst len) [] [(src, len)] [] ⟨stDone, [len], [.write (s.dkey c.ten dst) (s.vrun c.ten src len)]⟩

/-- CEL_TRIM (R204). -/
def execCelTrim (t : Nat) (s : State) : Host.Outcome State Fault Refusal :=
  let nvBad : Bool := match s.cmd t with
    | some c => decide (c.st = .running ∧ c.done = none ∧ dClass c.words = 0x08 ∧ dOp c.words = 0x03) && !s.nvOk
    | none => false
  let s' := match s.cmd t with
    | some c => if nvBad then s.nvRefused 0x08 c.ten t else s
    | none => s
  s'.opRow t 0x08 0x03 .cellar fun c =>
    let dst := c.body 0
    let n := bits (c.body 1) 0 17
    if dst % sectorBytes ≠ 0 ∨ n = 0 ∨ 65536 < n then .refuse stBadField
    else if nvBad then .refuse stNvBlocked
    else match s.storeDst c.ten dst (n * sectorBytes) [] with
      | some p => p
      | none =>
        .goX (storeHold c.ten dst (n * sectorBytes)) [] [] [] ⟨stDone, [n], [.fill (s.dkey c.ten dst) (n * sectorBytes) 0]⟩

/-! ## Media (R206) -/

/-- A NAND block retired: a spare taken, counted. -/
def State.retireBlock (s : State) : State :=
  let s := s.raise R.CEL_ERR_BLOCK_RETIRED none
  let s := s.put R.CEL_SPARE_SPARE (s.get R.CEL_SPARE_SPARE - 1)
  s.bump R.CEL_SPARE_RETIRED 1

/-- What the cellar meets (R206). -/
def State.mediaEvent (s : State) (e : MediaEvent) : State :=
  match e with
  | .readRetry => s.raise R.CEL_ERR_READ_CE none
  | .progFail => s.raise R.CEL_ERR_PROG_FAIL none
  | .eraseFail => (s.raise R.CEL_ERR_ERASE_FAIL none).retireBlock
  | .spillUe g =>
    match s.page (g / 32) with
    | some p =>
      if p.st = 2 then
        let ten := if g / 32 / 2 ^ 35 < 64 then some (g / 32 / 2 ^ 35) else none
        let s := (s.raiseAt R.CEL_ERR_READ_UE ten (g * granuleBytes % 2 ^ 56) noTicket).poison g
        s.raiseAt R.MEM_ERR_HBM_UE ten (g * granuleBytes % 2 ^ 56) noTicket
      else s
    | none => s
  | .storeUe q => if s.get R.CEL_STORE_STORE ≤ q / 512 then s else s.storeSector (q / 512) (q % 512)

/-- Whether granule g of spill unit u has a sector on channel ch (R197). -/
def onChannel (u g ch : Nat) : Bool := (upto (16 * g) 16).any fun k => (k + u) % 32 == ch

/-- A page whose spill granules on a failed channel are poisoned. -/
def Page.channelLost (p : Page) (ch : Nat) : Page :=
  if p.st = 2 then
    { p with poison := (List.range 32).foldl (fun x g => if onChannel p.frame g ch then setBits x g 1 1 else x) p.poison }
  else p

/-- A channel fails (R206): its data is lost. Spill granules on it are poisoned; its store sectors read as uncorrectable from then on. -/
def State.channelFail (s : State) (ch : Nat) : State :=
  if (s.get R.CEL_STS_CH_FAIL).testBit ch then s
  else
    let s := s.put R.CEL_STS_CH_FAIL (s.get R.CEL_STS_CH_FAIL + 2 ^ ch)
    let s := s.raiseAt R.CEL_ERR_CHANNEL_FAIL none ch noTicket
    { s with vm := { s.vm with pages := tmap (fun _ p => p.channelLost ch) s.vm.pages } }

end Sys2Proof.Machine
end

