-- ==== Sys2Proof/Machine/Fabric.lean ====
section
/-!
DEFINITION. The fabric (16): links and their sequence numbers, discovery and routing, remote operations at both ends,
the pool, credits.
-/
namespace Sys2Proof.Machine

/-! ## Statuses of Table 16.5 -/

def stUnreachable : Nat := 0x40
def stRemoteProtection : Nat := 0x41
def stRemoteLost : Nat := 0x42

/-! ## A port's link -/

/-- Whether a port is in use: the fabric is enabled, the port is named in PORTS and its quadrant is powered. -/
def State.portInUse (s : State) (n : Nat) : Bool :=
  decide (n < 16) && s.get R.FAB_CTL_EN == 1 && (s.get R.FAB_CTL_PORTS).testBit n && s.powered (portDomain (4 + n))

/-- A stamp in a fabric port's time. -/
def State.ftime (s : State) (n : Nat) : Nat := s.time (4 + n)

def State.timer (s : State) (k : Nat) : Nat := tget s.fa.timers k 0
def State.setTimer (s : State) (k v : Nat) : State := { s with fa := { s.fa with timers := tset s.fa.timers k v } }

/-- A cumulative acknowledgement (R416): what was sent up to the caravan it names is kept no longer. -/
def State.acked (s : State) (n lack : Nat) : State :=
  let q := tget s.fa.unacked n []
  if q.any fun p => p.2.lseq == lack then
    { s with fa := { s.fa with unacked := tset s.fa.unacked n ((q.dropWhile fun p => p.2.lseq != lack).drop 1) } }
  else s

/-- What a caravan's arrival does to the link: its LACK is applied; it is taken only at the LSEQ the link expects, and
otherwise dropped for the partner to resend (R416). A LINK_ACK carries no LSEQ; the module's own leaves as it takes a caravan. -/
def State.linkTake (s : State) (n : Nat) (c : Car) : State × Bool :=
  let s := s.acked n c.lack
  if c.kind = 2 then (s, true)
  else
    let e := tget s.fa.rx n 0
    if c.lseq = e then
      ({ s with fa := { s.fa with rx := tset s.fa.rx n ((e + 1) % 2 ^ 32), acks := tset s.fa.acks n e } }, true)
    else (s, false)

/-- Whether a caravan is for this module: its address, the link partner's, or a group with this module among the members
of its mask. -/
def State.forMe (s : State) (c : Car) : Bool :=
  c.dst == s.ownAddr || (c.dst == linkPartner && c.cls == 0) || (isGroup c.dst && !(s.ownMembers c).isEmpty)

/-! ## Order and duplicates at the destination -/

/-- The pair of a caravan, and the pair with its class. -/
def pairKey (c : Car) : Nat := c.src * 2 ^ 20 + c.dst
def ordKey (c : Car) : Nat := pairKey c * 4 + c.cls

/-- How far one 32-bit sequence number lies behind another. -/
def behind (hi q : Nat) : Nat := (hi + 2 ^ 32 - q) % 2 ^ 32

/-- Whether a PSEQ has been taken, within the 65,536 below the highest (R417). -/
def State.psTaken (s : State) (c : Car) : Bool :=
  match tfind s.fa.taken (pairKey c) with
  | some (hi, l) => c.cls != 0 && l.contains c.pseq && decide (behind hi c.pseq ≤ 65536)
  | none => false

/-- A PSEQ recorded as taken. -/
def State.takePs (s : State) (c : Car) : State :=
  if c.cls = 0 then s else
  let old := tget s.fa.taken (pairKey c) (0, [])
  let hi := if old.2 = [] ∨ behind c.pseq old.1 < 2 ^ 31 then c.pseq else old.1
  let l := (old.2.filter fun q => decide (behind hi q ≤ 65536)) ++ [c.pseq]
  { s with fa := { s.fa with taken := tset s.fa.taken (pairKey c) (hi, l) } }

/-- Whether a caravan is of a class taken in order (R414). -/
def inOrder (c : Car) : Bool := c.cls == 1 || c.cls == 3

/-- An ordered caravan taken: its OSEQ is the last, and the one held back for the next is ready to be taken. -/
def State.takeOs (s : State) (c : Car) : State :=
  if inOrder c then
    let nxt (h : Car) : Bool := ordKey h == ordKey c && h.oseq == (c.oseq + 1) % 2 ^ 32
    { s with fa := { s.fa with
      oseqIn := tset s.fa.oseqIn (ordKey c) c.oseq
      selfIn := s.fa.selfIn ++ s.fa.held.filter nxt
      held := s.fa.held.filter fun h => !nxt h } }
  else s

/-- A caravan acted on, unless the act must wait: it then stays among those the module has yet to take. -/
def State.tryCar (s : State) (c : Car) (act : State → Car → State × Bool) : State :=
  let r := act s c
  if r.2 then
    let s := (r.1.takePs c).takeOs c
    { s with fa := { s.fa with selfIn := s.fa.selfIn.erase c } }
  else if r.1.fa.selfIn.contains c then r.1 else r.1.selfTake c

/-- A caravan taken once, ordered classes in OSEQ order (R414, R417). -/
def State.takeIn (s : State) (c : Car) (act : State → Car → State × Bool) : State :=
  let drop : State := { s with fa := { s.fa with selfIn := s.fa.selfIn.erase c } }
  if s.psTaken c then drop
  else if inOrder c then
    let e := (tget s.fa.oseqIn (ordKey c) 0 + 1) % 2 ^ 32
    if c.oseq = e then s.tryCar c act
    else if (c.oseq + 2 ^ 32 - e) % 2 ^ 32 < 2 ^ 31 then
      if s.fa.held.contains c then drop else { drop with fa := { drop.fa with held := drop.fa.held ++ [c] } }
    else drop
  else s.tryCar c act

/-- The TYPEs whose caravans access this module's memory: WRITE, WRITE_COMMIT, READ_REQ, ATOMIC and EMB. -/
def touchesMemory (kind : Nat) : Bool := [0x10, 0x11, 0x14, 0x16, 0x18].contains kind

/-- Whether a caravan is of the version and of a TYPE that the module knows (R412, Table 16.2). -/
def knownCar (c : Car) : Bool :=
  c.ver == 1 && ((decide (1 ≤ c.kind) && decide (c.kind ≤ 7)) || (decide (0x10 ≤ c.kind) && decide (c.kind ≤ 0x18)) ||
    (decide (0x20 ≤ c.kind) && decide (c.kind ≤ 0x26)))

/-- A received caravan's row: on port 0 to 15 from the wire, on 16 from those this module has yet to take. A port marked
ALIEN carries LINK_HELLO only (R410); one of another version is dropped (R412). A group's caravan leaves here for the members beyond (R426). What accesses memory waits
while MEM_REFCLK is absent (23 R556). -/
def State.carRow (s : State) (kind port : Nat) (c : Car) (act : State → Car → State × Bool) :
    Host.Outcome State Fault Refusal :=
  if 16 < port then .fault .noSuchUnit
  else if c.kind ≠ kind ∨ (touchesMemory kind ∧ s.pw.absent.contains 5) then .next s
  else if port = 16 then (if s.fa.selfIn.contains c then .next (s.takeIn c act) else .next s)
  else if !s.portInUse port then .next s
  else if !knownCar c then .next (s.raise R.FAB_ERR_FOREIGN_FRAME none)
  else if (s.get (R.FAB_PORT_STS_ALIEN port) == 1 && kind != 1) || !s.forMe c then .next s
  else
    let r := s.linkTake port c
    if r.2 then
      let s := if isGroup c.dst then r.1.copies port { c with hop := c.hop + 1 } else r.1
      .next (s.takeIn c act)
    else .next r.1

/-- The payload word of Table 16.2 by its number: one later in a group's caravan. -/
def carArg (c : Car) (i : Nat) : Nat := nw c.words (if isGroup c.dst then i + 1 else i)

/-- CARAVAN_FORWARD (R418, R425, R426): a caravan for another module leaves by its row with HOP one more; one that has no
hop left waits; one of another version, or of a reserved TYPE, is dropped (R412). -/
def execCaravanForward (port : Nat) (car : Car) (s : State) : Host.Outcome State Fault Refusal :=
  if 16 ≤ port then .fault .noSuchUnit
  else if !s.portInUse port then .next s
  else if !knownCar car then .next (s.raise R.FAB_ERR_FOREIGN_FRAME none)
  else if s.get (R.FAB_PORT_STS_ALIEN port) == 1 || s.forMe car then .next s
  else
    let r := s.linkTake port car
    if !r.2 then .next r.1
    else
      let c := { car with hop := car.hop + 1 }
      if 8 ≤ c.hop then .next (r.1.holdCar port c) else .next (r.1.route port c)

/-- LINK_ACK (R416). -/
def execLinkAck (port : Nat) (car : Car) (s : State) : Host.Outcome State Fault Refusal :=
  s.carRow 0x02 port car fun s _ => (s, true)

/-- LINK_RETRANSMIT_TIMER (R416): 2 µs without acknowledgement, every unacknowledged caravan is sent again from the oldest. -/
def execLinkRetransmitTimer (port : Nat) (s : State) : Host.Outcome State Fault Refusal :=
  if 16 ≤ port then .fault .noSuchUnit
  else match tget s.fa.unacked port [] with
    | [] => .next s
    | (st, c) :: rest =>
      if s.portInUse port ∧ st + 2000 ≤ s.ftime port then
        let q := ((st, c) :: rest).map fun p => (s.ftime port, p.2)
        let s := { s with fa := { s.fa with unacked := tset s.fa.unacked port q } }
        .next ((s.bump (R.FAB_PORT_CNT_RESENT port) q.length).raise R.FAB_ERR_RETRANSMIT none)
      else .next s

/-- FABRIC_FRAME_DROP (R408, R412): a frame that is none of the module's, or whose CRC-32C fails. -/
def execFabricFrameDrop (port : Nat) (crc : Bool) (s : State) : Host.Outcome State Fault Refusal :=
  if 16 ≤ port then .fault .noSuchUnit
  else if !s.portInUse port then .next s
  else .next (s.raise (if crc then R.FAB_ERR_E2E_CRC else R.FAB_ERR_FOREIGN_FRAME) none)

/-! ## Discovery (R421 to R424) -/

/-- The neighbours this module names in its TOPO. -/
def State.ownLinks (s : State) : List TopoLink :=
  ((List.range 16).filter s.portUp).map fun n =>
    ⟨s.get (R.FAB_PORT_STS_NBR_ADDR n), s.get (R.FAB_PORT_STS_NBR_PORT n), n, s.lanes n⟩

/-- A TOPO record's payload (Table 16.2). -/
def topoWords (origin seq : Nat) (ls : List TopoLink) : List Nat :=
  (origin + seq * 2 ^ 32) :: ls.map fun l => l.addr + l.port * 2 ^ 20 + l.lport * 2 ^ 24 + l.lanes * 2 ^ 28

/-- The neighbours a TOPO's payload names. -/
def topoLinks (ws : List Nat) : List TopoLink :=
  (ws.drop 1).map fun w => ⟨bits w 0 20, bits w 20 4, bits w 24 4, bits w 28 4⟩

/-- The ports in routing. -/
def State.upPorts (s : State) : List Nat := (List.range 16).filter s.portUp

/-- This module's TOPO flooded with TOPO_SEQ raised (R423); its tables are to be recomputed. -/
def State.flood (s : State) : State :=
  let q := (s.fa.topoSeq + 1) % 2 ^ 32
  let ls := s.ownLinks
  let s := { s with fa := { s.fa with topoSeq := q, topo := tset s.fa.topo s.ownAddr (q, ls) } }
  let s := s.upPorts.foldl (fun s n => s.sendLink n 3 (topoWords s.ownAddr q ls)) s
  s.put R.FAB_STS_RECOMPUTING 1

/-- A row without a port (R424): removed from MASK, ORD_PORT taken again from what remains. -/
def RtRow.without (r : RtRow) (n : Nat) : RtRow :=
  let m := setBits r.mask n 1 0
  { r with mask := m, ord := if r.ord = n then ((setPlaces 16 m).head?).getD 0 else r.ord }

/-- A port leaves routing (R411, R416, R424): it is removed from every MASK, and its unacknowledged caravans are sent again
through routing. -/
def State.leaveRouting (s : State) (n : Nat) : State :=
  let q := (tget s.fa.unacked n []).filter fun p => p.2.cls != 0
  let s := s.put R.FAB_STS_UP (setBits (s.get R.FAB_STS_UP) n 1 0)
  let s := { s with fa := { s.fa with unacked := tdel s.fa.unacked n, rows := tmap (fun _ r => r.without n) s.fa.rows } }
  let s := s.bump (R.FAB_PORT_CNT_RESENT n) q.length
  q.foldl (fun s p => s.route 16 p.2) s

/-- A neighbour lost (R422): LINK_DOWN, its port leaves routing, the change is flooded. -/
def State.neighbourLost (s : State) (n : Nat) : State :=
  let s := { s with fa := { s.fa with nbrs := tdel s.fa.nbrs n } }
  if s.portUp n then
    let s := (s.leaveRouting n).put (R.FAB_PORT_STS_NBR_ADDR n) 0
    let s := (s.put (R.FAB_PORT_STS_NBR_PORT n) 0).put (R.FAB_PORT_STS_TWIN_LINK n) 0
    (s.raiseAt R.FAB_ERR_LINK_DOWN none n noTicket).flood
  else s

/-- A neighbour declared (R422): the port joins routing with the neighbour's address and port. -/
def State.declareNbr (s : State) (n : Nat) (b : Nbr) : State :=
  let twin := s.get R.FAB_TWIN_TWIN != 0 && b.addr == s.get R.FAB_TWIN_TWIN
  let s := s.put (R.FAB_PORT_STS_NBR_ADDR n) b.addr
  let s := (s.put (R.FAB_PORT_STS_NBR_PORT n) b.port).put (R.FAB_PORT_STS_TWIN_LINK n) (if twin then 1 else 0)
  (s.put R.FAB_STS_UP (setBits (s.get R.FAB_STS_UP) n 1 1)).flood

/-- LINK_HELLO_TIMER (R422): every 10 µs of its time each port in use sends LINK_HELLO. -/
def execLinkHelloTimer (port : Nat) (s : State) : Host.Outcome State Fault Refusal :=
  if 16 ≤ port then .fault .noSuchUnit
  else if s.portInUse port ∧ s.get (R.FAB_PORT_STS_LINK port) = 1 ∧ s.timer (port * 4) + 10000 ≤ s.ftime port then
    let w := s.ownAddr + port * 2 ^ 20 + (if s.twinPort port then 2 ^ 24 else 0)
    .next ((s.setTimer (port * 4) (s.ftime port)).sendLink port 1 [(s.reg R.MOD_IDENT).toNat, w])
  else .next s

/-- NEIGHBOUR_TIMEOUT (R422): 100 µs without a LINK_HELLO. -/
def execNeighbourTimeout (port : Nat) (s : State) : Host.Outcome State Fault Refusal :=
  if 16 ≤ port then .fault .noSuchUnit
  else match tfind s.fa.nbrs port with
    | some b => if b.stamp + 100000 ≤ s.ftime port then .next (s.neighbourLost port) else .next s
    | none => .next s

/-- ALIEN_TIMEOUT (R410): 1 ms from lock without a LINK_HELLO. -/
def execAlienTimeout (port : Nat) (s : State) : Host.Outcome State Fault Refusal :=
  if 16 ≤ port then .fault .noSuchUnit
  else if s.portInUse port ∧ s.get (R.FAB_PORT_STS_LINK port) = 1 ∧ tfind s.fa.nbrs port = none ∧
      s.timer (port * 4 + 2) + 1000000 ≤ s.ftime port then
    .next ((s.put (R.FAB_PORT_STS_ALIEN port) 1).raise R.FAB_ERR_ALIEN none)
  else .next s

/-- TOPO (R421, R423): two modules with one address make the one of higher identity withdraw; a record with a higher
TOPO_SEQ replaces its origin's, is forwarded on every other port and starts recomputation. `ident` is the identity of
the module that sent it. -/
def execTopo (port : Nat) (car : Car) (ident : Nat) (s : State) : Host.Outcome State Fault Refusal :=
  s.carRow 0x03 port car fun s c =>
    let origin := bits (nw c.words 0) 0 20
    let q := nw c.words 0 / 2 ^ 32
    if origin = s.ownAddr then
      if ident < (s.reg R.MOD_IDENT).toNat then
        let s := { s with fa := { s.fa with withdrawn := true } }
        ((s.put R.FAB_STS_ROUTED 0).raise R.FAB_ERR_ADDR_CONFLICT none, true)
      else (s, true)
    else
      let newer : Bool := match tfind s.fa.topo origin with
        | some r => decide (r.1 < q)
        | none => true
      if newer then
        let s := { s with fa := { s.fa with topo := tset s.fa.topo origin (q, topoLinks c.words) } }
        let s := (s.upPorts.filter (· != port)).foldl (fun s n => s.sendLink n 3 c.words) s
        (s.put R.FAB_STS_RECOMPUTING 1, true)
      else (s, true)

/-- TOPO_REFRESH_TIMER (R423): every 100 ms, in the time of the port that was the reference port at the last refresh (R6). -/
def execTopoRefreshTimer (s : State) : Host.Outcome State Fault Refusal :=
  let port := s.get R.ERR_CTL_REF_PORT
  if s.get R.FAB_CTL_EN = 1 ∧ s.timer 1000 + 100000000 ≤ s.time (s.timer 1001) then
    .next (((s.setTimer 1000 (s.time port)).setTimer 1001 port).flood)
  else .next s

/-! ## Routing tables (R424) -/

/-- The modules one hop further back from a set, among TOPO records, that are not in `seen`. -/
def backStep (topo : Tab (Nat × List TopoLink)) (front seen : List Nat) : List Nat :=
  (topo.filter fun r => !seen.contains r.1 && r.2.2.any fun l => front.contains l.addr).map (·.1)

/-- The distance of each module to a destination, in at most a number of rounds. -/
def distances (topo : Tab (Nat × List TopoLink)) : Nat → Nat → List Nat → List Nat → Tab Nat
  | 0, _, _, _ => []
  | k + 1, d, front, seen =>
    if front.isEmpty then []
    else
      let nxt := backStep topo front seen
      front.foldl (fun t a => tset t a d) (distances topo k (d + 1) nxt (seen ++ nxt))

/-- The rows of a destination: HOPS, and MASK with every port on a path of that length, less the table's own port. -/
def State.rowsFor (s : State) (dst : Nat) : Tab RtRow :=
  let topo := s.fa.topo
  let ds := distances topo (topo.length + 1) 0 [dst] [dst]
  let via := s.upPorts.filterMap fun n => (tfind ds (s.get (R.FAB_PORT_STS_NBR_ADDR n))).map fun d => (n, d + 1)
  match via with
  | [] => []
  | _ =>
    let h := least (via.map (·.2))
    let mask := maskOf ((via.filter fun p => p.2 == h).map (·.1))
    (List.range 17).map fun t =>
      let m := if t < 16 then setBits mask t 1 0 else mask
      (t * 2 ^ 20 + dst, ⟨((setPlaces 16 m).head?).getD 0, true, h, m⟩)

/-- The modules known from TOPO, other than this one. -/
def State.known (s : State) : List Nat :=
  (s.fa.topo.foldl (fun acc r => (r.2.2.map (·.addr)).foldl addNew (addNew acc r.1)) []).filter (· != s.ownAddr)

/-- Whatever waited for a row, routed again. -/
def State.resendWaiting (s : State) : State :=
  let w := s.fa.waiting
  w.foldl (fun s p => s.route p.1 p.2) { s with fa := { s.fa with waiting := [] } }

/-- ROUTE_RECOMPUTE_DONE (R423, R424): the tables from the TOPO records, at most 16,384 rows each; with ROUTE_HOST 1 no row is
computed (R427). -/
def execRouteRecomputeDone (s : State) : Host.Outcome State Fault Refusal :=
  if s.get R.FAB_STS_RECOMPUTING = 0 then .next s
  else
    let s := s.put R.FAB_STS_RECOMPUTING 0
    let s := s.put R.FAB_STS_ROUTED (if s.fa.withdrawn then 0 else 1)
    if s.get R.FAB_CTL_ROUTE_HOST = 1 then .next s
    else
      let known := sortBy (fun a b => decide (a ≤ b)) s.known
      let rows := (known.take 16384).foldl (fun t d => (s.rowsFor d).foldl (fun t p => tset t p.1 p.2) t) []
      let s := { s with fa := { s.fa with rows := rows } }
      let s := if 16384 < known.length then s.raise R.FAB_ERR_TABLE_FULL none else s
      .next s.resendWaiting

/-! ## Lanes (R408, R411) -/

/-- The lane sets of the widest mode that uses no failed lane (R408). -/
def lanesAllowed (failed : Nat) : List Nat :=
  let free (m : Nat) : Bool := m &&& failed == 0
  if free 15 then [15]
  else match [3, 12].filter free with
    | [] => [1, 2, 4, 8].filter free
    | l => l

/-- LANE_FAIL (R411): the lane is stamped failed, and its port leaves routing to retrain, its meter in holdover. -/
def execLaneFail (port lane : Nat) (s : State) : Host.Outcome State Fault Refusal :=
  if 16 ≤ port ∨ 4 ≤ lane then .fault .noSuchUnit
  else if !s.portInUse port || !(s.get (R.FAB_PORT_STS_LANES port)).testBit lane then .next s
  else
    let s := s.put (R.FAB_PORT_STS_FAILED port) (setBits (s.get (R.FAB_PORT_STS_FAILED port)) lane 1 1)
    let s := (s.raiseAt R.FAB_ERR_LANE_FAIL none (port * 4 + lane) noTicket).put (R.FAB_PORT_STS_LANES port) 0
    let s := (s.put (R.FAB_PORT_STS_LINK port) 0).put (R.FAB_PORT_STS_HOLDOVER port) 1
    .next (s.leaveRouting port)

/-- A port retrained on a set of lanes (R411): RETRY lets failed lanes be tried; it rejoins routing with the neighbour it has. -/
def State.retrained (s : State) (port lanes : Nat) : State :=
  let s := if s.get (R.FAB_PORT_CTL_RETRY port) = 1
    then (s.put (R.FAB_PORT_CTL_RETRY port) 0).put (R.FAB_PORT_STS_FAILED port) (15 - lanes) else s
  let s := s.put (R.FAB_PORT_STS_LANES port) lanes
  let s := (s.put (R.FAB_PORT_STS_LINK port) 1).put (R.FAB_PORT_STS_HOLDOVER port) 0
  let s := s.put R.FAB_STS_DEGRADED (setBits (s.get R.FAB_STS_DEGRADED) port 1 (if lanes = 15 then 0 else 1))
  match tfind s.fa.nbrs port with
  | some b => if 3 ≤ b.count then s.declareNbr port b else s
  | none => s

/-- Whether a port may retrain on a set of lanes. -/
def State.mayRetrain (s : State) (port lanes : Nat) : Bool :=
  s.portInUse port && s.get (R.FAB_PORT_STS_LANES port) == 0 &&
    ((lanesAllowed (s.get (R.FAB_PORT_STS_FAILED port))).contains lanes ||
      (s.get (R.FAB_PORT_CTL_RETRY port) == 1 && [15, 3, 12, 1, 2, 4, 8].contains lanes))

/-! ## Injection windows (R419) -/

/-- The port on which a destination's echo would arrive. -/
def State.echoPort (s : State) (dst : Nat) : Nat := ((s.fa.row 16 dst).map (·.ord)).getD 0

/-- The window of a destination, and the port and the stamp of its last change (R6). -/
def State.window (s : State) (dst : Nat) : Nat × Nat × Nat := tget s.fa.inject dst (2 ^ 20, s.echoPort dst, 0)

/-- A window changed now. -/
def State.setWindow (s : State) (dst n : Nat) : State :=
  { s with fa := { s.fa with inject := tset s.fa.inject dst (n, s.echoPort dst, s.ftime (s.echoPort dst)) } }

/-- A CE echo: the window halves, to 64 KiB at least. -/
def State.echo (s : State) (c : Car) : State :=
  if c.ce then s.setWindow c.src (max 65536 ((s.window c.src).1 / 2)) else s

/-- INJECT_WINDOW_GROW (R419): 64 KiB more after each 10 µs without an echo. -/
def execInjectWindowGrow (dst : Nat) (s : State) : Host.Outcome State Fault Refusal :=
  let w := s.window dst
  if s.get R.FAB_CTL_EN = 1 ∧ w.2.2 + 10000 ≤ s.ftime w.2.1 then .next (s.setWindow dst (w.1 + 65536)) else .next s

/-! ## Remote accesses at the destination (R415, R428) -/

/-- The key of a remote address. -/
def State.remoteKey (s : State) (space ten va : Nat) : Nat :=
  match space with
  | 0 => s.dkey ten va
  | 1 => key spModule va
  | _ => key spLent va

/-- n bytes at a remote address. -/
def State.remoteRun (s : State) (space ten va : Nat) : Nat → List Byte
  | 0 => []
  | n + 1 => s.byte (s.remoteKey space ten va) :: s.remoteRun space ten (va + 1) n

/-- What the accesses of a remote operation come to: the tenancy of the same number while enabled, module-owned pages, or
frames lent to the source. -/
def State.remoteAccess (s : State) (space ten src : Nat) (rds wrs : List (Nat × Nat)) : AccRes :=
  match space with
  | 0 => if s.get (R.SCH_TEN_CTL_EN ten) = 1 then s.access .unit ten rds wrs else .prot
  | 1 => s.access .unit spModule rds wrs
  | 2 => if (rds ++ wrs).all fun r => (pagesIn r.1 r.2).all fun f => s.fa.lent.contains (f, src) then .ok else .prot
  | _ => .prot

/-- Pages that a remote or host access waits for, resolved as a translation fault (R183, R428). -/
def State.awaitPages (s : State) (ps : List Nat) : State :=
  let s := s.faulted ps
  { s with vm := { s.vm with awaited := ps.foldl addNew s.vm.awaited } }

/-- The bytes of a range of a tenancy cut at page ends, each piece at the key of the page that holds it. -/
def State.spread (s : State) (ten va : Nat) (bs : List Byte) : List (Nat × List Byte) :=
  (pagesIn va bs.length).map fun v =>
    let lo := max va (v * pageBytes)
    (s.dkey ten lo, (bs.drop (lo - va)).take ((v + 1) * pageBytes - lo))

/-- Writes that take effect as one commit of this module (R19, R430): a serial, the bytes, the readers that clash. -/
def State.commitPeer (s : State) (ws : List (Nat × List Byte)) : State :=
  let s := { s with x := { s.x with serial := s.x.serial + 1 } }
  let s := s.commitWrites ws
  s.clash (.move s.vm.nextMove) ((ws.flatMap fun w => granulesIn w.1 w.2.length).foldl addNew [])

/-- A caravan that answers another, in its class, with its CE copied (R419). -/
def State.answer (s : State) (c : Car) (kind : Nat) (words : List Nat) (data : List Byte) : State :=
  let p := s.number { s.newCar kind c.cls c.src c.ten c.space words data with ce := c.ce }
  p.1.route 16 p.2

/-- A run of bytes cut into pieces of a size, with their offsets, in at most k pieces. -/
def chunks (size : Nat) : Nat → Nat → List Byte → List (Nat × List Byte)
  | 0, _, _ => []
  | k + 1, o, bs => if bs.isEmpty then [] else (o, bs.take size) :: chunks size k (o + size) (bs.drop size)

/-- The pieces of a transfer, 4,096 bytes a caravan. -/
def carPieces (bs : List Byte) : List (Nat × List Byte) := chunks 4096 (bs.length / 4096 + 1) 0 bs

/-! ## Reads of shared pool pages by hosts and peers (02 R23) -/

/-- The parts of shared pool pages that a read by a host or a peer still lacks asked of the modules that export them, once each. -/
def State.askParts (s : State) (ten : Nat) (ps : List (Nat × Nat)) : State :=
  (ps.filter fun p => !s.fa.fetched.contains p).foldl (fun (s : State) p =>
    if s.fa.ops.any fun o => o.2.kind == 9 && o.2.arg == p.1 && o.2.total == p.2 then s else (s.askPeer noTicket 9 0 ten p).1) s

/-- Whether all of them have come, or one has been refused; the answers used up. -/
def State.partsCome (s : State) (ps : List (Nat × Nat)) : Bool := ps.all s.fa.fetched.contains
def State.partsDenied (s : State) (ps : List (Nat × Nat)) : Bool := ps.any s.fa.denied.contains
def State.useParts (s : State) (ps : List (Nat × Nat)) : State :=
  { s with fa := { s.fa with fetched := s.fa.fetched.filter (!ps.contains ·), denied := s.fa.denied.filter (!ps.contains ·) } }

/-- The shared pool parts that a remote access reads. -/
def State.remoteParts (s : State) (space ten va n : Nat) : List (Nat × Nat) :=
  match space with
  | 0 => s.poolParts .unit ten [(va, n)]
  | 1 => s.poolParts .unit spModule [(va, n)]
  | _ => []

/-- READ_REQ (R428, R429): answered with committed data once every page is reachable. -/
def execReadReq (port : Nat) (car : Car) (s : State) : Host.Outcome State Fault Refusal :=
  s.carRow 0x14 port car fun s c =>
    let va := carArg c 0
    let op := carArg c 1 % 2 ^ 32
    let n := carArg c 2 % 2 ^ 32
    let ps := s.remoteParts c.space c.ten va n
    match s.remoteAccess c.space c.ten c.src [(va, n)] [] with
    | .ok =>
      if s.partsDenied ps then ((s.useParts ps).answer c 0x15 [op + stRemoteProtection * 2 ^ 32, 0] [], true)
      else if !s.partsCome ps then (s.askParts (if c.space = 0 then c.ten else spModule) ps, false)
      else ((carPieces (s.remoteRun c.space c.ten va n)).foldl (fun s p => s.answer c 0x15 [op, p.1] p.2) (s.useParts ps), true)
    | .prot => (s.answer c 0x15 [op + stRemoteProtection * 2 ^ 32, 0] [], true)
    | .fault ps => (s.awaitPages ps, false)
    | .poison _ => (s, false)

/-- The result of an AOP (R431). -/
def atomicOp (aop old operand cmp : Nat) : Nat :=
  match aop with
  | 0 => (old + operand) % 2 ^ 64
  | 1 => operand
  | 2 => if old = cmp then operand else old
  | 3 => max old operand
  | 4 => min old operand
  | 5 => old ||| operand
  | _ => old &&& operand

/-- ATOMIC (R428, R431): one commit at the home, answered with the old value. -/
def execAtomic (port : Nat) (car : Car) (s : State) : Host.Outcome State Fault Refusal :=
  s.carRow 0x16 port car fun s c =>
    let va := carArg c 0
    let op := carArg c 1 % 2 ^ 32
    match s.remoteAccess c.space c.ten c.src [(va, 8)] [(va, 8)] with
    | .ok =>
      let old := ofLe (s.remoteRun c.space c.ten va 8)
      let new := atomicOp (bits (carArg c 1) 32 4) old (carArg c 2) (carArg c 3)
      ((s.commitPeer [(s.remoteKey c.space c.ten va, leBytes 8 new)]).answer c 0x17 [op, old] [], true)
    | .prot => (s.answer c 0x17 [op + stRemoteProtection * 2 ^ 32, 0] [], true)
    | .fault ps => (s.awaitPages ps, false)
    | .poison _ => (s, false)

/-! ## Staged writes and emitted messages (R430, R432) -/

/-- The staging area, 256 MiB. -/
def stagingBytes : Nat := 268435456

/-- The bytes staged. -/
def State.stagedBytes (s : State) : Nat :=
  lsum ((s.fa.staged ++ s.fa.emits).map fun w => lsum (w.pieces.map fun p => p.2.length))

def Staged.matches (w : Staged) (src op : Nat) : Bool := w.src == src && w.op == op

/-- A staged write or message of a list without one of a source and OP_ID. -/
def dropStaged (l : List Staged) (src op : Nat) : List Staged := l.filter fun w => !(w.src == src && w.op == op)

/-- The write a caravan belongs to, with the caravan's piece added. -/
def State.stagedWith (s : State) (c : Car) (emit : Bool) (op : Nat) : Staged :=
  let l := if emit then s.fa.emits else s.fa.staged
  let old := (l.find? fun w => w.src == c.src && w.op == op).getD ⟨c.src, op, c.ten, c.space, false, []⟩
  { old with ce := old.ce || c.ce, pieces := old.pieces ++ [(carArg c 0, c.data)] }

/-- The ranges and the keyed bytes of a staged write. -/
def stagedRanges (w : Staged) : List (Nat × Nat) := w.pieces.map fun p => (p.1, p.2.length)
def State.stagedWrites (s : State) (w : Staged) : List (Nat × List Byte) :=
  w.pieces.map fun p => (s.remoteKey w.space w.ten p.1, p.2)

/-- A staged write kept. -/
def State.keepStaged (s : State) (emit : Bool) (w : Staged) : State :=
  if emit then { s with fa := { s.fa with emits := dropStaged s.fa.emits w.src w.op ++ [w] } }
  else { s with fa := { s.fa with staged := dropStaged s.fa.staged w.src w.op ++ [w] } }

/-- A staged write freed. -/
def State.freeStaged (s : State) (emit : Bool) (src op : Nat) : State :=
  if emit then { s with fa := { s.fa with emits := dropStaged s.fa.emits src op } }
  else { s with fa := { s.fa with staged := dropStaged s.fa.staged src op } }

/-- WRITE (R428, R430, R432): staged, and acknowledged once the last is; an emitted message takes effect whole with its last
caravan. `last` says that all the others have arrived. -/
def execWrite (port : Nat) (car : Car) (last : Bool) (s : State) : Host.Outcome State Fault Refusal :=
  s.carRow 0x10 port car fun s c =>
    let op := carArg c 1 % 2 ^ 32
    let emit := (carArg c 1).testBit 32
    if stagingBytes < s.stagedBytes + c.data.length then (s, false)
    else
      let w := s.stagedWith c emit op
      if !last then (s.keepStaged emit w, true)
      else match s.remoteAccess w.space w.ten w.src [] (stagedRanges w), emit with
        | .prot, true => (s.freeStaged true w.src op, true)
        | .prot, false => ((s.freeStaged false w.src op).answer { c with ce := w.ce } 0x13 [op + stRemoteProtection * 2 ^ 32] [], true)
        | .fault ps, _ => (s.awaitPages ps, false)
        | _, true => ((s.freeStaged true w.src op).commitPeer (s.stagedWrites w), true)
        | _, false => ((s.keepStaged false w).answer { c with ce := w.ce } 0x13 [op] [], true)

/-- WRITE_COMMIT (R430): the staged data applied as one commit. -/
def execWriteCommit (port : Nat) (car : Car) (s : State) : Host.Outcome State Fault Refusal :=
  s.carRow 0x11 port car fun s c =>
    let op := carArg c 0 % 2 ^ 32
    match s.fa.staged.find? fun w => w.src == c.src && w.op == op with
    | none => (s, true)
    | some w =>
      match s.remoteAccess w.space w.ten w.src [] (stagedRanges w) with
      | .fault ps => (s.awaitPages ps, false)
      | .prot => (s.freeStaged false w.src op, true)
      | _ => ((s.freeStaged false w.src op).commitPeer (s.stagedWrites w), true)

/-- WRITE_DISCARD (R430). -/
def execWriteDiscard (port : Nat) (car : Car) (s : State) : Host.Outcome State Fault Refusal :=
  s.carRow 0x12 port car fun s c => (s.freeStaged false c.src (carArg c 0 % 2 ^ 32), true)

/-! ## The issuing side (R429 to R433) -/

def State.dropOp (s : State) (id : Nat) : State := { s with fa := { s.fa with ops := tdel s.fa.ops id } }

/-- Whether the command of a ticket waits for a peer. -/
def State.remoteBusy (s : State) (t : Nat) : Bool := s.fa.ops.any fun p => p.2.ticket == t

/-- What a running command of a ticket has made ready. -/
def State.setDone (s : State) (t : Nat) (d : Done) : State :=
  match s.cmd t with
  | some c => s.setCmd t { c with done := some d }
  | none => s

/-- The operands of Table 16.4. -/
def faDst (c : Cmd) : Nat := bits (c.body 0) 0 20
def faCls (c : Cmd) : Nat := if (c.body 0).testBit 20 then 1 else 2
def faSpace (c : Cmd) : Nat := bits (c.body 0) 21 2
def faBytes (c : Cmd) : Nat := bits (c.body 3) 0 27

/-- The accesses of a command that starts a remote operation: heat and tracking as for any command, and the command stays
Running with what `go` registers and sends. While MEM_REFCLK is absent, accesses wait (23 R556). -/
def State.startRemote (s : State) (t : Nat) (c : Cmd) (rds wrs : List (Nat × Nat)) (go : State → State) :
    Host.Outcome State Fault Refusal :=
  let parts := s.toFetch c .unit [] rds
  if s.pw.absent.contains 5 then .next s
  else if parts ≠ [] then .next (s.fetchAll t c parts)
  else match s.access .unit c.ten rds wrs with
  | .ok =>
    let gr := s.granules c.ten rds
    let s := s.accessHeat ((gr ++ s.granules c.ten wrs).foldl addNew []) (s.homeLines c.ten (rds ++ wrs))
    .next (go (s.setCmd t { c with reads := s.localGranules gr, far := s.farGranules gr, pages := s.pageKeys c.ten (rds ++ wrs) }))
  | r => .next ((s.tried .unit c.ten [] rds).accStop t c r)

/-- The row of a fabric command: fields, reach of the destination (R418), then its start. -/
def State.fabRow (s : State) (t op : Nat) (bad : Cmd → Bool) (go : Cmd → Nat → Host.Outcome State Fault Refusal) :
    Host.Outcome State Fault Refusal :=
  match s.cmd t with
  | none => .next s
  | some c =>
    if c.st = .running ∧ c.done = none ∧ dClass c.words = 0x0A ∧ dOp c.words = op ∧ s.remoteBusy t = false then
      if isGroup (faDst c) || faSpace c == 3 || bad c then .next (s.setDone t ⟨stBadField, [], []⟩)
      else if !s.reachable (faDst c) then
        let far : Bool := match s.hopsTo (faDst c) with
          | some h => decide (8 < h)
          | none => false
        .next ((if far then s.raiseAt R.FAB_ERR_HOP_LIMIT (some c.ten) (faDst c) t else s).setDone t ⟨stUnreachable, [], []⟩)
      else go c ((s.hopsTo (faDst c)).getD 0)
    else .next s

/-- Whether BYTES is outside 4 to 92,800,000 or no multiple of 4. -/
def faBytesBad (c : Cmd) : Bool := decide (faBytes c < 4) || decide (cartMax < faBytes c) || faBytes c % 4 != 0

/-- FAB_READ (R429, R433). -/
def execFabRead (t : Nat) (s : State) : Host.Outcome State Fault Refusal :=
  s.fabRow t 1 faBytesBad fun c hops =>
    s.startRemote t c [] [(c.body 2, faBytes c)] fun s =>
      let r := s.addOp ⟨t, 1, faDst c, hops, 0, faBytes c, []⟩
      r.1.sendCar 0x14 (faCls c) (faDst c) c.ten (faSpace c) [c.body 1, r.2, faBytes c] []

/-- FAB_WRITE (R430, R433). -/
def execFabWrite (t : Nat) (s : State) : Host.Outcome State Fault Refusal :=
  s.fabRow t 2 faBytesBad fun c hops =>
    s.startRemote t c [(c.body 2, faBytes c)] [] fun s =>
      let r := s.addOp ⟨t, 2, faDst c, hops, 0, faBytes c, []⟩
      (carPieces (s.vrun c.ten (c.body 2) (faBytes c))).foldl (fun s p =>
        s.sendCar 0x10 (faCls c) (faDst c) c.ten (faSpace c) [c.body 1 + p.1, r.2] p.2) r.1

/-- FAB_ATOMIC (R431, R433): made ready to leave; the caravan leaves at the start point. -/
def execFabAtomic (t : Nat) (s : State) : Host.Outcome State Fault Refusal :=
  s.fabRow t 3 (fun c => decide (6 < bits (c.body 0) 24 4) || c.body 1 % 8 != 0) fun c hops =>
    let r := s.addOp ⟨t, 3, faDst c, hops, 0, 8, []⟩
    let w := [c.body 1, r.2 + bits (c.body 0) 24 4 * 2 ^ 32, c.body 2, c.body 3]
    .next (r.1.setDone t ⟨stDone, [], [.send none (r.1.newCar 0x16 (faCls c) (faDst c) c.ten (faSpace c) w [])]⟩)

/-- The most bytes of a `net.emit` on a host port and on a fabric port (R36). -/
def emitMax (host : Bool) : Nat := if host then 1000000 else 4000000

/-- The caravans of a `net.emit` to a module or a group. -/
def State.emitCars (s : State) (c : Cmd) (op : Nat) (bs : List Byte) : List Car :=
  (carPieces bs).map fun p =>
    let w := [c.body 1 + p.1, op + 2 ^ 32]
    let g := faDst c - groupBase
    s.newCar 0x10 (faCls c) (faDst c) c.ten 0 (if isGroup (faDst c) then (2 ^ s.groupCount g - 1) :: w else w) p.2

/-- NET_EMIT (R432, R433, R437): a message to a host pair of the queue's port, or caravans to a module or a group, made ready
to leave at the start point. -/
def execNetEmit (t : Nat) (s : State) : Host.Outcome State Fault Refusal :=
  s.opRow t 0x07 0x01 .unit fun c =>
    let n := faBytes c
    let bs := s.vrun c.ten (c.body 2) n
    if emitMax (decide (c.unit < 4)) < n then .refuse stLength
    else if c.unit < 4 then
      let q := bits (c.body 0) 0 10
      if q / 256 ≠ c.unit ∨ s.get (R.HST_QP_STATE c.unit (q % 256)) ≠ 2 ∨ s.get (R.HST_QP_ROLE c.unit (q % 256)) ≠ 0 ∨
          s.get (R.HST_QP_TEN c.unit (q % 256)) ≠ c.ten then .refuse stBadField
      else .go [(c.body 2, n)] [] ⟨stDone, [n, 1], [.msg q (wordsOf (ceilDiv n 8) bs)]⟩
    else if (isGroup (faDst c) && s.groupCount (faDst c - groupBase) == 0) || (!isGroup (faDst c) && !s.reachable (faDst c)) then
      .refuse stUnreachable
    else
      let cars := s.emitCars c (t % 2 ^ 32) bs
      .go [(c.body 2, n)] [] ⟨stDone, [n, cars.length], cars.map (.send (some (c.unit - 4)))⟩

/-- The operation an answer names, from the module it went to. -/
def State.opFor (s : State) (c : Car) (kind : Nat) : Option (Nat × RemoteOp) :=
  let id := carArg c 0 % 2 ^ 32
  match tfind s.fa.ops id with
  | some o => if o.kind = kind ∧ o.dst = c.src then some (id, o) else none
  | none => none

/-- The status of an answer. -/
def carStatus (c : Car) : Nat := bits (carArg c 0) 32 8

/-- WRITE_ACK (R430): the write is Ready; its WRITE_COMMIT leaves at its commit. -/
def execWriteAck (port : Nat) (car : Car) (s : State) : Host.Outcome State Fault Refusal :=
  s.carRow 0x13 port car fun s c =>
    let s := s.echo c
    match s.opFor c 2 with
    | none => (s, true)
    | some (id, o) =>
      let commit := Effect.send none (s.newCar 0x11 1 o.dst c.ten c.space [id] [])
      if carStatus c = 0 then (s.setDone o.ticket ⟨stDone, [o.total, o.hops], [commit]⟩, true)
      else ((s.dropOp id).setDone o.ticket ⟨carStatus c, [], []⟩, true)

/-- The old value of an atomic taken (R431): the command is complete. -/
def State.atomicDone (s : State) (id : Nat) (o : RemoteOp) (status old : Nat) : State :=
  let s := s.dropOp id
  match s.cmd o.ticket with
  | some k => s.setCmd o.ticket { k with done := some ⟨status, [old, o.hops], []⟩, nkDone := true }
  | none => s

/-- ATOMIC_RESP (R431). -/
def execAtomicResp (port : Nat) (car : Car) (s : State) : Host.Outcome State Fault Refusal :=
  s.carRow 0x17 port car fun s c =>
    let s := s.echo c
    match s.opFor c 3 with
    | none => (s, true)
    | some (id, o) => (s.atomicDone id o (carStatus c) (carArg c 1), true)

/-- A peer declared lost (R430, R431, R435, R452): what waits for it ends, its staged writes are freed, its lent frames gone. -/
def State.peerLost (s : State) (addr : Nat) : State :=
  let s := s.fa.ops.foldl (fun s p =>
    if p.2.dst ≠ addr then s
    else match p.2.kind with
      | 1 | 2 | 5 => (s.dropOp p.1).setDone p.2.ticket ⟨stRemoteLost, [], []⟩
      | 3 => s.atomicDone p.1 p.2 stRemoteLost (2 ^ 64 - 1)
      | 4 =>
        let s := (s.dropOp p.1).raiseAt R.EMB_ERR_ADD_LOST ((s.cmd p.2.ticket).map (·.ten)) addr p.2.ticket
        match s.cmd p.2.ticket with
        | some k => s.setCmd p.2.ticket { k with done := some ⟨0x46, [], []⟩, nkDone := true }
        | none => s
      | _ => s.dropOp p.1) s
  let s := { s with fa := { s.fa with
    staged := s.fa.staged.filter (fun w => w.src != addr)
    emits := s.fa.emits.filter (fun w => w.src != addr)
    credits := tfilter (fun k _ => k % 2 ^ 20 != addr) s.fa.credits
    lost := addNew s.fa.lost addr } }
  let gone := s.vm.pages.filter fun p => p.2.st == 4 && p.2.frame / 2 ^ 20 == addr
  if gone.isEmpty then s
  else
    let s := gone.foldl (fun s p => s.setPage p.1 { p.2 with poison := 2 ^ 32 - 1 }) s
    (s.raiseAt R.MEM_ERR_POOL_LOST none addr noTicket).raiseAt R.FAB_ERR_LENDER_LOST none addr noTicket

/-! ## The pool (R434, R435) -/

/-- POOL_FRAME_REQUEST (R434): a lender with a frame to offer lends one that is free. -/
def execPoolFrameRequest (borrower frame : Nat) (s : State) : Host.Outcome State Fault Refusal :=
  if s.get R.FAB_CTL_EN = 1 ∧ s.fa.lent.length < s.get R.FAB_LEND_OFFER ∧ s.frameFree frame = true then
    .next { s with fa := { s.fa with lent := s.fa.lent ++ [(frame, borrower)] } }
  else .next s

/-- POOL_FRAME_RECALL (R435): the borrower moves the page of a lent frame (lender * 2^20 + frame) to another lender, or into its
own granary whatever its quotas. -/
def execPoolFrameRecall (frame toSt toFrame : Nat) (s : State) : Host.Outcome State Fault Refusal :=
  match s.vm.pages.find? fun p => p.2.st == 4 && p.2.frame == frame with
  | none => .next s
  | some (pk, p) =>
    let busy := s.vm.moves.any fun m => m.2.page == pk
    let there := (toSt == 1 && s.frameFree toFrame) ||
      (toSt == 4 && toFrame / 2 ^ 20 != frame / 2 ^ 20 && s.targetOk pk p 4 toFrame)
    if s.get R.MEM_CTL_EN = 1 ∧ busy = false ∧ there = true then
      .next (s.startMove ⟨pk, none, toSt, toFrame, decide (toSt = 1), .running, .recall, moveDie p toSt toFrame⟩)
    else .next s

/-- POOL_FRAME_RETURN (R435): the lender has its frame back. -/
def execPoolFrameReturn (borrower frame : Nat) (s : State) : Host.Outcome State Fault Refusal :=
  if s.fa.lent.contains (frame, borrower) then
    let s := s.clearRun (key spLent (frame * pageBytes)) pageBytes
    .next ({ s with fa := { s.fa with lent := s.fa.lent.erase (frame, borrower), recalls := s.fa.recalls.erase frame } } : State).settleRepairs
  else .next s

/-- The frames recalled when OFFER falls below those lent: in descending index (R435). -/
def State.recallFrames (s : State) : State :=
  let n := s.fa.lent.length - s.get R.FAB_LEND_OFFER
  if n = 0 then s
  else
    let fs := (sortBy (fun a b => decide (b ≤ a)) (s.fa.lent.map (·.1))).take n
    { s with fa := { s.fa with recalls := fs.foldl addNew s.fa.recalls } }.raise R.FAB_ERR_RECALL none

/-! ## Pipelines and credits (R437, R438) -/

/-- The stages of the module's pipeline, in order: the module alone without a table. -/
def State.stages (s : State) : List Nat :=
  let a := s.get R.FAB_PIPE_PIPE_ADDR
  if a = 0 then [s.ownAddr]
  else (List.range (bits (s.word (key spModule a)) 0 5)).map fun i => bits (ofLe (s.run (key spModule (a + 8 + 4 * i)) 4)) 0 20

/-- The place of an address among the stages. -/
def State.stageOf (s : State) (addr : Nat) : Option Nat := s.stages.findIdx? (· == addr)

/-- The share of the module at stage i: KV_PAGES split equally, the remainder to the lowest stage. -/
def State.kvShare (s : State) (pages i : Nat) : Nat :=
  let n := s.stages.length
  if n = 0 then 0 else pages / n + (if i = 0 then pages % n else 0)

/-- The credits a stage module sends for a tenancy, its own share taken up at once (R438). -/
def State.sendCredits (s : State) (ten : Nat) : State :=
  let pages := s.get (R.SCH_TEN_LIMITS_KV_PAGES ten)
  (s.stages.zipIdx).foldl (fun s p =>
    let share := s.kvShare pages p.2
    if p.1 = s.ownAddr then
      let old := tget s.fa.credits (ten * 2 ^ 20 + p.1) (0, 0)
      { s with fa := { s.fa with credits := tset s.fa.credits (ten * 2 ^ 20 + p.1) (share, old.2) } }
    else s.sendCar 0x04 0 p.1 ten 0 [ten + share * 2 ^ 32] []) s

/-- CREDIT (R438): the share a stage grants. -/
def execCredit (port : Nat) (car : Car) (s : State) : Host.Outcome State Fault Refusal :=
  s.carRow 0x04 port car fun s c =>
    let k := bits (carArg c 0) 0 6 * 2 ^ 20 + c.src
    let old := tget s.fa.credits k (0, 0)
    ({ s with fa := { s.fa with credits := tset s.fa.credits k (carArg c 0 / 2 ^ 32, old.2) } }, true)

/-! ## Line locks (02 R41) -/

/-- A port's lock (R41): its meter goes on without a step; a host port's loss is LINK_DOWN. -/
def State.setLock (s : State) (port : Nat) (on : Bool) : State :=
  let l := if on then addNew s.pt.locked port else s.pt.locked.erase port
  let s := { s with pt := { s.pt with locked := l } }
  let v : Nat := if on then 1 else 0
  if port < 4 then
    let s := (s.put (R.HST_STS_LINK port) v).put (R.HST_STS_HOLDOVER port) (1 - v)
    if on then s else s.raise (R.HST_ERR_LINK_DOWN port) none
  else
    let n := port - 4
    let s := (s.put (R.FAB_PORT_STS_LINK n) v).put (R.FAB_PORT_STS_HOLDOVER n) (1 - v)
    if on then
      let s := (s.put (R.FAB_PORT_STS_ALIEN n) 0).setTimer (n * 4 + 2) (s.ftime n)
      if s.lanes n == 0 then s.put (R.FAB_PORT_STS_LANES n) ((lanesAllowed (s.get (R.FAB_PORT_STS_FAILED n))).head?.getD 0) else s
    else s

/-- PCS_LOCK_LOST (R41). -/
def execPcsLockLost (port : Nat) (s : State) : Host.Outcome State Fault Refusal :=
  if 20 ≤ port then .fault .noSuchUnit
  else if s.pt.locked.contains port then .next (s.setLock port false) else .next s

end Sys2Proof.Machine
end

