-- ==== Sys2Proof/Machine/Emb.lean ====
section
/-!
DEFINITION. Embedding tables (17): row formats, homes, the row cache, gathers, adds and swaps.
-/
namespace Sys2Proof.Machine

/-! ## Rows (R444, R445) -/

/-- The code width of a table. -/
def EmbDesc.codeBits (d : EmbDesc) : Nat := if d.nibbles then 4 else 8

/-- The row stride S. -/
def EmbDesc.stride (d : EmbDesc) : Nat := 64 * ceilDiv (8 + d.dim * d.codeBits / 8) 64

/-- The home of a row and its address there (R447). -/
def EmbDesc.home (d : EmbDesc) (row : Nat) : Nat := nw d.homes (row / d.per)
def EmbDesc.addr (d : EmbDesc) (row : Nat) : Nat := d.base + row % d.per * d.stride

/-- The codes of a row's bytes. -/
def EmbDesc.codes (d : EmbDesc) (bs : List Byte) : List Nat :=
  (List.range d.dim).map fun i =>
    if d.nibbles then bits (bs[8 + i / 2]?.getD 0).toNat (4 * (i % 2)) 4 else (bs[8 + i]?.getD 0).toNat

/-- The decoded elements of a row (R444): FP32. -/
def EmbDesc.decode (d : EmbDesc) (bs : List Byte) : List FVal :=
  let scale := decodeF .fp32 (ofLe (bs.take 4))
  let off := decodeF .fp32 (ofLe ((bs.drop 4).take 4))
  (d.codes bs).map fun (c : Nat) => decodeF .fp32 (roundF .fp32 false (fadd off (fmul scale (ofInteger c))))

/-- p / q to the nearest integer, ties to even. -/
def nearestDiv (p q : Nat) : Nat :=
  let k := p / q
  let r := p % q
  if q < 2 * r then k + 1 else if 2 * r = q then k + k % 2 else k

/-- The magnitude and exponent of a finite value. -/
def finParts : FVal → Option (Nat × Int)
  | .fin _ m e => some (m, e)
  | _ => none

/-- The code of a difference above the row's least element (R445): v - m over SCALE', nearest, at most N. -/
def codeOf (diff scale : FVal) (top : Nat) : Nat :=
  match finParts diff, finParts scale with
  | some (p, e), some (q, f) =>
    if q = 0 then 0 else
    let t := min e f
    min top (nearestDiv (p * 2 ^ (e - t).toNat) (q * 2 ^ (f - t).toNat))
  | _, _ => 0

/-- The bytes of a list of codes. -/
def EmbDesc.pack (d : EmbDesc) (cs : List Nat) : List Byte :=
  if d.nibbles then (List.range (d.dim / 2)).map fun i => BitVec.ofNat 8 (nw cs (2 * i) % 16 + nw cs (2 * i + 1) % 16 * 16)
  else cs.map fun c => BitVec.ofNat 8 c

/-- The largest finite FP32 magnitude (R445). -/
def fp32Max : FVal := .fin false (2 ^ 24 - 1) 104

/-- A sum of R445 in FP32, saturated, and whether it was. -/
def addSat (x delta : FVal) : FVal × Bool :=
  let v := decodeF .fp32 (roundF .fp32 false (fadd x delta))
  match fadd x delta, v with
  | .fin n _ _, .inf _ => (if n then fneg fp32Max else fp32Max, true)
  | _, _ => (v, false)

/-- An add's re-encoded row (R445): its bytes (header and codes) and its saturated elements; none where an element is not
finite, for which the spec states no result. -/
def EmbDesc.add (d : EmbDesc) (bs : List Byte) (deltas : List FVal) : Option (List Byte × Nat) :=
  let vs := (List.zip (d.decode bs) deltas).map fun p => addSat p.1 p.2
  if vs.any fun v => (finParts v.1).isNone then none
  else
    let top : Nat := 2 ^ d.codeBits - 1
    let lo := (vs.map (·.1)).foldl fmin ((vs.map (·.1)).head?.getD (.fin false 0 0))
    let hi := (vs.map (·.1)).foldl fmax ((vs.map (·.1)).head?.getD (.fin false 0 0))
    let scale := divF .fp32 (fsub hi lo) (ofInteger top)
    let cs := vs.map fun v => codeOf (fsub v.1 lo) (decodeF .fp32 scale) top
    some (leBytes 4 scale ++ leBytes 4 (roundF .fp32 false lo) ++ d.pack cs, (vs.filter (·.2)).length)

/-! ## Descriptors (R446) -/

/-- A descriptor read from words and a home list. -/
def embDesc (w : List Nat) (homes : List Nat) : EmbDesc :=
  ⟨(nw w 0).testBit 8, bits (nw w 0) 9 13, bits (nw w 1) 0 33, bits (nw w 2) 0 33, nw w 3, homes⟩

/-- The homes of a descriptor's first word. -/
def descHomes (w0 : Nat) : Nat := bits w0 22 7

/-- The descriptor at an address of a tenancy. -/
def State.descAt (s : State) (ten va : Nat) : EmbDesc :=
  let w := s.vwords ten va 8
  embDesc w ((List.range (descHomes (nw w 0))).map fun h => bits (ofLe (s.vrun ten (va + 64 + 4 * h) 4)) 0 20)

/-- Whether a descriptor obeys R446. -/
def State.descOk (s : State) (ten va : Nat) : Bool :=
  let w0 := s.vword ten va
  let d := s.descAt ten va
  va % 64 == 0 && bits w0 0 8 == 1 && decide (16 ≤ d.dim) && decide (d.dim ≤ 4096) && d.dim % 16 == 0 &&
    decide (1 ≤ descHomes w0) && decide (descHomes w0 ≤ 64) && decide (1 ≤ d.rows) && decide (d.rows ≤ 2 ^ 32) &&
    decide (1 ≤ d.per) && decide (d.per ≤ 2 ^ 32) && decide (d.rows ≤ descHomes w0 * d.per) && d.base % 64 == 0

/-- The bytes a descriptor takes. -/
def State.descLen (s : State) (ten va : Nat) : Nat := 64 + 4 * descHomes (s.vword ten va)

/-- The key of a version's descriptor, and the descriptor. -/
def descKey (table version : Nat) : Nat := table * 2 ^ 32 + version
def State.embDescOf (s : State) (table version : Nat) : Option EmbDesc := tfind s.em.descs (descKey table version)

/-- Statuses of Table 17.4. -/
def stRowRange : Nat := 0x40
def stTableOff : Nat := 0x41
def stTableDenied : Nat := 0x42
def stAddOff : Nat := 0x43
def stDeltaNan : Nat := 0x44
def stEmbDesc : Nat := 0x45

/-- The refusals of a table for a tenancy's command. -/
def State.tableBad (s : State) (table ten : Nat) : Option Nat :=
  if s.get (R.EMB_TAB_CTL_EN table) = 0 then some stTableOff
  else if s.get (R.EMB_TAB_CTL_TEN table) ≠ ten then some stTableDenied
  else none

/-! ## The row cache (R448, R449) -/

/-- The key of a row of a version. -/
def rowKey (table version row : Nat) : Nat := table * 2 ^ 64 + version * 2 ^ 32 + row

/-- The place of a key in row r of the sketch, its counter, and a key's estimate. -/
def sketchIx (r k : Nat) : Nat := r * 65536 + Config.embHash r k % 65536
def State.estimate (s : State) (k : Nat) : Nat := least ((List.range 4).map fun r => tget s.em.sketch (sketchIx r k) 0)

/-- A look-up counted in the sketch, whose counters are halved after every 2^AGE_SHIFT. -/
def State.countLookup (s : State) (k : Nat) : State :=
  let sk := (List.range 4).foldl (fun t r => tset t (sketchIx r k) (min 15 (tget t (sketchIx r k) 0 + 1))) s.em.sketch
  let n := s.em.lookups + 1
  if 2 ^ s.get R.EMB_CTL_AGE_SHIFT ≤ n then { s with em := { s.em with sketch := tmap (fun _ c => c / 2) sk, lookups := 0 } }
  else { s with em := { s.em with sketch := sk, lookups := n } }

/-- The sets of the cache; none while it is off. -/
def State.embSets (s : State) : Nat :=
  if s.get R.EMB_CTL_CACHE_EN = 1 ∧ 0 < s.get R.EMB_CTL_CACHE_GRANULES then Config.embSets (s.get R.EMB_CTL_CACHE_GRANULES) else 0

/-- Whether a row may be cached here: a table with ADD_EN only on its home. -/
def State.cacheable (s : State) (table : Nat) (d : EmbDesc) (row : Nat) : Bool :=
  decide (0 < s.embSets) && (s.get (R.EMB_TAB_CTL_ADD_EN table) == 0 || d.home row == s.ownAddr)

/-- The first entry of a key's set. -/
def State.setBase (s : State) (k : Nat) : Nat := Config.embSet s.embSets k % s.embSets * 16

/-- The cached bytes of a key. -/
def State.cached (s : State) (k : Nat) : Option (List Byte) :=
  if s.embSets = 0 then none
  else ((upto (s.setBase k) 16).findSome? fun i => (tfind s.em.cache i).bind fun e => if e.1 = k then some e.2 else none)

/-- The victim way of a key's set: the way of least estimate, an empty way first, ties to the lower. -/
def State.victim (s : State) (k : Nat) : Nat × Option Nat :=
  let ws := (upto (s.setBase k) 16).map fun i => (i, (tfind s.em.cache i).map fun e => s.estimate e.1)
  let val : Nat × Option Nat → Nat := fun w => match w.2 with
    | some e => e + 1
    | none => 0
  (ws.foldl (fun b w => if val w < val b then w else b) (ws.head?.getD (0, none)))

/-- A row that missed, admitted when its estimate exceeds its victim's. -/
def State.admitRow (s : State) (k : Nat) (bs : List Byte) : State :=
  let v := s.victim k
  let room : Bool := match v.2 with
    | some e => decide (e < s.estimate k)
    | none => true
  if room then { s with em := { s.em with cache := tset s.em.cache v.1 (k, bs) } } else s

/-- A look-up of a row: hit or miss, counted. -/
def State.lookup (s : State) (table version : Nat) (d : EmbDesc) (row : Nat) : State × Bool :=
  if !s.cacheable table d row then (s, false)
  else
    let k := rowKey table version row
    let s := s.countLookup k
    if (s.cached k).isSome then (s.bump R.EMB_CNT_HITS 1, true)
    else
      let s := s.bump R.EMB_CNT_MISSES 1
      (if d.home row = s.ownAddr then s.admitRow k [] else s, false)

/-! ## emb.gather (R451) -/

/-- The row numbers of a gather. -/
def State.gatherIds (s : State) (c : Cmd) (n : Nat) : List Nat :=
  (List.range n).map fun i => ofLe (s.vrun c.ten (c.body 1 + 4 * i) 4)

/-- The bytes of a row: its home's here, the cache's, or those an answer brought. -/
def State.rowBytes (s : State) (c : Cmd) (t : Nat) (d : EmbDesc) (table row : Nat) : List Byte :=
  if d.home row = s.ownAddr then s.vrun c.ten (d.addr row) d.stride
  else
    match s.fa.ops.find? fun p => p.2.ticket == t && p.2.kind == 5 && p.2.arg == row with
    | some p => (sortBy (fun a b => decide (a.1 ≤ b.1)) p.2.got).flatMap (·.2)
    | none => (s.cached (rowKey table c.snap row)).getD []

/-- The remote rows of a gather sought: a row in the cache is taken from it, any other is read at its home (R447). -/
def State.seekRow (s : State) (t : Nat) (c : Cmd) (d : EmbDesc) (table hits row : Nat) : State :=
  match s.cached (rowKey table c.snap row) with
  | some bs => (s.addOp ⟨t, 5, d.home row, hits, row, d.stride, [(0, bs)]⟩).1
  | none =>
    let o := s.addOp ⟨t, 5, d.home row, hits, row, d.stride, []⟩
    o.1.sendCar 0x14 1 (d.home row) c.ten 0 [d.addr row, o.2, d.stride] []

/-- FP32 values as an output row of OUT 0 (FP32) or 1 (BF16, 03 R69). -/
def outRow (out : Nat) (vs : List FVal) : List Byte :=
  vs.flatMap fun v => if out = 1 then leBytes 2 (roundF .bf16 false v) else leBytes 4 (roundF .fp32 false v)

/-- The output of a gather, from the rows' bytes. -/
def gatherOut (d : EmbDesc) (out : Nat) (sum : Bool) (rows : List (List Byte)) : List Byte :=
  if sum then
    let start := List.replicate d.dim (FVal.fin false 0 0)
    let add (a : List FVal) (r : List Byte) := List.zipWith (fun x y => decodeF .fp32 (roundF .fp32 false (fadd x y))) a (d.decode r)
    outRow out (rows.foldl add start)
  else rows.flatMap fun r => if out = 2 then r else outRow out (d.decode r)

/-- The bytes a gather writes. -/
def gatherLen (d : EmbDesc) (out : Nat) (sum : Bool) (n : Nat) : Nat :=
  let p := if out = 0 then d.dim * 4 else if out = 1 then d.dim * 2 else d.stride
  if sum then p else n * p

/-- A gather whose rows have all come: its writes, and remote rows offered to the cache. -/
def State.gatherFinish (s : State) (t : Nat) (hits : Nat) : State :=
  match s.cmd t with
  | none => s
  | some c =>
    let table := bits (c.body 0) 0 5
    match s.embDescOf table c.snap with
    | none => s
    | some d =>
      let n := bits (c.body 2) 0 17
      let ids := s.gatherIds c n
      let rows := ids.map fun r => s.rowBytes c t d table r
      let data := gatherOut d (bits (c.body 0) 5 2) ((c.body 0).testBit 7) rows
      let far := (ids.filter fun r => d.home r != s.ownAddr).length
      let s' := (List.zip ids rows).foldl (fun st p =>
        if d.home p.1 != st.ownAddr && st.cacheable table d p.1 && (st.cached (rowKey table c.snap p.1)).isNone
        then st.admitRow (rowKey table c.snap p.1) p.2 else st) s
      let s' := { s' with fa := { s'.fa with ops := tfilter (fun _ o => o.ticket != t) s'.fa.ops } }
      s'.setCmd t { c with done := some ⟨stDone, [n, hits, far, c.snap], [.write (key c.ten (c.body 3)) data]⟩ }

/-- EMB_GATHER (R447 to R451). A raw row is no sum: OUT 2 with SUM 1 is BAD_FIELD (DESIGN CHOICE, log entry 76). -/
def execEmbGather (t : Nat) (s : State) : Host.Outcome State Fault Refusal :=
  match s.cmd t with
  | none => .next s
  | some c =>
    if ¬ (c.st = .running ∧ c.done = none ∧ dClass c.words = 0x06 ∧ dOp c.words = 0x01 ∧ s.remoteBusy t = false) then .next s
    else
      let table := bits (c.body 0) 0 5
      let out := bits (c.body 0) 5 2
      let n := bits (c.body 2) 0 17
      match s.tableBad table c.ten, s.embDescOf table c.snap with
      | some st, _ => .next (s.setDone t ⟨st, [], []⟩)
      | none, none => .next (s.setDone t ⟨stTableOff, [], []⟩)
      | none, some d =>
        let sum := (c.body 0).testBit 7
        let idr := [(c.body 1, 4 * n)]
        let wrs := [(c.body 3, gatherLen d out sum n)]
        if out = 3 ∨ (out = 2 ∧ sum) ∨ n = 0 ∨ 65536 < n ∨ c.body 3 % 64 ≠ 0 then .next (s.setDone t ⟨stBadField, [], []⟩)
        else if beatCap < 512 + n * ceilDiv d.stride 64 then .next (s.setDone t ⟨stLength, [], []⟩)
        else if s.toFetch c .unit [] idr ≠ [] ∨ s.access .unit c.ten idr [] ≠ .ok then s.startRemote t c idr wrs id
        else
          let ids := s.gatherIds c n
          if ids.any fun r => decide (d.rows ≤ r) then s.startRemote t c idr [] fun s => s.setDone t ⟨stRowRange, [], []⟩
          else
            let near := ids.filter fun r => d.home r == s.ownAddr
            s.startRemote t c (idr ++ near.map fun r => (d.addr r, d.stride)) wrs fun s =>
              let r := ids.foldl (fun a row =>
                let l := a.1.lookup table c.snap d row
                (l.1, if l.2 then a.2 + 1 else a.2)) (s, 0)
              let far := (ids.foldl addNew []).filter fun row => d.home row != s.ownAddr
              if far.all fun row => (r.1.cached (rowKey table c.snap row)).isSome then r.1.gatherFinish t r.2
              else far.foldl (fun s row => s.seekRow t c d table r.2 row) r.1

/-! ## emb.add (R452 to R454) -/

/-- An entry of an add: its row and deltas. -/
def addEntry (d : EmbDesc) (bs : List Byte) : Nat × List FVal :=
  (ofLe (bs.take 4), (List.range d.dim).map fun i => decodeF .bf16 (ofLe ((bs.drop (8 + 2 * i)).take 2)))

/-- The bytes of an entry. -/
def EmbDesc.entry (d : EmbDesc) : Nat := 8 + 2 * d.dim

/-- Whether a delta is NaN or infinite. -/
def notFinite (v : FVal) : Bool := (finParts v).isNone

/-- The entries of a list, as bytes. -/
def splitEntries (size n : Nat) (bs : List Byte) : List (List Byte) := (List.range n).map fun i => (bs.drop (i * size)).take size

/-- The caravans of an add: for each home in the order first named, its entries in entry order, as many as 4,096 bytes hold,
one at least. -/
def EmbDesc.addGroups (d : EmbDesc) (es : List (List Byte)) : List (Nat × List (List Byte)) :=
  let homeOf (e : List Byte) : Nat := d.home (ofLe (e.take 4))
  let homes := es.foldl (fun acc e => addNew acc (homeOf e)) []
  let size := max 1 (4096 / d.entry)
  homes.flatMap fun h =>
    let mine := es.filter fun e => homeOf e == h
    (List.range (ceilDiv mine.length size)).map fun i => (h, (mine.drop (i * size)).take size)

/-- The most list bytes of an add (02 R36): 40 µs at 100 GB/s less 600 ns for each hop of the longest route. -/
def State.addMax (s : State) : Nat :=
  4000000 - 60000 * lmax (s.fa.rows.filterMap fun r => if r.1 / 2 ^ 20 = 16 ∧ r.2.valid then some r.2.hops else none)

/-- EMB_ADD (R452): every entry is checked; the caravans leave at the start point, and the homes' acknowledgements complete it. -/
def execEmbAdd (t : Nat) (s : State) : Host.Outcome State Fault Refusal :=
  match s.cmd t with
  | none => .next s
  | some c =>
    if ¬ (c.st = .running ∧ c.done = none ∧ dClass c.words = 0x06 ∧ dOp c.words = 0x02 ∧ s.remoteBusy t = false) then .next s
    else
      let table := bits (c.body 0) 0 5
      let n := bits (c.body 2) 0 17
      match s.tableBad table c.ten, s.embDescOf table c.snap with
      | some st, _ => .next (s.setDone t ⟨st, [], []⟩)
      | none, none => .next (s.setDone t ⟨stTableOff, [], []⟩)
      | none, some d =>
        if s.get (R.EMB_TAB_CTL_ADD_EN table) = 0 then .next (s.setDone t ⟨stAddOff, [], []⟩)
        else if n = 0 ∨ 65536 < n ∨ c.body 1 % 8 ≠ 0 then .next (s.setDone t ⟨stBadField, [], []⟩)
        else if s.addMax < n * d.entry then .next (s.setDone t ⟨stLength, [], []⟩)
        else
          let es := splitEntries d.entry n (s.vrun c.ten (c.body 1) (n * d.entry))
          s.startRemote t c [(c.body 1, n * d.entry)] [] fun s =>
            if es.any fun e => decide (d.rows ≤ ofLe (e.take 4)) then s.setDone t ⟨stRowRange, [], []⟩
            else if es.any fun e => (addEntry d e).2.any notFinite then s.setDone t ⟨stDeltaNan, [], []⟩
            else
              let gs := d.addGroups es
              let r := gs.foldl (fun (a : State × List Effect) g =>
                let o := a.1.addOp ⟨t, 4, g.1, 0, 0, 0, []⟩
                let w := [1 + table * 2 ^ 8 + g.2.length * 2 ^ 16, o.2]
                (o.1, a.2 ++ [.send none (o.1.newCar 0x18 1 g.1 c.ten 0 w g.2.flatten)])) (s, [])
              let homes := (gs.map (·.1)).foldl addNew []
              r.1.setDone t ⟨stDone, [n, homes.length, 0, c.snap], r.2⟩

/-- One entry applied at its home, as one commit (R453): the cached copy is the row's memory. A row whose element is not
finite takes free bytes. It answers the saturated elements. -/
def State.applyEntry (s : State) (ten : Nat) (d : EmbDesc) (e : List Byte) : State × Nat :=
  let (row, deltas) := addEntry d e
  let k := s.dkey ten (d.addr row)
  match d.add (s.vrun ten (d.addr row) d.stride) deltas with
  | some (bs, sat) =>
    let s := (s.commitPeer [(k, bs)]).bump R.EMB_ADDS_ADDS 1
    (if 0 < sat then s.raise R.EMB_ERR_SATURATE (some ten) else s, sat)
  | none =>
    let (v, s) := s.takeFree
    ((s.commitPeer [(k, leBytes (8 + d.dim * d.codeBits / 8) v)]).bump R.EMB_ADDS_ADDS 1, 0)

/-- An acknowledgement of an add's caravan: its saturated elements are counted, and the last completes the command. -/
def State.addAcked (s : State) (id : Nat) (o : RemoteOp) (sat : Nat) : State :=
  let s := s.dropOp id
  match s.cmd o.ticket with
  | some k =>
    let done := k.done.map fun d => { d with res := lset d.res 2 (nw d.res 2 + sat) }
    s.setCmd o.ticket { k with done := done, nkDone := !s.remoteBusy o.ticket }
  | none => s

/-- EMB (R449, R452, R453): entries applied in entry order and acknowledged, or an acknowledgement. -/
def execEmb (port : Nat) (car : Car) (s : State) : Host.Outcome State Fault Refusal :=
  s.carRow 0x18 port car fun s c =>
    let w := carArg c 0
    let table := bits w 8 5
    let n := bits w 16 16
    if bits w 0 8 = 2 then
      let id := carArg c 1 % 2 ^ 32
      match tfind s.fa.ops id with
      | some o => if o.kind = 4 ∧ o.dst = c.src then (s.addAcked id o (carArg c 2 % 2 ^ 32), true) else (s, true)
      | none => (s, true)
    else
      let ack (s : State) (sat : Nat) : State := s.answer c 0x18 [2 + table * 2 ^ 8 + n * 2 ^ 16, carArg c 1 % 2 ^ 32, sat] []
      match s.tableBad table c.ten, s.embDescOf table (s.get (R.EMB_TAB_STS_VERSION table)) with
      | none, some d =>
        let es := (splitEntries d.entry n c.data).filter fun e => d.home (ofLe (e.take 4)) == s.ownAddr
        let rs := es.map fun e => (d.addr (ofLe (e.take 4)), d.stride)
        match s.remoteAccess 0 c.ten c.src rs rs with
        | .fault ps => (s.awaitPages ps, false)
        | .poison _ => (s, false)
        | .prot => (ack s 0, true)
        | .ok =>
          let r := es.foldl (fun (a : State × Nat) e =>
            let x := a.1.applyEntry c.ten d e
            (x.1, a.2 + x.2)) (s, 0)
          (ack r.1 r.2, true)
      | _, _ => (ack s 0, true)

/-! ## emb.swap (R455, R456) -/

/-- Whether a command that took a table's version is not over. -/
def State.versionUsed (s : State) (table version : Nat) : Bool :=
  s.x.cmds.any fun p => dClass p.2.words == 0x06 && dOp p.2.words != 0x03 && bits (dBody p.2.seen 0) 0 5 == table &&
    decide (0 < p.2.attempts) && p.2.snap == version && !p.2.st.isOver

/-- The results of a swap of a version (Table 17.2). -/
def swapRes (old : Nat) : List Nat := [old, (old + 1) % 2 ^ 32, 0, 0]

/-- EMB_SWAP (R456): Running until every command of the old version is over; then the descriptor is checked. The versions that it reports are
those of its commit. -/
def execEmbSwap (t : Nat) (s : State) : Host.Outcome State Fault Refusal :=
  s.opRow t 0x06 0x03 .unit fun c =>
    let table := bits (c.body 0) 0 5
    let old := s.get (R.EMB_TAB_STS_VERSION table)
    let va := c.body 1
    match s.tableBad table c.ten with
    | some st => .refuse st
    | none =>
      if va % 64 ≠ 0 then .refuse stBadField
      else if s.versionUsed table old then .wait
      else if s.access .unit c.ten [(va, 64)] [] ≠ .ok then .reach [] [(va, 64)] []
      else
        let rds := [(va, s.descLen c.ten va)]
        if s.access .unit c.ten rds [] ≠ .ok then .reach [] rds []
        else if !s.descOk c.ten va then Plan.refuseRead rds stEmbDesc
        else .go rds [] ⟨stDone, swapRes old, [.embSwap table va (s.descAt c.ten va)]⟩

/-- The commit of a swap: the descriptor in force, VERSION one more. -/
def State.installDesc (s : State) (table va : Nat) (d : EmbDesc) : State :=
  let v := (s.get (R.EMB_TAB_STS_VERSION table) + 1) % 2 ^ 32
  let s := (s.put (R.EMB_TAB_STS_VERSION table) v).setReg (R.EMB_TAB_DESC table) va
  { s with em := { s.em with descs := tset s.em.descs (descKey table v) d } }

/-- A table enabled (R458): VERSION 1 with the descriptor at DESC; what the cache holds of its number is another table's (R449). -/
def State.startTable (s : State) (table : Nat) : State :=
  let ten := s.get (R.EMB_TAB_CTL_TEN table)
  let d := s.descAt ten (s.reg (R.EMB_TAB_DESC table)).toNat
  { s.put (R.EMB_TAB_STS_VERSION table) 1 with em := { s.em with
    descs := tset s.em.descs (descKey table 1) d, cache := tfilter (fun _ e => e.1 / 2 ^ 64 != table) s.em.cache } }

/-- Data of a remote row taken; the last completes its gather. -/
def State.rowData (s : State) (id : Nat) (o : RemoteOp) (off : Nat) (data : List Byte) : State :=
  let o := { o with got := o.got ++ [(off, data)] }
  let s := { s with fa := { s.fa with ops := tset s.fa.ops id o } }
  let full (o : RemoteOp) : Bool := decide (o.total ≤ lsum (o.got.map fun g => g.2.length))
  if s.fa.ops.all fun p => p.2.ticket != o.ticket || full p.2 then s.gatherFinish o.ticket o.hops else s

end Sys2Proof.Machine
end

