-- ==== Sys2Proof/Machine/Engines.lean ====
section
/-!
DEFINITION. The field engines (05, and the tiling rules of 06): the pass and its arithmetic, weights in every
layout, element-wise work, accumulator tiles, idle fill.
-/
namespace Sys2Proof.Machine

/-! ## Formats (Tables 5.1 and 5.2) -/

/-- The bits of an element of a format; 0 for a code that is not listed. -/
def elemBits (f : Nat) : Nat :=
  match f with
  | 0x0 | 0x1 | 0x2 | 0x4 | 0x5 => 8
  | 0x3 => 16
  | 0x6 | 0x7 => 6
  | 0x8 => 4
  | 0x9 | 0xA => 32
  | _ => 0

/-- Whether a format carries one E8M0 scale per 32 elements along k. -/
def isMx (f : Nat) : Bool := 4 ≤ f && f ≤ 8

/-- A number of e exponent and m fraction bits with no infinity and no NaN (OCP MX). -/
def decodeMx (eb mb x : Nat) : FVal :=
  let ex := bits x mb eb
  let fr := x % 2 ^ mb
  let bias := 2 ^ (eb - 1) - 1
  let lo : Int := 1 - (bias : Int) - (mb : Int)
  if ex = 0 then .fin (x.testBit (eb + mb)) fr lo else .fin (x.testBit (eb + mb)) (2 ^ mb + fr) (lo + ((ex : Int) - 1))

/-- The value of an element code in a format (R115). -/
def elemVal (f x : Nat) : FVal :=
  match f with
  | 0x0 | 0x4 => decodeF .e4m3 x
  | 0x1 | 0x5 => decodeF .e5m2 x
  | 0x2 => ofInteger (signed 8 x)
  | 0x3 => decodeF .bf16 x
  | 0x6 => decodeMx 2 3 x
  | 0x7 => decodeMx 3 2 x
  | 0x8 => decodeMx 2 1 x
  | _ => decodeF .fp32 x

/-- Table 5.2: whether a pair of activation and weight formats is accepted. -/
def pairOk (a w : Nat) : Bool :=
  ([0, 1, 4, 5].contains a && [0, 1, 4, 5, 6, 7, 8].contains w) || (a == 2 && w == 2) || (a == 3 && w == 3)

/-- The output formats of a pair. -/
def outOk (a o : Nat) : Bool :=
  if a = 2 then o == 0xA || o == 0x9 else if a = 3 then o == 0x9 || o == 0x3 else [0x9, 0x3, 0x0, 0x1].contains o

/-- K_pass of a weight format. -/
def kPass (w : Nat) : Nat := if 6 ≤ w && w ≤ 8 then 512 else 256

/-- Weight beats of a pass without its surcharge. -/
def weightBeats (w : Nat) : Nat := if w = 3 || (6 ≤ w && w ≤ 8) then 64 else 32

/-- The bytes of a raw weight tile (R121). -/
def rawTile (w : Nat) : Nat :=
  match w with
  | 0x3 => 131072
  | 0x4 | 0x5 => 67584
  | 0x6 | 0x7 => 51200
  | 0x8 => 34816
  | _ => 65536

/-- The index width of a PWF tile, from its bytes (R122); 0 when refused. -/
def pwfBits (bytes : Nat) : Nat := if bytes = 16448 then 8 else if bytes = 20544 then 10 else if bytes = 24640 then 12 else 0

/-- The bytes of a codebook entry (R123). -/
def cbEntry (w : Nat) : Nat := if w = 4 then 4 else 2

/-! ## The body of eng.pass (Table 5.3) -/

/-- The fields of an `eng.pass`. -/
structure PassBody where
  a : Nat
  w : Nat
  out : Nat
  m : Nat
  nt : Nat
  kt : Nat
  aFmt : Nat
  wFmt : Nat
  oFmt : Nat
  pwf : Bool
  kOuter : Bool
  spillOk : Bool
  variant : Nat
  aStride : Nat
  oStride : Nat
  tile : Nat
  cbCount : Nat
  cb : Nat
  lastK : Nat
  lastN : Nat
  mask : Nat
  haloSend : Nat
  haloRecv : Nat
  scale : Nat
  bias : Nat
  deltaOff : Nat
deriving DecidableEq, Repr

/-- The body read from a descriptor. -/
def passBody (ws : List Nat) : PassBody :=
  let b := dBody ws
  { a := b 0, w := b 1, out := b 2
    m := bits (b 3) 0 8 + 1, nt := bits (b 3) 8 12 + 1, kt := bits (b 3) 20 12 + 1
    aFmt := bits (b 3) 32 4, wFmt := bits (b 3) 36 4, oFmt := bits (b 3) 40 4
    pwf := (b 3).testBit 44, kOuter := (b 3).testBit 45, spillOk := (b 3).testBit 46, variant := bits (b 3) 48 9
    aStride := bits (b 4) 0 32, oStride := bits (b 4) 32 32
    tile := bits (b 5) 0 32, cbCount := bits (b 5) 32 13, cb := b 6
    lastK := bits (b 7) 0 9, lastN := bits (b 7) 16 8, mask := b 8
    haloSend := bits (b 9) 0 9, haloRecv := bits (b 9) 16 9
    scale := bits (b 10) 0 32, bias := b 11, deltaOff := b 12 }

/-- K_pass of the command. -/
def PassBody.kp (p : PassBody) : Nat := kPass p.wFmt
/-- The weight tiles along k, KT' (R120). -/
def PassBody.ktTiles (p : PassBody) : Nat := p.kt * p.kp / 256
/-- The valid values of k (R126). -/
def PassBody.validK (p : PassBody) : Nat := (p.kt - 1) * p.kp + (if p.lastK = 0 then p.kp else p.lastK)
/-- The valid output columns (R126). -/
def PassBody.validN (p : PassBody) : Nat := (p.nt - 1) * 256 + (if p.lastN = 0 then 256 else p.lastN)
/-- The bytes of an activation element. -/
def PassBody.aSize (p : PassBody) : Nat := elemBits p.aFmt / 8
/-- The byte offset of the row's scales (R120). -/
def PassBody.scaleOff (p : PassBody) : Nat := p.kt * p.kp
/-- The bytes of an activation row, its scales with it (R120, R128). -/
def PassBody.rowBytes (p : PassBody) : Nat := p.kt * p.kp * p.aSize + (if isMx p.aFmt then p.kt * p.kp / 32 else 0)
/-- The bytes of an output element. -/
def PassBody.oSize (p : PassBody) : Nat := elemBits p.oFmt / 8
/-- The accumulator demand D (06 R138). -/
def PassBody.demand (p : PassBody) : Nat := if p.kOuter && decide (2 ≤ p.kt) then p.nt else 1
/-- The evictions of a command whose demand exceeds 16 tiles (06 R144). -/
def PassBody.evictions (p : PassBody) : Nat := if 16 < p.demand then (p.nt - 16) + (p.kt - 2) * p.nt + 1 else 0
/-- The written footprint from OUT_ADDR (06 R152). -/
def PassBody.footprint (p : PassBody) : Nat := (p.m - 1) * p.oStride + p.nt * 256 * p.oSize

/-- The field checks of R113, R114, R121 to R128 and R156 that need no memory. -/
def PassBody.fieldsOk (p : PassBody) : Bool :=
  pairOk p.aFmt p.wFmt && outOk p.aFmt p.oFmt && (!p.pwf || p.wFmt == 4 || p.wFmt == 8) &&
  (if p.pwf then pwfBits p.tile != 0 && p.cbCount != 0 && decide (p.cbCount ≤ 4096) else p.tile == rawTile p.wFmt) &&
  decide (p.lastK ≤ p.kp) && (!(isMx p.aFmt || isMx p.wFmt) || p.lastK % 32 == 0) &&
  decide (p.rowBytes ≤ p.aStride) && decide (p.nt * 256 * p.oSize ≤ p.oStride) &&
  p.mask % 64 == 0 && decide (p.variant ≤ 256) &&
  decide (p.haloSend ≤ p.m) && decide (p.haloRecv ≤ p.m) && (p.spillOk || decide (p.demand ≤ 16))

/-! ## The halo (06 R146 to R148) -/

/-- Whether a receiver cannot tell its sender's rows yet: the sender waits for the rerun that draws its lease anew (log entry 66). -/
def State.haloWaits (s : State) (t : Nat) (p : PassBody) : Bool :=
  p.haloRecv != 0 && (match s.before t with
    | some c => dWellEn c.words && c.patched.isEmpty && !c.st.isOver
    | none => false)

/-- What the halo comes to: a status, or nothing to refuse (R147). -/
def State.haloStatus (s : State) (t : Nat) (p : PassBody) : Option Nat :=
  match s.before t with
  | none => if p.haloRecv ≠ 0 then some stBadField else none
  | some c =>
    let q := passBody c.seen
    let h := if c.isPass then q.haloSend else 0
    if p.haloRecv ≠ h then some stBadField
    else if h = 0 then none
    else if c.st = .void then some stDepVoid
    else if p.aFmt ≠ q.aFmt ∨ p.kt ≠ q.kt ∨ p.aStride ≠ q.aStride ∨ p.rowBytes ≠ q.rowBytes ∨ 1048576 < h * p.aStride
    then some stBadField else none

/-- Where row m of a command's activation block lies in committed memory: its own row, or the sender's trailing row,
which that one may have received itself. -/
def State.rowAddr (s : State) : Nat → Nat → PassBody → Nat → Nat
  | 0, _, p, m => p.a + m * p.aStride
  | fuel + 1, t, p, m =>
    if p.haloRecv ≤ m then p.a + (m - p.haloRecv) * p.aStride
    else match s.before t with
      | some c =>
        let q := passBody c.seen
        s.rowAddr fuel (t - 1) q (q.m - p.haloRecv + m)
      | none => p.a + m * p.aStride

/-- The address of row m of the command of a ticket. -/
def State.passRow (s : State) (t : Nat) (p : PassBody) (m : Nat) : Nat := s.rowAddr (seqOf t) t p m

/-! ## Weights (R120 to R125) -/

/-- A field of b bits at a bit offset of a run of bytes of a tenancy's range. -/
def State.vbits (s : State) (ten va bit b : Nat) : Nat :=
  bits (ofLe (s.vrun ten (va + bit / 8) ((bit % 8 + b + 7) / 8))) (bit % 8) b

/-- The address of weight tile (n, t). -/
def PassBody.tileAddr (p : PassBody) (n t : Nat) : Nat := p.w + (n * p.ktTiles + t) * p.tile

/-- The block word of block q of a PWF tile (R122). -/
def State.blockWord (s : State) (ten : Nat) (p : PassBody) (n t q : Nat) : Nat := ofLe (s.vrun ten (p.tileAddr n t + 4 * q) 4)

/-- The element code of weight (k, j) of tile (n, t), before any delta. -/
def State.baseCode (s : State) (ten : Nat) (p : PassBody) (n t k j : Nat) : Nat :=
  if p.pwf then
    let b := pwfBits p.tile
    let q := j / 16
    let i := (j % 16) * 64 + k / 4
    let ix := s.vbits ten (p.tileAddr n t + 64 + q * 128 * b) (i * b) b
    let e := cbEntry p.wFmt
    let entry := p.cb + (bits (s.blockWord ten p n t q) 0 12 * 2 ^ b + ix) * e
    s.vbits ten entry (k % 4 * (2 * e)) (2 * e)
  else s.vbits ten (p.tileAddr n t) ((j * 256 + k) * elemBits p.wFmt) (elemBits p.wFmt)

/-- The E8M0 scale of weight (k, j) of a tile; 2^0 for formats without one (R114). -/
def State.wScale (s : State) (ten : Nat) (p : PassBody) (n t k j : Nat) : Nat :=
  if p.pwf then bits (s.blockWord ten p n t (j / 16)) 12 8
  else if isMx p.wFmt then ofLe (s.vrun ten (p.tileAddr n t + elemBits p.wFmt * 8192 + j * 8 + k / 32) 1)
  else 127

/-- The directory entry of a tile in a variant's region (R124): offset and count. -/
def State.deltaDir (s : State) (ten base : Nat) (p : PassBody) (i : Nat) : Nat × Nat :=
  let e := s.vword ten (base + p.deltaOff + 8 * i)
  (bits e 0 32, bits e 32 15)

/-- The delta list of a tile: position and code. -/
def State.deltaList (s : State) (ten base : Nat) (d : Nat × Nat) : List (Nat × Nat) :=
  (List.range d.2).map fun i =>
    let w := ofLe (s.vrun ten (base + d.1 + 4 * i) 4)
    (bits w 0 16, bits w 16 8)

/-- Whether positions ascend strictly (R125). -/
def ascending : List (Nat × Nat) → Bool
  | x :: y :: l => decide (x.1 < y.1) && ascending (y :: l)
  | _ => true

/-- The surcharge of a list in beats (R125). -/
def surcharge (count : Nat) : Nat := ceilDiv (count - 2048) 64

/-! ## Accumulation and the epilogue (R116 to R119) -/

/-- A value multiplied by 2 to a power. -/
def scaleBy (v : FVal) (e : Int) : FVal :=
  match v with
  | .fin n m x => .fin n m (x + e)
  | v => v

/-- An exact sum that overflows FP32 is an infinity of its sign (R117). -/
def overInf (v : FVal) : FVal :=
  match decodeF .fp32 (roundF .fp32 false v) with
  | .inf n => .inf n
  | _ => v

/-- One group of products summed exactly and scaled (R116, R117): NaN for a NaN scale, +0 for an exact zero, an infinity beyond FP32. -/
def groupSum (prods : List FVal) (sa sw : Nat) : FVal :=
  if sa = 0xFF ∨ sw = 0xFF then .nan
  else match prods.foldl fadd (.fin false 0 0) with
    | .fin _ 0 _ => .fin false 0 0
    | v => overInf (scaleBy v ((sa : Int) + (sw : Int) - 254))

/-- An accumulator of FP32 and the groups added in order, each with one rounding. -/
def accF (gs : List FVal) : Nat := gs.foldl (fun a g => roundF .fp32 false (fadd (decodeF .fp32 a) g)) 0

/-- The signed value of an integer as FVal's sum of products, for the INT8 pair. -/
def accI (gs : List Int) : Int × Bool :=
  gs.foldl (fun a g =>
    let x := a.1 + g
    let lo : Int := -(2 ^ 31 : Nat)
    let hi : Int := (2 ^ 31 : Nat) - 1
    (max lo (min hi x), a.2 || decide (x < lo) || decide (hi < x))) (0, false)

/-- An FP32 result converted to an output format (R119, 03 R69): its bits, whether it saturated, whether it is NaN. -/
def outConv (o y : Nat) : Nat × Bool × Bool :=
  let v := decodeF .fp32 y
  let fin := match v with | .fin _ _ _ => true | _ => false
  match o with
  | 0x3 => (roundF .bf16 false v, false, v.isNan)
  | 0x0 =>
    let raw := match v with | .fin _ m e => roundMag .e4m3 m e false | _ => 0
    (roundF .e4m3 true v, (fin && decide (FFmt.e4m3.maxFin < raw)) || (!fin && !v.isNan), v.isNan)
  | 0x1 =>
    let raw := match v with | .fin _ m e => roundMag .e5m2 m e false | _ => 0
    (roundF .e5m2 true v, fin && decide (FFmt.e5m2.maxFin < raw), v.isNan)
  | _ => (y, false, v.isNan)

/-- The values of k of group g, the masked ones left out. -/
def PassBody.groupKs (p : PassBody) (g : Nat) : List Nat :=
  if p.aFmt = 3 then (if g < p.validK then [g] else []) else (upto (32 * g) 32).filter (· < p.validK)

/-- The k groups of a command. -/
def PassBody.groups (p : PassBody) : Nat := if p.aFmt = 3 then p.kt * p.kp else p.kt * p.kp / 32

/-- What an output element comes to: its bits, whether it saturated, whether it is NaN. `code` gives the weights after
their deltas. -/
def State.passElem (s : State) (ten : Nat) (p : PassBody) (row : Nat) (code : Nat → Nat → Nat → Nat → Nat) (n j : Nat) :
    Nat × Bool × Bool :=
  let act (k : Nat) : Nat := ofLe (s.vrun ten (row + k * p.aSize) p.aSize)
  let scl : Nat := p.scale
  let bias := if p.bias = 0 then 0 else ofLe (s.vrun ten (p.bias + 4 * (n * 256 + j)) 4)
  let fin (a : FVal) : Nat × Bool × Bool :=
    outConv p.oFmt (roundF .fp32 false (fadd (fmul (decodeF .fp32 scl) a) (decodeF .fp32 bias)))
  if p.aFmt = 2 then
    let gs := (List.range p.groups).map fun g =>
      (p.groupKs g).foldl (fun (x : Int) k => x + signed 8 (act k) * signed 8 (code n (k / 256) (k % 256) j)) 0
    let a := accI gs
    if p.oFmt = 0xA then (unsigned 32 a.1, a.2, false)
    else
      let y := fin (ofInteger a.1)
      (y.1, y.2.1 || a.2, y.2.2)
  else
    let gs := (List.range p.groups).map fun g =>
      let ks := p.groupKs g
      let k0 := if p.aFmt = 3 then g else 32 * g
      let sa := if isMx p.aFmt then ofLe (s.vrun ten (row + p.scaleOff + g) 1) else 127
      let sw := s.wScale ten p n (k0 / 256) (k0 % 256) j
      if ks.isEmpty then .fin false 0 0
      else groupSum (ks.map fun k => fmul (elemVal p.aFmt (act k)) (elemVal p.wFmt (code n (k / 256) (k % 256) j))) sa sw
    fin (decodeF .fp32 (accF gs))

/-! ## eng.pass -/

/-- The rows and columns that the mask record leaves (R126). -/
def State.maskBit (s : State) (ten : Nat) (p : PassBody) (col : Bool) (i : Nat) : Bool :=
  p.mask == 0 || (ofLe (s.vrun ten (p.mask + (if col then 32 else 0) + i / 8) 1)).testBit (i % 8)

/-- The ranges of memory a pass reads, but for its delta region: rows to their last valid k and their scales, the weight
tiles of valid k, the codebooks, the mask record, the biases. -/
def State.passReads (s : State) (t : Nat) (p : PassBody) : List (Nat × Nat) :=
  ((List.range p.m).flatMap fun m =>
    (s.passRow t p m, p.validK * p.aSize) ::
      (if isMx p.aFmt then [(s.passRow t p m + p.scaleOff, ceilDiv p.validK 32)] else [])) ++
  ((List.range p.nt).map fun n => (p.tileAddr n 0, ceilDiv p.validK 256 * p.tile)) ++
  (if p.pwf then [(p.cb, p.cbCount * 2 ^ pwfBits p.tile * cbEntry p.wFmt)] else []) ++
  (if p.mask = 0 then [] else [(p.mask, 64)]) ++
  (if p.bias = 0 then [] else [(p.bias, 4 * p.validN)])

/-- The runs of consecutive numbers of a rising list: first and length. -/
def runsOf : List Nat → List (Nat × Nat)
  | [] => []
  | x :: l => match runsOf l with
    | (y, n) :: r => if y = x + 1 then (x, n + 1) :: r else (x, 1) :: (y, n) :: r
    | [] => [(x, 1)]

/-- The ranges a pass writes: the columns of the rows that no mask leaves out (R126); all of them while its mask record is out of reach. -/
def State.passWrites (s : State) (ten : Nat) (p : PassBody) : List (Nat × Nat) :=
  if p.mask = 0 ∨ s.access .unit ten [(p.mask, 64)] [] ≠ .ok then
    (List.range p.m).map fun m => (p.out + m * p.oStride, p.validN * p.oSize)
  else
    let cols := runsOf ((List.range p.validN).filter fun c => s.maskBit ten p true (c % 256))
    ((List.range p.m).filter (s.maskBit ten p false)).flatMap fun m =>
      cols.map fun r => (p.out + m * p.oStride + r.1 * p.oSize, r.2 * p.oSize)

/-- The tiles of the tensor as the pass visits them. -/
def PassBody.tiles (p : PassBody) : List (Nat × Nat) :=
  (List.range p.nt).flatMap fun n => (List.range p.ktTiles).map fun t => (n, t)

/-- The surcharge of the pass (n, step k): that of its weight tiles. -/
def passSurcharge (p : PassBody) (counts : List Nat) (n k : Nat) : Nat :=
  let per := p.kp / 256
  lsum ((List.range per).map fun i => surcharge (nw counts (n * p.ktTiles + k * per + i)))

/-- The beat count of R111 with the surcharges of R125. -/
def passBeats (p : PassBody) (counts : List Nat) : Nat :=
  let rows := if p.aFmt = 3 then 2 * p.m else p.m
  512 + lsum ((List.range p.nt).map fun n => lsum ((List.range p.kt).map fun k =>
    max rows (weightBeats p.wFmt + passSurcharge p counts n k)))

/-- The results and effects of a pass whose operands are in order. -/
def State.passDone (s : State) (t ten : Nat) (p : PassBody) (base : Nat) (counts : List Nat) : Done :=
  let lists := if p.variant = 0 then [] else
    (List.range counts.length).map fun i => s.deltaList ten base (s.deltaDir ten base p i)
  let code (n tt k j : Nat) : Nat :=
    match (nth lists (n * p.ktTiles + tt) []).find? (fun e => e.1 == k * 256 + j) with
    | some e => e.2 % 2 ^ elemBits p.wFmt
    | none => s.baseCode ten p n tt k j
  let cells := ((List.range p.m).filter (s.maskBit ten p false)).flatMap fun m =>
    ((List.range p.validN).filter fun c => s.maskBit ten p true (c % 256)).map fun c =>
      (p.out + m * p.oStride + c * p.oSize, s.passElem ten p (s.passRow t p m) code (c / 256) (c % 256))
  let sat := (cells.filter fun x => x.2.2.1).length
  let nan := (cells.filter fun x => x.2.2.2).length
  ⟨stDone, [p.nt * p.kt, sat % 2 ^ 32 + nan % 2 ^ 32 * 2 ^ 32, passBeats p counts, 262144 * p.evictions],
    cells.map fun x => .write (key ten x.1) (leBytes p.oSize x.2.1)⟩

/-- What an `eng.pass` comes to on its operands (R124 to R128, R156). CB_COUNT and CB_ADDR are not looked at where W_PWF is 0, nor is the
alignment of a list's offset (DESIGN CHOICE, log entry 67). -/
def State.passPlan (s : State) (t : Nat) (c : Cmd) : Plan :=
  let p := passBody c.patched
  if dLen c.patched ≠ 15 + dNdep c.patched ∨ !p.fieldsOk then .refuse stBadField
  else match s.haloStatus t p with
  | some st => .refuse st
  | none =>
    let rds := s.passReads t p
    let out := (p.out, p.footprint)
    if s.haloWaits t p then .wait
    else if anyOverlap [out] rds then .refuse stOverlap
    else
      let outs := s.passWrites c.ten p
      let go (more : List (Nat × Nat)) (base : Nat) (counts : List Nat) : Plan :=
        if anyOverlap [out] more then .refuseRead more stOverlap
        else if beatCap < passBeats p counts + 2048 * p.evictions then .refuseRead more stLength
        else if s.access .unit c.ten (rds ++ more) outs ≠ .ok then .reach [] (rds ++ more) outs
        else if p.pwf ∧ p.tiles.any (fun x => decide (x.2 < ceilDiv p.validK 256) && (List.range 16).any fun q =>
            decide (p.cbCount ≤ bits (s.blockWord c.ten p x.1 x.2 q) 0 12)) then .refuseRead (rds ++ more) 0x41
        else .go (rds ++ more) outs (s.passDone t c.ten p base counts)
      if p.variant = 0 then go [] 0 []
      else match tfind s.en.variants p.variant with
        | none => .refuse 0x42
        | some (base, size) =>
          let n := p.nt * p.ktTiles
          let dir := (base + p.deltaOff, 8 * n)
          if size < p.deltaOff + 8 * n then .refuse stProtection
          else if s.access .unit c.ten [dir] [] ≠ .ok then .reach [] (dir :: rds) outs
          else
            let ds := (List.range n).map (s.deltaDir c.ten base p)
            let lists := ds.map fun d => (base + d.1, 4 * d.2)
            if ds.any (fun d => decide (16384 < d.2)) then .refuseRead [dir] 0x40
            else if ds.any (fun d => decide (size < d.1 + 4 * d.2)) then .refuseRead [dir] stProtection
            else if s.access .unit c.ten lists [] ≠ .ok then .reach [] (dir :: lists ++ rds) outs
            else if ds.any (fun d => !ascending (s.deltaList c.ten base d)) then .refuseRead (dir :: lists) 0x40
            else go (dir :: lists) base (ds.map (·.2))

/-- The accumulator tiles of an engine that are free (R132, 06 R139). -/
def State.freeTiles (s : State) (e : Nat) : Nat :=
  16 - lsum (s.x.cmds.map fun p => if p.2.unit = e ∧ dClass p.2.words = 1 ∧ p.2.st.live then p.2.tiles else 0)

/-- The tiles a command reserves: min(D, 16), none for a command that is refused. -/
def State.tilesOf (s : State) (t : Nat) (c : Cmd) : Nat :=
  match s.passPlan t c with
  | .go _ _ d => if d.status = stDone then min (passBody c.patched).demand 16 else 0
  | _ => 0

/-- The passes that an engine has received and that have reserved no tiles, in order; one that waits for its sender's rerun is passed over. -/
def State.tileQueue (s : State) (e : Nat) : List Nat :=
  (tget s.en.tileWait e []).filter fun t => match s.cmd t with
    | some c => c.st == .running && c.unit == e && c.done.isNone && !s.haloWaits t (passBody c.patched)
    | none => false

/-- Whether a pass may start: it reserves nothing, or it is the first received and its tiles are free (06 R139). -/
def State.tilesFree (s : State) (t : Nat) (c : Cmd) : Bool :=
  let n := s.tilesOf t c
  n == 0 || ((s.tileQueue c.unit).head? == some t && decide (n ≤ s.freeTiles c.unit))

/-- Fill ended by a pass, or by the engine's stop: how many fill passes had run is not stated, so a free number of them counts (log entry 23). -/
def State.endFill (s : State) (e : Nat) : State :=
  let ph := tget s.en.fill e 0
  let s := { s with en := { s.en with fill := tset s.en.fill e 0 } }
  if ph = 1 ∨ ph = 2 then
    let (v, s) := s.takeFree
    let top := if ph = 1 then s.get (R.ENG_IDLE_GAP_MAX e) else s.get (R.ENG_IDLE_TAPER e) / 2
    (s.bump (R.ENG_FILLS_FILLS e) (32 * (v % (top + 1)))).put (R.ENG_STS_FILLING e) 0
  else s

/-- The beats of an attempt counted in ENG_BEATS (R111), and idle fill ended by a ready pass (R135). -/
def State.gridBeats (s : State) (t : Nat) : State :=
  match s.cmd t with
  | some c =>
    match c.done with
    | some d =>
      if d.status = stDone then
        let b := if dOp c.words = 1 then nw d.res 2 else 512 + ceilDiv (nw d.res 0) 256
        (s.bump (R.ENG_BEATS_BEATS c.unit) b).endFill c.unit
      else s
    | none => s
  | none => s

/-- The lines a pass moves beyond one read of each operand: its activation block once more for each further n tile, where ORDER is 0 and
the block exceeds the staging buffer (06 R140), and its tiles spilled and reloaded (R142). -/
def PassBody.moreLines (p : PassBody) (block : Nat) : Nat :=
  (if !p.kOuter && decide (2097152 < p.m * p.aStride) then (p.nt - 1) * block else 0) + 2 * 4096 * p.evictions

/-- The tiles of a pass reserved until its commit or kill, its place among those received given up, its further traffic counted. -/
def State.holdTiles (s : State) (t : Nat) : State :=
  match s.cmd t with
  | none => s
  | some c =>
    if c.done.isNone then s
    else
      let p := passBody c.patched
      let block := (List.range p.m).map fun m => (s.passRow t p m, p.validK * p.aSize)
      let ok := c.done.any fun d => d.status == stDone
      let s := s.setTileQueue c.unit ((tget s.en.tileWait c.unit []).filter (· != t))
      if ok then
        (s.accessHeat [] (p.moreLines (s.homeLines c.ten block))).setCmd t { c with tiles := min p.demand 16 }
      else s

/-- The pass run with its tiles reserved. -/
def State.runPass (s : State) (t : Nat) (corr : List (Nat × Nat × Bool)) : Host.Outcome State Fault Refusal :=
  match s.opRow t 0x01 0x01 .unit fun c => s.passPlan t c with
  | .next s => .next (((s.holdTiles t).gridBeats t).correctedIn t corr)
  | r => r

/-- ENG_PASS (R127, 06 R139): the command runs with its tiles reserved, or waits for them behind those received before it. -/
def execEngPass (t : Noted Nat) (s : State) : Host.Outcome State Fault Refusal :=
  match s.cmd t.of with
  | none => .next s
  | some c =>
    if c.st = .running ∧ c.done = none ∧ c.isPass ∧ s.tilesFree t.of c then s.runPass t.of t.corrected else .next s

/-- ACC_TILE_WAIT_END (06 R139): the first command that waits starts once its tiles are free. -/
def execAccTileWaitEnd (t : Noted Nat) (s : State) : Host.Outcome State Fault Refusal :=
  match s.cmd t.of with
  | none => .next s
  | some c =>
    if (s.tileQueue c.unit).head? = some t.of ∧ s.tilesFree t.of c then s.runPass t.of t.corrected else .next s

/-! ## eng.ew (R131) -/

/-- A type of eng.ew: FP32, BF16 or FP8. -/
def ewType (f : Nat) : Bool := f == 9 || f == 3 || f == 0 || f == 1

/-- One element: the operation in FP32 with one rounding. -/
def ewOp (op : Nat) (a b : FVal) (sc : FVal) : Nat :=
  match op with
  | 0 => roundF .fp32 false (fadd a b)
  | 1 => roundF .fp32 false (fmul a b)
  | 2 => roundF .fp32 false (fmax a b)
  | 3 => roundF .fp32 false (fmin a b)
  | 4 => roundF .fp32 false (fadd (fmul a sc) b)
  | _ => roundF .fp32 false a

/-- ENG_EW (R131). Where B is 0, +0 is added, also to a −0 that OP 0 or OP 4 gives (DESIGN CHOICE, log entry 68). -/
def execEngEw (t : Nat) (s : State) : Host.Outcome State Fault Refusal :=
  match s.opRow t 0x01 0x02 .unit (fun c =>
    let a := c.body 0
    let b := c.body 1
    let dst := c.body 2
    let w := c.body 3
    let n := bits w 0 32
    let at_ := bits w 32 4
    let bt := bits w 36 4
    let dt := bits w 40 4
    let op := bits w 44 4
    let useB := decide (op < 5 ∧ b ≠ 0)
    let an := n * (elemBits at_ / 8)
    let bn := n * (elemBits bt / 8)
    let dn := n * (elemBits dt / 8)
    let clash (x xn : Nat) : Bool := overlaps x xn dst dn && !(x == dst && xn == dn)
    if n = 0 ∨ !ewType at_ ∨ 0xA < bt ∨ (useB ∧ !ewType bt) ∨ !ewType dt ∨ 5 < op then .refuse stBadField
    else if beatCap < 512 + ceilDiv n 256 then .refuse stLength
    else if clash a an ∨ (useB && clash b bn) then .refuse stOverlap
    else
      let sc := decodeF .fp32 (bits (c.body 4) 0 32)
      let cells := (List.range n).map fun i =>
        let x := elemVal at_ (ofLe (s.vrun c.ten (a + i * (elemBits at_ / 8)) (elemBits at_ / 8)))
        let y := if useB then elemVal bt (ofLe (s.vrun c.ten (b + i * (elemBits bt / 8)) (elemBits bt / 8))) else .fin false 0 0
        outConv dt (ewOp op x y sc)
      let sat := (cells.filter fun x => x.2.1).length
      let nan := (cells.filter fun x => x.2.2).length
      .go ((a, an) :: (if useB then [(b, bn)] else [])) [(dst, dn)]
        ⟨stDone, [n, sat % 2 ^ 32 + nan % 2 ^ 32 * 2 ^ 32],
          [.write (key c.ten dst) (cells.flatMap fun x => leBytes (elemBits dt / 8) x.1)]⟩) with
  | .next s' => .next (if (s.cmd t).any (fun c => c.done.isNone) then s'.gridBeats t else s')
  | r => r

/-! ## Idle fill (R134, R135) -/

/-- Whether an engine holds a command that has work ready for its grid: one that has not done it, and does not wait for tiles. -/
def State.gridBusy (s : State) (e : Nat) : Bool :=
  s.x.cmds.any fun p => p.2.unit == e && dClass p.2.words == 1 && p.2.st == .running && p.2.done.isNone &&
    (!p.2.isPass || s.tilesFree p.1 p.2)

/-- IDLE_FILL_START (R134): an enabled, active engine with FILL_EN and no pass ready. -/
def execIdleFillStart (e : Nat) (s : State) : Host.Outcome State Fault Refusal :=
  if 104 ≤ e then .fault .noSuchUnit
  else if s.get (R.ENG_CTL_EN e) = 1 ∧ s.get (R.ENG_STS_STATE e) = 1 ∧ s.get (R.ENG_IDLE_FILL_EN e) = 1 ∧
      !s.gridBusy e ∧ tget s.en.fill e 0 = 0 then
    .next (({ s with en := { s.en with fill := tset s.en.fill e 1 } }).put (R.ENG_STS_FILLING e) 1)
  else .next s

/-- IDLE_FILL_TAPER (R134): GAP_MAX fill passes of 32 beats have run. -/
def execIdleFillTaper (e : Nat) (s : State) : Host.Outcome State Fault Refusal :=
  if 104 ≤ e then .fault .noSuchUnit
  else if tget s.en.fill e 0 = 1 then
    .next (({ s with en := { s.en with fill := tset s.en.fill e 2 } }).bump (R.ENG_FILLS_FILLS e) (32 * s.get (R.ENG_IDLE_GAP_MAX e)))
  else .next s

/-- IDLE_FILL_STOP (R134): TAPER slots have passed, a fill pass in every second one; the engine stays idle until a pass. -/
def execIdleFillStop (e : Nat) (s : State) : Host.Outcome State Fault Refusal :=
  if 104 ≤ e then .fault .noSuchUnit
  else if tget s.en.fill e 0 = 2 then
    .next ((({ s with en := { s.en with fill := tset s.en.fill e 3 } }).bump (R.ENG_FILLS_FILLS e)
      (32 * (s.get (R.ENG_IDLE_TAPER e) / 2))).put (R.ENG_STS_FILLING e) 0)
  else .next s

end Sys2Proof.Machine
end

