-- ==== Sys2Proof/Machine/Select.lean ====
section
/-!
DEFINITION. Selection and merging (09): ranking, cuts, tallies and exact sums, and the collapse of duplicate copies.
-/
namespace Sys2Proof.Machine

/-- A candidate: its FP32 score, order key, and the fields of a result entry (08 Table 8.8). -/
structure Cand where
  score : Nat
  id : Nat
  list : Nat
  side : Bool
  seq : Nat
  attr : Nat
deriving DecidableEq, Repr

def Cand.val (c : Cand) : FVal := decodeF .fp32 c.score

/-- Whether a score ranks above another (R246): NaN below all. -/
def scoreGt (a b : FVal) : Bool :=
  match a.isNan, b.isNan with
  | true, _ => false
  | false, true => true
  | false, false => fcmp a b == .gt

/-- Whether one candidate ranks before another or with it (R247). -/
def rankLe (a b : Cand) : Bool := scoreGt a.val b.val || (!scoreGt b.val a.val && decide (a.id ≤ b.id))

/-- Whether copy a takes precedence over copy b of one order key (Table 9.1). -/
def precedes (a b : Cand) : Bool :=
  if a.seq ≠ b.seq then decide (b.seq < a.seq)
  else if scoreGt a.val b.val then true
  else if scoreGt b.val a.val then false
  else if a.list ≠ b.list then decide (a.list < b.list)
  else a.side && !b.side

/-- The surviving copies, one for each order key (R251). -/
def collapse (cs : List Cand) : List Cand :=
  cs.foldl (fun acc c =>
    match acc.find? (fun d => d.id == c.id) with
    | some d => if precedes c d then c :: acc.filter (fun e => e.id != c.id) else acc
    | none => c :: acc) []

/-- An exact sum rounded once to FP64 (R250): zero and the empty sum are +0. -/
def sumF64 (vs : List FVal) : Nat :=
  match vs.foldl fadd (.fin false 0 0) with
  | .fin _ 0 _ => 0
  | v => roundF .fp64 false v

/-- A staged list (R245): the selected candidates, ties left out, NaNs met, the values selected and left out. -/
structure Picked where
  sel : List Cand
  ties : Nat
  nans : Nat
  selVals : List FVal
  rejVals : List FVal

/-- The selection of k candidates at or above a threshold (R246 to R250), the copies having collapsed. -/
def select (tau : FVal) (k : Nat) (cs : List Cand) : Picked :=
  let cs := collapse cs
  let nan := cs.filter fun c => c.val.isNan
  let ok := cs.filter fun c => !c.val.isNan && !scoreGt tau c.val
  let low := cs.filter fun c => !c.val.isNan && scoreGt tau c.val
  let ranked := sortBy rankLe ok
  let sel := ranked.take k
  let rest := ranked.drop k
  let ties := match sel.getLast? with
    | some l => if sel.length < k then 0 else (rest.filter fun c => fcmp c.val l.val == .eq).length
    | none => 0
  ⟨sel, ties, nan.length, sel.map Cand.val, (rest ++ low).map Cand.val⟩

def negInf : FVal := .inf true

/-- The bytes of a result entry (08 Table 8.8). -/
def entryBytes (c : Cand) : List Byte :=
  bytesOf [c.id % 2 ^ 40 + c.list % 2 ^ 22 * 2 ^ 40 + (if c.side then 2 ^ 62 else 0), c.score, c.seq, c.attr]

/-- The sentinel of R248. -/
def sentinel : Cand := ⟨0xFF80_0000, 0xFF_FFFF_FFFF, 0, false, 0, 0⟩

/-- A result list's header and entries (08 Table 8.7). -/
def resultList (short : Bool) (index k probes snap sumSel sumRej ties nans matched missing : Nat) (sel : List Cand) : List Byte :=
  bytesOf [1 + (if short then 2 ^ 8 else 0) + index * 2 ^ 16 + sel.length * 2 ^ 32, k + probes % 2 ^ 23 * 2 ^ 16, snap, sumSel,
    sumRej, ties % 2 ^ 32 + nans % 2 ^ 32 * 2 ^ 32, matched, missing] ++
  ((sel ++ List.replicate (k - sel.length) sentinel).flatMap entryBytes)

/-- A result entry read from a run of its 32 bytes. -/
def entryOf (bs : List Byte) : Cand :=
  let w := wordsOf 4 bs
  ⟨nw w 1 % 2 ^ 32, nw w 0 % 2 ^ 40, bits (nw w 0) 40 22, (nw w 0).testBit 62, nw w 2, nw w 3⟩

end Sys2Proof.Machine
end

