-- ==== Sys2Proof/Machine/Search.lean ====
section
/-!
DEFINITION. Vector search (08): the index, its lists and side list, scores, predicates, and the scan commands.
-/
namespace Sys2Proof.Machine

/-! ## The index (R209 to R213) -/

/-- An index header (Table 8.1). -/
structure IdxHdr where
  ver : Nat
  index : Nat
  metric : Nat
  cb : Nat
  dim : Nat
  centFmt : Nat
  fullFmt : Nat
  lists : Nat
  dir : Nat
  pq : Nat
  cent : Nat
  full : Nat
  firstId : Nat
  span : Nat
  side : Nat
  sideCap : Nat
  maxList : Nat
  seq0 : Nat

/-- A header from its words. -/
def idxHdr (w : List Nat) : IdxHdr :=
  { ver := bits (nw w 0) 0 8, index := bits (nw w 0) 8 6, metric := bits (nw w 0) 14 2, cb := bits (nw w 0) 16 8
    dim := bits (nw w 0) 24 13, centFmt := bits (nw w 0) 37 3, fullFmt := bits (nw w 0) 40 4
    lists := bits (nw w 1) 0 23, dir := nw w 2, pq := nw w 3, cent := nw w 4, full := nw w 5
    firstId := bits (nw w 6) 0 40, span := bits (nw w 7) 0 40, side := nw w 8, sideCap := bits (nw w 9) 0 25
    maxList := bits (nw w 10) 0 24, seq0 := nw w 11 }

/-- The header of index x, at the address of its register, in module-owned pages (R244). -/
def State.idx (s : State) (x : Nat) : IdxHdr := idxHdr (s.vwords spModule (s.reg (R.SCN_IDX_HDR x)).toNat 16)

/-- Whether the ranges of a header hold (R209). -/
def IdxHdr.rangesOk (h : IdxHdr) (x : Nat) : Bool :=
  h.ver == 1 && h.index == x && h.metric != 3 && decide (8 ≤ h.cb) && decide (h.cb ≤ 128) && decide (1 ≤ h.dim) &&
    decide (h.dim ≤ 4096) && decide (h.centFmt ≤ 1) && decide (h.fullFmt ≤ 2) && decide (1 ≤ h.lists) &&
    decide (h.lists ≤ 4194304) && decide (1 ≤ h.sideCap) && decide (h.sideCap ≤ 16777216)

/-- Whether the shape of a header holds (R244). -/
def IdxHdr.shapeOk (h : IdxHdr) : Bool := h.dim % h.cb == 0 && decide (h.dim / h.cb ≤ 512)

/-- The bytes of a side-list entry, E (R213). -/
def IdxHdr.entry (h : IdxHdr) : Nat := 32 * ceilDiv (24 + h.cb) 32
/-- The dimensions of a sub-quantizer. -/
def IdxHdr.sub (h : IdxHdr) : Nat := h.dim / h.cb
/-- The bytes of a full vector. -/
def IdxHdr.vecBytes (h : IdxHdr) : Nat := h.dim * (if h.fullFmt = 1 then 4 else if h.fullFmt = 0 then 2 else 1)

/-- Whose range holds an address of an index's data: the module's pages, or those of the index's writer (R229). -/
def State.idxTen (s : State) (x va : Nat) : Nat :=
  if (s.page (pageKey spModule (va / pageBytes))).isSome then spModule else s.get (R.SCN_IDX_CTL_WRITER x)

/-- A run of bytes, a number of n bytes, and words of an index's data. -/
def State.irun (s : State) (x va n : Nat) : List Byte := s.vrun (s.idxTen x va) va n
def State.inum (s : State) (x va n : Nat) : Nat := ofLe (s.irun x va n)

/-- A read of an index's data by a scan unit. -/
def State.iread (s : State) (x va len : Nat) : Read := ⟨.scan, s.idxTen x va, va, len⟩

/-- A list directory entry (Table 8.2). -/
structure DirEntry where
  firstId : Nat
  stack : Nat
  dead : Bool
  addr : Nat
  base : Nat
  count : Nat
  seq : Nat

def dirEntry (w : List Nat) : DirEntry :=
  { firstId := bits (nw w 0) 0 40, stack := bits (nw w 0) 40 4, dead := (nw w 0).testBit 63, addr := nw w 1
    base := bits (nw w 2) 0 24, count := bits (nw w 2) 32 24, seq := nw w 3 }

def State.dirOf (s : State) (x : Nat) (h : IdxHdr) (l : Nat) : DirEntry := dirEntry (wordsOf 4 (s.irun x (h.dir + 32 * l) 32))

/-- Where a list's arrays start (R211): attribute words, extension IDs, dead bitmap, and the end. -/
def DirEntry.attrs (d : DirEntry) (cb : Nat) : Nat := d.addr + roundUp (d.count * cb) 64
def DirEntry.exts (d : DirEntry) (cb : Nat) : Nat := d.attrs cb + roundUp (d.count * 8) 64
def DirEntry.deads (d : DirEntry) (cb : Nat) : Nat := d.exts cb + roundUp ((d.count - d.base) * 8) 64
def DirEntry.size (d : DirEntry) (cb : Nat) : Nat := d.deads cb + (if d.dead then ceilDiv d.base 8 else 0) - d.addr

/-- A copy of a vector: its ID, attribute word, code bytes, sequence and whether it lies in the side list or is a tombstone. -/
structure Copy where
  id : Nat
  attr : Nat
  code : List Nat
  seq : Nat
  side : Bool
  tomb : Bool

/-- The copies of a list's region in position order, dead positions left out (R211). -/
def State.regionCopies (s : State) (x : Nat) (h : IdxHdr) (d : DirEntry) : List Copy :=
  (List.range d.count).filterMap fun i =>
    let dead := d.dead && decide (i < d.base) && (s.inum x (d.deads h.cb + i / 8) 1).testBit (i % 8)
    if dead then none else
    let id := if i < d.base then (d.firstId + i) % 2 ^ 40 else s.inum x (d.exts h.cb + 8 * (i - d.base)) 8 % 2 ^ 40
    some ⟨id, s.inum x (d.attrs h.cb + 8 * i) 8, (s.irun x (d.addr + i * h.cb) h.cb).map BitVec.toNat, d.seq, false, false⟩

/-- The address of live side-list entry i (R213). -/
def State.sideAddr (s : State) (x : Nat) (h : IdxHdr) (i : Nat) : Nat :=
  h.side + (s.get (R.SCN_IDX_SIDE_HEAD x) + i) % h.sideCap * h.entry

/-- The live side-list entries, each with its list. -/
def State.sideCopies (s : State) (x : Nat) (h : IdxHdr) : List (Nat × Copy) :=
  (List.range (s.get (R.SCN_IDX_SIDE_LIVE x))).map fun i =>
    let a := s.sideAddr x h i
    let w := wordsOf 3 (s.irun x a 24)
    (bits (nw w 0) 40 22,
      ⟨bits (nw w 0) 0 40, nw w 2, (s.irun x (a + 24) h.cb).map BitVec.toNat, nw w 1, true, (nw w 0).testBit 62⟩)

/-- The visible content of a list (R223): for each ID the newest of its region's highest copy and its side entries below
the snapshot, unless that is a tombstone. -/
def visible (region side : List Copy) : List Copy :=
  ((region ++ side).foldl (fun (acc : List Copy) c => c :: acc.filter fun d => d.id != c.id) []).reverse.filter fun c => !c.tomb

/-! ## Scores (R214, R215) -/

/-- The elements of a run of n values of a format: 0 FP8 E4M3, 1 BF16, 2 FP32. -/
def valsOf (f n : Nat) (bs : List Byte) : List FVal :=
  let w := if f = 0 then 1 else if f = 1 then 2 else 4
  let k := if f = 0 then FFmt.e4m3 else if f = 1 then FFmt.bf16 else FFmt.fp32
  (List.range n).map fun i => decodeF k (ofLe ((bs.drop (i * w)).take w))

/-- The exact sum of products, and of squared differences. -/
def dotF (a b : List FVal) : FVal := (List.zipWith fmul a b).foldl fadd (.fin false 0 0)
def distF (a b : List FVal) : FVal := ((List.zipWith fsub a b).map fun d => fmul d d).foldl fadd (.fin false 0 0)

/-- A value rounded once to FP32, as a value. -/
def r32 (v : FVal) : FVal := decodeF .fp32 (roundF .fp32 false v)

/-- 1 / sqrt of an FP32 value, correctly rounded to FP32 (R214). -/
def rsqrtF (v : FVal) : FVal :=
  match v with
  | .nan => .nan
  | .inf false => .fin false 0 0
  | .fin _ 0 _ => .inf false
  | .fin false m e =>
    let odd := e % 2 != 0
    let m := if odd then 2 * m else m
    let e := if odd then e - 1 else e
    let q := isqrt (2 ^ 400 / m)
    decodeF .fp32 (roundF .fp32 false (.fin false q (-200 - e / 2)) (decide (q * q * m ≠ 2 ^ 400)))
  | _ => .nan

/-- The query as scored: normalised for cosine (R214). -/
def queryOf (metric : Nat) (q : List FVal) : List FVal :=
  if metric = 1 then
    let r := rsqrtF (r32 (dotF q q))
    q.map fun x => r32 (fmul x r)
  else q

/-- A codebook centroid of sub-quantizer m. -/
def State.pqCent (s : State) (x : Nat) (h : IdxHdr) (m j : Nat) : List FVal :=
  valsOf 1 h.sub (s.irun x (h.pq + (m * 256 + j) * h.sub * 2) (h.sub * 2))

/-- The coarse centroid of a list. -/
def State.coarse (s : State) (x : Nat) (h : IdxHdr) (l : Nat) : List FVal :=
  let w := if h.centFmt = 0 then 1 else 2
  valsOf (if h.centFmt = 0 then 0 else 1) h.dim (s.irun x (h.cent + l * h.dim * w) (h.dim * w))

/-- The approximate score of a code in a list (R214, R215): table entries rounded once, their exact sum rounded once. -/
def State.codeScore (s : State) (x : Nat) (h : IdxHdr) (q : List FVal) (cl : FVal) (l : Nat) (code : List Nat) : Nat :=
  let part (m : Nat) : List FVal := (q.drop (m * h.sub)).take h.sub
  if h.metric = 2 then
    let c := s.coarse x h l
    let t := (code.zipIdx).map fun p =>
      r32 (distF (List.zipWith fsub (part p.2) ((c.drop (p.2 * h.sub)).take h.sub)) (s.pqCent x h p.2 p.1))
    roundF .fp32 false (fneg (r32 (t.foldl fadd (.fin false 0 0))))
  else
    let t := (code.zipIdx).map fun p => r32 (dotF (part p.2) (s.pqCent x h p.2 p.1))
    roundF .fp32 false (t.foldl fadd cl)

/-! ## Predicates (R220, R221) -/

/-- A predicate term (Table 8.5). -/
structure Term where
  lsb : Nat
  width : Nat
  kind : Nat
  neg : Bool
  v0 : Nat
  v1 : Nat

/-- A term of a predicate block at an address. -/
def State.termAt (s : State) (ten a : Nat) : Term :=
  let w := s.vword ten a
  ⟨bits w 0 6, bits w 6 7, bits w 13 2, w.testBit 15, s.vword ten (a + 8), s.vword ten (a + 16)⟩

/-- Whether a term holds to R220 and R221. -/
def Term.ok (t : Term) : Bool :=
  decide (1 ≤ t.width) && decide (t.lsb + t.width ≤ 64) && t.kind != 3 && (t.kind != 2 || (decide (t.width ≤ 16) && t.v0 % 8 == 0))

/-- What the read of a predicate block comes to: ranges that do not all reach, a block that breaks R220 or R221 with what has been read
of it, or its terms with all that is read for them. -/
inductive PredRes where
  | reach (rds : List (Nat × Nat))
  | bad (rds : List (Nat × Nat))
  | terms (rds : List (Nat × Nat)) (ts : List Term)

/-- The predicate block of a probe, then the bitsets of its SET terms, read once at the probe's start (R220, R221). -/
def State.predicate (s : State) (ten pred : Nat) : PredRes :=
  if pred = 0 then .terms [] []
  else if pred % 64 ≠ 0 then .bad []
  else if s.access .scan ten [(pred, 8)] [] ≠ .ok then .reach [(pred, 8)]
  else
    let n := bits (s.vword ten pred) 0 4
    let block := (pred, 8 + 32 * n)
    if 8 < n then .bad [(pred, 8)]
    else if s.access .scan ten [block] [] ≠ .ok then .reach [block]
    else
      let ts := (List.range n).map fun i => s.termAt ten (pred + 8 + 32 * i)
      let sets := ts.filterMap fun t => if t.kind = 2 then some (t.v0, ceilDiv (2 ^ t.width) 8) else none
      if !ts.all Term.ok then .bad [block]
      else if s.access .scan ten sets [] ≠ .ok then .reach (block :: sets)
      else .terms (block :: sets) ts

/-- Whether an attribute word passes a term, and every term. -/
def State.termPass (s : State) (ten attr : Nat) (t : Term) : Bool :=
  let f := bits attr t.lsb t.width
  let r : Bool := match t.kind with
    | 0 => f == t.v0
    | 1 => decide (t.v0 ≤ f) && decide (f ≤ t.v1)
    | _ => (ofLe (s.vrun ten (t.v0 + f / 8) 1)).testBit (f % 8)
  r != t.neg
def State.passes (s : State) (ten : Nat) (ts : List Term) (attr : Nat) : Bool := ts.all (s.termPass ten attr)

/-! ## Probing (R231 to R234) -/

/-- Lists in rank order by CENT: highest first, ties in ascending list number, NaN left out (R231). -/
def State.ranked (s : State) (ten cent lists : Nat) : List (Nat × FVal) :=
  let all := (List.range lists).filterMap fun l =>
    let v := decodeF .fp32 (ofLe (s.vrun ten (cent + 4 * l) 4))
    if v.isNan then none else some (l, v)
  sortBy (fun a b => scoreGt a.2 b.2 || (!scoreGt b.2 a.2 && decide (a.1 ≤ b.1))) all

/-- One scanned list: its number, directory entry, candidates, codes filtered, side entries relevant. -/
structure Scanned where
  list : Nat
  dir : DirEntry
  cands : List Cand
  filtered : Nat
  relevant : Nat

/-- A list scanned under a snapshot. -/
def State.scanList (s : State) (x : Nat) (h : IdxHdr) (ten : Nat) (ts : List Term) (q : List FVal) (snap : Nat)
    (side : List (Nat × Copy)) (l : Nat) (cl : FVal) : Scanned :=
  let d := s.dirOf x h l
  let mine := (side.filter fun p => p.1 == l && decide (p.2.seq < snap)).map (·.2)
  let vis := visible (s.regionCopies x h d) mine
  let pass := vis.filter fun c => s.passes ten ts c.attr
  ⟨l, d, pass.map fun c => ⟨s.codeScore x h q cl l c.code, c.id, l, c.side, c.seq, c.attr⟩,
    vis.length - pass.length, mine.length⟩

/-- The number of lists scanned (R231): rounds of P, doubling, until K codes match, LIMIT is reached, or widening is off.
`counts` are the matched codes of the ranked lists in order. -/
def roundsGo (k : Nat) (noWiden : Bool) (counts : List Nat) : Nat → Nat → Nat
  | 0, n => min n counts.length
  | fuel + 1, n =>
    if noWiden || decide (counts.length ≤ n) || decide (k ≤ lsum (counts.take n)) then min n counts.length
    else roundsGo k noWiden counts fuel (2 * n)

/-- The scan units that serve the queue of a ticket. -/
def State.scanUnits (s : State) (t : Nat) : List Nat :=
  match s.queue (qOf t) with
  | some q => q.units
  | none => []

/-- The unit that scans a list (R217): that of its stack, else the same stack number on the queue's die, else the lowest. -/
def scanUnit (units : List Nat) (stk : Nat) : Nat :=
  let low := least units
  let same := low / 8 * 8 + stk % 8
  if units.contains stk then stk else if units.contains same then same else low

/-- Whether the codes of burst b of a list are read (R219): an attribute word of its 256 passes, and not every position is dead. -/
def State.burstRead (s : State) (x : Nat) (h : IdxHdr) (ten : Nat) (ts : List Term) (d : DirEntry) (b : Nat) : Bool :=
  let here := (upto (256 * b) 256).filter (· < d.count)
  let dead (i : Nat) : Bool := d.dead && decide (i < d.base) && (s.inum x (d.deads h.cb + i / 8) 1).testBit (i % 8)
  here.any (fun i => s.passes ten ts (s.inum x (d.attrs h.cb + 8 * i) 8)) && !here.all dead

/-- What a unit reads to scan a list: its directory entry, its attribute words, extension IDs and dead bitmap, the codes of each burst read
(R219) and, for squared Euclidean, its centroid (R214). -/
def State.listReads (s : State) (x : Nat) (h : IdxHdr) (ten : Nat) (ts : List Term) (l : Nat) (d : DirEntry) : List Read :=
  let w := h.dim * (h.centFmt + 1)
  [s.iread x (h.dir + 32 * l) 32, s.iread x (d.attrs h.cb) (8 * d.count), s.iread x (d.exts h.cb) (8 * (d.count - d.base)),
    s.iread x (d.deads h.cb) (if d.dead then ceilDiv d.base 8 else 0)] ++
  (((List.range (ceilDiv d.count 256)).filter (s.burstRead x h ten ts d)).map fun b =>
    s.iread x (d.addr + 256 * b * h.cb) (min 256 (d.count - 256 * b) * h.cb)) ++
  (if h.metric = 2 then [s.iread x (h.cent + l * w) w] else [])

/-- One read of the live side list (R231). -/
def State.sideReads (s : State) (x : Nat) (h : IdxHdr) : List Read :=
  (List.range (s.get (R.SCN_IDX_SIDE_LIVE x))).map fun i => s.iread x (s.sideAddr x h i) h.entry

/-- The groups in which a unit scans its lists, in rank order, by their relevant side entries (R234). -/
def groupsOf (ns : List Nat) : Nat :=
  (ns.foldl (fun (a : Nat × Nat) n => if a.2 + n ≤ 131072 then (a.1, a.2 + n) else (a.1 + 1, n)) (1, 0)).1

/-- The bytes of reads that are homed in the granary (Table 8.13): those of granules held in the oasis are left out. -/
def State.granaryBytes (s : State) (rs : List Read) : Nat :=
  lsum (rs.flatMap fun r => (granulesIn r.va r.len).map fun g =>
    match s.pageOf r.ten (g * granuleBytes) with
    | some (_, p) =>
      if p.st = 1 ∧ !p.oasis.testBit (g % 32) then min (r.va + r.len) ((g + 1) * granuleBytes) - max r.va (g * granuleBytes) else 0
    | none => 0)

/-- Reads of a tenancy's own ranges by a scan unit. -/
def ownReads (ten : Nat) (rs : List (Nat × Nat)) : List Read := rs.map fun r => ⟨.scan, ten, r.1, r.2⟩

/-- SCN_BYTES of a unit. -/
def State.scanBytes (s : State) (u : Nat) (rs : List Read) : Effect := workFx (R.SCN_BYTES_BYTES u) (s.granaryBytes rs)

/-- The granules of reads as `goX` tracks them. -/
def trackOf (rs : List Read) : List (Nat × Nat) := rs.flatMap fun r => (granulesIn r.va r.len).map fun g => (r.ten, g * granuleBytes)

/-- The lists a probe comes to scan, all of LIMIT in rank order and how many of them. -/
def State.probeLists (s : State) (c : Cmd) (h : IdxHdr) (ts : List Term) : List Scanned × Nat :=
  let x := bits (c.body 3) 0 6
  let k := bits (c.body 3) 8 12 + 1
  let p := bits (c.body 3) 20 22 + 1
  let limit := bits (c.body 3) 42 22 + 1
  let snap := if (c.body 3).testBit 6 then c.snap else c.body 4
  let q := queryOf h.metric (valsOf 1 h.dim (s.vrun c.ten (c.body 0) (2 * h.dim)))
  let side := s.sideCopies x h
  let all := ((s.ranked c.ten (c.body 1) h.lists).take limit).map fun r => s.scanList x h c.ten ts q snap side r.1 r.2
  (all, roundsGo k ((c.body 3).testBit 7) (all.map fun l => l.cands.length) 24 p)

/-- What one unit does of a probe: the lists that fall to it, what it reads for them, its groups after the first. -/
structure Share where
  unit : Nat
  lists : List Scanned
  reads : List Read
  again : Nat

/-- A probe's lists divided among its units (R217, R234). -/
def State.shares (s : State) (units : List Nat) (x : Nat) (h : IdxHdr) (ten : Nat) (ts : List Term) (got : List Scanned) : List Share :=
  ((got.map fun l => scanUnit units l.dir.stack).foldl addNew []).map fun u =>
    let ls := got.filter fun l => scanUnit units l.dir.stack == u
    ⟨u, ls, ls.flatMap fun l => s.listReads x h ten ts l.list l.dir, groupsOf (ls.map (·.relevant)) - 1⟩

/-- The counters of a unit's share (Table 8.13): codes scored, codes filtered, and the bytes of its lists and of each further read of the
side list. -/
def State.shareWork (s : State) (side : List Read) (p : Share) : List Effect :=
  [workFx (R.SCN_CODES_CODES p.unit) (lsum (p.lists.map fun l => l.cands.length)),
    workFx (R.SCN_FILTERED_FILTERED p.unit) (lsum (p.lists.map (·.filtered))),
    workFx (R.SCN_BYTES_BYTES p.unit) (s.granaryBytes p.reads + p.again * s.granaryBytes side)]

/-- What a probe comes to once its query, CENT and predicates have reached (R231 to R234): its reads, of which those of the index are
tracked but for the side list (R226), and SNAP_STALE, SIDE_DENSE or its result. The unit that the probe left Issued on reads the side list
before round 0, the query, CENT, the predicates and the codebook (DESIGN CHOICE, log entry 74). -/
def State.probeScan (s : State) (units : List Nat) (c : Cmd) (rds : List (Nat × Nat)) (ts : List Term) : Plan :=
  let w := c.body 3
  let x := bits w 0 6
  let k := bits w 8 12 + 1
  let h := s.idx x
  let ls := s.probeLists c h ts
  let got := ls.1.take ls.2
  let snap := if w.testBit 6 then c.snap else c.body 4
  let pq := s.iread x h.pq (h.cb * 512 * h.sub)
  let side := s.sideReads x h
  let parts := s.shares units x h c.ten ts got
  let reads := parts.flatMap (·.reads)
  let more := side ++ pq :: reads ++ parts.flatMap fun p => (List.replicate p.again side).flatten
  let work := s.scanBytes c.unit (ownReads c.ten rds ++ side ++ [pq]) :: parts.flatMap (s.shareWork side)
  let dst := (c.body 2, 64 + 32 * k)
  let cands := got.flatMap (·.cands)
  let pk := select negInf k cands
  if !w.testBit 6 ∧ got.any (fun l => decide (snap < l.dir.seq)) then
    let dirs := got.map fun l => s.iread x (h.dir + 32 * l.list) 32
    .goX (side ++ dirs) (trackOf dirs) rds [] ⟨stSnapStale, [], [s.scanBytes c.unit (ownReads c.ten rds ++ side ++ dirs)]⟩
  else .goX more (trackOf (pq :: reads)) rds (if got.any (fun l => decide (131072 < l.relevant)) then [] else [dst])
    (if got.any (fun l => decide (131072 < l.relevant)) then ⟨stSideDense, [], work⟩
     else ⟨stDone, [pk.sel.length, got.length, cands.length, lsum (got.map (·.relevant))],
      work ++ [.write (key c.ten dst.1) (resultList (decide (cands.length < k)) x k got.length snap (sumF64 pk.selVals)
        (sumF64 pk.rejVals) pk.ties pk.nans cands.length 0 pk.sel)]⟩)

/-- What a `scan.probe` comes to (R231 to R234, R240 to R242). -/
def State.probePlan (s : State) (units : List Nat) (c : Cmd) : Plan :=
  let w := c.body 3
  let k := bits w 8 12 + 1
  let p := bits w 20 22 + 1
  let limit := bits w 42 22 + 1
  match c.barred with
  | some st => .refuse st
  | none =>
    let h := s.idx (bits w 0 6)
    if limit < p ∨ h.lists < limit ∨ c.body 0 % 64 ≠ 0 then .refuse stBadField
    else if beatCap < 512 + ceilDiv h.lists 512 + h.dim * (if h.metric = 2 then limit else 1) +
        limit * ceilDiv (h.maxList * (h.cb + 8)) 2048 + ceilDiv (h.sideCap * h.entry) 2048 then .refuse stLength
    else
      let rds := [(c.body 0, 2 * h.dim), (c.body 1, 4 * h.lists)]
      let dst := [(c.body 2, 64 + 32 * k)]
      match s.predicate c.ten (c.body 5) with
      | .reach ps => .reach [] (rds ++ ps) dst
      | .bad ps => Plan.refuseRead ps stBadField
      | .terms ps ts => if s.access .scan c.ten (rds ++ ps) [] = .ok then s.probeScan units c (rds ++ ps) ts else .reach [] (rds ++ ps) dst

/-- SCAN_PROBE (R231). -/
def execScanProbe (t : Nat) (s : State) : Host.Outcome State Fault Refusal :=
  s.opRow t 0x02 0x01 .scan (s.probePlan (s.scanUnits t))

/-! ## Re-scoring (R235, R236) -/

/-- The entries of a result list read from memory: the first n. -/
def State.entries (s : State) (ten src n : Nat) : List Cand := (List.range n).map fun i => entryOf (s.vrun ten (src + 64 + 32 * i) 32)

/-- The address of an ID's full vector, modulo 2^64 (R235). -/
def IdxHdr.vec (h : IdxHdr) (id : Nat) : Nat := (h.full + (id + 2 ^ 64 - h.firstId) * h.vecBytes) % 2 ^ 64

/-- Whether a full vector lies in an uncorrectable store sector (R236). -/
def State.vecBad (s : State) (h : IdxHdr) (id : Nat) : Bool := !(s.badSectorsOf spModule (h.vec id, h.vecBytes)).isEmpty

/-- The exact score of a full vector (R235). -/
def State.exactScore (s : State) (h : IdxHdr) (q : List FVal) (id : Nat) : Nat :=
  let f := if h.fullFmt = 0 then 1 else if h.fullFmt = 1 then 2 else 0
  let v := valsOf f h.dim (s.vrun spModule (h.vec id) h.vecBytes)
  if h.metric = 2 then roundF .fp32 false (fneg (r32 (distF q v))) else roundF .fp32 false (dotF q v)

/-- The entries of the result list that a `scan.rescore` reads. -/
def State.rescoreIn (s : State) (c : Cmd) : List Cand :=
  s.entries c.ten (c.body 0) (min (bits (s.vword c.ten (c.body 0)) 32 13) 4096)

/-- What a `scan.rescore` comes to: the full vectors are read as `cel.gather` reads its records, tracked where they are the module's own
(07 R202). -/
def State.rescorePlan (s : State) (c : Cmd) : Plan :=
  let src := c.body 0
  let k := bits (c.body 1) 6 12 + 1
  let dst := c.body 3
  match c.barred with
  | some st => .refuse st
  | none =>
    let h := s.idx (bits (c.body 1) 0 6)
    let es := s.rescoreIn c
    let rds := [(src, 64 + 32 * es.length), (c.body 2, 2 * h.dim)]
    if s.access .scan c.ten [(src, 64)] [] ≠ .ok then .reach [] [(src, 64), (c.body 2, 2 * h.dim)] [(dst, 64 + 32 * k)]
    else if beatCap < 512 + 2 * es.length * ceilDiv h.vecBytes 4096 then Plan.refuseRead [(src, 64)] stLength
    else if s.access .scan c.ten rds [] ≠ .ok then .reach [] rds [(dst, 64 + 32 * k)]
    else
      let hd := s.vwords c.ten src 8
      let ok := es.filter fun e => !s.vecBad h e.id
      let q := queryOf h.metric (valsOf 1 h.dim (s.vrun c.ten (c.body 2) (2 * h.dim)))
      let pk := select negInf k (ok.map fun e => { e with score := s.exactScore h q e.id })
      let sectors := lsum (es.map fun e => (s.nandSectors spModule (h.vec e.id, h.vecBytes)).length)
      let vecs := es.map fun e => (⟨.cellar, spModule, h.vec e.id, h.vecBytes⟩ : Read)
      .goX vecs (trackOf vecs) rds [(dst, 64 + 32 * k)]
        ⟨stDone, [pk.sel.length, sectors, es.length - ok.length, 0],
          [s.scanBytes c.unit (ownReads c.ten rds ++ vecs),
            .write (key c.ten dst) (resultList ((nw hd 0).testBit 8) (bits (nw hd 0) 16 6) k (bits (nw hd 1) 16 23) (nw hd 2)
              (sumF64 pk.selVals) (sumF64 pk.rejVals) pk.ties pk.nans (nw hd 6) 0 pk.sel)]⟩

/-- The store sectors that a `scan.rescore` finds uncorrectable as it reads its vectors. -/
def State.rescoreBad (s : State) (t : Nat) : List (Nat × Nat) :=
  match s.cmd t with
  | none => []
  | some c =>
    if c.st = .running ∧ c.done = none ∧ dClass c.words = 0x02 ∧ dOp c.words = 0x02 ∧ !s.fetching t ∧ !s.pw.absent.contains 5 then
      match s.rescorePlan c with
      | .goX more _ rds wrs d =>
        if d.status = stDone ∧ s.toFetch c .scan more rds = [] ∧ (s.access .scan c.ten rds wrs).join (s.accessReads more) = .ok then
          more.flatMap fun r => s.badSectorsOf r.ten (r.va, r.len)
        else []
      | _ => []
    else []

/-- SCAN_RESCORE (R235, R236): an entry left out sets RESCORE_SKIP, and its sectors are reported (07 R206). -/
def execScanRescore (t : Nat) (s : State) : Host.Outcome State Fault Refusal :=
  let bad := s.rescoreBad t
  let s := if bad.isEmpty then s else match s.cmd t with
    | some c => (s.reportSectors bad).raiseAt (R.SCN_ERR_RESCORE_SKIP c.unit) (some c.ten) 0 t
    | none => s
  s.opRow t 0x02 0x02 .scan s.rescorePlan

/-! ## Snapshots, inserts, deletes, folds (R222 to R230) -/

/-- SCAN_SNAP (R224): decided at its commit. -/
def execScanSnap (t : Nat) (s : State) : Host.Outcome State Fault Refusal :=
  s.opRow t 0x02 0x03 .scan fun c =>
    match c.barred with
    | some st => .refuse st
    | none => .go [] [] ⟨stDone, [], [.late]⟩

/-- The entries a `scan.insert` or `scan.delete` appends: ID, LIST, TOMB, ATTR and code bytes (R227). -/
def State.appended (s : State) (c : Cmd) (h : IdxHdr) : List (Nat × Nat × Bool × Nat × List Byte) :=
  (List.range (bits (c.body 1) 6 13)).map fun i =>
    if dOp c.words = 0x04 then
      let a := c.body 0 + i * h.entry
      let w := s.vword c.ten a
      let tomb := w.testBit 62
      (bits w 0 40, bits w 40 22, tomb, if tomb then 0 else s.vword c.ten (a + 16),
        if tomb then List.replicate h.cb 0 else s.vrun c.ten (a + 24) h.cb)
    else
      let a := c.body 0 + 16 * i
      (bits (s.vword c.ten a) 0 40, bits (s.vword c.ten (a + 8)) 0 22, true, 0, List.replicate h.cb 0)

/-- The shared row of inserts and deletes: the checks that other commits cannot change (R227, R241). -/
def State.appendRow (s : State) (t op : Nat) : Host.Outcome State Fault Refusal :=
  s.opRow t 0x02 op .scan fun c =>
    let x := bits (c.body 1) 0 6
    let n := bits (c.body 1) 6 13
    let h := s.idx x
    let len := n * (if op = 0x04 then h.entry else 16)
    if n = 0 ∨ 4096 < n then .refuse stBadField
    else match c.barred with
    | some st => .refuse st
    | none =>
      let rds := [(c.body 0, len)]
      let es := s.appended c h
      if s.access .scan c.ten rds [] ≠ .ok then .reach [] rds []
      else if es.any (fun e => decide (h.lists ≤ e.2.1)) then Plan.refuseRead rds stBadField
      else if es.any (fun e => decide (e.1 < h.firstId) || decide (h.firstId + h.span ≤ e.1)) then Plan.refuseRead rds stIdRange
      else .go rds [] ⟨stDone, [], [s.scanBytes c.unit (ownReads c.ten rds), .late]⟩

/-- SCAN_INSERT (R227). -/
def execScanInsert (t : Nat) (s : State) : Host.Outcome State Fault Refusal := s.appendRow t 0x04
/-- SCAN_DELETE (R227). -/
def execScanDelete (t : Nat) (s : State) : Host.Outcome State Fault Refusal := s.appendRow t 0x05

/-- The update table of a `scan.fold`: list numbers and directory entries' words. -/
def State.folds (s : State) (c : Cmd) : List (Nat × List Nat) :=
  (List.range (bits (c.body 1) 6 17)).map fun i =>
    let w := s.vwords c.ten (c.body 0 + 48 * i) 6
    (bits (nw w 0) 0 22, (w.drop 1).take 4)

/-- SCAN_FOLD (R229). -/
def execScanFold (t : Nat) (s : State) : Host.Outcome State Fault Refusal :=
  s.opRow t 0x02 0x06 .scan fun c =>
    let x := bits (c.body 1) 0 6
    let n := bits (c.body 1) 6 17
    if n = 0 ∨ 65536 < n then .refuse stBadField
    else match c.barred with
    | some st => .refuse st
    | none =>
      let rds := [(c.body 0, 48 * n)]
      let ls := (s.folds c).map (·.1)
      if s.access .scan c.ten rds [] ≠ .ok then .reach [] rds []
      else if ls.any (fun l => decide ((s.idx x).lists ≤ l)) ∨ (ls.foldl addNew []).length ≠ ls.length then Plan.refuseRead rds stBadField
      else .go rds [] ⟨stDone, [], [s.scanBytes c.unit (ownReads c.ten rds), .late]⟩

/-! ### At the commit point -/

/-- A side-list entry's bytes (Table 8.3). -/
def sideBytes (h : IdxHdr) (seq : Nat) (e : Nat × Nat × Bool × Nat × List Byte) : List Byte :=
  let body := bytesOf [e.1 + e.2.1 * 2 ^ 40 + (if e.2.2.1 then 2 ^ 62 else 0), seq, e.2.2.2.1] ++ e.2.2.2.2
  body ++ List.replicate (h.entry - body.length) 0

/-- The sequence value taken and the sequence advanced (R222). -/
def State.takeSeq (s : State) (x : Nat) : Nat × State :=
  let q := (s.reg (R.SCN_IDX_SEQ x)).toNat
  (q, s.setReg (R.SCN_IDX_SEQ x) (q + 1))

/-- Whether a probe has read an index's directory or HEAD (R226): it has scanned, or it is at work on its own snapshot and finds the
directory that a fold writes under sequence value f above it (R225; log entry 75). -/
def Cmd.probed (c : Cmd) (x f : Nat) : Bool :=
  dClass c.words == 0x02 && dOp c.words == 0x01 && bits (c.body 3) 0 6 == x && c.st.live &&
    (match c.done with
     | some d => d.status == stDone || d.status == stSnapStale || d.status == stSideDense
     | none => c.barred == none && (c.body 3).testBit 6 && decide (c.snap < f))

/-- The pages of a list region, by page number. -/
def DirEntry.vpns (d : DirEntry) (cb : Nat) : List Nat := pagesIn d.addr (d.size cb)

/-- A fold's installation of lists (R229): directory entries, page permissions, HEAD, LIVE, FLOOR; probes killed (R226). -/
def State.fold (s : State) (t : Nat) (c : Cmd) (x f remove : Nat) : State :=
  let h := s.idx x
  let us := s.folds c
  let old := us.map fun u => s.dirOf x h u.1
  let new := us.map fun u => dirEntry u.2
  let w := s.get (R.SCN_IDX_CTL_WRITER x)
  let s := us.foldl (fun s u => s.commitWrite (key (s.idxTen x (h.dir + 32 * u.1)) (h.dir + 32 * u.1))
    (bytesOf [nw u.2 0, nw u.2 1, nw u.2 2, f])) s
  let s := (old.flatMap fun d => d.vpns h.cb).foldl (fun s v =>
    (s.modPage (pageKey spModule v) fun p => { p with writer := some w, users := addNew p.users w }).modPage
      (pageKey w v) fun p => { p with writable := true }) s
  let s := (new.flatMap fun d => d.vpns h.cb).foldl (fun s v =>
    (s.modPage (pageKey spModule v) fun p => { p with writer := none }).modPage (pageKey w v) fun p => { p with writable := false }) s
  let live := s.get (R.SCN_IDX_SIDE_LIVE x)
  let s := s.put (R.SCN_IDX_SIDE_HEAD x) ((s.get (R.SCN_IDX_SIDE_HEAD x) + remove) % h.sideCap)
  let s := (s.put (R.SCN_IDX_SIDE_LIVE x) (live - remove)).setReg (R.SCN_IDX_FLOOR x) f
  s.x.cmds.foldl (fun s p => if p.1 ≠ t ∧ p.2.probed x f then s.killCmd p.1 .readClash else s) s

/-- A scan command at its commit point: the state after, the status, the results (R222, R227, R229, R588). -/
def State.scanCommit (s : State) (t : Nat) (c : Cmd) : State × Nat × List Nat :=
  let x := bits (c.body 1) 0 6
  let h := s.idx x
  let live := s.get (R.SCN_IDX_SIDE_LIVE x)
  match dOp c.words with
  | 0x03 => (s, stDone, [(s.reg (R.SCN_IDX_SEQ x)).toNat, 0, 0, 0])
  | 0x06 =>
    let remove := bits (c.body 2) 0 25
    if live < remove then (s, stCutRange, [])
    else
      let (f, s) := s.takeSeq x
      (s.fold t c x f remove, stDone, [f, bits (c.body 1) 6 17, remove, 0])
  | _ =>
    let es := s.appended c h
    if h.sideCap < live + es.length then (s, stSideFull, [])
    else
      let (q, s) := s.takeSeq x
      let s := (es.zipIdx).foldl (fun s e =>
        let a := s.sideAddr x h (live + e.2)
        s.commitWrite (key (s.idxTen x a) a) (sideBytes h q e.1)) s
      (s.put (R.SCN_IDX_SIDE_LIVE x) (live + es.length), stDone, [q, es.length, 0, 0])

/-! ## The gather (R237, R238, 09 R253, R254) -/

/-- The address of a slot of a gather area. -/
def slotAddr (area slotK i : Nat) : Nat := area + 64 + i * (64 + slotK * 32)

/-- SCAN_GATHER (R238). -/
def execScanGather (t : Nat) (s : State) : Host.Outcome State Fault Refusal :=
  s.opRow t 0x02 0x07 .scan fun c =>
    let area := c.body 0
    let n := bits (c.body 1) 0 9
    let k := bits (c.body 1) 9 12 + 1
    let dst := c.body 2
    let sk := bits (c.body 3) 0 13
    if area % 64 ≠ 0 ∨ n = 0 ∨ 256 < n ∨ sk = 0 ∨ 4096 < sk ∨ n * sk < k then .refuse stBadField
    else if beatCap < 512 + ceilDiv (n * sk) 64 then .refuse stLength
    else
      let heads := (area, 8) :: (List.range n).map fun i => (slotAddr area sk i, 64)
      let slots := (List.range n).filter fun i => s.vword c.ten (slotAddr area sk i) % 256 == 1
      let hd (i j : Nat) : Nat := s.vword c.ten (slotAddr area sk i + 8 * j)
      let count (i : Nat) : Nat := min (bits (hd i 0) 32 13) sk
      let rds := heads ++ slots.map fun i => (slotAddr area sk i + 64, 32 * count i)
      if s.access .scan c.ten heads [] ≠ .ok then .reach [] heads [(dst, 64 + 32 * k)]
      else
        let es := (slots.flatMap fun i => s.entries c.ten (slotAddr area sk i) (count i)).filter fun e => e.id != 0xFF_FFFF_FFFF
        let pk := select negInf k es
        let nans := pk.nans + lsum (slots.map fun i => bits (hd i 5) 32 32)
        let rej := pk.rejVals ++ slots.map fun i => decodeF .fp64 (hd i 4)
        let missing := n - slots.length
        let short := decide (0 < missing) || slots.any fun i => (hd i 0).testBit 8
        .go rds [(dst, 64 + 32 * k)]
          ⟨stDone, [pk.sel.length, slots.length, 0, 0],
            [s.scanBytes c.unit (ownReads c.ten rds),
              .write (key c.ten dst) (resultList short 0 k 0 0 (sumF64 pk.selVals) (sumF64 rej) pk.ties nans
                (lsum (slots.map fun i => hd i 6)) missing pk.sel)]⟩

end Sys2Proof.Machine
end

