-- ==== Sys2Proof/Machine/Text.lean ====
section
/-!
DEFINITION. The text unit (11): token words, the tokenizer, detokenizer streams and stop strings.
-/
namespace Sys2Proof.Machine

/-! ## UTF-8 -/

/-- The length of a well-formed sequence that starts with a byte, and the bounds of its second byte (Unicode Table 3-7). -/
def utf8Lead (b : Nat) : Nat × Nat × Nat :=
  if b < 0x80 then (1, 0, 0)
  else if b < 0xC2 then (0, 0, 0)
  else if b < 0xE0 then (2, 0x80, 0xBF)
  else if b = 0xE0 then (3, 0xA0, 0xBF)
  else if b = 0xED then (3, 0x80, 0x9F)
  else if b < 0xF0 then (3, 0x80, 0xBF)
  else if b = 0xF0 then (4, 0x90, 0xBF)
  else if b < 0xF4 then (4, 0x80, 0xBF)
  else if b = 0xF4 then (4, 0x80, 0x8F)
  else (0, 0, 0)

/-- How many of the first bytes of a run are the beginning of a well-formed sequence, and whether they are all of it. -/
def utf8Head (bs : List Byte) : Nat × Bool :=
  match bs with
  | [] => (0, false)
  | b :: rest =>
    let (n, lo, hi) := utf8Lead b.toNat
    if n = 0 then (0, false)
    else if n = 1 then (1, true)
    else
      let ok1 := match rest with
        | c :: _ => decide (lo ≤ c.toNat) && decide (c.toNat ≤ hi)
        | [] => false
      if !ok1 then (1, false)
      else
        let more := ((rest.drop 1).take (n - 2)).takeWhile fun c => decide (0x80 ≤ c.toNat) && decide (c.toNat ≤ 0xBF)
        (2 + more.length, 2 + more.length == n)

/-- A run cut into well-formed sequences and single ill-formed bytes: each byte with whether it is well-formed (R281). -/
def wellFormedGo : Nat → List Byte → List (Byte × Bool)
  | 0, _ => []
  | _, [] => []
  | k + 1, b :: rest =>
    let h := utf8Head (b :: rest)
    if h.2 then ((b :: rest).take h.1).map (·, true) ++ wellFormedGo k ((b :: rest).drop h.1)
    else (b, false) :: wellFormedGo k rest
def wellFormed (bs : List Byte) : List (Byte × Bool) := wellFormedGo bs.length bs

/-- Maximal ill-formed subparts replaced by U+FFFD (R287). -/
def repairGo : Nat → List Byte → List Byte
  | 0, _ => []
  | _, [] => []
  | k + 1, b :: rest =>
    let h := utf8Head (b :: rest)
    let n := max h.1 1
    (if h.2 then (b :: rest).take n else [0xEF, 0xBF, 0xBD]) ++ repairGo k ((b :: rest).drop n)
def repairUtf8 (bs : List Byte) : List Byte := repairGo bs.length bs

/-! ## Truncation and pieces (R279, R280) -/

/-- Whether a position is a character boundary. -/
def isBoundary (bs : List Byte) (i : Nat) : Bool :=
  match bs[i]? with
  | some b => decide (b.toNat < 0x80) || decide (0xBF < b.toNat)
  | none => true

/-- A cut moved back, or forward, to a boundary within 3 bytes; left where it is without one. -/
def cutBack (bs : List Byte) (i : Nat) : Nat := (([i, i - 1, i - 2, i - 3].find? (isBoundary bs))).getD i
def cutOn (bs : List Byte) (i : Nat) : Nat := (([i, i + 1, i + 2, i + 3].find? (isBoundary bs))).getD i

/-- The kept parts of a field and whether it was truncated (R279). -/
def keptParts (bs : List Byte) : List (List Byte) × Bool :=
  if bs.length ≤ 262144 then ([bs], false)
  else ([bs.take (cutBack bs 196608), bs.drop (cutOn bs (bs.length - 65536))], true)

/-- The places in a part where SPLIT 1 begins a piece. -/
def beginsPiece (bs : List Byte) (i : Nat) : Bool :=
  let b := bs[i]?
  let p := if i = 0 then none else bs[i - 1]?
  (b == some 0x20 && p != some 0x20) || b == some 0x0A || p == some 0x0A

/-- A list cut before every place that a test names. -/
def cutAtGo (test : Nat → Bool) : Nat → List Byte → List Byte → List (List Byte)
  | _, cur, [] => [cur]
  | i, cur, b :: rest => if i ≠ 0 ∧ test i then cur :: cutAtGo test (i + 1) [b] rest else cutAtGo test (i + 1) (cur ++ [b]) rest

/-- A piece longer than 4,096 bytes cut into shorter ones. -/
def cutLongGo : Nat → List Byte → List (List Byte)
  | 0, bs => [bs]
  | k + 1, bs =>
    if bs.length ≤ 4096 then [bs]
    else
      let n := cutBack bs 4096
      bs.take n :: cutLongGo k (bs.drop n)

/-- The pieces of a part under a SPLIT rule. -/
def pieces (split : Nat) (bs : List Byte) : List (List Byte) :=
  (if split = 1 then cutAtGo (beginsPiece bs) 0 [] bs else [bs]).flatMap fun p => cutLongGo p.length p

/-! ## The tokenizer (R276 to R283) -/

/-- The tokenizer's tables as loaded from the model-set image (Table 11.1). -/
structure Tok where
  split : Nat
  vocab : Nat
  merges : Nat
  byteBase : Nat
  mergeAddr : Nat
  vocabAddr : Nat
  pool : Nat

/-- The tokenizer whose header TXT_TAB names. -/
def State.tok (s : State) : Tok :=
  let a := (s.reg R.TXT_TAB).toNat
  let w (i : Nat) : Nat := s.vword spModule (a + 8 * i)
  { split := bits (w 0) 8 2, vocab := bits (w 0) 16 19, merges := bits (w 1) 0 19, byteBase := bits (w 1) 32 18
    mergeAddr := w 2, vocabAddr := w 3, pool := w 4 }

/-- Merge i: left, right and result. -/
def State.mergeOf (s : State) (k : Tok) (i : Nat) : Nat × Nat × Nat :=
  let w := s.vword spModule (k.mergeAddr + 8 * i)
  (bits w 0 18, bits w 18 18, bits w 36 18)

/-- The lowest rank of a merge of a pair. -/
def State.rankOf (s : State) (k : Tok) (l r : Nat) : Option Nat :=
  (List.range k.merges).find? fun i => (s.mergeOf k i).1 == l && (s.mergeOf k i).2.1 == r

/-- A symbol: its token and whether it is fixed. -/
abbrev Sym := Nat × Bool

/-- The ranks of the adjacent pairs of a piece that may merge. -/
def State.pairRanks (s : State) (k : Tok) : List Sym → List Nat
  | a :: b :: rest => (if a.2 || b.2 then [] else (s.rankOf k a.1 b.1).toList) ++ s.pairRanks k (b :: rest)
  | _ => []

/-- Every occurrence of a pair replaced, from the left, never overlapping. -/
def replacePairGo (l r res : Nat) : Nat → List Sym → List Sym
  | 0, xs => xs
  | k + 1, a :: b :: rest =>
    if !a.2 && !b.2 && a.1 == l && b.1 == r then (res, false) :: replacePairGo l r res k rest
    else a :: replacePairGo l r res k (b :: rest)
  | _, xs => xs

/-- The merge loop of R282. -/
def State.mergeLoop (s : State) (k : Tok) : Nat → List Sym → List Sym
  | 0, xs => xs
  | n + 1, xs =>
    match s.pairRanks k xs with
    | [] => xs
    | rs =>
      let (l, r, res) := s.mergeOf k (least rs)
      s.mergeLoop k n (replacePairGo l r res xs.length xs)

/-- The symbols of a piece: byte tokens, ill-formed bytes fixed (R281), then merges. -/
def State.encodePiece (s : State) (k : Tok) (p : List Byte) : List Sym :=
  let init := (wellFormed p).map fun b => (k.byteBase + b.1.toNat, !b.2)
  s.mergeLoop k init.length init

/-- The token array of a field: tokens, bytes kept, fixed tokens, truncated. -/
def State.encode (s : State) (bs : List Byte) : List Nat × Nat × Nat × Bool :=
  let k := s.tok
  let (parts, tr) := keptParts bs
  let syms := parts.flatMap fun p => if p.isEmpty then [] else (pieces k.split p).flatMap (s.encodePiece k)
  (syms.map (·.1), lsum (parts.map List.length), (syms.filter (·.2)).length, tr)

/-- A token word's bytes (R276). -/
def tokenBytes (ts : List Nat) : List Byte := ts.flatMap (leBytes 4)

/-- Token IDs read from memory. -/
def State.tokensAt (s : State) (ten va n : Nat) : List Nat := (List.range n).map fun i => bits (ofLe (s.vrun ten (va + 4 * i) 4)) 0 18

/-- A vocabulary entry's bytes; none of a SPECIAL token (R285). -/
def State.vocabBytes (s : State) (k : Tok) (t : Nat) : List Byte :=
  let w := s.vword spModule (k.vocabAddr + 8 * t)
  if w.testBit 41 then [] else s.vrun spModule (k.pool + bits w 0 32) (bits w 32 9)

/-- TXT_TOK (R279 to R283, Table 11.3). -/
def execTxtTok (t : Nat) (s : State) : Host.Outcome State Fault Refusal :=
  s.opRow t 0x05 0x01 .unit fun c =>
    let src := c.body 0
    let n := bits (c.body 1) 0 24
    let dst := c.body 2
    if dst % 4 ≠ 0 then .refuse stBadField
    else match s.access .unit c.ten [(src, n)] [] with
      | .ok =>
        let r := s.encode (s.vrun c.ten src n)
        let cut := if r.2.2.2 then 1 else 0
        let work := [workFx R.TXT_FALLBACK_FALLBACK r.2.2.1, workFx R.TXT_FALLBACK_TRUNCATED cut]
        if beatCap < 512 + 4 * r.2.1 then Plan.refuseRead [(src, n)] stLength
        else if bits (c.body 3) 0 19 < r.1.length then .go [(src, n)] [] ⟨0x40, [], work⟩
        else .go [(src, n)] [(dst, 4 * r.1.length)]
          ⟨stDone, [r.1.length, r.2.1, r.2.2.1, cut],
            [.write (key c.ten dst) (tokenBytes r.1), countFx R.TXT_BYTES_BYTES r.2.1, countFx R.TXT_TOKENS_TOKENS r.1.length] ++ work⟩
      | _ => .reach [] [(src, n)] [(dst, 4 * bits (c.body 3) 0 19)]

/-! ## Streams (R284 to R290) -/

/-- Whether a list ends with another. -/
def endsWith (xs ys : List Byte) : Bool := decide (ys.length ≤ xs.length) && xs.drop (xs.length - ys.length) == ys

/-- The longest stop string that completes at the end of the bytes: its index (R288). -/
def stopAt (stops : List (List Byte)) (bs : List Byte) : Option Nat :=
  (stops.zipIdx).foldl (fun (b : Option Nat) p =>
    if endsWith bs p.1 then
      match b with
      | some j => if (nth stops j []).length < p.1.length then some p.2 else b
      | none => some p.2
    else b) none

/-- Bytes added one at a time until a stop string completes: the bytes so far and its index. -/
def feedBytes (stops : List (List Byte)) : List Byte → List Byte → List Byte × Option Nat
  | acc, [] => (acc, none)
  | acc, b :: rest =>
    match stopAt stops (acc ++ [b]) with
    | some i => (acc ++ [b], some i)
    | none => feedBytes stops (acc ++ [b]) rest

/-- Tokens fed until one completes a stop string: unreleased bytes, tokens consumed, the stop string's index. -/
def State.feedTokens (s : State) (k : Tok) (stops : List (List Byte)) : List Byte → Nat → List Nat → List Byte × Nat × Option Nat
  | acc, n, [] => (acc, n, none)
  | acc, n, t :: ts =>
    match feedBytes stops acc (s.vocabBytes k t) with
    | (a, some i) => (a, n + 1, some i)
    | (a, none) => s.feedTokens k stops a (n + 1) ts

/-- Whether a list is a beginning of another that does not reach its end. -/
def properStart (xs ys : List Byte) : Bool := decide (xs.length < ys.length) && ys.take xs.length == xs

/-- Whether bytes are the beginning, and not all, of a well-formed sequence. -/
def utf8Part (bs : List Byte) : Bool :=
  let h := utf8Head bs
  decide (0 < h.1) && !h.2 && h.1 == bs.length

/-- The places where the well-formed sequences of a run of bytes start, ill-formed bytes by themselves. -/
def seqStartsGo : Nat → Nat → List Byte → List Nat
  | 0, _, _ => []
  | _, _, [] => []
  | k + 1, i, bs =>
    let h := utf8Head bs
    let n := if h.2 then h.1 else 1
    i :: seqStartsGo k (i + n) (bs.drop n)

/-- The length of the held tail of unreleased bytes (R286). -/
def heldTail (stops : List (List Byte)) (bs : List Byte) : Nat :=
  let n := bs.length
  let stop := lmax ((List.range 64).filter fun j => decide (j ≤ n) && stops.any fun x => properStart (bs.drop (n - j)) x)
  let utf := lmax ((List.range 4).filter fun j => decide (0 < j) && decide (j ≤ n) && utf8Part (bs.drop (n - j)))
  let cut := n - max stop utf
  let starts := seqStartsGo n 0 bs ++ [n]
  n - lmax (starts.filter (· ≤ cut))

/-- Released bytes, repaired or as they are (R287). -/
def Strm.out (v : Strm) (bs : List Byte) : List Byte := if v.repair then repairUtf8 bs else bs

/-- A stream's refusal: closed, or another tenancy's (Table 11.4). -/
def State.streamOf (s : State) (n ten : Nat) : Except Nat Strm :=
  match tfind s.tx.streams n with
  | none => .error 0x42
  | some v => if v.ten ≠ ten then .error 0x43 else .ok v

/-- The stop strings of a `txt.open`; none when a length is out of range. -/
def State.stopStrings (s : State) (ten va n : Nat) : Option (List (List Byte)) :=
  let ls := (List.range n).map fun i => (va + 72 * i + 8, bits (s.vword ten (va + 72 * i)) 0 7)
  if ls.all fun l => decide (1 ≤ l.2) && decide (l.2 ≤ 64) then some (ls.map fun l => s.vrun ten l.1 l.2) else none

/-- TXT_OPEN (R291). -/
def execTxtOpen (t : Nat) (s : State) : Host.Outcome State Fault Refusal :=
  s.opRow t 0x05 0x02 .unit fun c =>
    let w := c.body 0
    let n := bits w 0 12
    let ns := bits w 14 5
    let stops := c.body 1
    if 16 < ns ∨ stops % 8 ≠ 0 then .refuse stBadField
    else if (tfind s.tx.streams n).isSome then .refuse 0x41
    else match s.access .unit c.ten [(stops, 72 * ns)] [] with
      | .ok =>
        match s.stopStrings c.ten stops ns with
        | none => Plan.refuseRead [(stops, 72 * ns)] stBadField
        | some l => .go [(stops, 72 * ns)] []
            ⟨stDone, [n, ns, 0, 0], [.stream n (some ⟨c.ten, w.testBit 12, w.testBit 13, l, [], false⟩)]⟩
      | _ => .reach [] [(stops, 72 * ns)] []

/-- A feed's outcome on a stream: the bytes released, the stream after, tokens consumed, the stop string's index (R286 to R290). -/
def State.feed (s : State) (v : Strm) (ts : List Nat) : List Byte × Strm × Nat × Option Nat :=
  let (bs, n, stop) := s.feedTokens s.tok v.stops v.held 0 ts
  match stop with
  | some i =>
    let cut := if v.incl then bs else bs.take (bs.length - (nth v.stops i []).length)
    (v.out cut, { v with held := [], stopped := true }, n, some i)
  | none =>
    let h := heldTail v.stops bs
    (v.out (bs.take (bs.length - h)), { v with held := bs.drop (bs.length - h) }, n, none)

/-- TXT_FEED (R286 to R291). -/
def execTxtFeed (t : Nat) (s : State) : Host.Outcome State Fault Refusal :=
  let fresh : Bool := match s.cmd t with
    | some c => decide (c.st = .running ∧ c.done = none ∧ dClass c.words = 0x05 ∧ dOp c.words = 0x03)
    | none => false
  (if fresh then s.bump R.TXT_STOPS_FEEDS 1 else s).opRow t 0x05 0x03 .unit fun c =>
    let n := bits (c.body 0) 0 12
    let k := bits (c.body 0) 12 7
    let src := c.body 1
    let dst := c.body 2
    if k = 0 ∨ 64 < k then .refuse stBadField
    else match s.streamOf n c.ten with
    | .error e => .refuse e
    | .ok v =>
      if v.stopped then .refuse 0x44
      else match s.access .unit c.ten [(src, 4 * k)] [] with
        | .ok =>
          let ts := s.tokensAt c.ten src k
          if ts.any fun x => decide (s.tok.vocab ≤ x) then Plan.refuseRead [(src, 4 * k)] stBadField
          else
            let (out, v', used, stop) := s.feed v ts
            if c.body 3 < out.length then Plan.refuseRead [(src, 4 * k)] 0x45
            else .go [(src, 4 * k)] [(dst, out.length)]
              ⟨stDone, [out.length, used, (match stop with | some i => 1 + i * 2 ^ 8 | none => 0), v'.held.length],
                [.write (key c.ten dst) out, .stream n (some v'), countFx R.TXT_STOPS_STOPS (if stop.isSome then 1 else 0)]⟩
        | _ => .reach [] [(src, 4 * k)] [(dst, c.body 3)]

/-- TXT_CLOSE (R291). -/
def execTxtClose (t : Nat) (s : State) : Host.Outcome State Fault Refusal :=
  s.opRow t 0x05 0x04 .unit fun c =>
    let n := bits (c.body 0) 0 12
    let dst := c.body 1
    match s.streamOf n c.ten with
    | .error e => .refuse e
    | .ok v =>
      let out := if v.stopped then [] else v.out v.held
      if c.body 2 < out.length then .refuse 0x45
      else .go [] [(dst, out.length)] ⟨stDone, [out.length, 0, 0, 0], [.write (key c.ten dst) out, .stream n none]⟩

end Sys2Proof.Machine
end

