-- ==== Sys2Proof/Machine/Grammar.lean ====
section
/-!
DEFINITION. The grammar engine (12): images and their checks, sessions, masks, forced runs, and the grammar commands.
-/
namespace Sys2Proof.Machine

/-! ## The image (R297 to R302) -/

/-- A grammar image's header (Table 12.2), with the tenancy whose range holds it and its address. -/
structure Gram where
  ten : Nat
  at_ : Nat
  words : List Nat

def State.gram (s : State) (ten image : Nat) : Gram := ⟨ten, image, s.vwords ten image 8⟩

namespace Gram
def ver (g : Gram) : Nat := bits (nw g.words 0) 0 8
def nend (g : Gram) : Nat := bits (nw g.words 0) 8 2
def states (g : Gram) : Nat := bits (nw g.words 0) 16 16 + 1
def symbols (g : Gram) : Nat := bits (nw g.words 0) 32 12 + 1
def depth (g : Gram) : Nat := bits (nw g.words 0) 44 10 + 1
def masks (g : Gram) : Nat := bits (nw g.words 1) 0 10 + 1
def start (g : Gram) : Nat := bits (nw g.words 1) 16 16
def stateOff (g : Gram) : Nat := nw g.words 2
def edgeOff (g : Gram) : Nat := nw g.words 3
def symOff (g : Gram) : Nat := nw g.words 4
def maskOff (g : Gram) : Nat := nw g.words 5
def edges (g : Gram) : Nat := bits (nw g.words 6) 0 21
def symWords (g : Gram) : Nat := bits (nw g.words 6) 32 32
/-- The END tokens. -/
def ends (g : Gram) : List Nat :=
  ([bits (nw g.words 7) 0 18, bits (nw g.words 7) 18 18, bits (nw g.words 7) 36 18]).take g.nend
/-- Whether the header's reserved fields are zero. -/
def reservedOk (g : Gram) : Bool :=
  bits (nw g.words 0) 10 6 == 0 && bits (nw g.words 0) 54 10 == 0 && bits (nw g.words 1) 10 6 == 0 &&
    bits (nw g.words 1) 32 32 == 0 && bits (nw g.words 6) 21 11 == 0 && bits (nw g.words 7) 54 10 == 0
end Gram

/-- A state record (R298). -/
structure GState where
  mask : Nat
  accept : Bool
  count : Nat
  cond : Nat
  first : Nat
  resOk : Bool

def State.gState (s : State) (g : Gram) (q : Nat) : GState :=
  let a := s.vword g.ten (g.at_ + g.stateOff + 16 * q)
  let b := s.vword g.ten (g.at_ + g.stateOff + 16 * q + 8)
  ⟨bits a 0 10, a.testBit 10, bits a 16 19, bits a 35 13, bits b 0 32, bits a 11 5 == 0 && bits a 48 16 == 0 && bits b 32 32 == 0⟩

/-- An edge (R299), its pop string from the top down and its push string in push order. -/
structure GEdge where
  token : Nat
  popLen : Nat
  pushLen : Nat
  next : Nat
  popAt : Nat
  pushAt : Nat
  resOk : Bool

def State.gEdge (s : State) (g : Gram) (i : Nat) : GEdge :=
  let a := s.vword g.ten (g.at_ + g.edgeOff + 16 * i)
  let b := s.vword g.ten (g.at_ + g.edgeOff + 16 * i + 8)
  ⟨bits a 0 18, bits a 18 4, bits a 22 4, bits a 32 16, bits b 0 32, bits b 32 32, bits a 26 6 == 0 && bits a 48 16 == 0⟩

/-- Word i of the symbol pool, and the symbols of a run of it. -/
def State.gSym (s : State) (g : Gram) (i : Nat) : Nat := ofLe (s.vrun g.ten (g.at_ + g.symOff + 2 * i) 2)
def State.gSyms (s : State) (g : Gram) (at_ n : Nat) : List Nat := (List.range n).map fun i => s.gSym g (at_ + i) % 4096

/-- A bit of base mask m. -/
def State.gMask (s : State) (g : Gram) (m t : Nat) : Bool :=
  (ofLe (s.vrun g.ten (g.at_ + g.maskOff + 32768 * m + t / 8) 1)).testBit (t % 8)

/-- The edges of a state. -/
def GState.edgeIx (q : GState) : List Nat := upto q.first q.count

/-- Whether one list begins another. -/
def startsWith (xs ys : List Nat) : Bool := ys.take xs.length == xs

/-- The first index at which a test holds. -/
def firstBad (n : Nat) (bad : Nat → Bool) : Option Nat := (List.range n).find? bad

/-- Check 3's fault of a state, of an edge (Table 12.3). -/
def State.bad3State (s : State) (g : Gram) (q : Nat) : Bool :=
  let r := s.gState g q
  decide (g.masks ≤ r.mask) || decide (g.edges < r.first + r.count) || decide (r.count < r.cond) || decide (4096 < r.cond) || !r.resOk
def State.bad3Edge (s : State) (g : Gram) (i : Nat) : Bool := decide (g.states ≤ (s.gEdge g i).next) || !(s.gEdge g i).resOk

/-- Check 4's fault of an edge. -/
def State.bad4 (s : State) (g : Gram) (vocab i : Nat) : Bool :=
  let e := s.gEdge g i
  decide (vocab ≤ e.token) || g.ends.contains e.token || decide (8 < e.popLen) || decide (8 < e.pushLen) ||
    decide (g.symWords < e.popAt + e.popLen) || decide (g.symWords < e.pushAt + e.pushLen) ||
    (s.gSyms g e.popAt e.popLen ++ s.gSyms g e.pushAt e.pushLen).any fun y => decide (g.symbols ≤ y)

/-- Check 5's fault of a state, at its first edge out of place: POP_LEN of either run, and the order within each (R298). -/
def State.bad5 (s : State) (g : Gram) (q : Nat) : Option Nat :=
  let r := s.gState g q
  r.edgeIx.find? fun i =>
    let j := i - r.first
    let e := s.gEdge g i
    let p := s.gEdge g (i - 1)
    let inCond := decide (j < r.cond)
    (inCond != decide (1 ≤ e.popLen)) ||
      (j != 0 && j != r.cond && (decide (e.token < p.token) || (inCond && e.token == p.token && decide (e.popLen < p.popLen))))

/-- Check 6's fault of a state, at its first edge that clashes with an earlier one. -/
def State.bad6 (s : State) (g : Gram) (q : Nat) : Option Nat :=
  let ix := (s.gState g q).edgeIx
  ix.find? fun j => ix.any fun i =>
    let a := s.gEdge g i
    let b := s.gEdge g j
    decide (i < j) && a.token == b.token &&
      (a.popLen == 0 || b.popLen == 0 ||
        startsWith (s.gSyms g a.popAt a.popLen) (s.gSyms g b.popAt b.popLen) ||
        startsWith (s.gSyms g b.popAt b.popLen) (s.gSyms g a.popAt a.popLen))

/-- Check 7's fault of a base mask (R301). -/
def State.bad7 (s : State) (g : Gram) (vocab m : Nat) : Bool :=
  (List.range 262144).any fun t =>
    s.gMask g m t != (decide (t < vocab) && (List.range g.states).any fun q =>
      (s.gState g q).mask == m && ((s.gState g q).edgeIx.drop (s.gState g q).cond).any fun i => (s.gEdge g i).token == t)

/-- Whether a region of the image is in place (check 2). -/
def regionOk (bytes off len align : Nat) : Bool := off % align == 0 && decide (off + len ≤ bytes)

/-- The image checks in order (Table 12.3): the number of the first that fails, and the index it fails at: a state's, an edge's, a pool
word's or a mask's; START itself; 0 for the header. The edges per state of Table 12.1 are counted in check 1, after the regions of check 2
that hold them (DESIGN CHOICE, log entry 73). -/
def State.imageCheck (s : State) (g : Gram) (bytes vocab : Nat) : Option (Nat × Nat) :=
  let at3 (n : Nat) (r : Option Nat) : Option (Nat × Nat) := r.map fun i => (n, i)
  if g.ver ≠ 1 ∨ !g.reservedOk ∨ 67108864 < bytes ∨ g.edges = 0 ∨ 1048576 < g.edges then some (1, 0)
  else if !(regionOk bytes g.stateOff (16 * g.states) 16 && regionOk bytes g.edgeOff (16 * g.edges) 16 &&
      regionOk bytes g.symOff (2 * g.symWords) 2 && regionOk bytes g.maskOff (32768 * g.masks) 64) then some (2, 0)
  else match firstBad g.states fun q => decide (262144 < (s.gState g q).count) with
  | some q => some (1, q)
  | none =>
  if g.states ≤ g.start then some (3, g.start)
  else (at3 3 (firstBad g.states (s.bad3State g)))
    <|> (at3 3 (firstBad g.edges (s.bad3Edge g)))
    <|> (at3 3 (firstBad g.symWords fun i => decide (4096 ≤ s.gSym g i)))
    <|> (at3 4 ((g.ends.findIdx? fun t => decide (vocab ≤ t))))
    <|> (at3 4 (firstBad g.edges (s.bad4 g vocab)))
    <|> (at3 5 ((List.range g.states).findSome? (s.bad5 g)))
    <|> (at3 6 ((List.range g.states).findSome? (s.bad6 g)))
    <|> (at3 7 (firstBad g.masks (s.bad7 g vocab)))

/-! ## The automaton and sessions (R300, R303 to R307) -/

/-- A session (Table 12.4). -/
structure Sess where
  ver : Nat
  slot : Nat
  nogram : Bool
  fb : Nat
  spent : Bool
  done : Bool
  bans : List (List Nat)
  forces : List (Nat × List Nat)
  forcing : Bool
  fIdx : Nat
  fPos : Nat
  hist : List Nat
  state : Nat
  stack : List Nat
  off : Nat
  serial : Nat
  fbAddr : Nat
  nban : Nat
  nforce : Nat
  nhist : Nat
  depth : Nat

/-- Token words of a run of bytes. -/
def toks (n : Nat) (bs : List Byte) : List Nat := (List.range n).map fun i => ofLe ((bs.drop (4 * i)).take 4) % 2 ^ 18

/-- A list entry read from memory: its length, G, and its tokens. -/
def State.listEntry (s : State) (ten va lenBits : Nat) : Nat × Nat × List Nat :=
  let w := s.vword ten va
  let n := bits w 0 lenBits
  (n, bits w 8 6, s.tokensAt ten (va + 8) (min n 64))

/-- A session record read from memory. -/
def State.sess (s : State) (ten va : Nat) : Sess :=
  let w := s.vword ten va
  let v := s.vword ten (va + 8)
  let nban := bits w 19 7
  let nf := bits w 26 5
  let nh := bits w 45 6
  let d := bits v 16 11
  { ver := bits w 0 8, slot := bits w 8 6, nogram := w.testBit 14, fb := bits w 15 2, spent := w.testBit 17, done := w.testBit 18
    bans := (List.range (min nban 64)).map fun i => (s.listEntry ten (va + 0x100 + 72 * i) 5).2.2
    forces := (List.range (min nf 16)).map fun i => let e := s.listEntry ten (va + 0x1300 + 264 * i) 7; (e.2.1, e.2.2)
    forcing := w.testBit 31, fIdx := bits w 32 6, fPos := bits w 38 7
    hist := s.tokensAt ten (va + 0x2C00) nh, state := bits v 0 16
    stack := (List.range (min d 1024)).map fun i => ofLe (s.vrun ten (va + 0x2400 + 2 * i) 2)
    off := bits v 32 32, serial := s.vword ten (va + 0x10), fbAddr := s.vword ten (va + 0x18)
    nban := nban, nforce := nf, nhist := nh, depth := d }

/-- A session from the 16 KiB of its record. -/
def sessOf (bs : List Byte) : Sess :=
  let word (o : Nat) : Nat := ofLe ((bs.drop o).take 8)
  let entry (o lenBits : Nat) : Nat × List Nat := (bits (word o) 8 6, toks (min (bits (word o) 0 lenBits) 64) (bs.drop (o + 8)))
  let w := word 0
  let v := word 8
  { ver := bits w 0 8, slot := bits w 8 6, nogram := w.testBit 14, fb := bits w 15 2, spent := w.testBit 17, done := w.testBit 18
    bans := (List.range (bits w 19 7)).map fun i => (entry (0x100 + 72 * i) 5).2
    forces := (List.range (bits w 26 5)).map fun i => entry (0x1300 + 264 * i) 7
    forcing := w.testBit 31, fIdx := bits w 32 6, fPos := bits w 38 7
    hist := toks (bits w 45 6) (bs.drop 0x2C00), state := bits v 0 16
    stack := (List.range (bits v 16 11)).map fun i => ofLe ((bs.drop (0x2400 + 2 * i)).take 2)
    off := bits v 32 32, serial := word 0x10, fbAddr := word 0x18
    nban := bits w 19 7, nforce := bits w 26 5, nhist := bits w 45 6, depth := bits v 16 11 }

/-- A run of bytes filled with zeros to a length. -/
def fillTo (n : Nat) (bs : List Byte) : List Byte := bs ++ List.replicate (n - bs.length) 0

/-- The 16 KiB of a session record. -/
def Sess.bytes (x : Sess) : List Byte :=
  let b (p : Bool) (i : Nat) : Nat := if p then 2 ^ i else 0
  let w0 := 1 + x.slot * 2 ^ 8 + b x.nogram 14 + x.fb * 2 ^ 15 + b x.spent 17 + b x.done 18 + x.bans.length * 2 ^ 19 +
    x.forces.length * 2 ^ 26 + b x.forcing 31 + x.fIdx * 2 ^ 32 + x.fPos * 2 ^ 38 + x.hist.length * 2 ^ 45
  let w1 := x.state + x.stack.length * 2 ^ 16 + x.off % 2 ^ 32 * 2 ^ 32
  fillTo 16384 (
    fillTo 0x100 (bytesOf [w0, w1, x.serial, x.fbAddr]) ++
    fillTo 0x1200 (x.bans.flatMap fun l => fillTo 72 (leBytes 8 l.length ++ tokenBytes l)) ++
    fillTo 0x1100 (x.forces.flatMap fun f => fillTo 264 (leBytes 8 (f.2.length + f.1 * 2 ^ 8) ++ tokenBytes f.2)) ++
    fillTo 0x800 (x.stack.flatMap (leBytes 2)) ++ tokenBytes x.hist)

/-- Whether an edge matches a stack (R300), bottom first. -/
def State.edgeOk (s : State) (g : Gram) (st : List Nat) (e : GEdge) : Bool :=
  decide (e.popLen ≤ st.length) && st.reverse.take e.popLen == s.gSyms g e.popAt e.popLen &&
    decide (st.length - e.popLen + e.pushLen ≤ g.depth)

/-- The edge of the session's state that matches for a token. -/
def State.edgeFor (s : State) (g : Gram) (x : Sess) (t : Nat) : Option GEdge :=
  ((s.gState g x.state).edgeIx.map (s.gEdge g)).find? fun e => e.token == t && s.edgeOk g x.stack e

/-- The lowest-numbered forcing that starts: one with G of 0 before the first generated token, else one whose first G tokens
the history ends with (R306). -/
def startForce (x : Sess) (opening : Bool) : Sess :=
  if x.forcing then x else
  match x.forces.findIdx? fun f =>
      if opening then f.1 == 0
      else f.1 != 0 && decide (f.1 ≤ x.hist.length) && x.hist.drop (x.hist.length - f.1) == f.2.take f.1 with
  | some i => { x with forcing := true, fIdx := i, fPos := (nth x.forces i (0, [])).1 }
  | none => x

/-- The token an active forcing permits. -/
def Sess.forced (x : Sess) : Nat := nw (nth x.forces x.fIdx (0, [])).2 x.fPos

/-- The end of a forcing on a committed token (R306). -/
def endForce (x : Sess) (t : Nat) : Sess :=
  if !x.forcing then x
  else if t = x.forced then
    if x.fPos + 1 = (nth x.forces x.fIdx (0, [])).2.length then { x with forcing := false, fIdx := 0, fPos := 0 }
    else { x with fPos := x.fPos + 1 }
  else { x with forcing := false, fIdx := 0, fPos := 0 }

/-- A session advanced over a committed token (R307). -/
def State.advance (s : State) (g : Gram) (x : Sess) (t : Nat) : Sess :=
  let h := x.hist ++ [t]
  let x := { x with hist := h.drop (h.length - 63) }
  let x :=
    if x.nogram then x
    else if g.ends.contains t then { x with done := true }
    else match s.edgeFor g x t with
      | some e => { x with state := e.next, stack := x.stack.take (x.stack.length - e.popLen) ++ s.gSyms g e.pushAt e.pushLen }
      | none => { x with off := (x.off + 1) % 2 ^ 32 }
  startForce (endForce x t) false

/-! ## Masks (R305, R308) -/

/-- Whether a banned sequence forbids a token (R305). -/
def banned (x : Sess) (t : Nat) : Bool :=
  x.bans.any fun b => b.getLast? == some t &&
    decide (b.length - 1 ≤ x.hist.length) && x.hist.drop (x.hist.length - (b.length - 1)) == b.take (b.length - 1)

/-- Whether a token is permitted at the session's next position (R308). -/
def State.permits (s : State) (g : Gram) (vocab : Nat) (x : Sess) (t : Nat) : Bool :=
  decide (t < vocab) &&
    (x.nogram || (s.edgeFor g x t).isSome || (g.ends.contains t && (s.gState g x.state).accept && x.stack.isEmpty)) &&
    !banned x t && (!x.forcing || t == x.forced)

/-- The tokens of a mask in rising order. -/
def State.maskToks (s : State) (g : Gram) (vocab : Nat) (x : Sess) : List Nat := (List.range vocab).filter (s.permits g vocab x)

/-- The 32,768 bytes of a mask. -/
def maskBytes (ts : List Nat) : List Byte :=
  (List.range 32768).map fun i => BitVec.ofNat 8 (lsum ((List.range 8).map fun b => if ts.contains (8 * i + b) then 2 ^ b else 0))

/-! ## Slots and statuses (R303, R304, R316) -/

/-- The refusal of a slot: another tenancy's first, then empty (R316). -/
def State.slotBad (s : State) (slot ten : Nat) : Option Nat :=
  if s.get (R.TXT_GRM_SLOT_VALID slot) = 0 then some 0x52
  else if s.get (R.TXT_GRM_SLOT_TEN slot) ≠ ten then some 0x53 else none

/-- The refusal of a session's slot: also one loaded again since. -/
def State.sessSlotBad (s : State) (x : Sess) (ten : Nat) : Option Nat :=
  match s.slotBad x.slot ten with
  | some e => some e
  | none => if (s.reg (R.TXT_GRM_SERIAL x.slot)).toNat ≠ x.serial then some 0x52 else none

/-- The grammar in a slot. -/
def State.slotGram (s : State) (slot ten : Nat) : Gram := s.gram ten (s.reg (R.TXT_GRM_IMAGE slot)).toNat

/-- Whether list entries are in range (R304). -/
def bansOk (vocab : Nat) (ls : List (Nat × Nat × List Nat)) : Bool :=
  ls.all fun e => decide (1 ≤ e.1) && decide (e.1 ≤ 16) && e.2.2.all fun t => decide (t < vocab)
def forcesOk (vocab : Nat) (ls : List (Nat × Nat × List Nat)) : Bool :=
  ls.all fun e => decide (1 ≤ e.1) && decide (e.1 ≤ 64) && decide (e.2.1 < e.1) && e.2.2.all fun t => decide (t < vocab)

def State.banEntries (s : State) (ten va n : Nat) : List (Nat × Nat × List Nat) :=
  (List.range n).map fun i => s.listEntry ten (va + 72 * i) 5
def State.forceEntries (s : State) (ten va n : Nat) : List (Nat × Nat × List Nat) :=
  (List.range n).map fun i => s.listEntry ten (va + 264 * i) 7

/-- Whether a record is consistent (R303). -/
def State.sessOk (s : State) (g : Gram) (ten va : Nat) (x : Sess) : Bool :=
  let v := s.tok.vocab
  x.ver == 1 && decide (x.state < g.states) && decide (x.depth ≤ g.depth) && x.stack.all (fun y => decide (y < g.symbols)) &&
    decide (x.nhist ≤ 63) && decide (x.nban ≤ 64) && decide (x.nforce ≤ 16) &&
    (!x.forcing || (decide (x.fIdx < x.nforce) && decide (x.fPos < (nth x.forces x.fIdx (0, [])).2.length))) &&
    bansOk v (s.banEntries ten (va + 0x100) (min x.nban 64)) && forcesOk v (s.forceEntries ten (va + 0x1300) (min x.nforce 16))

/-! ## The commands (R313 to R317) -/

/-- What a `grm.load` comes to but for its slot (R302). -/
def State.loadPlan (s : State) (c : Cmd) : Plan :=
  let image := c.body 0
  let n := bits (c.body 2) 0 27
  if image % pageBytes ≠ 0 then .refuse stBadField
  else if beatCap < 512 + n / 64 then .refuse stLength
  else match s.access .unit c.ten [(image, n)] [] with
    | .ok =>
      match s.imageCheck (s.gram c.ten image) n s.tok.vocab with
      | some (k, i) => .go [(image, n)] [] ⟨0x50, [0, k, i], []⟩
      | none => .go [(image, n)] [] ⟨stDone, [], [.late]⟩
    | _ => .reach [] [(image, n)] []

/-- GRM_LOAD (R302): the slot is decided at the commit. -/
def execGrmLoad (t : Nat) (s : State) : Host.Outcome State Fault Refusal := s.opRow t 0x05 0x10 .unit s.loadPlan

/-- GRM_UNLOAD (R316). -/
def execGrmUnload (t : Nat) (s : State) : Host.Outcome State Fault Refusal :=
  s.opRow t 0x05 0x11 .unit fun _ => .go [] [] ⟨stDone, [0, 0, 0, 0], [.late]⟩

/-- A session as `grm.open` begins it. -/
def State.newSess (s : State) (ten slot : Nat) (nogram : Bool) (fb fbAddr : Nat) (bans forces : List (Nat × Nat × List Nat)) : Sess :=
  startForce {
    ver := 1, slot := slot, nogram := nogram, fb := fb, spent := false, done := false
    bans := bans.map (·.2.2), forces := forces.map fun e => (e.2.1, e.2.2)
    forcing := false, fIdx := 0, fPos := 0, hist := [], state := (s.slotGram slot ten).start, stack := [], off := 0
    serial := (s.reg (R.TXT_GRM_SERIAL slot)).toNat, fbAddr := fbAddr, nban := bans.length, nforce := forces.length, nhist := 0, depth := 0 } true

/-- What a `grm.open` comes to (R304). -/
def State.openPlan (s : State) (c : Cmd) : Plan :=
  let va := c.body 0
  let w := c.body 1
  let slot := bits w 0 6
  let nb := bits w 9 7
  let nf := bits w 16 5
  let fb := bits w 7 2
  if va % 64 ≠ 0 ∨ 64 < nb ∨ 16 < nf ∨ fb = 3 ∨ (fb = 2 ∧ c.body 4 % 64 ≠ 0) then .refuse stBadField
  else match s.slotBad slot c.ten with
    | some e => .refuse e
    | none =>
      let rds := [(c.body 2, 72 * nb), (c.body 3, 264 * nf)]
      match s.access .unit c.ten rds [] with
      | .ok =>
        let bans := s.banEntries c.ten (c.body 2) nb
        let forces := s.forceEntries c.ten (c.body 3) nf
        if !bansOk s.tok.vocab bans ∨ !forcesOk s.tok.vocab forces then Plan.refuseRead rds 0x56
        else
          let g := s.slotGram slot c.ten
          let x := s.newSess c.ten slot (w.testBit 6) fb (c.body 4) bans forces
          .go rds [(va, 16384)] ⟨stDone, [g.start, 0, 0, 0], [.write (key c.ten va) x.bytes]⟩
      | _ => .reach [] rds [(va, 16384)]

/-- GRM_OPEN (R304). -/
def execGrmOpen (t : Nat) (s : State) : Host.Outcome State Fault Refusal := s.opRow t 0x05 0x12 .unit s.openPlan

/-- A run of forced tokens from a session (R310): its tokens, the masks of the positions after each, whether it ends on an END
token, whether the mask after it is empty. -/
def State.runGo (s : State) (g : Gram) (vocab : Nat) : Nat → Sess → Nat → List Nat × List (List Nat) × Bool × Bool
  | 0, _, _ => ([], [], false, false)
  | k + 1, x, r =>
    let x := s.advance g x r
    if g.ends.contains r then ([r], [], true, false)
    else
      let m := s.maskToks g vocab x
      match m with
      | [] => ([r], [m], false, true)
      | [r'] =>
        if k = 0 then ([r], [m], false, false)
        else
          let (ts, ms, e, cut) := s.runGo g vocab k x r'
          (r :: ts, m :: ms, e, cut)
      | _ => ([r], [m], false, false)

/-- The permitted tokens of a fallback (R311): the END tokens, or the mask at FALLBACK_ADDR as it stands. -/
def State.fallback (s : State) (g : Gram) (ten : Nat) (x : Sess) : List Nat :=
  if x.fb = 1 then sortBy (fun a b => decide (a ≤ b)) (g.ends.foldl addNew [])
  else (List.range 262144).filter fun t => (ofLe (s.vrun ten (x.fbAddr + t / 8) 1)).testBit (t % 8)

/-- A session along tokens: as it is before each, and after the last. -/
def State.trail (s : State) (g : Gram) : Sess → List Nat → List Sess
  | x, [] => [x]
  | x, t :: ts => x :: s.trail g (s.advance g x t) ts

/-- The parts of its image that a session's state is read from: record, edges, base mask. -/
def State.gramReads (s : State) (g : Gram) (x : Sess) : List (Nat × Nat) :=
  if x.nogram then [] else
  let r := s.gState g x.state
  [(g.at_ + g.stateOff + 16 * x.state, 16), (g.at_ + g.edgeOff + 16 * r.first, 16 * r.count), (g.at_ + g.maskOff + 32768 * r.mask, 32768)]

/-- What a command finds in its session record: a refusal, or the grammar and the session (R303, R316). -/
def State.session (s : State) (c : Cmd) (ended : Bool) : Except Nat (Gram × Sess) :=
  let x := s.sess c.ten (c.body 0)
  match s.sessSlotBad x c.ten with
  | some e => .error e
  | none =>
    let g := s.slotGram x.slot c.ten
    if ended && x.done then .error 0x55
    else if !s.sessOk g c.ten (c.body 0) x then .error 0x54
    else .ok (g, x)

/-- What a `grm.step` comes to (R310 to R314). -/
def State.stepPlan (s : State) (c : Cmd) : Plan :=
  let va := c.body 0
  let n := bits (c.body 1) 0 4
  let rm := bits (c.body 1) 4 4
  let dst := c.body 3
  let rds := [(va, 16384), (c.body 2, 4 * n)]
  let all := [(va, 16384), (dst, 64 + 32768 * (1 + rm))]
  if dst % 64 ≠ 0 ∨ 9 < n ∨ 8 < rm then .refuse stBadField
  else match s.access .unit c.ten rds [] with
    | .ok =>
      match s.session c true with
      | .error e => Plan.refuseRead rds e
      | .ok (g, x) =>
        let v := s.tok.vocab
        let ts := s.tokensAt c.ten (c.body 2) n
        if ts.any fun t => decide (v ≤ t) then Plan.refuseRead rds stBadField
        else
          let seen := s.trail g x ts
          let x := ts.foldl (s.advance g) x
          let m := s.maskToks g v x
          let useFb := m.isEmpty && (x.fb == 1 || x.fb == 2) && !x.spent
          let fbRead := if useFb && x.fb == 2 then [(x.fbAddr, 32768)] else []
          match s.access .unit c.ten fbRead [] with
          | .ok =>
            let m0 := if useFb then s.fallback g c.ten x else m
            let run := match m0 with
              | [r] => if rm ≠ 0 ∧ !useFb then s.runGo g v rm x r else ([], [], false, false)
              | _ => ([], [], false, false)
            let masks := m0 :: run.2.1
            let dead := m0.isEmpty
            let b (p : Bool) (i : Nat) : Nat := if p then 2 ^ i else 0
            let w0 := 1 + masks.length * 2 ^ 8 + run.1.length * 2 ^ 12 + b useFb 16 + b dead 17 + b run.2.2.1 18 + b run.2.2.2 19
            let w1 := m0.length + x.state * 2 ^ 32 + x.stack.length * 2 ^ 48
            let hd := fillTo 64 (bytesOf [w0, w1] ++ tokenBytes run.1)
            let seen := seen ++ (s.trail g x run.1).drop 1
            let x := { x with spent := x.spent || useFb }
            .go (rds ++ seen.flatMap (s.gramReads g) ++ fbRead) [(va, 16384), (dst, 64 + 32768 * masks.length)]
              ⟨stDone, [w0, w1, 0, 0],
                [.write (key c.ten va) x.bytes, .write (key c.ten dst) (hd ++ masks.flatMap maskBytes),
                  countFx R.TXT_GRM_MASKS_MASKS masks.length, workFx R.TXT_GRM_ENDS_DEAD (if dead then 1 else 0),
                  workFx R.TXT_GRM_ENDS_FALLBACKS (if useFb then 1 else 0), workFx R.TXT_GRM_RUNS_RUN_TOKENS run.1.length]⟩
          | _ => .reach [] (rds ++ fbRead) all
    | _ => .reach [] rds all

/-- GRM_STEP (R307 to R314). -/
def execGrmStep (t : Nat) (s : State) : Host.Outcome State Fault Refusal := s.opRow t 0x05 0x13 .unit s.stepPlan

/-- The masks along a path (R315): after each proposal, empty from the first that is not permitted or after an END token; the
index at which it is cut, 15 for none. -/
def State.pathGo (s : State) (g : Gram) (vocab : Nat) : Nat → Sess → List Nat → List (List Nat) × Nat
  | _, _, [] => ([], 15)
  | i, x, d :: ds =>
    if !s.permits g vocab x d then (List.replicate (ds.length + 1) [], i)
    else if g.ends.contains d then (List.replicate (ds.length + 1) [], 15)
    else
      let x := s.advance g x d
      let (ms, cut) := s.pathGo g vocab (i + 1) x ds
      (s.maskToks g vocab x :: ms, cut)

/-- What a `grm.path` comes to. -/
def State.pathPlan (s : State) (c : Cmd) : Plan :=
  let va := c.body 0
  let n := bits (c.body 1) 0 4
  let dst := c.body 3
  let rds := [(va, 16384), (c.body 2, 4 * n)]
  let wrs := [(dst, 64 + 32768 * n)]
  if n = 0 ∨ 8 < n then .refuse stBadField
  else match s.access .unit c.ten rds [] with
    | .ok =>
      match s.session c true with
      | .error e => Plan.refuseRead rds e
      | .ok (g, x) =>
        let v := s.tok.vocab
        let ts := s.tokensAt c.ten (c.body 2) n
        if ts.any fun t => decide (v ≤ t) then Plan.refuseRead rds stBadField
        else
          let (ms, cut) := s.pathGo g v 0 x ts
          let w0 := 1 + n * 2 ^ 8 + cut * 2 ^ 12
          let seen := s.trail g x (ts.take (min cut (n - 1)))
          .go (rds ++ seen.flatMap (s.gramReads g)) wrs
            ⟨stDone, [w0, 0, 0, 0],
              [.write (key c.ten dst) (fillTo 64 (bytesOf [w0]) ++ ms.flatMap maskBytes), countFx R.TXT_GRM_MASKS_MASKS n]⟩
    | _ => .reach [] rds wrs

/-- GRM_PATH (R315). -/
def execGrmPath (t : Nat) (s : State) : Host.Outcome State Fault Refusal := s.opRow t 0x05 0x14 .unit s.pathPlan

/-- What a `grm.peek` comes to. -/
def State.peekPlan (s : State) (c : Cmd) : Plan :=
  let va := c.body 0
  let dst := c.body 1
  match s.access .unit c.ten [(va, 16384)] [] with
  | .ok =>
    match s.session c false with
    | .error e => Plan.refuseRead [(va, 16384)] e
    | .ok _ => .go [(va, 16384)] [(dst, 16384)] ⟨stDone, [0, 0, 0, 0], [.write (key c.ten dst) (s.vrun c.ten va 16384)]⟩
  | _ => .reach [] [(va, 16384)] [(dst, 16384)]

/-- GRM_PEEK (R313). -/
def execGrmPeek (t : Nat) (s : State) : Host.Outcome State Fault Refusal := s.opRow t 0x05 0x15 .unit s.peekPlan

/-! ## At the commit point (R316, R588) -/

/-- An image's pages pinned and made read-only, or released. -/
def State.markImage (s : State) (ten : Nat) (vpns : List Nat) (load : Bool) : State :=
  vpns.foldl (fun s v => s.modPage (pageKey ten v) fun p =>
    if load then { p with pin := 2, pinStack := none, writable := false } else { p with pin := 0, writable := true }) s

/-- The page numbers of the image in a slot of a tenancy; none where the slot is another's or empty. -/
def State.slotPages (s : State) (ten slot : Nat) : List Nat :=
  if s.get (R.TXT_GRM_SLOT_VALID slot) = 1 ∧ s.get (R.TXT_GRM_SLOT_TEN slot) = ten then
    pagesIn (s.reg (R.TXT_GRM_IMAGE slot)).toNat (tget s.tx.slotBytes slot 0)
  else []

/-- A slot emptied: the pages of its image that no other slot of the tenancy holds are released. -/
def State.emptySlot (s : State) (slot : Nat) : State :=
  let ten := s.get (R.TXT_GRM_SLOT_TEN slot)
  let others := ((List.range 64).filter (· != slot)).flatMap (s.slotPages ten)
  let s := s.markImage ten ((s.slotPages ten slot).filter (!others.contains ·)) false
  let s := ((s.resetReg (R.TXT_GRM_SLOT slot)).resetReg (R.TXT_GRM_IMAGE slot)).resetReg (R.TXT_GRM_SERIAL slot)
  { s with tx := { s.tx with slotBytes := tdel s.tx.slotBytes slot } }

/-- A grammar command that names a slot or session at its commit point: the status its slot gives it then, if any. -/
def State.grmSlotStatus (s : State) (c : Cmd) : Option Nat :=
  match dOp c.words with
  | 0x10 =>
    let slot := bits (c.body 1) 0 6
    match s.slotBad slot c.ten with
    | some 0x53 => some 0x53
    | some _ => none
    | none => some 0x51
  | 0x11 => s.slotBad (bits (c.body 1) 0 6) c.ten
  | 0x12 => s.slotBad (bits (c.body 1) 0 6) c.ten
  | _ => s.sessSlotBad (s.sess c.ten (c.body 0)) c.ten

/-- What a grammar command has made ready, as its slot stands at the commit point (R588). -/
def State.grmDone (s : State) (c : Cmd) (d : Done) : Done :=
  if 1 ≤ d.status ∧ d.status < 0x51 then d
  else match s.grmSlotStatus c with
  | some e => ⟨e, [], []⟩
  | none => d

/-- The serial in the session record that a `grm.open` is to write. -/
def Done.openSerial (d : Done) : Nat :=
  match d.effs with
  | .write _ bs :: _ => ofLe ((bs.drop 16).take 8)
  | _ => 0

/-- Whether a grammar command that is to commit was refused by a slot that no longer refuses it, or opened a session on a slot loaded
again since: it does its work again on the slot as it is now (R588). -/
def State.grmStale (s : State) (c : Cmd) (d : Done) : Bool :=
  dClass c.words == 0x05 && decide (0x10 ≤ dOp c.words) && (s.grmSlotStatus c).isNone &&
    ((decide (0x51 ≤ d.status) && decide (d.status ≤ 0x53)) ||
      (dOp c.words == 0x12 && d.status == stDone && d.openSerial != (s.reg (R.TXT_GRM_SERIAL (bits (c.body 1) 0 6))).toNat))

/-- The late effect of `grm.load` and `grm.unload`, with the commit's serial: the state and the results. -/
def State.grmCommit (s : State) (c : Cmd) (serial : Nat) : State × List Nat :=
  let slot := bits (c.body 1) 0 6
  if dOp c.words = 0x10 then
    let n := bits (c.body 2) 0 27
    let s := s.setReg (R.TXT_GRM_SLOT slot) (1 + c.ten * 2 ^ 8)
    let s := (s.setReg (R.TXT_GRM_IMAGE slot) (c.body 0)).setReg (R.TXT_GRM_SERIAL slot) serial
    let s := { s with tx := { s.tx with slotBytes := tset s.tx.slotBytes slot n } }
    (s.markImage c.ten (pagesIn (c.body 0) n) true, [serial, 0, 0, 0])
  else (s.emptySlot slot, [0, 0, 0, 0])

end Sys2Proof.Machine
end

