-- ==== Sys2Proof/Machine/Kv.lean ====
section
/-!
DEFINITION. What a loaded model set describes (10 R261, R262), and the key/value pages of requests on this module (13 R327 to R331): their
layout, page tables, the pages shared with a prefix, and their release.
-/
namespace Sys2Proof.Machine

/-! ## Templates (10 Table 10.2) -/

/-- The number of a template record. -/
def tplNumber (w : List Nat) : Nat := bits (nw w 0) 8 4

/-- The segments of a template record. -/
def tplSegments (w : List Nat) : List Segment :=
  (List.range (bits (nw w 0) 12 4)).map fun i =>
    let x := nw w (1 + 2 * i)
    ⟨bits x 0 3, bits x 8 7, bits x 16 16, bits x 32 16, nw w (2 + 2 * i)⟩

/-- A template of the model set. -/
def templateOf (m : ModelSet) (n : Nat) : List Segment := ((m.templates.find? fun w => tplNumber w == n).map tplSegments).getD []

/-- The tokens of a template's PREFIX. -/
def prefixLen (t : List Segment) : Nat := lsum (t.map fun g => if g.kind = 0 then g.count else 0)

/-! ## Pages (R327) -/

/-- The bytes of one position's keys in one layer: key/value heads times head dimension, one byte an element. -/
def kvBytes (m : ModelSet) : Nat := m.principal.kvHeads * m.principal.headDim

/-- The bytes of a key/value page. -/
def pageLen (m : ModelSet) : Nat := 128 * kvBytes m

/-- The offsets of a position's keys and values in its page: element i of head h lies at h * HD + i from there. -/
def keyOff (m : ModelSet) (pos : Nat) : Nat := pos % 64 * kvBytes m
def valOff (m : ModelSet) (pos : Nat) : Nat := 64 * kvBytes m + pos % 64 * kvBytes m

/-- The regions that hold the prefilled prefixes, pinned to the granary, and their bytes (10 R262). -/
def modelLayout (m : ModelSet) (l : Layout) : Layout :=
  { l with
    regions := l.regions ++ m.prefixes.map fun p => ⟨p.2.1, ceilDiv (p.2.1 % pageBytes + p.2.2.length) pageBytes, false, none, true⟩
    data := l.data ++ m.prefixes.map fun p => (p.2.1, p.2.2) }

/-! ## Page tables (R328) -/

/-- The pages of a layer that a page table can name, and the bytes of a table of 192 layers. -/
def tablePages : Nat := 2048
def tableBytes : Nat := 192 * tablePages * 8

/-- The address of entry (l, p) of a page table. -/
def entryAt (m : ModelSet) (table l p : Nat) : Nat := m.kvTables + table * tableBytes + (l * tablePages + p) * 8

/-- A page table entry (Table 13.2). -/
def entryWord (addr : Nat) (shared : Bool) : Nat := 1 + (if shared then 2 else 0) + addr % 2 ^ 56 / 64 * 64

/-- The key of a request's state on this module: its home, the batch's handle there, its row. -/
def kvKey (home h i : Nat) : Nat := home * 2 ^ 16 + h * 64 + i

def State.kvOf (s : State) (k : Nat) : Option KvReq := tfind s.sv.kv k
def State.setKv (s : State) (k : Nat) (q : KvReq) : State := { s with sv := { s.sv with kv := tset s.sv.kv k q } }

/-- The windows of this module's layers in order, 0 for a global layer; none when it is no stage. -/
def State.ownLayers (s : State) : List Nat :=
  match s.sv.model, s.stageOf s.ownAddr with
  | some m, some i => nth m.1.stages i []
  | _, _ => []

/-- The lowest number that a list lacks. -/
def leastFree (l : List Nat) : Nat := ((List.range (l.length + 1)).find? fun n => !l.contains n).getD 0

/-- A tenancy's requests on this module. -/
def State.kvMine (s : State) (ten : Nat) : List KvReq := (s.sv.kv.filter fun p => p.2.ten == ten).map (·.2)

/-- A word of a request's page table, and the address of the page it names. -/
def State.entry (s : State) (m : ModelSet) (q : KvReq) (l p : Nat) : Nat := s.vword q.ten (entryAt m q.table l p)
def entryAddr (w : Nat) : Nat := bits w 6 50 * 64

/-- A word of a request's page table written. -/
def State.setEntry (s : State) (m : ModelSet) (q : KvReq) (l p w : Nat) : State :=
  s.commitWrite (s.dkey q.ten (entryAt m q.table l p)) (leBytes 8 w)

/-- Entry (l, p) of a request present: a free private page of its tenancy is taken where it is not. -/
def State.takePage (s : State) (m : ModelSet) (k l p : Nat) : State :=
  match s.kvOf k with
  | none => s
  | some q =>
    if (s.entry m q l p).testBit 0 then s
    else
      let n := leastFree ((s.kvMine q.ten).flatMap fun r => tvals r.pages)
      (s.setKv k { q with pages := tset q.pages (l * tablePages + p) n }).setEntry m q l p (entryWord (m.kvPages + n * pageLen m) false)

/-- Entry (l, p) cleared; a private page returns to its tenancy's free pages, a shared one is dereferenced only (R330). -/
def State.dropEntry (s : State) (m : ModelSet) (k l p : Nat) : State :=
  match s.kvOf k with
  | none => s
  | some q => (s.setKv k { q with pages := tdel q.pages (l * tablePages + p) }).setEntry m q l p 0

/-- The pages of a prefix in one layer's table (10 R262, R329): its whole pages shared; a partial last page copied. -/
def State.sharePrefix (s : State) (m : ModelSet) (k count at_ l : Nat) : State :=
  match s.kvOf k with
  | none => s
  | some q =>
    let np := ceilDiv count 64
    let page (p : Nat) : Nat := at_ + (l * np + p) * pageLen m
    let s := (List.range (count / 64)).foldl (fun (s : State) p => s.setEntry m q l p (entryWord (page p) true)) s
    if count % 64 = 0 then s
    else
      let s := s.takePage m k l (count / 64)
      match s.kvOf k with
      | some q => s.commitWrite (s.dkey q.ten (entryAddr (s.entry m q l (count / 64)))) (s.vrun spModule (page (count / 64)) (pageLen m))
      | none => s

/-- A request's page table on this module begun anew at its admission (R329). -/
def State.kvOpen (s : State) (k ten template variant : Nat) : State :=
  match s.sv.model with
  | none => s
  | some (m, _) =>
    let ws := s.ownLayers
    if ws.isEmpty then s
    else
      let table := leastFree ((s.kvMine ten).map (·.table))
      let s := (s.setKv k { ten := ten, table := table }).clearRun (key ten (entryAt m table 0 0)) tableBytes
      match m.prefixes.find? fun p => p.1 == template with
      | some p =>
        if variant = 0 then
          (List.range ws.length).foldl (fun (s : State) l => s.sharePrefix m k (prefixLen (templateOf m template)) p.2.1 l) s
        else s
      | none => s

/-- A request's pages and page-table entries freed (14 R376). -/
def State.kvClose (s : State) (k : Nat) : State :=
  match s.kvOf k, s.sv.model with
  | some q, some (m, _) =>
    ({ s with sv := { s.sv with kv := tdel s.sv.kv k } } : State).clearRun (key q.ten (entryAt m q.table 0 0)) tableBytes
  | _, _ => { s with sv := { s.sv with kv := tdel s.sv.kv k } }

/-- The pages that a window layer has released once the next token to be fed has position n (R330); none of a global layer. -/
def windowFreed (w n : Nat) : Nat := if w = 0 ∨ n + 1 < w then 0 else (n + 1 - w) / 64

/-- The pages of a request once its valid length is V: those behind a window released (R330), those of the positions that the next step
may feed, up to V + 7, present (R328). -/
def State.kvAdvance (s : State) (k valid : Nat) : State :=
  match s.sv.model with
  | none => s
  | some (m, _) =>
    (s.ownLayers.zipIdx).foldl (fun (s : State) w =>
      let lo := windowFreed w.1 (valid - 1)
      let s := ((List.range lo).filter fun p => match s.kvOf k with
        | some q => (s.entry m q w.2 p).testBit 0
        | none => false).foldl (fun (s : State) p => s.dropEntry m k w.2 p) s
      (upto lo (ceilDiv (valid + 8) 64 - lo)).foldl (fun (s : State) p => s.takePage m k w.2 p) s) s

/-- The pages of a request's prompt present in every layer, before its first step (R328). -/
def State.kvPrompt (s : State) (k len : Nat) : State :=
  match s.sv.model with
  | none => s
  | some (m, _) =>
    (List.range s.ownLayers.length).foldl (fun (s : State) l =>
      (List.range (ceilDiv (len + 8) 64)).foldl (fun (s : State) p => s.takePage m k l p) s) s

/-- One position's keys and values of one layer put in a request's pages, as the runs of a commit; none without its page. -/
def State.kvRuns (s : State) (m : ModelSet) (k l pos : Nat) (keys vals : List Byte) : List (Nat × List Byte) :=
  match s.kvOf k with
  | none => []
  | some q =>
    let w := s.entry m q l (pos / 64)
    if w.testBit 0 then
      [(s.dkey q.ten (entryAddr w + keyOff m pos), keys), (s.dkey q.ten (entryAddr w + valOff m pos), vals)]
    else []

/-- A layer's entries as a twin is sent them: n positions from a slot of page p of layer l, in caravans of 4,096 bytes at most. -/
def State.mirKv (s : State) (m : ModelSet) (q : KvReq) (h i l p slot n : Nat) : State :=
  let a := entryAddr (s.entry m q l p)
  let data := s.vrun q.ten (a + keyOff m slot) (n * kvBytes m) ++ s.vrun q.ten (a + valOff m slot) (n * kvBytes m)
  let w := h + i * 2 ^ 10 + l * 2 ^ 16 + p * 2 ^ 24 + slot * 2 ^ 35 + n % 64 * 2 ^ 41
  (carPieces data).foldl (fun (s : State) c => s.mirror 0x21 q.ten [w] c.2) s

/-- The entries of row i of a batch at positions from lo up to hi sent to the twin, layer by layer (18 R469, R474). -/
def State.mirRow' (s : State) (h i lo hi : Nat) : State :=
  match s.sv.model, s.kvOf (kvKey s.ownAddr h i) with
  | some (m, _), some q =>
    (List.range s.ownLayers.length).foldl (fun (s : State) l =>
      (upto (lo / 64) (ceilDiv hi 64 - lo / 64)).foldl (fun (s : State) p =>
        let a := max lo (p * 64)
        let z := min hi (p * 64 + 64)
        if decide (z ≤ a) || !(s.entry m q l p).testBit 0 then s else s.mirKv m q h i l p (a % 64) (z - a)) s) s
  | _, _ => s

/-- Pieces of entries put together again: those after the first of a page's slots carry the same word, until all its bytes are there. -/
def joinKv (size : Nat) : List (List Nat × List Byte) → List (Nat × List Byte)
  | [] => []
  | (ws, d) :: rest => match joinKv size rest with
    | [] => [(nw ws 0, d)]
    | (w, e) :: more =>
      let n := if bits w 41 6 = 0 then 64 else bits w 41 6
      if w = nw ws 0 ∧ e.length < n * size then (w, d ++ e) :: more else (nw ws 0, d) :: (w, e) :: more

/-- A layer's entries that a twin has sent (16 Table 16.7): so many positions from a slot of a page, the keys of all and then the values
(DESIGN CHOICE, log entry 77). -/
def State.kvRestore (s : State) (k : Nat) (w : Nat) (data : List Byte) : State :=
  match s.sv.model with
  | none => s
  | some (m, _) =>
    let n := min (data.length / (2 * kvBytes m)) (if bits w 41 6 = 0 then 64 else bits w 41 6)
    let pos := bits w 24 11 * 64 + bits w 35 6
    let s := s.takePage m k (bits w 16 8) (bits w 24 11)
    s.commitWrites ((List.range n).flatMap fun i =>
      s.kvRuns m k (bits w 16 8) (pos + i) ((data.drop (i * kvBytes m)).take (kvBytes m)) ((data.drop ((n + i) * kvBytes m)).take (kvBytes m)))

end Sys2Proof.Machine
end

