-- ==== Sys2Proof/Machine/Sampling.lean ====
section
/-!
DEFINITION. Decoding (13 R334 to R343): scores, the nucleus, draws, verification of proposals, the draft length.
-/
namespace Sys2Proof.Machine

/-! ## Unit values (R338) -/

def xorShift (z k : Nat) : Nat := z ^^^ (z / 2 ^ k)

/-- `mix` of R338. -/
def mix (z : Nat) : Nat :=
  let z := xorShift (z % 2 ^ 64) 30 * 0xBF58476D1CE4E5B9 % 2 ^ 64
  let z := xorShift z 27 * 0x94D049BB133111EB % 2 ^ 64
  xorShift z 31

/-- `unit` of R338, as a value in FP64: streams 0 principal, 1 acceptance, 2 residual, 3 draft proposal. -/
def unitVal (seed pos stream : Nat) : FVal :=
  let seed := seed % 2 ^ 64
  let c := (pos * 2 ^ 8 ||| stream) % 2 ^ 64
  let x := mix (mix ((seed + c * 0x9E3779B97F4A7C15) % 2 ^ 64) ^^^ seed)
  .fin false (x / 2 ^ 11) (-53)

/-- The seed of a request (R333, R338). -/
def seedOf (r : Req) (ten : Nat) : Nat := if r.gen.seedEn then r.gen.seed else mix (r.reqId ^^^ ten)

/-! ## Distributions (R334 to R337) -/

/-- A value rounded once to FP64, to FP32. -/
def r64 (v : FVal) : FVal := decodeF .fp64 (roundF .fp64 false v)
def rnd32 (v : FVal) : FVal := decodeF .fp32 (roundF .fp32 false v)

/-- LOG2E (R332). -/
def log2e : FVal := decodeF .fp32 0x3FB8AA3B

/-- exp2 of R68 on a value. -/
def exp2V (v : FVal) : FVal := decodeF .fp32 (exp2F (roundF .fp32 false v))

/-- A position's distribution: the nucleus as tokens with weights, in its order, the highest score's token, NUMERIC, WIDE. -/
structure Dist where
  list : List (Nat × FVal)
  greedy : Option Nat
  numeric : Bool
  wide : Bool

/-- Probability 1 on one token. -/
def pointDist (t : Nat) (numeric : Bool) : Dist := ⟨[(t, .fin false 1 0)], some t, numeric, false⟩

/-- The tokens a mask permits among a vocabulary. -/
def permitted (vocab : Nat) (mask : Option (List Nat)) : List Nat :=
  match mask with
  | none => List.range vocab
  | some l => (List.range vocab).filter l.contains

/-- The scores of the candidates (R334): NaN and -infinity removed. -/
def scores (g : GenBlk) (p : PosIn) : List (Nat × FVal) :=
  ((permitted p.logits.length p.mask).map fun t =>
    let b := ((g.bias.find? fun e => e.1 == t).map (·.2)).getD 0
    (t, rnd32 (fadd (decodeF .fp32 (nw p.logits t)) (decodeF .fp32 b)))).filter fun e => !e.2.isNan && e.2 != .inf true

/-- The candidate of highest score, ties at the lower token (R335). -/
def best (cs : List (Nat × FVal)) : Option (Nat × FVal) :=
  cs.foldl (fun b c => match b with
    | none => some c
    | some d => if scoreGt c.2 d.2 || (!scoreGt d.2 c.2 && decide (c.1 < d.1)) then some c else b) none

/-- The prefix sums C_j of a list's weights, each formed exactly and rounded once to FP64 (R336). -/
def prefixGo : FVal → List (Nat × FVal) → List FVal
  | _, [] => []
  | a, e :: es => let b := fadd a e.2; r64 b :: prefixGo b es

def prefixSums (l : List (Nat × FVal)) : List FVal := prefixGo (.fin false 0 0) l

/-- a ≥ b. -/
def fge (a b : FVal) : Bool := !a.isNan && !b.isNan && fcmp a b != .lt

/-- The nucleus of weighted candidates in ascending token order (R336, steps 2 to 4). -/
def nucleus (g : GenBlk) (ws : List (Nat × FVal)) : List (Nat × FVal) × Bool :=
  let tp := decodeF .fp32 g.topP
  let cut := g.topP ≠ 0x3F800000
  let cands := ws.map fun e => (⟨roundF .fp32 false e.2, e.1, 0, false, 0, 0⟩ : Cand)
  let back (p : Picked) : List (Nat × FVal) := p.sel.map fun c => (c.id, c.val)
  if g.topK = 0 ∧ !cut then (ws, false)
  else
    let p := select negInf (if g.topK = 0 then 4096 else g.topK) cands
    let l := back p
    let ssel := decodeF .fp64 (sumF64 p.selVals)
    let w := if g.topK = 0 then decodeF .fp64 (sumF64 (ws.map (·.2))) else ssel
    if !cut then (l, false)
    else
      let target := r64 (fmul tp w)
      if g.topK = 0 && fcmp ssel target == .lt then (ws, true)
      else match (prefixSums l).findIdx? fun c => fge c target with
        | some j => (l.take (j + 1), false)
        | none => (l, false)

/-- A position's distribution (R334 to R336); an empty list when its mask permits no token. -/
def distOf (g : GenBlk) (p : PosIn) : Dist :=
  match best (scores g p) with
  | none =>
    match permitted p.logits.length p.mask with
    | [] => ⟨[], none, false, false⟩
    | t :: _ => pointDist t true
  | some (t, m) =>
    let temp := decodeF .fp32 g.temp
    if g.temp % 2 ^ 31 = 0 then pointDist t false
    else if m = .inf false then pointDist t true
    else
      let ws := (scores g p).map fun e =>
        let y := decodeF .fp32 (divF .fp32 (fsub e.2 m) temp)
        (e.1, exp2V (rnd32 (fmul y log2e)))
      let (l, wide) := nucleus g ws
      ⟨l, some t, false, wide⟩

/-- Whether a weight is positive. -/
def positive (v : FVal) : Bool := !v.isNan && fcmp v (.fin false 0 0) == .gt

/-- A draw (R337): the first entry whose C_j exceeds the target, else the last of positive weight. -/
def draw (l : List (Nat × FVal)) (u : FVal) : Option Nat :=
  let cs := prefixSums l
  match cs.getLast? with
  | none => none
  | some c =>
    let target := r64 (fmul u c)
    match cs.findIdx? fun x => fcmp x target == .gt with
    | some j => (l[j]?).map (·.1)
    | none => ((l.filter fun e => positive e.2).getLast?).map (·.1)

/-- The probability of a token (R337). -/
def probOf (d : Dist) (x : Nat) : FVal :=
  match d.list.find? fun e => e.1 == x, (prefixSums d.list).getLast? with
  | some e, some c => decodeF .fp64 (divF .fp64 e.2 c)
  | _, _ => .fin false 0 0

/-! ## Expert routing (R332) -/

/-- The experts chosen for a token from the router's scores, with their gates, in ascending expert number. -/
def gates (active : Nat) (scores : List Nat) : List (Nat × FVal) :=
  let pk := (select negInf active (scores.zipIdx.map fun p => ⟨p.1, p.2, 0, false, 0, 0⟩)).sel
  match pk with
  | [] => []
  | top :: _ =>
    let ws := pk.map fun c => (c.id, exp2V (rnd32 (fmul (rnd32 (fsub c.val top.val)) log2e)))
    let total := rnd32 ((ws.map (·.2)).foldl fadd (.fin false 0 0))
    sortBy (fun a b => decide (a.1 ≤ b.1)) (ws.map fun w => (w.1, decodeF .fp32 (divF .fp32 w.2 total)))

/-- The combination of n elements: for each chosen expert y ← round(y + round(g × o)), from +0. -/
def combineOuts (gs : List (Nat × FVal)) (outs : List (Nat × List Nat)) (n : Nat) : List FVal :=
  gs.foldl (fun ys g =>
    let o := ((outs.find? fun x => x.1 == g.1).map (·.2)).getD []
    ys.zipIdx.map fun y => rnd32 (fadd y.1 (rnd32 (fmul g.2 (decodeF .fp32 (nw o y.2)))))) (List.replicate n (.fin false 0 0))

/-- A layer's output row for a token in the activation format. -/
def moeRow (m : ModelSet) (x : RouteIn) : List Byte :=
  let ys := combineOuts (gates m.principal.active x.scores) x.outs m.principal.width
  ys.flatMap fun y =>
    if m.act = 2 then leBytes 2 (roundF .bf16 false y) else leBytes 1 (roundF (if m.act = 1 then .e5m2 else .e4m3) true y)

/-! ## Proposals and verification (R340 to R342) -/

/-- The proposal count L of a row's next step (R342, R343): the probe proposes one. -/
def proposalCount (g : GenBlk) (draftLen probeWait generated : Nat) : Nat :=
  let base := if 0 < draftLen then draftLen else if 32 ≤ probeWait ∧ 0 < g.draftMax then 1 else 0
  min (min base 8) (g.maxNew - generated - 1)

/-- The proposals drawn from the draft's logits (R340): no grammar mask. -/
def propose (g : GenBlk) (seed pos : Nat) : List (List Nat) → Nat → List (Nat × List Nat)
  | [], _ => []
  | z :: zs, i =>
    match draw (distOf g ⟨z, none⟩).list (unitVal seed (pos + i) 3) with
    | some t => (t, z) :: propose g seed pos zs (i + 1)
    | none => []

/-- The residual of R341: r(x) = max(0, p(x) - q(x)), the positive ones in ascending token order. -/
def residual (p q : Dist) : List (Nat × FVal) :=
  let ids := sortBy (fun a b => decide (a ≤ b)) (p.list.map (·.1))
  (ids.map fun x => (x, r64 (fsub (probOf p x) (probOf q x)))).filter fun e => positive e.2

/-- What a verification comes to: tokens decided, proposals accepted, NUMERIC, WIDE. -/
structure Verdict1 where
  tokens : List Nat
  accepted : Nat
  numeric : Bool
  wide : Bool

/-- The verification of proposals over the positions of a step, from the i-th on (R341). -/
def verify (g : GenBlk) (seed pos : Nat) : List (Nat × List Nat) → List PosIn → Nat → Verdict1
  | _, [], _ => ⟨[], 0, false, false⟩
  | [], p :: _, i =>
    let d := distOf g p
    match draw d.list (unitVal seed (pos + i) 0) with
    | some t => ⟨[t], 0, d.numeric, d.wide⟩
    | none => ⟨[], 0, d.numeric, d.wide⟩
  | (t, z) :: ps, p :: more, i =>
    let d := distOf g p
    let q := distOf g ⟨z, none⟩
    let greedy := g.temp % 2 ^ 31 == 0
    let ok := if greedy then d.greedy == some t
      else fcmp (r64 (fmul (unitVal seed (pos + i) 1) (probOf q t))) (probOf d t) == .lt
    if d.list.isEmpty then ⟨[], 0, d.numeric, d.wide⟩
    else if ok then
      let v := verify g seed pos ps more (i + 1)
      ⟨t :: v.tokens, v.accepted + 1, d.numeric || v.numeric, d.wide || v.wide⟩
    else
      let x := if greedy then d.greedy
        else match residual d q with
          | [] => draw d.list (unitVal seed (pos + i) 2)
          | r => draw r (unitVal seed (pos + i) 2)
      ⟨x.toList, 0, d.numeric, d.wide⟩

/-- The draft length, ZERO_RUN and PROBE_WAIT after a step (R343); a run step does not count (R342). -/
def draftRule (draftMax draftLen zeroRun probeWait proposed accepted : Nat) (run : Bool) : Nat × Nat × Nat :=
  if run ∨ draftMax = 0 then (draftLen, zeroRun, probeWait)
  else
    let (dl, zr) :=
      if 0 < proposed ∧ accepted = 0 then (if zeroRun + 1 = 4 then (draftLen / 2, 0) else (draftLen, zeroRun + 1))
      else if 0 < accepted then ((if accepted = proposed then min (draftLen + 1) draftMax else draftLen), 0)
      else (draftLen, zeroRun)
    let probe := draftLen = 0 ∧ 0 < proposed
    (dl, zr, if 0 < dl ∨ probe then 0 else min (probeWait + 1) 32)

end Sys2Proof.Machine
end

