-- ==== Sys2Proof/Machine/Deliver.lean ====
section
/-!
DEFINITION. What a home does for its batches whatever the cause (13 to 15, 18): looking them up, their order, delivering output
as messages and ring records, latency, ends, credits, mirroring.
-/
namespace Sys2Proof.Machine

/-! ## Batches and rows -/

def State.batch (s : State) (h : Nat) : Option Batch := tfind s.sv.batches h
def State.setBatch (s : State) (h : Nat) (b : Batch) : State := { s with sv := { s.sv with batches := tset s.sv.batches h b } }

/-- The live batch of a tenancy under the host's identifier, with its handle. -/
def State.batchById (s : State) (ten id : Nat) : Option (Nat × Batch) :=
  s.sv.batches.find? fun p => p.2.ten == ten && p.2.id == id

/-- Row i changed. -/
def Batch.modRow (b : Batch) (i : Nat) (f : Row → Row) : Batch := { b with rows := b.rows.modify i f }

/-- The rows of a batch with their numbers. -/
def Batch.numbered (b : Batch) : List (Row × Nat) := b.rows.zipIdx

/-- The live rows. -/
def Batch.liveRows (b : Batch) : List Nat := (b.numbered.filter fun p => p.1.live).map (·.2)

/-- A batch, live or ended with output to write, found by its admission order. -/
def State.batchByOrder (s : State) (o : Nat) : Option Batch :=
  match s.sv.batches.find? fun p => p.2.order == o with
  | some p => some p.2
  | none => s.sv.tails.find? fun b => b.order == o

/-- Row i of the batch of an admission order changed. -/
def State.modRowOf (s : State) (o i : Nat) (f : Row → Row) : State :=
  { s with sv := { s.sv with
    batches := tmap (fun _ b => if b.order = o then b.modRow i f else b) s.sv.batches
    tails := s.sv.tails.map fun b => if b.order = o then b.modRow i f else b } }

/-- The low 64 bits of the measurement of the model set loaded, 0 with none (R386, 20 R509). -/
def State.modelTag (s : State) : Nat := match s.sv.model with
  | some (_, d) => d % 2 ^ 64
  | none => 0

/-! ## Mirroring (18 R468) -/

/-- Whether the module has fenced itself: ISOLATED (18 R476). -/
def State.isolated (s : State) : Bool := s.get R.TWN_STS_STATE == 5

/-- Whether commits wait for the twin: the twin states PROTECTED, SUSPECT and RESYNC (Table 18.4), and ISOLATED, in which none
is granted. -/
def State.mirroring (s : State) : Bool :=
  s.get R.TWN_STS_STATE == 1 || s.get R.TWN_STS_STATE == 2 || s.get R.TWN_STS_STATE == 6 || s.isolated

/-- Whether the mirror caravan of an OSEQ is acknowledged; while the module suspects its partner, or is fenced, nothing is granted
(18 R472, R476), and once it does not mirror the dependency has lapsed. -/
def State.mirAcked (s : State) (o : Nat) : Bool :=
  !s.mirroring || (s.get R.TWN_STS_STATE != 2 && !s.isolated && s.fa.mirrors.all fun m => m.oseq != o)

/-- The OSEQ of the latest mirror caravan sent. -/
def State.mirSeq (s : State) : Nat := tget s.fa.oseq (s.get R.FAB_TWIN_TWIN * 4 + 3) 0

/-- Whether a batch's commits wait for the twin. -/
def State.mirrors (s : State) (b : Batch) : Bool := s.mirroring && (b.mirrored || s.isolated)

/-- A step record as 64-bit words (Table 13.1). -/
def recWords (r : StepRec) : List Nat :=
  let b (p : Bool) (i : Nat) : Nat := if p then 2 ^ i else 0
  let t (i : Nat) : Nat := nw r.tokens i
  [1 + r.row * 2 ^ 8 + r.tokens.length * 2 ^ 14 + r.proposed * 2 ^ 18 + r.accepted * 2 ^ 22 + r.run * 2 ^ 26 + r.draftLen * 2 ^ 30 +
      r.fin * 2 ^ 34 + b r.fallback 36 + b r.wide 37 + b r.numeric 38 + r.zeroRun * 2 ^ 40 + r.probeWait * 2 ^ 42,
   r.gen + r.step * 2 ^ 32, r.serial, t 0 + t 1 * 2 ^ 32, t 2 + t 3 * 2 ^ 32, t 4 + t 5 * 2 ^ 32, t 6 + t 7 * 2 ^ 32, t 8]

/-- A step record from its words. -/
def recOfWords (w : List Nat) : StepRec :=
  let a := nw w 0
  let t (i : Nat) : Nat := bits (nw w (3 + i / 2)) (32 * (i % 2)) 32 % 2 ^ 18
  { row := bits a 8 6, tokens := (List.range (min (bits a 14 4) 9)).map t, proposed := bits a 18 4, accepted := bits a 22 4
    run := bits a 26 4, draftLen := bits a 30 4, fin := bits a 34 2, fallback := a.testBit 36, wide := a.testBit 37
    numeric := a.testBit 38, zeroRun := bits a 40 2, probeWait := bits a 42 6, gen := bits (nw w 1) 0 32
    step := nw w 1 / 2 ^ 32, serial := nw w 2 }

/-- MIR_STEP and MIR_END (Table 16.7). -/
def State.mirStep (s : State) (ten h : Nat) (r : StepRec) : State := s.mirror 0x22 ten (h :: recWords r) []
def State.mirEnd (s : State) (ten h row status : Nat) : State := s.mirror 0x24 ten [h + row * 2 ^ 10 + status * 2 ^ 16] []

/-- MIR_ADMIT: the handle, then the BATCH message as received, in caravans of 4,096 bytes at most (log entry 24). -/
def State.mirAdmit (s : State) (ten h : Nat) (msg : List Byte) : State :=
  (chunks 4096 msg.length 0 msg).foldl (fun s p => s.mirror 0x20 ten [h] p.2) s

/-! ## Deadlines and order (14 R362 to R364) -/

/-- A row's deadline. -/
def Batch.rowDeadline (b : Batch) (r : Row) : Option Nat :=
  match r.lastAt with
  | none => if b.ttft = 0 then none else some (b.stamp + b.ttft * 1000)
  | some (st, _) => if b.tbt = 0 then none else some (st + b.tbt * 1000)

/-- A batch's deadline: the earliest of its live rows'. -/
def Batch.deadline (b : Batch) : Option Nat :=
  (b.rows.filter (·.live)).foldl (fun (d : Option Nat) r =>
    match d, b.rowDeadline r with
    | none, e => e
    | d, none => d
    | some x, some y => some (min x y)) none

/-- Whether a batch's deadline has been reached in its home port's time. -/
def State.isLate (s : State) (b : Batch) : Bool :=
  match b.deadline with
  | some d => decide (d ≤ s.time b.port)
  | none => false

/-- The level a batch runs at: its level under the tenancy's CEILING, one lower in number when late (R360, R362). -/
def State.effLevel (s : State) (b : Batch) : Nat :=
  let c := s.get (R.SCH_TEN_CTL_CEILING b.ten)
  let l := max b.level c
  if s.get (R.SCH_TEN_CTL_LATE_BOOST b.ten) = 1 ∧ s.isLate b then max (l - 1) c else l

/-- Whether every live row's prompt is packed; from step 1 on R324's conditions hold once the step commit is done. -/
def Batch.packedAll (b : Batch) : Bool := b.rows.all fun r => !r.live || r.packed

/-- Whether a batch's next step is ready (R363). -/
def Batch.ready (b : Batch) : Bool := !b.fed && b.admitWait.isNone && b.packedAll && !b.liveRows.isEmpty

/-- The order of two ready batches (R363). -/
def State.ranksBefore (s : State) (a b : Batch) : Bool :=
  let k (x : Batch) : Nat := match x.deadline with
    | some d => d
    | none => 2 ^ 70
  if s.effLevel a ≠ s.effLevel b then decide (s.effLevel a < s.effLevel b)
  else if k a ≠ k b then decide (k a < k b)
  else decide (a.order ≤ b.order)

/-- A tenancy's ready batches in run order, with their handles. -/
def State.runOrder (s : State) (ten : Nat) : List (Nat × Batch) :=
  sortBy (fun a b => s.ranksBefore a.2 b.2) (s.sv.batches.filter fun p => p.2.ten == ten && p.2.ready)

/-- The bytes of a run list (R364). -/
def State.runList (s : State) (ten : Nat) : List Byte :=
  let es := (s.runOrder ten).take 64
  let entry (p : Nat × Batch) : List Nat :=
    [p.1 + s.effLevel p.2 * 2 ^ 10 + (if s.isLate p.2 then 2 ^ 13 else 0) + p.2.step % 2 ^ 32 * 2 ^ 32,
     (match p.2.deadline with
      | some d => d
      | none => 2 ^ 64 - 1)]
  bytesOf ([1 + es.length * 2 ^ 8, 0, 0, 0, 0, 0, 0, 0] ++ es.flatMap entry)

/-- A tenancy's LIVE_LEVEL (Table 14.10), and its run list published as a committed write when it has changed (R364). -/
def State.publish (s : State) (ten : Nat) : State :=
  let ls := (s.sv.batches.filter fun p => p.2.ten == ten && (p.2.ready || p.2.fed)).map fun p => s.effLevel p.2
  let s := match ls with
    | [] => s.put (R.SCH_TEN_STS_LIVE_NONE ten) 1
    | _ => (s.put (R.SCH_TEN_STS_LIVE_NONE ten) 0).put (R.SCH_TEN_STS_LIVE_LEVEL ten) (least ls)
  let a := (s.reg (R.SCH_TEN_RUNLIST ten)).toNat
  let l := s.runList ten
  if a = 0 ∨ s.vrun ten a l.length = l then s else s.commitPeer (s.spread ten a l)

/-! ## Latency (14 R371 to R373) -/

/-- A count that saturates at 32 bits, at 64. -/
def sat32 (n : Nat) : Nat := min n (2 ^ 32 - 1)
def sat64 (n : Nat) : Nat := min n (2 ^ 64 - 1)

/-- A delivery of a row stamped at a port: its figures, its latest delivery, and whether it missed its TTFT or TBT target. -/
def Batch.delivered (b : Batch) (r : Row) (st port : Nat) : Row × Bool × Bool :=
  let l := r.lat
  let before := r.lastAt
  let r := { r with lastAt := some (st, port) }
  match before with
  | none =>
    if port = b.port then
      let v := st - b.stamp
      let late := decide (0 < b.ttft) && decide (b.ttft * 1000 < v)
      ({ r with lat := { l with ttftOver := late, ttftNone := false, ttft := sat32 v } }, late, false)
    else ({ r with lat := { l with unmeasured := sat32 (l.unmeasured + 1) } }, false, false)
  | some (p, q) =>
    if port = q then
      let v := st - p
      let late := decide (0 < b.tbt) && decide (b.tbt * 1000 < v)
      ({ r with lat := { l with
          intervals := sat32 (l.intervals + 1), tbtSum := sat64 (l.tbtSum + v), tbtMax := max l.tbtMax (sat32 v)
          tbtOver := if late then sat32 (l.tbtOver + 1) else l.tbtOver } }, false, late)
    else ({ r with lat := { l with unmeasured := sat32 (l.unmeasured + 1) } }, false, false)

/-- A delivery of row i of a batch on a port, now: its figures, the tenancy's counters, its next deadline (R362). -/
def State.stampRow (s : State) (o i port : Nat) : State :=
  match s.batchByOrder o with
  | none => s
  | some b =>
    match b.rows[i]? with
    | none => s
    | some r =>
      let d := b.delivered r (s.time port) port
      let s := s.modRowOf o i fun _ => d.1
      let s := if d.2.1 then s.bump (R.SCH_TEN_LATE_TTFT_MISSED b.ten) 1 else s
      let s := if d.2.2 then s.bump (R.SCH_TEN_LATE_TBT_MISSED b.ten) 1 else s
      let s : State := match b.rowDeadline d.1 with
        | some t => { s with pt := { s.pt with deadlines := s.pt.deadlines ++ [(b.port, t)] } }
        | none => s
      s.publish b.ten

/-- A delivery taken back after an RNR NAK (15 R398): the figures and the latest delivery as they were before. -/
def State.unstampRow (s : State) (o : Nat) (u : Undo) : State :=
  match s.batchByOrder o with
  | none => s
  | some b =>
    match b.rows[u.row]? with
    | none => s
    | some r =>
      let t := R.SCH_TEN_LATE_TTFT_MISSED b.ten
      let v := R.SCH_TEN_LATE_TBT_MISSED b.ten
      let s := if r.lat.ttftOver && !u.lat.ttftOver then s.put t (s.get t + 2 ^ 32 - 1) else s
      let s := if u.lat.tbtOver < r.lat.tbtOver then s.put v (s.get v + 2 ^ 32 - 1) else s
      (s.modRowOf o u.row fun r => { r with lat := u.lat, lastAt := u.last }).publish b.ten

/-! ## Entries (15 R396, R397) -/

/-- Bytes filled with zeros to a multiple of 8. -/
def pad8 (bs : List Byte) : List Byte := bs ++ List.replicate (roundUp bs.length 8 - bs.length) 0

/-- An output entry (Table 15.9). -/
def outEntry (row gen : Nat) (toks : List Nat) (text : List Byte) (final : Bool) : List Byte :=
  bytesOf [row + toks.length * 2 ^ 6 + text.length * 2 ^ 10 + (if final then 2 ^ 27 else 0) + gen % 2 ^ 32 * 2 ^ 32, 0] ++
    pad8 (tokenBytes toks) ++ pad8 text

/-- The tokens an output entry carries. -/
def entryToks (e : List Byte) : Nat := bits (ofLe (e.take 8)) 6 4

/-- The words of a latency report (Table 14.6). -/
def Lat.words (l : Lat) : List Nat :=
  [1 + (if l.ttftOver then 2 ^ 8 else 0) + (if l.ttftNone then 2 ^ 9 else 0) + l.ttft * 2 ^ 32, l.tbtMax + l.intervals * 2 ^ 32,
   l.tbtSum, l.tbtOver + l.unmeasured * 2 ^ 32]

/-- The words of a packing summary (Table 10.4). -/
def PackSum.words (p : PackSum) : List Nat :=
  [1 + p.packed * 2 ^ 8 + p.spliced * 2 ^ 16 + p.bUsed * 2 ^ 24 + p.cut * 2 ^ 32, p.prompt + p.prefilled * 2 ^ 32, p.reranked]

/-- A DONE entry (Table 15.10), without the packing summary in version 2 (Table 15.5). -/
def doneEntry (ver i : Nat) (r : Row) : List Byte :=
  let b (p : Bool) (n : Nat) : Nat := if p then 2 ^ n else 0
  bytesOf ([i + r.status * 2 ^ 8 + b r.cancelLate 11 + b r.truncated 12 + b r.short 13 + b r.fallback 14 + b r.endsBatch 15 +
      r.generated % 2 ^ 32 * 2 ^ 32, r.req.reqId] ++ r.lat.words ++ (if ver = 2 then [0, 0, 0] else r.sum.words) ++ [0, 0, 0])

/-! ## Messages -/

/-- A CQP message's two header words (Table 15.3). -/
def cqpHead (ver kind len id : Nat) : List Nat := [ver + kind * 2 ^ 8 + len * 2 ^ 32, id]

/-- A TOKENS or DONE message with its entries: TOKENS names its step. -/
def entriesMsg (ver kind id h : Nat) (step : List Nat) (es : List (Nat × List Byte)) : List Nat :=
  let body := es.flatMap (·.2)
  cqpHead ver kind (24 + 8 * step.length + body.length) id ++ [h + es.length * 2 ^ 16] ++ step ++ wordsOf (body.length / 8) body

/-- A message with entries queued on a queue pair. -/
def State.sendEntries (s : State) (q kind order : Nat) (words : List Nat) (es : List (Nat × List Byte)) : State :=
  let p := s.qpOf q
  let s := s.cross (q / 256) (q, p.next)
  { s with ho := { s.ho with qps := tset s.ho.qps q { p with
      next := p.next + 1, sent := p.sent ++ [⟨p.next, kind, words, order, es, [], false⟩], sentAt := s.time (q / 256) } } }

/-- Whether a pair's sending waits: for an RNR retry (15 R380), or for a PFC pause of its port (R382). -/
def State.sendHeld (s : State) (q : Nat) : Bool := (s.qpOf q).rnrAt.isSome || (tfind s.ho.paused (q / 256)).isSome

/-- The tokens of a TOKENS message delivered now: each row stamped and its tokens counted, with what the stamps changed kept. -/
def State.stampMsg (s : State) (q seq : Nat) : State :=
  match (s.qpOf q).sent.find? fun m => m.seq == seq with
  | none => s
  | some m =>
    let before (i : Nat) : Option Undo := match s.batchByOrder m.order with
      | some b => (b.rows[i]?).map fun r => ⟨i, r.lat, r.lastAt⟩
      | none => none
    let us := (m.entries.filter fun e => entryToks e.2 != 0).filterMap fun e => before e.1
    let p := s.qpOf q
    let s : State := { s with ho := { s.ho with qps := tset s.ho.qps q { p with
      sent := p.sent.map fun x => if x.seq = seq then { x with undo := us, due := false } else x } } }
    m.entries.foldl (fun s e =>
      if entryToks e.2 = 0 then s
      else (s.stampRow m.order e.1 (q / 256)).bump (R.HST_CNT2_TOKENS_SENT (q / 256)) (entryToks e.2)) s

/-- Entries cut into messages of at most 1,000,000 bytes, never splitting one (R396). -/
def groupEntries : List (Nat × List Byte) → List (Nat × List Byte) → List (List (Nat × List Byte))
  | cur, [] => if cur.isEmpty then [] else [cur]
  | cur, e :: es =>
    if !cur.isEmpty && decide (1000000 < 32 + lsum ((cur ++ [e]).map fun x => x.2.length)) then cur :: groupEntries [e] es
    else groupEntries (cur ++ [e]) es

/-- Whether a queue pair is connected. -/
def State.connected (s : State) (q : Nat) : Bool := s.get (qpReg R.HST_QP_STATE q) == 2

/-- Entries queued on a batch's queue pair as one message, and stamped where their tokens are new. -/
def State.sendGroup (s : State) (q : Nat) (order : Nat) (o : Owed) : State :=
  let seq := (s.qpOf q).next
  let s := s.sendEntries q o.kind order o.words o.entries
  if o.kind ≠ 0x83 ∨ !o.fresh then s
  else if s.sendHeld q then
    let p := s.qpOf q
    { s with ho := { s.ho with qps := tset s.ho.qps q { p with sent := p.sent.map fun x => if x.seq = seq then { x with due := true } else x } } }
  else s.stampMsg q seq

/-- A message of a batch sent, or kept until a queue pair connects (18 R477); without its pair it is discarded (R401). -/
def State.deliver (s : State) (h : Nat) (o : Owed) : State :=
  match s.batch h with
  | none => s
  | some b =>
    if o.entries.isEmpty then s
    else if b.noQp then s.setBatch h { b with owed := b.owed ++ [o] }
    else if !s.connected b.qp then s
    else s.sendGroup b.qp b.order o

/-- TOKENS messages for the rows not on a ring, on the queue pair that carried the BATCH. -/
def State.sendTokens (s : State) (h : Nat) (b : Batch) (step : Nat) (es : List (Nat × List Byte)) : State :=
  (groupEntries [] es).foldl (fun s g => s.deliver h ⟨0x83, true, entriesMsg b.ver 0x83 b.id h [step % 2 ^ 32] g, g⟩) s

/-! ## Rings (15 R398 to R400) -/

/-- What leaves a port, recorded. -/
def State.hostOut (s : State) (o : HostOut) : State := { s with ho := { s.ho with out := s.ho.out ++ [o] } }

/-- A queue pair's record changed. -/
def State.setQp (s : State) (q : Nat) (p : Qp) : State := { s with ho := { s.ho with qps := tset s.ho.qps q p } }

/-- A read of a ring's consumer word, for row i of an admission order: it leaves at once while fewer than 4 reads of the pair are
outstanding, else as one of them is answered (Table 15.1). -/
def State.askCons (s : State) (q o i : Nat) (k : RingBlk) : State :=
  let p := s.qpOf q
  if p.reads.contains (o, i) then s
  else
    let s := s.setQp q { p with reads := p.reads ++ [(o, i)] }
    if p.reads.length < 4 then s.hostOut (.readReq q k.consRkey k.consVa 8) else s

/-- The ring block of row i of an admission order. -/
def State.consRing (s : State) (o i : Nat) : Option RingBlk :=
  match s.batchByOrder o with
  | some b => match b.rows[i]? with
    | some r => r.req.ringBlk
    | none => none
  | none => none

/-- Such a read answered: the one that waited longest leaves. -/
def State.consRead (s : State) (o i : Nat) : State :=
  match s.ho.qps.find? fun p => (p.2.reads.take 4).contains (o, i) with
  | none => s
  | some (q, p) =>
    let s := s.setQp q { p with reads := p.reads.erase (o, i) }
    match p.reads[4]? with
    | some (o', i') => match s.consRing o' i' with
      | some k => s.hostOut (.readReq q k.consRkey k.consVa 8)
      | none => s
    | none => s

/-- A ring record (R399). -/
def ringRecord (kind : Nat) (entry : List Byte) : List Byte :=
  let n := roundUp (8 + entry.length) 64
  fillTo n (bytesOf [kind + n * 2 ^ 32] ++ entry)

/-- A record put at a row's PROD. -/
def State.putRecord (s : State) (q o i : Nat) (k : RingBlk) (prod : Nat) (rec : List Byte) : State :=
  let s := s.hostOut (.write q k.rkey (k.va + 64 + prod % 2 ^ k.log2) rec)
  let s := s.hostOut (.write q k.rkey k.va (leBytes 8 (prod + rec.length)))
  s.modRowOf o i fun r => { r with prod := prod + rec.length }

/-- The bytes a waiting record takes: an output entry, or the DONE entry made as it is written. -/
def rowRecord (ver i : Nat) (r : Row) (e : List Byte) : List Byte :=
  if e.isEmpty then ringRecord 2 (doneEntry ver i r) else ringRecord 1 e

/-- The waiting records of row i written, whether or not its queue pair is still connected (R401), as far as the ring has room, in at most k writes (R399): padding to the end of the data area,
else the first record; with no room CONS is read. -/
def State.flushGo (o i : Nat) : Nat → State → State
  | 0, s => s
  | k + 1, s =>
    match s.batchByOrder o with
    | none => s
    | some b =>
      match b.rows[i]? with
      | none => s
      | some r =>
        match r.records, r.req.ringBlk with
        | e :: _, some ring =>
          if s.isolated then s
          else
            let rec_ := rowRecord b.ver i r e
            let at_ := r.prod % 2 ^ ring.log2
            let pad := decide (2 ^ ring.log2 < at_ + rec_.length)
            let n := if pad then 2 ^ ring.log2 - at_ else rec_.length
            if 2 ^ ring.log2 < r.prod + n - r.cons then
              if r.consAsked.isSome then s
              else
                let s := s.askCons b.qp o i ring
                s.modRowOf o i fun r => { r with consAsked := some (s.time (b.qp / 256)) }
            else if pad then
              State.flushGo o i k (s.putRecord b.qp o i ring r.prod (fillTo n (bytesOf [3 + n * 2 ^ 32])))
            else
              let s := s.putRecord b.qp o i ring r.prod rec_
              let s := s.modRowOf o i fun r => { r with records := r.records.drop 1 }
              let t := entryToks e
              let s := if e.isEmpty || t == 0 then s
                else (s.stampRow o i (b.qp / 256)).bump (R.HST_CNT2_TOKENS_SENT (b.qp / 256)) t
              State.flushGo o i k s
        | _, _ => s

/-- Whether an ended batch still has output: records to write, or messages not acknowledged. -/
def State.owes (s : State) (b : Batch) : Bool :=
  (b.rows.any fun r => !r.records.isEmpty) || !b.owed.isEmpty || s.ho.qps.any fun p => p.2.sent.any fun m => m.order == b.order && !m.entries.isEmpty

/-- Ended batches with nothing left to send forgotten. -/
def State.pruneTails (s : State) : State := { s with sv := { s.sv with tails := s.sv.tails.filter s.owes } }

/-- Row i's ring written as far as it has room. -/
def State.flushRow (s : State) (o i : Nat) : State :=
  let n : Nat := match s.batchByOrder o with
    | some b => match b.rows[i]? with
      | some r => 2 * r.records.length
      | none => 0
    | none => 0
  (State.flushGo o i n s).pruneTails

/-- An output entry that goes to row i's ring. -/
def State.ringOut (s : State) (o i : Nat) (e : List Byte) : State :=
  (s.modRowOf o i fun r => { r with records := r.records ++ [e] }).flushRow o i

/-- A row's backlog (R400): the bytes that wait for its ring, or for an RNR retry. -/
def State.backlog (s : State) (b : Batch) (i : Nat) (r : Row) : Nat :=
  let p := s.qpOf b.qp
  lsum (r.records.map fun e => (rowRecord b.ver i r e).length) +
    lsum (b.owed.map fun w => lsum (w.entries.map fun e => if e.1 = i then e.2.length else 0)) +
    (if p.rnrAt.isSome then
      lsum (p.sent.map fun m => if m.order = b.order ∧ m.kind = 0x83 then
        lsum (m.entries.map fun e => if e.1 = i then e.2.length else 0) else 0)
     else 0)

/-- Whether a batch is held by its backlog (R400), or by unacknowledged output while PAIRED (18 R470). -/
def State.heldBack (s : State) (b : Batch) : Bool :=
  (b.numbered.any fun p => p.1.live && decide (s.get (R.HST_CTL_BACKLOG_MAX (b.qp / 256)) * 1024 ≤ s.backlog b p.2 p.1)) ||
    (s.paired && decide (16 < (((s.qpOf b.qp).sent.filter fun m => m.order == b.order && m.kind == 0x83).map
      fun m => nw m.words 3).eraseDups.length))

/-! ## Ends -/

/-- The key/value pages of freed rows restored to their stages' credits (14 R376, 16 R438). -/
def State.restoreCredits (s : State) (ten : Nat) (pages : List Nat) : State :=
  (s.stages.zipIdx).foldl (fun s p =>
    let k := ten * 2 ^ 20 + p.1
    let old := tget s.fa.credits k (0, 0)
    { s with fa := { s.fa with credits := tset s.fa.credits k (old.1, old.2 - nw pages p.2) } }) s

/-- The resources of ended rows freed (R376): key/value pages and page-table entries, here and in the stages' credits. -/
def State.freeRows (s : State) (h : Nat) (is : List Nat) : State :=
  is.foldl (fun s i =>
    match s.batch h with
    | none => s
    | some b =>
      match b.rows[i]? with
      | none => s
      | some r => if r.live || r.freed then s else
          ((s.restoreCredits b.ten r.pages).setBatch h (b.modRow i fun r => { r with freed := true })).kvClose (kvKey s.ownAddr h i)) s

/-- The removals of variants that no admitted request names take effect (13 R346). -/
def State.settleVariants (s : State) : State :=
  let used (v : Nat) : Bool := s.sv.batches.any fun p => p.2.rows.any fun r => r.live && r.req.gen.variant == v
  let gone := s.sv.removing.filter fun v => !used v
  { s with
    sv := { s.sv with removing := s.sv.removing.filter used }
    en := { s.en with variants := tfilter (fun v _ => !gone.contains v) s.en.variants } }

/-- The counts of the batches and live requests admitted (Tables 14.8, 14.10). -/
def State.countBatches (s : State) (ten : Nat) : State :=
  let live (p : Nat × Batch) : Nat := p.2.liveRows.length
  let mine := s.sv.batches.filter fun p => p.2.ten == ten
  let s := s.put R.SCH_STS_BATCHES s.sv.batches.length
  let s := s.put R.SCH_STS_REQUESTS (lsum (s.sv.batches.map live))
  let s := s.put (R.SCH_TEN_STS_BATCHES ten) mine.length
  s.put (R.SCH_TEN_STS_REQUESTS ten) (lsum (mine.map live))

/-- A batch whose last live row has ended (R358): its rows freed, its handle free again; a draining tenancy with no batch left
is DRAINED (Table 14.2). -/
def State.closeBatch (s : State) (h : Nat) : State :=
  match s.batch h with
  | none => s
  | some b =>
    if !b.liveRows.isEmpty then s
    else
      let s := s.freeRows h (List.range b.rows.length)
      let s := { s with sv := { s.sv with
        batches := tdel s.sv.batches h, tails := if s.owes b then s.sv.tails ++ [b] else s.sv.tails } }
      let s := s.settleVariants
      if s.get (R.SCH_TEN_STS_STATE b.ten) = 2 ∧ s.hasBatch b.ten = false then s.put (R.SCH_TEN_STS_STATE b.ten) 3 else s

/-- The DONE entries of rows that have just ended (R397, R398): one message for the rows not on a ring, a record each for the
others; then the batch closed if none is live. -/
def State.reportEnds (s : State) (h : Nat) (is : List Nat) : State :=
  match s.batch h with
  | none => s
  | some b =>
    if is.isEmpty then s
    else
      let b := if b.liveRows.isEmpty then b.modRow (lmax is) fun r => { r with endsBatch := true } else b
      let b := is.foldl (fun b i => b.modRow i fun r => { r with done := doneEntry b.ver i r }) b
      let s := s.setBatch h b
      let onRing (i : Nat) : Bool := match b.rows[i]? with
        | some r => r.onRing
        | none => false
      let es := (is.filter fun i => !onRing i).filterMap fun i => (b.rows[i]?).map fun r => (i, doneEntry b.ver i r)
      let s := s.deliver h ⟨0x84, true, entriesMsg b.ver 0x84 b.id h [] es, es⟩
      let s := (is.filter onRing).foldl (fun s i => s.ringOut b.order i []) s
      (s.closeBatch h).countBatches b.ten

/-- Row i ended with a status. -/
def Batch.endRow (b : Batch) (i status : Nat) : Batch := b.modRow i fun r => { r with live := false, status := status, cancel := none }

end Sys2Proof.Machine
end

