-- ==== Sys2Proof/Machine/Batch.lean ====
section
/-!
DEFINITION. The messages of hosts (15 R385 to R395, R404): BATCH and its admission, CANCEL, STATUS, HELLO.
-/
namespace Sys2Proof.Machine

/-! ## Reading a message -/

/-- The 64-bit word at an offset of a message or of a part of one. -/
def w64 (bs : List Byte) (o : Nat) : Nat := ofLe ((bs.drop o).take 8)

/-- Whether fields, each a lowest bit and a width, are zero. -/
def zeros (x : Nat) (fs : List (Nat × Nat)) : Bool := fs.all fun f => bits x f.1 f.2 == 0

/-- The header fields of Table 15.3. -/
def mVer (m : List Byte) : Nat := bits (w64 m 0) 0 8
def mType (m : List Byte) : Nat := bits (w64 m 0) 8 8
def mId (m : List Byte) : Nat := w64 m 8

/-! ## Request sections (R389 to R392) -/

/-- The offsets of a section's blocks (Table 15.7). -/
def oPack (m : List Byte) : Nat := bits (w64 m 0x10) 0 32
def oSearch (m : List Byte) : Nat := w64 m 0x10 / 2 ^ 32
def oGen (m : List Byte) : Nat := bits (w64 m 0x18) 0 32
def oStop (m : List Byte) : Nat := w64 m 0x18 / 2 ^ 32
def oGram (m : List Byte) : Nat := bits (w64 m 0x20) 0 32
def oRing (m : List Byte) : Nat := w64 m 0x20 / 2 ^ 32
def oQ (m : List Byte) : Nat := bits (w64 m 0x28) 0 32

/-- Whether a block of n bytes stands at an offset: on an 8-byte boundary and within the section. -/
def blockAt (m : List Byte) (o n : Nat) : Bool := o % 8 == 0 && decide (o + n ≤ m.length)

/-- The form of the packing block and of the generation block: place and reserved fields (Tables 10.1, 13.3). -/
def packForm (m : List Byte) : Bool :=
  let o := oPack m
  o != 0 && blockAt m o 16 && zeros (w64 m o) [(14, 2), (23, 9), (43, 5), (56, 8)] && zeros (w64 m (o + 8)) [(18, 14), (48, 16)]

def nBias (m : List Byte) : Nat := bits (w64 m (oGen m)) 23 7

def genForm (m : List Byte) : Bool :=
  let o := oGen m
  o != 0 && blockAt m o 32 && blockAt m o (32 + 8 * nBias m) && zeros (w64 m o) [(30, 34)] &&
    zeros (w64 m (o + 24)) [(13, 19), (50, 14)] &&
    (List.range (nBias m)).all fun i => zeros (w64 m (o + 32 + 8 * i)) [(18, 14)]

def nTerms (m : List Byte) : Nat := bits (w64 m (oSearch m)) 8 4

/-- The form of a search block, if there is one (R390). -/
def searchForm (m : List Byte) : Bool :=
  let o := oSearch m
  o == 0 || (blockAt m o (16 + 32 * nTerms m) && zeros (w64 m o) [(37, 27)] && zeros (w64 m (o + 8)) [(44, 20)] &&
    (List.range (nTerms m)).all fun i =>
      let t := o + 16 + 32 * i
      zeros (w64 m t) [(16, 48)] && w64 m (t + 24) == 0 && (bits (w64 m t) 13 2 == 1 || w64 m (t + 16) == 0))

def nStop (m : List Byte) : Nat := if oStop m = 0 then 0 else bits (w64 m (oStop m)) 0 5

/-- The form of a stop block (R391). -/
def stopForm (m : List Byte) : Bool :=
  let o := oStop m
  o == 0 || (blockAt m o (8 + 72 * nStop m) && decide (nStop m ≤ 16) && zeros (w64 m o) [(7, 57)] &&
    (List.range (nStop m)).all fun i =>
      let w := w64 m (o + 8 + 72 * i)
      zeros w [(7, 57)] && w != 0 && decide (w ≤ 64))

/-- The fields of a grammar block (R391). -/
def gSlot (m : List Byte) : Nat := bits (w64 m (oGram m)) 0 6
def gFall (m : List Byte) : Nat := bits (w64 m (oGram m)) 6 2
def gNban (m : List Byte) : Nat := bits (w64 m (oGram m)) 8 7
def gNforce (m : List Byte) : Nat := bits (w64 m (oGram m)) 15 5
def gramBytes (m : List Byte) : Nat := 8 + 72 * gNban m + 264 * gNforce m + (if gFall m = 2 then 32768 else 0)

/-- The form of a grammar block (R391). -/
def gramForm (m : List Byte) : Bool :=
  let o := oGram m
  o == 0 || (blockAt m o (gramBytes m) && zeros (w64 m o) [(21, 43)] &&
    ((List.range (gNban m)).all fun i => zeros (w64 m (o + 8 + 72 * i)) [(5, 59)]) &&
    (List.range (gNforce m)).all fun i => zeros (w64 m (o + 8 + 72 * gNban m + 264 * i)) [(7, 1), (14, 50)])

/-- The form of a ring block (R392). -/
def ringForm (m : List Byte) : Bool :=
  let o := oRing m
  o == 0 || (blockAt m o 32 && zeros (w64 m (o + 8)) [(37, 27)] && zeros (w64 m (o + 24)) [(32, 32)])

def packN (m : List Byte) : Nat := bits (w64 m (oPack m)) 48 8
def gramEn (m : List Byte) : Bool := (w64 m (oGen m)).testBit 22
def qLen (m : List Byte) : Nat := bits (w64 m 8) 0 21

/-- The form of a request section (R389). -/
def sectionForm (m : List Byte) : Bool :=
  decide (48 ≤ m.length) && zeros (w64 m 8) [(21, 3), (29, 35)] && zeros (w64 m 0x28) [(32, 32)] &&
    qLen m != 0 && decide (qLen m ≤ 1048576) && oQ m != 0 && blockAt m (oQ m) (qLen m) &&
    packForm m && genForm m && searchForm m && stopForm m && gramForm m && ringForm m &&
    (packN m == 0 || oSearch m != 0) && gramEn m == (oGram m != 0)

/-- The banned and forced lists of a grammar block, as length, G and tokens (R304, R391). -/
def blockBans (m : List Byte) : List (Nat × Nat × List Nat) :=
  (List.range (gNban m)).map fun i =>
    let a := oGram m + 8 + 72 * i
    let n := bits (w64 m a) 0 5
    (n, 0, toks (min n 16) (m.drop (a + 8)))

def blockForces (m : List Byte) : List (Nat × Nat × List Nat) :=
  (List.range (gNforce m)).map fun i =>
    let a := oGram m + 8 + 72 * gNban m + 264 * i
    let n := bits (w64 m a) 0 7
    (n, bits (w64 m a) 8 6, toks (min n 64) (m.drop (a + 8)))

/-- A request as its section gives it. -/
def reqOf (m : List Byte) (ringAll : Bool) : Req :=
  let p := w64 m (oPack m)
  let p1 := w64 m (oPack m + 8)
  let g := w64 m (oGen m)
  let g2 := w64 m (oGen m + 16)
  let g3 := w64 m (oGen m + 24)
  let st := w64 m (oStop m)
  let r := oRing m
  { reqId := w64 m 0, iset := bits (w64 m 8) 24 4, ring := (w64 m 8).testBit 28 || ringAll
    pack := ⟨bits p 8 4, p.testBit 12, p.testBit 13, bits p 16 7, bits p 32 11, bits p 48 8, bits p1 0 18, bits p1 32 16⟩
    gen := ⟨bits g 8 9, g.testBit 17, bits g 18 4, g.testBit 22, w64 m (oGen m + 8), bits g2 0 32, g2 / 2 ^ 32, bits g3 0 13, bits g3 32 18,
      (List.range (nBias m)).map fun i => (bits (w64 m (oGen m + 32 + 8 * i)) 0 18, w64 m (oGen m + 32 + 8 * i) / 2 ^ 32)⟩
    search := if oSearch m = 0 then none else some (m.drop (oSearch m))
    stopIncl := oStop m != 0 && st.testBit 5
    stopRepair := oStop m == 0 || st.testBit 6
    stops := (List.range (nStop m)).map fun i =>
      let a := oStop m + 8 + 72 * i
      (m.drop (a + 8)).take (w64 m a)
    gram := if oGram m = 0 then none else some ((m.drop (oGram m)).take (gramBytes m))
    ringBlk := if r = 0 then none
      else some ⟨w64 m r, bits (w64 m (r + 8)) 0 32, bits (w64 m (r + 8)) 32 5, w64 m (r + 16), bits (w64 m (r + 24)) 0 32⟩
    question := (m.drop (oQ m)).take (qLen m) }

/-! ## The checks of admission (Table 15.8) -/

/-- The number of slots of a template of the model set, none for a template it lacks. -/
def State.tplSlots (s : State) (n : Nat) : Option Nat :=
  match s.sv.model with
  | none => none
  | some m => (m.1.templates.find? fun w => tplNumber w == n).map fun w =>
      lsum (((tplSegments w).filter fun g => g.kind == 2).map (·.slots))

/-- The shards of an index set; none when it is not defined (16 R437). -/
def State.isetShards (s : State) (i : Nat) : Option Nat :=
  let a := s.get R.FAB_ISET_ISET_ADDR
  if a = 0 then none
  else
    let w := s.word (key spModule (a + i * 512))
    let n := bits w 0 7
    if n = 0 ∨ 64 < n ∨ s.groupCount (bits w 7 7) = 0 then none else some n

/-- The vocabulary of the principal model. -/
def State.vocab (s : State) : Nat :=
  match s.sv.model with
  | some m => m.1.principal.vocab
  | none => 0

/-- R257. -/
def State.packOk (s : State) (m : List Byte) : Bool :=
  let r := reqOf m false
  let slots := s.tplSlots r.pack.template
  bits (w64 m (oPack m)) 0 8 == 1 && decide (r.pack.b ≤ 64) && r.pack.perShard != 0 && decide (r.pack.perShard ≤ 1024) &&
    r.pack.budget != 0 && decide (r.pack.budget ≤ 131072) && r.pack.gatherWait != 0 &&
    decide (r.pack.perShard * (s.isetShards r.iset).getD 0 ≤ 1024) &&
    (match slots with
      | some n => decide (r.pack.packN ≤ n)
      | none => false) &&
    decide (r.pack.budget + r.gen.maxNew ≤ 131072)

/-- Whether an FP32 value lies between two others. -/
def fp32In (x lo hi : Nat) : Bool := fge (decodeF .fp32 x) (decodeF .fp32 lo) && fge (decodeF .fp32 hi) (decodeF .fp32 x)

/-- R333: 2^-8 is 0x3B800000 in FP32, 256 is 0x43800000, 1 is 0x3F800000. -/
def State.genOk (s : State) (m : List Byte) : Bool :=
  let g := (reqOf m false).gen
  bits (w64 m (oGen m)) 0 8 == 1 && decide (g.variant ≤ 256) && decide (g.draftMax ≤ 8) && decide (nBias m ≤ 64) &&
    (g.temp % 2 ^ 31 == 0 || fp32In g.temp 0x3B800000 0x43800000) &&
    positive (decodeF .fp32 g.topP) && fp32In g.topP 0 0x3F800000 && decide (g.topK ≤ 4096) &&
    g.maxNew != 0 && decide (g.maxNew ≤ 131072) &&
    g.bias.all fun e => decide (e.1 < s.vocab) && !(decodeF .fp32 e.2).isNan && e.2 != 0x7F800000 &&
      (g.bias.filter fun f => f.1 == e.1).length == 1

/-- R345. -/
def State.variantOk (s : State) (m : List Byte) : Bool :=
  let v := (reqOf m false).gen.variant
  v == 0 || ((tfind s.en.variants v).isSome && !s.sv.removing.contains v)

/-- Whether the terms of a search block keep R220, R221 and R390. -/
def termsOk (m : List Byte) : Bool :=
  (List.range (nTerms m)).all fun i =>
    let t := oSearch m + 16 + 32 * i
    let w := w64 m t
    let v0 := w64 m (t + 8)
    let wd := bits w 6 7
    wd != 0 && decide (bits w 0 6 + wd ≤ 64) && bits w 13 2 != 3 &&
      (bits w 13 2 != 2 || (decide (wd ≤ 16) && v0 % 8 == 0 && decide (oSearch m + v0 + ceilDiv (2 ^ wd) 8 ≤ m.length)))

/-- Check 10: the search block's fields, RESCORE_K and the index set. -/
def State.searchOk (s : State) (m : List Byte) : Bool :=
  let o := oSearch m
  let r := reqOf m false
  (o == 0 || (bits (w64 m o) 0 8 == 1 && decide (nTerms m ≤ 8) && decide (bits (w64 m (o + 8)) 0 22 ≤ bits (w64 m (o + 8)) 22 22) &&
      decide (r.pack.perShard ≤ bits (w64 m o) 25 12 + 1) && termsOk m)) &&
    (r.pack.packN == 0 || (s.isetShards r.iset).isSome)

/-- Check 11. -/
def State.gramOk (s : State) (ten : Nat) (m : List Byte) : Bool :=
  oGram m == 0 || ((s.slotBad (gSlot m) ten).isNone && gFall m != 3 && decide (gNban m ≤ 64) && decide (gNforce m ≤ 16) &&
    bansOk s.vocab (blockBans m) && forcesOk s.vocab (blockForces m))

/-- Check 12. -/
def ringOk (ringAll : Bool) (m : List Byte) : Bool :=
  match (reqOf m ringAll).ringBlk with
  | none => !(reqOf m ringAll).ring
  | some b => decide (12 ≤ b.log2) && decide (b.log2 ≤ 24)

/-- The pages a request reserves on a stage with such windows, 0 for a global layer (13 R331). -/
def reserve (ws : List Nat) (r : Req) : Nat :=
  let g := ceilDiv (r.pack.budget + r.gen.maxNew + 8) 64
  lsum (ws.map fun w => if w = 0 then g else min g (ceilDiv (w + 8) 64 + 1))

/-- The pages a request reserves, by stage. -/
def State.reserves (s : State) (r : Req) : List Nat :=
  let sh : List (List Nat) := match s.sv.model with
    | some m => m.1.stages
    | none => []
  (List.range s.stages.length).map fun i => reserve (nth sh i []) r

/-- Check 13: every stage's credits cover every row's pages (R393). -/
def State.kvOk (s : State) (ten : Nat) (rs : List Req) : Bool :=
  (s.stages.zipIdx).all fun p =>
    let c := tget s.fa.credits (ten * 2 ^ 20 + p.1) (0, 0)
    decide (c.2 + lsum (rs.map fun r => nw (s.reserves r) p.2) ≤ c.1)

/-- The sections of a BATCH; none when the message breaks Table 15.6. -/
def batchSections (m : List Byte) : Option (List (Nat × Nat)) :=
  let w := w64 m 0
  let n := bits (w64 m 0x10) 0 7
  if w / 2 ^ 32 = m.length ∧ m.length % 8 = 0 ∧ m.length ≤ 4194304 ∧ bits w 16 16 = 0 ∧ 0 < n ∧ n ≤ 64 ∧ w64 m 0x10 / 2 ^ 7 = 0 ∧
      0x28 + 8 * n ≤ m.length then
    let ss := (List.range n).map fun i => (bits (w64 m (0x28 + 8 * i)) 0 32, w64 m (0x28 + 8 * i) / 2 ^ 32)
    if mVer m = 3 ∧ zeros (w64 m 0x18) [(11, 53)] = false then none else some ss
  else none

/-- The lowest row among sections whose place or form is wrong: within the message, on 8 bytes, overlapping no other (R388). -/
def badSection (m : List Byte) (ss : List (Nat × Nat)) : Option Nat :=
  (List.range ss.length).find? fun i =>
    let p := nth ss i (0, 0)
    p.1 % 8 != 0 || decide (m.length < p.1 + p.2) ||
      ((List.range ss.length).any fun j => j != i && overlaps p.1 p.2 (nth ss j (0, 0)).1 (nth ss j (0, 0)).2) ||
      !sectionForm ((m.drop p.1).take p.2)

/-- No row (R394). -/
def noRow : Nat := 0xFF

/-- The first check of Table 15.8 that a BATCH fails: its cause and row; or its sections. `ahead` counts the BATCH messages of the
port that already await a decision. -/
def State.admission (s : State) (q ahead : Nat) (m : List Byte) : Except (Nat × Nat) (List (List Byte)) :=
  let ver := s.get (qpReg R.HST_QP_VER q)
  let ten := s.get (qpReg R.HST_QP_TEN q)
  let ringAll := s.get (qpReg R.HST_QP_RING_ALL q) == 1
  if 8 ≤ ahead then .error (0x01, noRow)
  else if ver = 0 ∨ mVer m ≠ ver then .error (0x02, noRow)
  else match batchSections m with
    | none => .error (0x03, noRow)
    | some ss =>
      match badSection m ss with
      | some i => .error (0x03, i)
      | none =>
        let secs := ss.map fun p => (m.drop p.1).take p.2
        let bad (ok : List Byte → Bool) : Option Nat := secs.findIdx? fun x => !ok x
        if s.get (R.SCH_TEN_STS_STATE ten) ≠ 1 then .error (0x20, noRow)
        else if s.get (R.SCH_TEN_LIMITS_MAX_BATCHES ten) ≤ s.get (R.SCH_TEN_STS_BATCHES ten) then .error (0x21, noRow)
        else if 1024 ≤ s.sv.batches.length then .error (0x22, noRow)
        else if 4096 < s.get R.SCH_STS_REQUESTS + secs.length then .error (0x23, noRow)
        else if (s.batchById ten (mId m)).isSome then .error (0x04, noRow)
        else if ver = 3 ∧ bits (w64 m 0x18) 0 8 ≠ 1 then .error (0x25, noRow)
        else match bad s.packOk, bad s.genOk, bad s.variantOk, bad s.searchOk, bad (s.gramOk ten), bad (ringOk ringAll) with
          | some i, _, _, _, _, _ => .error (0x05, i)
          | _, some i, _, _, _, _ => .error (0x06, i)
          | _, _, some i, _, _, _ => .error (0x07, i)
          | _, _, _, some i, _, _ => .error (0x08, i)
          | _, _, _, _, some i, _ => .error (0x09, i)
          | _, _, _, _, _, some i => .error (0x0A, i)
          | _, _, _, _, _, _ =>
            if s.kvOk ten (secs.map fun x => reqOf x ringAll) then .ok secs else .error (0x24, noRow)

/-! ## BATCH -/

/-- A message of words queued on a queue pair with its CQP header. -/
def State.reply (s : State) (q ver kind id : Nat) (body : List Nat) : State :=
  s.sendMsg q kind (cqpHead ver kind (16 + 8 * body.length) id ++ body)

/-- ADMIT (R394). -/
def State.sendAdmit (s : State) (h : Nat) (b : Batch) : State := s.reply b.qp b.ver 0x81 b.id [h + b.rows.length * 2 ^ 16, b.stamp]

/-- A row as admitted: an open stream with an empty tail, the draft length at DRAFT_MAX (13 R343), the pages reserved. -/
def State.newRow (s : State) (ten : Nat) (r : Req) : Row :=
  { req := r, strm := ⟨ten, r.stopIncl, r.stopRepair, r.stops, [], false⟩, draftLen := r.gen.draftMax, onRing := r.ring
    pages := s.reserves r }

/-- The level and targets of a BATCH: its schedule block, or version 2's class (14 R360, R361). -/
def batchSched (m : List Byte) : Nat × Nat × Nat :=
  if mVer m = 2 then (if (w64 m 0x18).testBit 0 then 6 else 1, 0, 0)
  else (bits (w64 m 0x18) 8 3, bits (w64 m 0x20) 0 32, w64 m 0x20 / 2 ^ 32)

/-- The batch a BATCH becomes. -/
def State.newBatch (s : State) (q ten stamp : Nat) (m : List Byte) (secs : List (List Byte)) (ringAll : Bool) : Batch :=
  let (lv, ttft, tbt) := batchSched m
  { ten := ten, id := mId m, qp := q, ver := mVer m, level := lv, ttft := ttft, tbt := tbt, port := q / 256, stamp := stamp
    order := s.sv.nextOrder, rows := secs.map fun x => s.newRow ten (reqOf x ringAll), msg := m }

/-- The credits a batch takes up at every stage (16 R438). -/
def State.takeCredits (s : State) (b : Batch) : State :=
  (s.stages.zipIdx).foldl (fun s p =>
    let k := b.ten * 2 ^ 20 + p.1
    let old := tget s.fa.credits k (0, 0)
    { s with fa := { s.fa with credits := tset s.fa.credits k (old.1, old.2 + lsum (b.rows.map fun r => nw r.pages p.2)) } }) s

/-- The lowest free handle (log entry 25). -/
def State.freeHandle (s : State) : Nat := ((List.range 1024).find? fun h => (s.batch h).isNone).getD 0

/-- The page tables of a batch's live rows begun (13 R329). -/
def State.openRows (s : State) (h : Nat) (b : Batch) : State :=
  (b.numbered.filter fun p => p.1.live).foldl (fun (s : State) p =>
    s.kvOpen (kvKey s.ownAddr h p.2) b.ten p.1.req.pack.template p.1.req.gen.variant) s

/-- A search block with the V0 of its SET terms moved from the block's start to the address at which it stands (15 R390). -/
def relocated (bs : List Byte) (va : Nat) : List Byte :=
  (List.range (bits (w64 bs 0) 8 4)).foldl (fun (bs : List Byte) i =>
    let t := 16 + 32 * i
    if bits (w64 bs t) 13 2 = 2 then bs.take (t + 8) ++ leBytes 8 ((w64 bs (t + 8) + va) % 2 ^ 64) ++ bs.drop (t + 16) else bs) bs

/-- The search blocks of a batch's rows placed in its tenancy's memory (15 R390; log entry 80). -/
def State.placeSearch (s : State) (h : Nat) (b : Batch) : State :=
  match s.sv.model with
  | none => s
  | some (m, _) =>
    if m.searchAt = 0 then s
    else b.numbered.foldl (fun (s : State) p => match p.1.req.search with
      | some bs =>
        let va := m.searchAt + (h * 64 + p.2) * 2 ^ 22
        s.commitPeer (s.spread b.ten va (relocated bs va))
      | none => s) s

/-- A batch admitted under a handle: counted, its credits taken, its deadline set; mirrored first while the module mirrors (18
R468). -/
def State.enterBatch (s : State) (h : Nat) (b : Batch) : State :=
  let m := s.mirroring
  let s := if m then s.mirAdmit b.ten h b.msg else s
  let b := if m then { b with mirrored := true, admitWait := some s.mirSeq } else b
  let s := (s.setBatch h b).takeCredits b
  let s := { s with sv := { s.sv with nextOrder := s.sv.nextOrder + 1 } }
  let s := (s.openRows h b).placeSearch h b
  let s := match b.deadline with
    | some d => { s with pt := { s.pt with deadlines := s.pt.deadlines ++ [(b.port, d)] } }
    | none => s
  let s := (s.countBatches b.ten).publish b.ten
  if m then s else s.sendAdmit h b

/-- Whether a command's queue pair is a connected request pair. -/
def State.requestPair (s : State) (q : Nat) : Bool := s.connected q && s.get (qpReg R.HST_QP_ROLE q) == 0

/-- BATCH (R386 to R394): admitted under a new handle, or refused. -/
def execBatch (qp ahead : Nat) (msg : List Byte) (s : State) : Host.Outcome State Fault Refusal :=
  if 1024 ≤ qp then .fault .noSuchUnit
  else if mType msg ≠ 2 ∨ s.requestPair qp = false then .next s
  else
    let stamp := s.time (qp / 256)
    let ten := s.get (qpReg R.HST_QP_TEN qp)
    match s.admission qp ahead msg with
    | .error (cause, row) =>
      let s := s.bump (R.HST_CNT0_REFUSED (qp / 256)) 1
      .next (s.reply qp (s.get (qpReg R.HST_QP_VER qp)) 0x82 (mId msg) [cause + row * 2 ^ 8, stamp])
    | .ok secs =>
      let b := s.newBatch qp ten stamp msg secs (s.get (qpReg R.HST_QP_RING_ALL qp) == 1)
      .next ((s.bump (R.HST_CNT0_ADMITTED (qp / 256)) 1).enterBatch s.freeHandle b)

/-! ## CANCEL (14 R374, R375, R395) -/

/-- The rows of a mask that a cancel commit would end at once: live rows of a batch whose step 0 is not yet fed. -/
def Batch.cancelEnds (b : Batch) (mask : Nat) : List Nat :=
  if b.step = 0 ∧ b.fed = false then b.liveRows.filter mask.testBit else []

/-- The cancel commit of rows of a batch. -/
def State.cancelCommit (s : State) (h mask : Nat) : State :=
  match s.batch h with
  | none => s
  | some b =>
    let s := { s with x := { s.x with serial := s.x.serial + 1 } }
    let named := (List.range b.rows.length).filter mask.testBit
    let live := b.liveRows.filter mask.testBit
    let ends := b.cancelEnds mask
    let s := s.bump R.SCH_CANCELS_IGNORED (named.length - live.length)
    let s := s.bump R.SCH_CANCELS_APPLIED ends.length
    let b := ends.foldl (fun b i => b.endRow i 4) b
    let b := (live.filter fun i => !ends.contains i).foldl (fun b i => b.modRow i fun r =>
      { r with cancel := match r.cancel with
        | some c => some c
        | none => some s.x.serial }) b
    let s := (s.setBatch h b).reportEnds h ends
    (s.countBatches b.ten).publish b.ten

/-- A cancel of rows of a batch, mirrored before its commit while the module mirrors the batch (18 R468). -/
def State.cancelRows (s : State) (h mask : Nat) : State :=
  match s.batch h with
  | none => s
  | some b =>
    if s.mirrors b then
      let s := s.mirror 0x23 b.ten [h, mask] []
      let s := (b.cancelEnds mask).foldl (fun s i => s.mirEnd b.ten h i 4) s
      s.setBatch h { b with cancelWait := b.cancelWait ++ [(mask, s.mirSeq)] }
    else s.cancelCommit h mask

/-- A message dropped for its version (R386, R387). -/
def State.badVersion (s : State) (q : Nat) : State := s.raise (R.HST_ERR_BAD_VERSION (q / 256)) (s.qpTen q)

/-- Whether a message's version is the pair's. -/
def State.verOk (s : State) (q : Nat) (m : List Byte) : Bool :=
  s.get (qpReg R.HST_QP_VER q) != 0 && mVer m == s.get (qpReg R.HST_QP_VER q)

/-- CANCEL (R395). -/
def execCancel (qp : Nat) (msg : List Byte) (s : State) : Host.Outcome State Fault Refusal :=
  if 1024 ≤ qp then .fault .noSuchUnit
  else if mType msg ≠ 3 ∨ s.connected qp = false then .next s
  else if s.verOk qp msg = false then .next (s.badVersion qp)
  else if s.requestPair qp = false then .next (s.bump (R.HST_CNT1_CANCEL_MISS (qp / 256)) 1)
  else match s.batchById (s.get (qpReg R.HST_QP_TEN qp)) (mId msg) with
    | none => .next (s.bump (R.HST_CNT1_CANCEL_MISS (qp / 256)) 1)
    | some (h, _) => .next (s.cancelRows h (w64 msg 0x10))

/-! ## STATUS and HELLO -/

/-- The three status words: three bits a row, 7 for a live one (R404). -/
def Batch.statusWords (b : Batch) : List Nat :=
  let x := lsum (b.numbered.map fun p => (if p.1.live then 7 else p.1.status) * 2 ^ (3 * p.2))
  (List.range 3).map fun i => x / 2 ^ (64 * i) % 2 ^ 64

/-- STATUS query (R404). -/
def execStatusQuery (qp : Nat) (msg : List Byte) (s : State) : Host.Outcome State Fault Refusal :=
  if 1024 ≤ qp then .fault .noSuchUnit
  else if mType msg ≠ 4 ∨ s.connected qp = false then .next s
  else if s.verOk qp msg = false then .next (s.badVersion qp)
  else
    let ten := s.get (qpReg R.HST_QP_TEN qp)
    let send (body : List Nat) : State := s.reply qp (mVer msg) 0x86 (mId msg) body
    let kind := bits (w64 msg 0x10) 0 8
    if kind = 1 ∧ s.requestPair qp then
      .next (send [(s.reg (R.SCH_TEN_STS ten)).toNat, (s.reg (R.SCH_TEN_LATE ten)).toNat])
    else
      let found := if kind = 0 ∧ s.requestPair qp then s.batchById ten (mId msg) else none
      match found with
      | some (h, b) => .next (send ([1 + h * 2, maskOf b.liveRows, b.step % 2 ^ 32] ++ b.statusWords))
      | none => .next (send [0, 0, 0, 0, 0, 0])

/-- The answer to a HELLO: V, the module address, the handle, the low 64 bits of the model-set measurement (R386). -/
def State.helloReply (s : State) (q v : Nat) : State :=
  s.reply q v 0x01 0 [v + s.ownAddr * 2 ^ 8 + q * 2 ^ 28, s.modelTag]

/-- Batches taken over that have no queue pair, and those that ended without one, take a tenancy's event queue pair, and what they
owe is sent (18 R477). -/
def State.adopt (s : State) (q : Nat) : State :=
  let ten := s.get (qpReg R.HST_QP_TEN q)
  if s.eventQp ten ≠ some q then s
  else
    let mine (b : Batch) : Bool := b.noQp && b.ten == ten
    let taken : List Batch := ((s.sv.batches.map (·.2)) ++ s.sv.tails).filter mine
    let now (b : Batch) : Batch := if mine b then { b with noQp := false, owed := [], qp := q } else b
    let s : State := { s with sv := { s.sv with batches := tmap (fun _ b => now b) s.sv.batches, tails := s.sv.tails.map now } }
    taken.foldl (fun (s : State) b => b.owed.foldl (fun s o => s.sendGroup q b.order o) s) s

/-- HELLO (R386, R387): negotiates, unless the pair is negotiated and has live batches. -/
def execHello (qp : Nat) (msg : List Byte) (s : State) : Host.Outcome State Fault Refusal :=
  if 1024 ≤ qp then .fault .noSuchUnit
  else if mType msg ≠ 1 ∨ s.connected qp = false then .next s
  else
    let cur := s.get (qpReg R.HST_QP_VER qp)
    if cur ≠ 0 ∧ s.sv.batches.any (fun p => p.2.qp == qp) then .next (s.helloReply qp cur)
    else
      let w := w64 msg 0x10
      let v := min (bits w 8 8) 3
      let ok : Bool := decide (2 ≤ v) && decide (bits w 0 8 ≤ v)
      let b (i : Nat) : Nat := if ok && w.testBit i then 1 else 0
      let s := s.put (qpReg R.HST_QP_VER qp) (if ok then v else 0)
      let s := (s.put (qpReg R.HST_QP_RING_ALL qp) (b 16)).put (qpReg R.HST_QP_EVENTS qp) (b 17)
      let hs := s.ho.hellos.filter (· != qp)
      let s := { s with ho := { s.ho with hellos := if ok then qp :: hs else hs } }
      .next ((s.helloReply qp (if ok then v else 0)).adopt qp)

end Sys2Proof.Machine
end

