-- ==== Sys2Proof/Machine/Packing.lean ====
section
/-!
DEFINITION. Re-ranking, packing and splicing (10): the passage store, pairs and a shard's slot, the prompt and its plan, the splice
store, masks, agreement, and builds.
-/
namespace Sys2Proof.Machine

/-- The row an operand names, of a batch homed here. -/
def State.rowOf (s : State) (h i : Nat) : Option (Batch × Row) :=
  match s.batch h with
  | none => none
  | some b => (b.rows[i]?).map fun r => (b, r)

/-- Row i of a batch changed. -/
def State.setRow (s : State) (h i : Nat) (f : Row → Row) : State :=
  match s.batch h with
  | some b => s.setBatch h (b.modRow i f)
  | none => s

/-- The module a message is for. -/
def stageDst : StageOut → Nat
  | .plan d .. | .mask d .. | .feed d .. | .masks d .. | .proposals d .. | .record d .. => d

/-- A message for another module instead. -/
def stageTo (m : StageOut) (d : Nat) : StageOut :=
  match m with
  | .plan _ h i p => .plan d h i p
  | .mask _ a h i k => .mask d a h i k
  | .feed _ h n l r => .feed d h n l r
  | .masks _ h n r => .masks d h n r
  | .proposals _ h i t => .proposals d h i t
  | .record _ h r => .record d h r

/-- Messages to other modules of the pipeline, recorded: a lost module's go to the one that serves in its place, if that is not this one
(18 R475). -/
def State.stageOut (s : State) (o : List StageOut) : State :=
  let o := o.filterMap fun m =>
    let d := s.substOf (stageDst m)
    if d = stageDst m then some m else if d = s.ownAddr then none else some (stageTo m d)
  { s with sv := { s.sv with out := s.sv.out ++ o } }

/-- The other stage modules. -/
def State.otherStages (s : State) : List Nat := s.stages.filter (· != s.ownAddr)

/-! ## The passage store (07 R198) -/

/-- The address of index x's passage store. -/
def State.passageStore (s : State) (x : Nat) : Option Nat :=
  match tfind s.nv.images (1 + x) with
  | some (_, .index _ p _) => p
  | _ => none

/-- A passage's token array in index x's store, its address and count; none outside the shard. -/
def State.passageAt (s : State) (x p : Nat) : Option (Nat × Nat) :=
  let h := s.idx x
  (s.passageStore x).bind fun a =>
    if p < h.firstId ∨ h.firstId + h.span ≤ p then none
    else
      let w := s.vword spModule (a + 8 * (p - h.firstId))
      some (a + 8 * h.span + bits w 0 40, bits w 40 16)

/-- A passage's tokens in index x's store. -/
def State.passageToks (s : State) (x p : Nat) : Option (List Nat) := (s.passageAt x p).map fun e => s.tokensAt spModule e.1 e.2

/-- The indexes of an index set whose shards lie on this module (16 R437). -/
def State.ownShards (s : State) (iset : Nat) : List Nat :=
  let a := s.get R.FAB_ISET_ISET_ADDR + iset * 512
  (List.range ((s.isetShards iset).getD 0)).filterMap fun i =>
    let e := ofLe (s.run (key spModule (a + 8 + 4 * i)) 4)
    if bits e 0 20 = s.ownAddr then some (bits e 20 6) else none

/-! ## Re-ranking (R258 to R260) -/

/-- A pair: R_PRE, the question, R_MID, the passage, R_POST, of at most 1,024 tokens (R258, R259). -/
def rerankPair (runs : List Nat × List Nat × List Nat) (question passage : List Nat) : List Nat :=
  let q := question.take 512
  let room := 1024 - (runs.1.length + runs.2.1.length + runs.2.2.length + q.length)
  runs.1 ++ q ++ runs.2.1 ++ passage.take room ++ runs.2.2

/-- Whether a command of a tenancy has committed with DONE as operation op of class 0x02. -/
def Cmd.scanned (c : Cmd) (ten op : Nat) : Bool :=
  c.st == .committed && c.ten == ten && dClass c.words == 0x02 && dOp c.words == op && bits c.record 8 8 == stDone

/-- The entries of a re-scored list that the re-ranker takes: the first min(PER_SHARD, COUNT). -/
def State.rerankIn (s : State) (c : Cmd) (perShard : Nat) : List Cand :=
  s.entries c.ten (c.body 3) (min perShard (bits (s.vword c.ten (c.body 3)) 32 13))

/-- The slot of a shard (R260, 09 R255): its list with the re-ranker's scores, SLOT_K entries long; what the header says of the search
is the re-scored list's (DESIGN CHOICE, log entry 78). -/
def State.rerankSlot (s : State) (c : Cmd) (perShard : Nat) (scores : List Nat) : List Byte :=
  let es := (s.rerankIn c perShard).zipWith (fun e x => { e with score := x % 2 ^ 32 }) scores
  let hd := s.vwords c.ten (c.body 3) 8
  resultList ((nw hd 0).testBit 8) (bits (nw hd 0) 16 6) perShard (bits (nw hd 1) 16 23) (nw hd 2)
    (sumF64 ((es.map Cand.val).filter fun v => !v.isNan)) 0 0 0 (nw hd 6) (nw hd 7) es

/-- A shard's candidates re-ranked and its slot written; where the gather area is this module's, its arrival is counted. -/
def State.rerank (s : State) (r : RankIn) : State :=
  match s.cmd r.rescored, s.sv.model with
  | some c, some (m, _) =>
    let es := s.rerankIn c r.perShard
    if c.scanned r.ten 0x02 = false ∨ r.perShard = 0 ∨ bits (c.body 1) 6 12 + 1 < r.perShard ∨ r.scores.length ≠ es.length then s
    else
      let slot := s.rerankSlot c r.perShard r.scores
      match s.access .unit r.ten [] ((r.slot, slot.length) :: r.area.toList.map fun a => (a, 8)) with
      | .ok =>
        let pairs := es.map fun e => rerankPair m.rerank r.question ((s.passageToks (bits (c.body 1) 0 6) e.id).getD [])
        let s := ({ s with sv := { s.sv with pairs := pairs } } : State).commitPeer [(s.dkey r.ten r.slot, slot)]
        match r.area with
        | some a => s.commitPeer [(s.dkey r.ten a, leBytes 8 ((s.vword r.ten a + 1) % 2 ^ 64))]
        | none => s
      | .fault ps => s.awaitPages ps
      | _ => s
  | _, _ => s

/-- What a request's gather found: SHORT, the pairs scored, the passages in rank order. -/
structure GatherRes where
  short : Bool
  scored : Nat
  ids : List Nat

/-- Whether a command is a request's gather (R260): SOURCES the shards of its index set, K PACK_N, SLOT_K PER_SHARD, DEADLINE its
admission stamp plus GATHER_WAIT. -/
def State.isGather (s : State) (b : Batch) (r : Row) (c : Cmd) : Bool :=
  c.scanned b.ten 0x07 && some (bits (c.body 1) 0 9) == s.isetShards r.req.iset && bits (c.body 1) 9 12 + 1 == r.req.pack.packN &&
    bits (c.body 3) 0 13 == r.req.pack.perShard && c.body 4 == b.stamp + r.req.pack.gatherWait * 1000

/-- The result of a request's gather, once that has committed; PACK_N 0 packs nothing and needs none. -/
def State.gatherOf (s : State) (b : Batch) (r : Row) (t : Nat) : Option GatherRes :=
  if r.req.pack.packN = 0 then some ⟨false, 0, []⟩
  else match s.cmd t with
    | none => none
    | some c =>
      if s.isGather b r c then
        let k := r.req.pack.perShard
        let hd (i : Nat) : Nat := s.vword c.ten (slotAddr (c.body 0) k i)
        let slots := (List.range (bits (c.body 1) 0 9)).filter fun i => hd i % 256 == 1
        let w := s.vword c.ten (c.body 2)
        some ⟨w.testBit 8, lsum (slots.map fun i => min (bits (hd i) 32 13) k),
          (s.entries c.ten (c.body 2) (min (bits w 32 13) r.req.pack.packN)).map (·.id)⟩
      else none

/-! ## Passage heat (R265) -/

/-- The hash of a passage, less its low bits. -/
def passageHash (p sh : Nat) : Nat := p * 0x9E3779B97F4A7C15 % 2 ^ 64 / 2 ^ sh

/-- The key of slot i of a passage's set in the heat table. -/
def heatSlot (m : ModelSet) (p i : Nat) : Nat := key spModule (m.heatAddr + (passageHash p 46 * 16 + i) * 16)

/-- The decayed heat a slot holds: none when it is not valid. -/
def State.slotHeat (s : State) (k : Nat) : Option Nat :=
  let w := s.word k
  let v := s.word (k + 8)
  if w.testBit 40 then some (decay (s.era % 2 ^ 48) (v / 2 ^ 16) (v % 2 ^ 16)) else none

/-- A passage's slot in its set. -/
def State.heatOf (s : State) (m : ModelSet) (p : Nat) : Option Nat :=
  (List.range 16).find? fun i => (s.word (heatSlot m p i)).testBit 40 && s.word (heatSlot m p i) % 2 ^ 40 == p

/-- A passage's heat. -/
def State.passHeat (s : State) (m : ModelSet) (p : Nat) : Nat :=
  match s.heatOf m p with
  | some i => (s.slotHeat (heatSlot m p i)).getD 0
  | none => 0

/-- The slot a new passage takes: an invalid one, else the one of least heat, ties at the lower number. -/
def State.coldSlot (s : State) (m : ModelSet) (p : Nat) : Nat :=
  let k (i : Nat) : Nat := match s.slotHeat (heatSlot m p i) with
    | none => 0
    | some h => h + 1
  ((List.range 16).foldl (fun (b : Nat × Nat) i => if k i < b.2 then (i, k i) else b) (0, k 0)).1

/-- A packing of a passage: its heat rises by 1, or it takes the coldest slot of its set at heat 1. -/
def State.warm (s : State) (m : ModelSet) (p : Nat) : State :=
  let (i, h) := match s.heatOf m p with
    | some i => (i, min (s.passHeat m p + 1) 65535)
    | none => (s.coldSlot m p, 1)
  s.writeRun (heatSlot m p i) (bytesOf [p % 2 ^ 40 + 2 ^ 40, h + s.era % 2 ^ 48 * 2 ^ 16])

/-- The packings that a first stage module counts. -/
def State.warmAll (s : State) (m : ModelSet) (plan : List (Nat × Nat × Nat × Nat)) : State :=
  if s.stages.head? = some s.ownAddr then plan.foldl (fun s p => s.warm m p.1) s else s

/-! ## Packing (R263, R264) -/

/-- The tokens of the segments other than slots. -/
def fixedLen (t : List Segment) (q : Nat) : Nat :=
  lsum (t.map fun g => if g.kind = 2 then 0 else if g.kind = 3 then q else g.count)

/-- The passages packed into room for so many tokens, each with its count and the tokens kept (R263); `runs` are those of a slot. -/
def packGo (runs : Nat) : Nat → List (Nat × Nat) → List (Nat × Nat × Nat)
  | _, [] => []
  | room, (p, n) :: rest =>
    if runs + n ≤ room then (p, n, n) :: packGo runs (room - (runs + n)) rest
    else if 32 + runs ≤ room then [(p, n, room - runs)]
    else []

/-- The passages placed in the slots that they fill: passage, start, packed length, count (R264). -/
def placeGo (before after : Nat) : Nat → List (Nat × Nat × Nat) → List (Nat × Nat × Nat × Nat)
  | _, [] => []
  | at_, (p, n, k) :: rest => (p, at_ + before, k, n) :: placeGo before after (at_ + before + k + after) rest

/-- The plan of a prompt, and its length. -/
def planOf (t : List Segment) (pk : PackBlk) (q : Nat) (ps : List (Nat × Nat)) : List (Nat × Nat × Nat × Nat) × Nat :=
  match t.findIdx? fun g => g.kind == 2 with
  | none => ([], fixedLen t q)
  | some ix =>
    let g := nth t ix ⟨2, 0, 0, 0, 0⟩
    let packed := packGo (g.count + g.after) (pk.budget - fixedLen t q) (ps.take (min pk.packN g.slots))
    let start := fixedLen (t.take ix) q
    let placed := placeGo g.count g.after start (if pk.lastFirst then packed.reverse else packed)
    (if pk.lastFirst then placed.reverse else placed, fixedLen t q + lsum (packed.map fun x => g.count + g.after + x.2.2))

/-- A prompt: the segments in template order, with the packed slots, each between its runs, in slot order (R264). -/
def State.promptToks (s : State) (t : List Segment) (q : List Nat) (slots : List (List Nat)) : List Nat :=
  t.flatMap fun g =>
    if g.kind = 2 then slots.flatMap fun p => s.tokensAt spModule g.addr g.count ++ p ++ s.tokensAt spModule (g.addr + 4 * g.count) g.after
    else if g.kind = 3 then q
    else s.tokensAt spModule g.addr g.count

/-- Whether a request may splice (R269). -/
def Req.splices (r : Req) : Bool := r.pack.splice && r.gen.variant == 0

/-- The tokens of a request's question (11 R279). -/
def State.question (s : State) (r : Req) : List Nat × Bool :=
  let e := s.encode r.question
  (e.1, e.2.2.2)

/-- A passage's tokens at the home: from the stores of its own shards, or as they have arrived from another module. -/
def State.tokensOf (s : State) (iset : Nat) (arrived : List (Nat × List Nat)) (p : Nat) : Option (List Nat) :=
  match (s.ownShards iset).findSome? fun x => s.passageToks x p with
  | some ts => some ts
  | none => (arrived.find? fun a => a.1 == p).map (·.2)

/-- A request whose fixed length exceeds BUDGET ends with LENGTH_LIMIT, its end mirrored first while the module mirrors (R263). -/
def State.overBudget (s : State) (h i : Nat) (b : Batch) (r : Row) : State :=
  if s.mirrors b && !b.mirEnded.contains i then
    let s := s.mirEnd b.ten h i 2
    s.setBatch h { b with mirEnded := i :: b.mirEnded, stepWait := some s.mirSeq }
  else if s.mirrors b && !s.mirAcked (b.stepWait.getD 0) then s
  else
    let b := (b.modRow i fun _ => r).endRow i 2
    let s := (s.setBatch h { b with stepWait := none }).reportEnds h [i]
    (s.countBatches b.ten).publish b.ten

/-- A row with its prompt placed from the passages in rank order: its plan, its tokens, its summary (R263, R264, Table 10.4). -/
def State.packRow (s : State) (t : List Segment) (r : Row) (q : List Nat) (passages : List (Nat × List Nat)) : Row :=
  let (plan, len) := planOf t r.req.pack q.length (passages.map fun p => (p.1, p.2.length))
  let slots := (if r.req.pack.lastFirst then plan.reverse else plan).map fun p =>
    (((passages.find? fun x => x.1 == p.1).map (·.2)).getD []).take p.2.2.1
  let pre := if r.req.gen.variant = 0 then prefixLen t else 0
  let cut := (plan.find? fun p => p.2.2.1 < p.2.2.2).map fun p => p.2.2.1
  { r with
    plan := plan, prompt := s.promptToks t q slots, packed := !r.req.splices || plan.isEmpty, valid := len
    sum := { r.sum with packed := plan.length, cut := cut.getD 0, prompt := len, prefilled := len - pre } }

/-- A row's prompt packed: the packings counted where this module is the first stage, the pages of its positions taken, the plan sent to the
other stage modules (R264, R270). -/
def State.packed1 (s : State) (m : ModelSet) (h i : Nat) (b : Batch) (r : Row) : State :=
  let s := ((s.setRow h i fun _ => r).warmAll m r.plan).kvPrompt (kvKey s.ownAddr h i) r.valid
  let s := if r.plan.isEmpty then s else s.stageOut (s.otherStages.map fun a => .plan a h i r.plan)
  s.publish b.ten

/-- PROMPT_PACK (R258 to R265). With `rank` this module re-ranks the candidates of its shard. Without it, row i's prompt is packed once
its gather has committed and the token arrays of the passages found have arrived; a fixed length above BUDGET ends the request. -/
def execPromptPack (batch row : Nat) (rank : Option RankIn) (gather : Nat) (arrived : List (Nat × List Nat)) (s : State) :
    Host.Outcome State Fault Refusal :=
  match rank with
  | some r => .next (s.rerank r)
  | none =>
    match s.rowOf batch row, s.sv.model with
    | some (b, r), some (m, _) =>
      if r.live = false ∨ r.packed = true ∨ b.fed = true ∨ 0 < b.step ∨ !r.plan.isEmpty then .next s
      else match s.gatherOf b r gather with
        | none => .next s
        | some g =>
          let t := templateOf m r.req.pack.template
          let q := s.question r.req
          let r := { r with truncated := q.2, short := g.short, sum := { r.sum with reranked := g.scored } }
          if r.req.pack.budget < fixedLen t q.1.length then .next (s.overBudget batch row b r)
          else
            let got := g.ids.map fun p => (p, s.tokensOf r.req.iset arrived p)
            if got.any fun p => p.2.isNone then .next s
            else .next (s.packed1 m batch row b (s.packRow t r q.1 (got.map fun p => (p.1, p.2.getD []))))
    | _, _ => .next s

/-! ## The splice store (07 R199, R200) -/

/-- The address of a directory slot, and of a unit of the store, in the module's pages; their keys. -/
def dirVa (m : ModelSet) (i : Nat) : Nat := m.dirAddr + i % 2 ^ 20 * 16
def unitVa (m : ModelSet) (unit : Nat) : Nat := m.storeAddr + unit * 65536
def dirSlot (m : ModelSet) (i : Nat) : Nat := key spModule (dirVa m i)
def entryKey (m : ModelSet) (unit : Nat) : Nat := key spModule (unitVa m unit)

/-- The directory's answer for a passage (R200): its slot, first unit and token count, over i from `n` slots short of 64. -/
def State.dirGo (s : State) (m : ModelSet) (p : Nat) : Nat → Option (Nat × Nat × Nat)
  | 0 => none
  | n + 1 =>
    let i := (passageHash p 44 + (63 - n)) % 2 ^ 20
    let w := s.word (dirSlot m i)
    let v := s.word (dirSlot m i + 8)
    if w.testBit 40 && w % 2 ^ 40 == p then some (i, bits v 0 32, bits v 32 16)
    else if !w.testBit 40 && !w.testBit 41 then none
    else s.dirGo m p n

def State.dirLookup (s : State) (m : ModelSet) (p : Nat) : Option (Nat × Nat × Nat) := s.dirGo m p 64

/-- Whether a fetched entry's header is the passage's, of the model set loaded (R270). -/
def State.headerOk (s : State) (m : ModelSet) (unit p n : Nat) : Bool :=
  let w := s.word (entryKey m unit)
  bits w 56 8 == 1 && w % 2 ^ 40 == p && bits w 40 16 == n && s.word (entryKey m unit + 8) == s.modelTag

/-- The bytes of an entry of so many tokens for this module's layers: its header and its blocks (R199). -/
def State.blockLen (s : State) (m : ModelSet) (n : Nat) : Nat := s.ownLayers.length * n * 2 * kvBytes m
def State.entryLen (s : State) (m : ModelSet) (n : Nat) : Nat := 4096 + s.blockLen m n

/-- The keys and the values of a token of a layer in an entry's blocks: layer, then token, then key before value. -/
def blockAt_ (m : ModelSet) (n l t : Nat) (data : List Byte) : List Byte × List Byte :=
  let bs := (data.drop ((l * n + t) * 2 * kvBytes m)).take (2 * kvBytes m)
  (bs.take (kvBytes m), bs.drop (kvBytes m))

/-! ## Masks and agreement (R269 to R272) -/

/-- The boundary of packed passage i of a plan: b' = min(B, T') (R269). -/
def boundary (plan : List (Nat × Nat × Nat × Nat)) (b i : Nat) : Nat := min b (nth plan i (0, 0, 0, 0)).2.2.1

/-- Whether packed passage i is spliced under a mask. -/
def splicedAt (plan : List (Nat × Nat × Nat × Nat)) (b mask i : Nat) : Bool :=
  mask.testBit i && decide (boundary plan b i < (nth plan i (0, 0, 0, 0)).2.2.1)

/-- The tokens of packed passage i that take stored entries (R272). -/
def reused (plan : List (Nat × Nat × Nat × Nat)) (b mask i : Nat) : List Nat :=
  if splicedAt plan b mask i then upto (boundary plan b i) ((nth plan i (0, 0, 0, 0)).2.2.1 - boundary plan b i) else []

/-- The entries of a plan's passages fetched, each from byte 0 of its entry in one footprint: the state after, and the blocks of those that
pass the check by their place in the plan (R270). Uncorrectable sectors are reported (07 R205, R206). -/
def State.fetchEntries (s : State) (m : ModelSet) (plan : List (Nat × Nat × Nat × Nat)) : State × Tab (List Byte) :=
  plan.zipIdx.foldl (fun (a : State × Tab (List Byte)) x =>
    match a.1.dirLookup m x.1.1 with
    | none => a
    | some (_, unit, n) =>
      let r := (unitVa m unit, a.1.entryLen m n)
      if a.1.access .cellar spModule [r] [] ≠ .ok then a
      else
        let s := a.1.accessHeat (a.1.granules spModule [r]) (a.1.homeLines spModule [r])
        let bad := s.badSectorsOf spModule r
        if !bad.isEmpty then (s.reportSectors bad, a.2)
        else if s.headerOk m unit x.1.1 x.1.2.2.2 && n == x.1.2.2.2 then (s, tset a.2 x.2 (s.vrun spModule (r.1 + 4096) (s.blockLen m n)))
        else (s, a.2)) (s, [])

/-- The request a plan is of: what the row says where it is homed here. -/
def State.planFor (s : State) (batch row : Nat) (p : PlanIn) : Option PlanIn :=
  if p.home = s.ownAddr then
    match s.rowOf batch row with
    | some (b, r) =>
      if r.live ∧ !r.plan.isEmpty then
        some { p with ten := b.ten, template := r.req.pack.template, variant := r.req.gen.variant, splices := r.req.splices
                      b := r.req.pack.b, plan := r.plan }
      else none
    | none => none
  else some p

/-- A plan received from another home: its packings counted, its page table begun (R264, R265, 13 R329). -/
def State.takePlan (s : State) (m : ModelSet) (k : Nat) (p : PlanIn) : State :=
  if p.home = s.ownAddr then s else (s.warmAll m p.plan).kvOpen k p.ten p.template p.variant

/-- SPLICE_MASK_SEND (R270): this stage's entries of a plan fetched, and its mask sent to the other stages. -/
def execSpliceMaskSend (batch row : Nat) (plan : PlanIn) (s : State) : Host.Outcome State Fault Refusal :=
  match s.planFor batch row plan, s.sv.model, s.stageOf s.ownAddr with
  | some p, some (m, _), some _ =>
    let k := kvKey p.home batch row
    let had := match s.kvOf k with
      | some q => q.mask.isSome && (p.home == s.ownAddr || q.plan == p.plan)
      | none => false
    if had then .next s
    else
      let s := s.takePlan m k p
      let (s, got) := if p.splices then s.fetchEntries m p.plan else (s, [])
      let mask := maskOf (tkeys got)
      let q := (s.kvOf k).getD { ten := p.ten, table := 0 }
      let s := s.setKv k { q with plan := p.plan, b := p.b, mask := some mask, fetched := got, placed := !p.splices }
      .next (if p.splices then s.stageOut (s.otherStages.map fun a => .mask a p.home batch row mask) else s)
  | _, _, _ => .next s

/-- A re-rotated key (R271): the exact sum rounded once to FP32, then to FP8. -/
def rotKey (f : FFmt) (a b : Nat) (x y : Nat) (minus : Bool) : Nat :=
  let p := fmul (decodeF .bf16 a) (decodeF f x)
  let q := fmul (decodeF .bf16 b) (decodeF f y)
  roundF f true (decodeF .fp32 (roundF .fp32 false (if minus then fsub p q else fadd p q)))

/-- The coefficients C and S of a position for each frequency (R271; the table's layout is log entry 79). -/
def State.rotary (s : State) (m : ModelSet) (pos : Nat) : List (Nat × Nat) :=
  (List.range m.rotPairs.length).map fun i =>
    let w := ofLe (s.vrun spModule (m.rotAddr + (pos * m.rotPairs.length + i) * 4) 4)
    (bits w 0 16, bits w 16 16)

/-- The key of one head re-rotated: each pair (a, b) of elements by its frequency's coefficients; an element in no pair stays. -/
def rotHead (f : FFmt) (pairs cs : List (Nat × Nat)) (x : List Byte) : List Byte :=
  (pairs.zip cs).foldl (fun y e =>
    let xa := (nth x e.1.1 0).toNat
    let xb := (nth x e.1.2 0).toNat
    (y.set e.1.1 (BitVec.ofNat 8 (rotKey f e.2.1 e.2.2 xa xb true))).set e.1.2 (BitVec.ofNat 8 (rotKey f e.2.2 e.2.1 xa xb false))) x

/-- The keys of a token re-rotated to a start, head by head. -/
def State.rotKeys (s : State) (m : ModelSet) (start : Nat) (ks : List Byte) : List Byte :=
  let f : FFmt := if m.e5m2 then .e5m2 else .e4m3
  let hd := m.principal.headDim
  (List.range m.principal.kvHeads).flatMap fun h => rotHead f m.rotPairs (s.rotary m start) ((ks.drop (h * hd)).take hd)

/-- The reused tokens of a plan's spliced passages put in the request's pages: re-rotated keys, and values as fetched (R271, R272). -/
def State.placeSpliced (s : State) (m : ModelSet) (k : Nat) (plan : List (Nat × Nat × Nat × Nat)) (b mask : Nat) : State :=
  match s.kvOf k with
  | none => s
  | some q =>
    let toks := (List.range plan.length).flatMap fun i => (reused plan b mask i).map fun t => (i, t)
    let ls := List.range s.ownLayers.length
    let at_ (i : Nat) : Nat × Nat := ((nth plan i (0, 0, 0, 0)).2.1, (nth plan i (0, 0, 0, 0)).2.2.2)
    let s := ls.foldl (fun (s : State) l => toks.foldl (fun (s : State) x => s.takePage m k l (((at_ x.1).1 + x.2) / 64)) s) s
    let s := s.commitPeer (ls.flatMap fun l => toks.flatMap fun x =>
      let e := blockAt_ m (at_ x.1).2 l x.2 (tget q.fetched x.1 [])
      s.kvRuns m k l ((at_ x.1).1 + x.2) (s.rotKeys m (at_ x.1).1 e.1) e.2)
    match s.kvOf k with
    | some q => s.setKv k { q with fetched := [], placed := true }
    | none => s

/-- The conjunction of the stages' masks (R270). -/
def agreedMask (n : Nat) (masks : List Nat) : Nat := masks.foldl (· &&& ·) (2 ^ n - 1)

/-- A row whose stages have agreed (R269, Table 10.4). -/
def agreeRow (r : Row) (mask : Nat) : Row :=
  let is := (List.range r.plan.length).filter (splicedAt r.plan r.req.pack.b mask)
  let saved := lsum (is.map fun i => (reused r.plan r.req.pack.b mask i).length)
  { r with
    agreed := some mask, packed := true
    sum := { r.sum with
      spliced := is.length, bUsed := if is.isEmpty then 0 else r.req.pack.b, prefilled := r.sum.prefilled - saved } }

/-- SPLICE_AGREE (R269 to R272): with the mask of every other stage, in the pipeline's order, the spliced passages, and their re-rotated
blocks placed in the request's pages; the home's row is then packed. -/
def execSpliceAgree (home batch row ten : Nat) (stages masks : List Nat) (s : State) : Host.Outcome State Fault Refusal :=
  let k := kvKey home batch row
  let all := ((s.kvOf k).bind (·.mask)).toList ++ masks
  match s.sv.model with
  | none => .next s
  | some (m, _) =>
    if all.length ≠ s.stages.length ∨ stages ≠ s.otherStages then .next s
    else if home = s.ownAddr then
      match s.rowOf batch row with
      | none => .next s
      | some (b, r) =>
        if b.ten ≠ ten ∨ r.live = false ∨ r.packed = true ∨ r.plan.isEmpty = true then .next s
        else
          let mask := agreedMask r.plan.length all
          let s := s.placeSpliced m k r.plan r.req.pack.b mask
          .next ((s.setRow batch row fun r => agreeRow r mask).publish b.ten)
    else match s.kvOf k with
      | none => .next s
      | some q => if q.ten ≠ ten ∨ q.placed ∨ q.mask.isNone then .next s else .next (s.placeSpliced m k q.plan q.b (agreedMask q.plan.length all))

/-! ## Builds (R266 to R268) -/

/-- The valid slots of the splice directory: slot and passage. -/
def State.dirEntries (s : State) (m : ModelSet) : List (Nat × Nat) :=
  (List.range (2 ^ 20)).filterMap fun i =>
    let w := s.word (dirSlot m i)
    if w.testBit 40 then some (i, w % 2 ^ 40) else none

/-- The entry a full store gives up, of those listed: of lowest heat, ties at the lower passage, and of at most half the newcomer's heat
(R266). -/
def State.evictable (s : State) (m : ModelSet) (p : Nat) (es : List (Nat × Nat)) : Option (Nat × Nat) :=
  let cold := es.foldl (fun (b : Option (Nat × Nat)) e =>
    match b with
    | none => some e
    | some c =>
      let x := s.passHeat m e.2
      let y := s.passHeat m c.2
      if x < y ∨ (x = y ∧ e.2 < c.2) then some e else some c) none
  cold.filter fun e => decide (2 * s.passHeat m e.2 ≤ s.passHeat m p)

/-- The directory slot a new entry takes: within 63 of its home, not valid, or among those given up (R200). -/
def State.dirFree (s : State) (m : ModelSet) (p : Nat) (gone : List Nat) : Option Nat :=
  ((List.range 64).map fun i => (passageHash p 44 + i) % 2 ^ 20).find? fun i => gone.contains i || !(s.word (dirSlot m i)).testBit 40

/-- The first unit and the units of the entry that a directory slot names. -/
def State.entryUnits (s : State) (m : ModelSet) (i : Nat) : Nat × Nat :=
  let v := s.word (dirSlot m i + 8)
  (bits v 0 32, ceilDiv (s.entryLen m (bits v 32 16)) 65536)

/-- Whether BUILD_TEN may build now: it serves, the slice lets it run, and no batch of it of a higher priority than 7 is ready (R266). -/
def State.buildTurn (s : State) (m : ModelSet) : Bool :=
  s.get (R.SCH_TEN_STS_STATE m.buildTen) == 1 && s.mayRun m.buildTen && (s.runOrder m.buildTen).all fun p => decide (7 ≤ s.effLevel p.2)

/-- What a build is to do: the entries it gives up (slot and passage), and the slot of its own. -/
structure BuildPlan where
  gone : List (Nat × Nat)
  slot : Nat

/-- Whether a build of a passage at a unit runs, and how (R266, R268): an entry of another model set or token count is absent, and is given up. On
the first stage the passage's heat decides; the others follow with the victim it chose. -/
def State.buildPlan (s : State) (m : ModelSet) (passage tokens unit : Nat) (victim : Option Nat) : Option BuildPlan :=
  let first := s.stages.head? == some s.ownAddr
  let old : Option (Nat × Nat × Nat) := s.dirLookup m passage
  let fresh : Bool := match old with
    | some (_, u, n) => n == tokens && s.headerOk m u passage tokens
    | none => false
  let others := (s.dirEntries m).filter fun e => e.2 != passage
  let full : Bool := decide (m.capEntries ≤ others.length)
  let out : Option (Nat × Nat) := if !full then none else if first then s.evictable m passage others else victim.bind fun v => others.find? fun e => e.2 == v
  let gone : List (Nat × Nat) := (old.map fun o => (o.1, passage)).toList ++ out.toList
  let len := ceilDiv (s.entryLen m tokens) 65536
  let free := (others.filter fun e => !(gone.map (·.1)).contains e.1).all fun e => !overlaps unit len (s.entryUnits m e.1).1 (s.entryUnits m e.1).2
  if s.nvOk = false ∨ tokens ≤ 64 ∨ 65535 < tokens ∨ fresh ∨ (first = true ∧ s.passHeat m passage < m.spliceIn) ∨ (full = true ∧ out.isNone = true) ∨
      !free ∨ s.ownLayers.isEmpty ∨ !s.buildTurn m then none
  else
    let slot : Option Nat := match old with
      | some o => some o.1
      | none => s.dirFree m passage (gone.map fun e => e.1)
    slot.map fun i => ⟨gone, i⟩

/-- The first layer this module holds. -/
def State.firstLayer (s : State) (m : ModelSet) : Nat :=
  match s.stageOf s.ownAddr with
  | some st => lsum ((m.stages.take st).map List.length)
  | none => 0

/-- The five steps of a build (R267), each its writes: address in the module's pages, bytes. -/
def State.buildSteps (s : State) (m : ModelSet) (passage tokens unit : Nat) (p : BuildPlan) (data : List Byte) : List (List (Nat × List Byte)) :=
  [p.gone.map fun e => (dirVa m e.1, leBytes 8 (e.2 + 2 ^ 41)),
   p.gone.map fun e => (unitVa m (s.entryUnits m e.1).1 + 7, [0]),
   [(unitVa m unit + 4096, data)],
   [(unitVa m unit, bytesOf [passage % 2 ^ 40 + tokens * 2 ^ 40 + 2 ^ 56, s.modelTag, s.firstLayer m + s.ownLayers.length * 2 ^ 8, 0])],
   [(dirVa m p.slot, bytesOf [passage % 2 ^ 40 + 2 ^ 40, unit + tokens * 2 ^ 32])]]

/-- One step of a build: its sectors programmed as by `cel.prog`, counted, as one commit. -/
def State.progStep (s : State) (ws : List (Nat × List Byte)) : State :=
  if ws.isEmpty then s
  else (s.bump R.CEL_PROG_BYTES (lsum (ws.map fun w => sectorBytes * (sectorsIn w.1 w.2.length).length))).commitPeer
    (ws.map fun w => (key spModule w.1, w.2))

/-- SPLICE_BUILD (R266, R267): a passage of more than 64 tokens without an entry gets one at a unit of the store, from the blocks
its prefill gave for this module's layers; a build that ends after fewer than five steps leaves its slot without VALID. -/
def execSpliceBuild (passage tokens : Nat) (place : BuildAt) (data : List Byte) (s : State) : Host.Outcome State Fault Refusal :=
  match s.sv.model with
  | none => .next s
  | some (m, _) =>
    match s.buildPlan m passage tokens place.unit place.victim with
    | none => .next s
    | some p =>
      if data.length ≠ s.blockLen m tokens then .next s
      else
        let steps := (s.buildSteps m passage tokens place.unit p data).take place.upto
        match (steps.flatten).findSome? fun w => s.storeDst spModule w.1 w.2.length [] with
        | some (.away ps _) => .next (s.awaitPages ps)
        | some _ => .next s
        | none => .next (steps.foldl State.progStep s)

end Sys2Proof.Machine
end

