-- ==== Sys2Proof/Machine/Steps.lean ====
section
/-!
DEFINITION. The steps of a request (13): the feed, proposals, the sample commit, the step commit.
-/
namespace Sys2Proof.Machine

/-! ## The feed, proposals, the sample (13 R321 to R343) -/

/-- Whether this module is the sampling module of its pipeline (R322). -/
def State.samples (s : State) : Bool := s.stages.getLast? == some s.ownAddr

/-- What a feed sends (R323, R324; 14 R363): the rows' tokens and the batch's level to the first stage, and to the sampling module the masks of the rows that have a grammar
session. -/
def State.feedOut (s : State) (h : Nat) (b : Batch) : List StageOut :=
  let far (a : Option Nat) : List Nat := (a.filter (· != s.ownAddr)).toList
  let masked := (b.numbered.filter fun p => p.1.live && p.1.req.gen.grammarEn).map (·.2)
  (far s.stages.head?).map (fun a => .feed a h b.step (s.effLevel b) b.liveRows) ++
    (if masked.isEmpty then [] else (far s.stages.getLast?).map fun a => .masks a h b.step masked)

/-- What the `grm.step` of a ticket reports for row i (12 R310, R311), once it has committed with DONE: the head of its result. -/
def State.grmReport (s : State) (ten i t : Nat) : Option FeedIn :=
  match s.cmd t with
  | none => none
  | some c =>
    if c.st = .committed ∧ c.ten = ten ∧ dClass c.words = 0x05 ∧ dOp c.words = 0x13 ∧ bits c.record 8 8 = stDone then
      let w := s.vword ten (c.body 3)
      some ⟨i, s.tokensAt ten (c.body 3 + 16) (bits w 12 4), w.testBit 18 || w.testBit 19, w.testBit 17, w.testBit 16⟩
    else none

/-- The `grm.step` that a row is fed with: its report, not that of its feed before. -/
def State.grmOf (s : State) (b : Batch) (i : Nat) (r : Row) (grms : List (Nat × Nat)) : Option (Nat × FeedIn) :=
  match grms.find? fun g => g.1 == i with
  | none => none
  | some g => if r.grm = some g.2 then none else (s.grmReport b.ten i g.2).map fun f => (g.2, f)

/-- Whether R324 lets a batch be fed: the grammar step of every live row with a session has committed. -/
def State.grmReady (s : State) (b : Batch) (grms : List (Nat × Nat)) : Bool :=
  b.numbered.all fun p => !p.1.live || !p.1.req.gen.grammarEn || (s.grmOf b p.2 p.1 grms).isSome

/-- A row as it is fed. -/
def State.fedRow (s : State) (b : Batch) (i : Nat) (r : Row) (grms : List (Nat × Nat)) : Row :=
  let g := if r.req.gen.grammarEn then s.grmOf b i r grms else none
  { r with feed := g.map (·.2), grm := g.map (·.1), stepRec := none }

/-- STEP_FEED_SEND (R321, R324, R358): the next step of a batch fed, with what each row's `grm.step` reported; held by a
backlog (15 R400) or by unacknowledged output while PAIRED (18 R470). -/
def execStepFeedSend (batch : Nat) (grms : List (Nat × Nat)) (s : State) : Host.Outcome State Fault Refusal :=
  match s.batch batch with
  | none => .next s
  | some b =>
    if b.ready = false ∨ b.stepWait.isSome ∨ s.mayRun b.ten = false ∨ s.isolated = true ∨ s.grmReady b grms = false then .next s
    else if s.heldBack b then .next (s.raise (R.HST_ERR_BACKLOG_HOLD (b.qp / 256)) (some b.ten))
    else
      let b := b.liveRows.foldl (fun b' i => b'.modRow i fun r => s.fedRow b i r grms) b
      .next (((s.setBatch batch { b with fed := true }).stageOut (s.feedOut batch b)).publish b.ten)

/-- The seed of a row. -/
def Batch.seed (b : Batch) (r : Row) : Nat := seedOf r.req b.ten

/-- The row that a sampling module decides for: one of its own, or one homed elsewhere as its home's feed describes it. -/
def State.sampledRow (s : State) (h i : Nat) (remote : Option RemoteRow) : Option (Batch × Row) :=
  match remote with
  | none => s.rowOf h i
  | some x =>
    let r := s.newRow x.ten (reqOf x.section_ false)
    let r := { r with
      generated := x.generated, draftLen := x.draftLen, zeroRun := x.zeroRun, probeWait := x.probeWait, props := x.props, feed := x.feed }
    some ({ s.newBatch 0 x.ten 0 [] [] false with step := x.step, fed := true }, r)

/-- DRAFT_PROPOSE (R340, R342): the proposals of a row's next step, drawn from the draft's logits, for its home. -/
def execDraftPropose (batch row : Nat) (draft : DraftIn) (s : State) : Host.Outcome State Fault Refusal :=
  match s.sampledRow batch row draft.remote with
  | none => .next s
  | some (b, r) =>
    if r.live ∧ s.samples ∧ 0 < b.step ∧ (draft.remote.isSome ∨ b.fed = false) then
      let n := proposalCount r.req.gen r.draftLen r.probeWait r.generated
      let ps := propose r.req.gen (b.seed r) r.generated (draft.logits.take n) 0
      match draft.remote with
      | none => .next (s.setRow batch row fun r => { r with props := ps })
      | some x => .next (s.stageOut [.proposals x.home batch row (ps.map (·.1))])
    else .next s

/-- The end tokens of a request: the model set's and its grammar's (R347). -/
def State.endToks (s : State) (b : Batch) (r : Row) : List Nat :=
  let ms : List Nat := match s.sv.model with
    | some m => m.1.ends
    | none => []
  let gs : List Nat := match r.req.gram with
    | some g =>
      let w := ofLe (g.take 8)
      if w.testBit 20 then [] else (s.slotGram (bits w 0 6) b.ten).ends
    | none => []
  ms ++ gs

/-- The first decided token that ends a request: its place, and whether it is an end token (R348). -/
def endAt (ends : List Nat) (maxNew g : Nat) (ts : List Nat) : Option (Nat × Bool) :=
  (ts.zipIdx.find? fun p => ends.contains p.1 || decide (maxNew ≤ g + p.2 + 1)).map fun p => (p.2, ends.contains p.1)

/-- What a step decides for a row (R341, R342): the run alone, the run and one draw, or the verification of its proposals. -/
def stepVerdict (b : Batch) (r : Row) (pos : List PosIn) : Verdict1 :=
  let g := r.req.gen
  let f : FeedIn := r.feed.getD ⟨0, [], false, false, false⟩
  if f.dead then ⟨[], 0, false, false⟩
  else if f.alone then ⟨f.run, 0, false, false⟩
  else if f.run.isEmpty then verify g (b.seed r) r.generated r.props pos 0
  else
    let v := verify g (b.seed r) (r.generated + f.run.length) [] (pos.take 1) 0
    { v with tokens := f.run ++ v.tokens }

/-- The positions a step's decision needs. -/
def positionsOf (r : Row) : Nat :=
  match r.feed with
  | some f => if f.dead || f.alone then 0 else if f.run.isEmpty then r.props.length + 1 else 1
  | none => r.props.length + 1

/-- The step record of a fed row, decided from the principal's logits; its SERIAL is that of the sample commit (R325, R341). -/
def State.stepRecord (s : State) (b : Batch) (i : Nat) (r : Row) (pos : List PosIn) (serial : Nat) : StepRec :=
  let f : FeedIn := r.feed.getD ⟨0, [], false, false, false⟩
  let v := stepVerdict b r pos
  let run := !f.run.isEmpty
  let np := if run || f.dead then 0 else r.props.length
  let (dl, zr, pw) := draftRule r.req.gen.draftMax r.draftLen r.zeroRun r.probeWait np v.accepted run
  let fin : Nat := match endAt (s.endToks b r) r.req.gen.maxNew r.generated v.tokens with
    | some (_, true) => 1
    | some (_, false) => 2
    | none => if v.tokens.isEmpty then 3 else 0
  ⟨i, v.tokens.take 9, np, v.accepted, f.run.length, dl, fin, f.fallback, v.wide, v.numeric, zr, pw, r.generated, b.step, serial⟩

/-- The outputs of the mixture-of-experts layers of a fed row put where its layers continue (R332), as one commit. -/
def State.combine (s : State) (ten : Nat) (routes : List RouteIn) : State :=
  match s.sv.model with
  | some (m, _) => if routes.isEmpty then s else s.commitPeer (routes.map fun x => (s.dkey ten x.va, moeRow m x))
  | none => s

/-- SAMPLE_DECIDE (R322, R332, R334 to R342): a fed row's tokens decided from the principal's logits and committed as its step record, which
goes to the row's home. -/
def execSampleDecide (batch row : Nat) (step : DecideIn) (s : State) : Host.Outcome State Fault Refusal :=
  match s.sampledRow batch row step.remote with
  | none => .next s
  | some (b, r) =>
    if r.live = false ∨ b.fed = false ∨ s.samples = false ∨ s.isolated = true ∨ r.stepRec.isSome ∨ step.pos.length < positionsOf r then .next s
    else
      let s := s.combine b.ten step.routes
      let s := { s with x := { s.x with serial := s.x.serial + 1 } }
      let rec_ := s.stepRecord b row r step.pos s.x.serial
      let s := match step.remote with
        | none => s.setRow batch row fun r => { r with stepRec := some rec_ }
        | some x => s.stageOut [.record x.home batch rec_]
      .next (if rec_.numeric then (s.logKind 10 0 3 1 (some b.ten) r.req.reqId (batch + row * 2 ^ 10) false).1 else s)

/-! ## The step commit (13 R322, R343, R348; 14 R374, R376; 15 R396, R397) -/

/-- What a step commit makes of a row: the row after it, its output entry, whether it has ended, whether a cancel ended it. -/
structure RowEnd where
  row : Row
  entry : Option (List Byte)
  ended : Bool
  cancelled : Bool

/-- A row's end from its record: status, tokens delivered, text released, the stream after (R348, 14 R374). -/
def State.rowEnd (s : State) (b : Batch) (i : Nat) (r : Row) (rec_ : StepRec) : RowEnd :=
  let e := endAt (s.endToks b r) r.req.gen.maxNew r.generated rec_.tokens
  let counted := match e with
    | some p => rec_.tokens.take (p.1 + 1)
    | none => rec_.tokens
  let (out, v, used, stop) := s.feed r.strm counted
  let st : Option Nat :=
    if stop.isSome then some 1
    else match e with
      | some (_, true) => some 0
      | some (_, false) => some 2
      | none => if rec_.tokens.isEmpty then some 3 else none
  let counted := if stop.isSome then counted.take used else counted
  let run := decide (0 < rec_.run)
  let (dl, zr, pw) := draftRule r.req.gen.draftMax r.draftLen r.zeroRun r.probeWait rec_.proposed rec_.accepted run
  let valid := r.sum.prompt + r.generated + rec_.tokens.length
  let all := r.recs ++ [rec_]
  let r' := { r with
    draftLen := dl, zeroRun := zr, probeWait := pw, fallback := r.fallback || rec_.fallback, feed := none, stepRec := none
    props := [], valid := valid, released := s.ownLayers.map fun w => windowFreed w (valid - 1)
    recs := all.drop (all.length - 16) }
  let gone := r.cancel.isSome && st.isNone
  let text := if gone then r.strm.out r.strm.held
    else if st.isSome && stop.isNone then out ++ v.out v.held else out
  let toks := if gone then [] else counted
  let ended := gone || st.isSome
  let entry := if toks.isEmpty && text.isEmpty then none else some (outEntry i r.generated toks text ended)
  let hist := r.history ++ (match entry with
    | some x => [(b.step, x)]
    | none => [])
  { row := { r' with
      strm := v, generated := r.generated + toks.length, live := !ended
      status := if gone then 4 else st.getD 7, cancelLate := r.cancel.isSome && st.isSome, cancel := none
      history := hist.filter fun h => decide (b.step < h.1 + 16) }
    entry := entry, ended := ended, cancelled := gone }

/-- What a step commit makes of each live row that has a record. -/
def State.stepEnds (s : State) (b : Batch) : List (Nat × RowEnd) :=
  b.numbered.filterMap fun p =>
    match p.1.live, p.1.stepRec with
    | true, some rec_ => some (p.2, s.rowEnd b p.2 p.1 rec_)
    | _, _ => none

/-- The swaps of embedding tables that a step commit of their tenancy lets leave Issued (17 R456). -/
def State.releaseSwaps (s : State) (ten : Nat) : State :=
  let ts := (s.x.cmds.filter fun p => p.2.ten == ten && dClass p.2.words == 0x06 && dOp p.2.words == 0x03 && p.2.st == .issued).map (·.1)
  { s with em := { s.em with released := ts.foldl addNew s.em.released } }

/-- The step commit of a batch all of whose live rows have their records: earlier ends freed, output sent, ends reported. -/
def State.commitStep (s : State) (h : Nat) : State :=
  match s.batch h with
  | none => s
  | some b =>
    let es := s.stepEnds b
    let s := { s with x := { s.x with serial := s.x.serial + 1 } }
    let s := s.freeRows h (List.range b.rows.length)
    let b := (s.batch h).getD b
    let b' := es.foldl (fun b e => b.modRow e.1 fun r => { e.2.row with freed := r.freed }) b
    let s := s.setBatch h { b' with step := b.step + 1, fed := false, stepWait := none, mirEnded := [] }
    let s := (es.filter fun e => !e.2.ended).foldl (fun s e => s.kvAdvance (kvKey s.ownAddr h e.1) e.2.row.valid) s
    let s := s.bump R.SCH_CANCELS_APPLIED (es.filter fun e => e.2.cancelled).length
    let s := s.releaseSwaps b.ten
    let outs := es.filterMap fun e => e.2.entry.map fun x => (e.1, e.2.row.onRing, x)
    let s := s.sendTokens h b' b.step ((outs.filter fun o => !o.2.1).map fun o => (o.1, o.2.2))
    let s := (outs.filter fun o => o.2.1).foldl (fun s o => s.ringOut b.order o.1 o.2.2) s
    let s := s.reportEnds h ((es.filter fun e => e.2.ended).map (·.1))
    (s.countBatches b.ten).publish b.ten

/-- The valid length of a row once its step has committed (13 R328). -/
def Row.fedTo (r : Row) : Nat := match r.stepRec with
  | some x => r.sum.prompt + r.generated + x.tokens.length
  | none => r.valid

/-- Whether every live row of a fed batch has its record. -/
def Batch.decided (b : Batch) : Bool := b.fed && b.rows.all fun r => !r.live || r.stepRec.isSome

/-- The MIR_END of each row that the step ends and that has none yet. -/
def State.mirEnds (s : State) (h : Nat) (b : Batch) : State × Batch :=
  let es := (s.stepEnds b).filter fun e => e.2.ended && !b.mirEnded.contains e.1
  let s := es.foldl (fun s e => s.mirEnd b.ten h e.1 e.2.row.status) s
  (s, { b with mirEnded := b.mirEnded ++ es.map (·.1), stepWait := if es.isEmpty then b.stepWait else some s.mirSeq })

/-- A step commit whose mirror caravans are acknowledged: an end that has had no MIR_END waits for its own (18 R468). -/
def State.grantStep (s : State) (h : Nat) : State :=
  match s.batch h with
  | none => s
  | some b =>
    match b.stepWait with
    | none => s
    | some o =>
      if !b.decided || !s.mirAcked o then s
      else if s.mirrors b then
        let r := s.mirEnds h b
        if r.2.mirEnded = b.mirEnded then s.commitStep h else r.1.setBatch h r.2
      else s.commitStep h

/-- STEP_COMMIT (R322): the records of the rows installed, those of a remote sampling module as they arrived; the commit waits
for the twin while the module mirrors the batch (18 R468). -/
def execStepCommit (batch : Nat) (recs : List StepRec) (s : State) : Host.Outcome State Fault Refusal :=
  match s.batch batch with
  | none => .next s
  | some b =>
    let b := recs.foldl (fun b x => b.modRow x.row fun r =>
      if r.live && r.stepRec.isNone && x.step == b.step && !s.samples then { r with stepRec := some x } else r) b
    if b.decided = false then .next s
    else if b.stepWait.isSome then .next (s.grantStep batch)
    else if s.mirrors b then
      let s := b.numbered.foldl (fun s p => if p.1.live then s.mirRow' batch p.2 (p.1.valid - 1) (p.1.fedTo - 1) else s) s
      let s := b.rows.foldl (fun s r =>
        match r.live, r.stepRec with
        | true, some x => s.mirStep b.ten batch x
        | _, _ => s) s
      let r := s.mirEnds batch { b with stepWait := some s.mirSeq }
      .next (r.1.setBatch batch r.2)
    else .next ((s.setBatch batch b).commitStep batch)

/-- What a batch's commits wait for granted, once its caravans are acknowledged or mirroring has stopped (18 R468). -/
def State.grantBatch (s : State) (h : Nat) : State :=
  match s.batch h with
  | none => s
  | some b =>
    let s := match b.admitWait with
      | some o =>
        if s.mirAcked o then
          let b := { b with admitWait := none }
          ((s.setBatch h b).sendAdmit h b).publish b.ten
        else s
      | none => s
    let ready := b.cancelWait.filter fun c => s.mirAcked c.2
    let s := match s.batch h with
      | some b => s.setBatch h { b with cancelWait := b.cancelWait.filter fun c => !s.mirAcked c.2 }
      | none => s
    (ready.foldl (fun s c => s.cancelCommit h c.1) s).grantStep h

def State.grantAll (s : State) : State := (tkeys s.sv.batches).foldl State.grantBatch s

/-- PORT_DEADLINE (02 R45): a port's meter reaches a deadline set on it. The deadline's own event is the row that the deadline
belongs to; a batch's deadline may change its tenancy's run order (14 R362, R364). -/
def execPortDeadline (port value : Nat) (s : State) : Host.Outcome State Fault Refusal :=
  if 20 ≤ port then .fault .noSuchUnit
  else if s.pt.deadlines.contains (port, value) ∧ value ≤ s.time port then
    let s := { s with pt := { s.pt with deadlines := s.pt.deadlines.erase (port, value) } }
    .next ((((s.sv.batches.filter fun p => p.2.port == port).map fun p => p.2.ten).eraseDups).foldl State.publish s)
  else .next s

end Sys2Proof.Machine
end

