-- ==== Sys2Proof/Machine/Loader.lean ====
section
/-!
DEFINITION. The loader (06 R149 to R155): a program's manifest checked at its worst case, its binding, the start and end
of its tasks, and the variant table.
-/
namespace Sys2Proof

/-- A site as the loader meets it: its task and its own number in the manifest, and its queue. -/
structure SiteAt where
  task : Nat
  num : Nat
  queue : QueueDecl
  x : Site
deriving DecidableEq, Repr

open Sys2Proof.Machine

/-! ## A site's fields -/

/-- The bounds a site gives a field; zero when it names none. -/
def Site.bounds (x : Site) (w bit n : Nat) : Nat × Nat :=
  match x.fields.find? fun f => f.word == w && f.bit == bit && f.w == n with
  | some f => (f.lo, f.hi)
  | none => (0, 0)

/-- The body words of a site. -/
def Site.nbody (x : Site) : Nat := lmax (x.fields.map fun f => f.word + 1)

/-- A descriptor of a site, each field at one of its bounds. -/
def Site.desc (x : Site) (hi : SiteField → Bool) : List Nat :=
  let body := (List.range x.nbody).map fun w =>
    (x.fields.filter fun f => f.word == w).foldl (fun a f => setBits a f.bit f.w (if hi f then f.hi else f.lo)) 0
  [1 + (2 + x.ndep + x.nbody) * 2 ^ 8 + x.cls * 2 ^ 16 + x.op * 2 ^ 24 + x.ndep * 2 ^ 32 +
    (if x.wellEn then 2 ^ 40 + x.well * 2 ^ 41 else 0), x.patch] ++ List.replicate x.ndep 0 ++ body

/-- Every way to fix the fields that a test picks. -/
def Site.fixings (pick : SiteField → Bool) : List SiteField → List (List SiteField)
  | [] => [[]]
  | f :: fs =>
    let rest := Site.fixings pick fs
    if pick f then (upto f.lo (f.hi + 1 - f.lo)).flatMap fun v => rest.map fun l => { f with lo := v, hi := v } :: l
    else rest.map fun l => f :: l

/-- Whether a site is an `eng.pass`. -/
def Site.isPass (x : Site) : Bool := x.cls == 1 && x.op == 1

/-- A site with its small fields (formats, layouts, modes, indexes, tables: at most 6 bits) fixed in every declared way. -/
def Site.cases (x : Site) : List Site := (Site.fixings (fun f => decide (f.w ≤ 6)) x.fields).map fun l => { x with fields := l }

/-- A site whose last k and last n reach 0, which stands for all, at the bound that is worst: 0. -/
def Site.whole (x : Site) : Site :=
  if x.isPass then { x with fields := x.fields.map fun f => if f.word = 7 ∧ f.lo = 0 then { f with hi := 0 } else f } else x

/-- The worst descriptors of a site: every field at its upper bound, and with the addresses, or the strides and limits, at
their lower bounds (R150). -/
def Site.corners (x : Site) : List (List Nat) :=
  [x.desc fun _ => true, x.desc fun f => !(f.bit == 0 && f.w == 64), x.desc fun f => f.word != 4, x.desc fun _ => false]

/-- The descriptors a check of a site looks at. -/
def Site.worst (x : Site) : List (List Nat) := x.whole.cases.flatMap Site.corners

/-- The largest value of a measure over a site's worst descriptors. -/
def Site.most (x : Site) (f : List Nat → Nat) : Nat := lmax (x.worst.map f)

end Sys2Proof

namespace Sys2Proof.Machine

/-! ## Tasks begin and end (03 R55 to R57, R589) -/

/-- A core without a task, its scratch bank zero (R57): idle, or halted as it was (R81). -/
def State.freeCore (s : State) (c : Nat) : State :=
  let k := s.core c
  let s := s.clearRun (key (spScratch k.bank) 0) scratchBytes
  if k.mode = .excHalted ∨ k.mode = .syncHalted then
    s.setCore c { bank := k.bank, mode := k.mode, exc := k.exc, excPc := k.excPc, turnsDone := k.turnsDone }
  else s.setCore c { bank := k.bank }

/-- A core as its domain's reset leaves it (R57). -/
def State.resetCore (s : State) (c : Nat) : State :=
  (s.clearRun (key (spScratch (s.core c).bank) 0) scratchBytes).setCore c { bank := (s.core c).bank }

/-- Whether a core is idle and works: it can take the task of a failed core (R56). -/
def State.coreFree (s : State) (c : Nat) : Bool := (s.core c).mode == .idle && !(s.core c).down

/-- Whether a core can take a new task: none runs on it, no turn of it is outstanding, and it works (R57, R81). -/
def Core.open_ (k : Core) : Bool := k.mode != .running && k.mode != .waiting && k.turns.isEmpty && !k.down

/-- A drawer after its core's task moved. -/
def Drawer.moved (c d : Nat) : Drawer → Drawer
  | .turn c' n => .turn (if c' = c then d else c') n
  | .cmd t => .cmd t

/-- A core's task moved to another core (R56): it keeps its bank, its queues and what its barriers have seen. -/
def State.moveTask (s : State) (c d : Nat) : State :=
  let k := s.core c
  let at_ (x : Nat) : Nat := if x = c then d else x
  let s := (s.setCore d { k with down := false, epoch := s.epochOf clsCore d }).setCore c { bank := (s.core d).bank }
  { s with
    x := { s.x with
      queues := tmap (fun _ (q : Queue) => { q with core := at_ q.core }) s.x.queues
      cmds := tmap (fun _ (m : Cmd) => { m with core := at_ m.core }) s.x.cmds
      bars := tmap (fun _ (b : Bar) => { b with arrived := b.arrived.map at_ }) s.x.bars }
    vm := { s.vm with pages := tmap (fun _ (p : Page) => { p with holdFor := p.holdFor.map (Drawer.moved c d) }) s.vm.pages }
    sc := { s.sc with past := s.sc.past.map fun p =>
      { p with refs := p.refs.map fun r => if r = .turn c then .turn d else r } } }

/-- The tasks of failed cores of a hamlet moved to idle cores bound to the same tenancy (R56): the task keeps its bank. -/
def State.placeTasks (s : State) (h : Nat) : State :=
  (upto (32 * h) 32).foldl (fun s c =>
    if !(s.core c).down then s
    else match (upto (32 * h) 32).find? fun d => s.coreFree d && (s.get (R.HAM_CTL_CORE_MASK h)).testBit (d % 32) with
      | none => s
      | some d => s.moveTask c d) s

/-- A core's task ends, its outstanding turns killed for a cause and not rerun; a sheltered turn first runs on to its
commit (R57, R589). -/
def State.endTask (s : State) (c : Nat) (cause : Cause) : State :=
  let k := s.core c
  if k.mode = .idle then s
  else match k.turns with
    | t :: _ =>
      if k.shelters t.num && cause.shelters then
        let s := s.killTurns c 1 cause
        s.setCore c { s.core c with ending := true, held := false }
      else ((s.killTurns c 0 cause).freeCore c).placeTasks (c / 32)
    | [] => (s.freeCore c).placeTasks (c / 32)

/-- The handle of queue i of a task on core c: the loader's numbering, in one of 16 runs of 4,096 (log entry 26). -/
def queueHandle (g c i : Nat) : Nat := 4096 * g + 16 * c + i

/-- The first run in which no queue of a task on core c is still listed: a handle belongs to one task (R76). -/
def State.handleRun (s : State) (c : Nat) : Option Nat :=
  (List.range 16).find? fun g => s.x.queues.all fun q => decide (q.1 < queueHandle g c 0) || decide (queueHandle g c 16 ≤ q.1)

/-- The queues of a task's copy on core c, the k-th it declares, with their handles (R149). -/
def State.bindQueues (s : State) (ten : Nat) (t : TaskDecl) (g c k : Nat) : State :=
  t.queues.zipIdx.foldl (fun (s : State) q =>
    let r : Queue := ⟨c, ten, q.1.cls, q.1.units, ringOf q.1 k, q.1.ringSize, q.1.maxOut⟩
    { s with x := { s.x with queues := tset s.x.queues (queueHandle g c q.2) r } }) s

/-- A task started on a core: its code, its argument, its queues, the wells its code draws from, its barriers, zeros elsewhere, its
first turn begun. -/
def State.startTask (s : State) (ten c g : Nat) (t : TaskDecl) : State :=
  let s := s.bindQueues ten t g c (t.cores.findIdx (· == c))
  let s := s.clearRun (key (spScratch (s.core c).bank) 0) scratchBytes
  let words := (t.code.zipIdx.filter fun p => p.1 != 0).foldl (fun (m : Tab (BitVec 32)) p => m ++ [(p.2, p.1)]) []
  s.setCore c ({ (s.core c) with
    mode := .running, exc := 0, excPc := 0, wait := .none, g := [], v := [], m := [], pc := 0, istore := words, ten := ten
    epoch := s.epochOf clsCore c, arg := Machine.word t.arg, turnsDone := 0, turnNum := 0, turns := [], counts := []
    handles := (List.range t.queues.length).map (queueHandle g c), wells := t.wells
    bars := t.bars.map fun b => (b.ham, b.num)
    marks := [], await := [], held := false, discarding := false
    lastKill := 0, ending := false, down := false } : Core).startTurn

/-- Whether core c of a program is bound to it: its hamlet is enabled for the tenancy and its mask has the core. -/
def State.coreBound (s : State) (ten c : Nat) : Bool :=
  let h := c / 32
  decide (c < 256) && s.get (R.HAM_CTL_EN h) == 1 && s.get (R.HAM_CTL_TEN h) == ten && (s.get (R.HAM_CTL_CORE_MASK h)).testBit (c % 32)

/-- The tasks of a bound program that wait for their cores started where they may (03 R83). -/
def State.startTasks (s : State) (ten : Nat) : State :=
  match tfind s.x.progs ten with
  | none => s
  | some p =>
    let go := p.waiting.filter fun c => s.coreBound ten c && (s.core c).open_ && (s.handleRun c).isSome
    let s := { s with x := { s.x with progs := tset s.x.progs ten { p with waiting := p.waiting.filter fun c => !go.contains c } } }
    go.foldl (fun s c =>
      match p.manifest.tasks.find? fun t => t.cores.contains c, s.handleRun c with
      | some t, some g => s.startTask ten c g t
      | _, _ => s) s

/-! ## What units accept (Tables 4.3, 4.8, 5.3 and those of each class) -/

/-- The ranges of the fields of an operation: body word, lowest bit, width, least, most, multiple. -/
def fieldRules (cls op : Nat) : List (Nat × Nat × Nat × Nat × Nat × Nat) :=
  match cls, op with
  | 0x01, 0x01 => [(3, 48, 9, 0, 256, 1)]
  | 0x01, 0x02 => [(3, 0, 32, 1, 2 ^ 32 - 1, 1), (3, 44, 4, 0, 5, 1)]
  | 0x02, 0x04 | 0x02, 0x05 => [(1, 6, 13, 1, 4096, 1)]
  | 0x02, 0x06 => [(1, 6, 17, 1, 65536, 1)]
  | 0x02, 0x07 => [(1, 0, 9, 1, 256, 1), (3, 0, 13, 1, 4096, 1)]
  | 0x03, 0x01 => [(2, 0, 32, 4, cartMax, 4)]
  | 0x03, 0x02 | 0x03, 0x03 => [(2, 0, 32, 1, 65536, 1)]
  | 0x03, 0x04 => [(1, 0, 32, 8, cartMax, 8)]
  | 0x03, 0x05 => [(2, 32, 32, 0, 2 ^ 32 - 1, 4), (3, 0, 32, 0, 2 ^ 32 - 1, 4), (3, 32, 32, 0, 2 ^ 32 - 1, 4)]
  | 0x04, 0x03 => [(1, 18, 2, 0, 1, 1)]
  | 0x05, 0x02 => [(0, 14, 5, 0, 16, 1)]
  | 0x05, 0x03 => [(0, 12, 7, 1, 64, 1)]
  | 0x05, 0x12 => [(1, 7, 2, 0, 2, 1), (1, 9, 7, 0, 64, 1), (1, 16, 5, 0, 16, 1)]
  | 0x05, 0x13 => [(1, 0, 4, 0, 9, 1), (1, 4, 4, 0, 8, 1)]
  | 0x05, 0x14 => [(1, 0, 4, 1, 8, 1)]
  | 0x06, 0x01 => [(0, 5, 2, 0, 2, 1), (2, 0, 17, 1, 65536, 1)]
  | 0x06, 0x02 => [(2, 0, 17, 1, 65536, 1)]
  | 0x08, 0x01 => [(2, 0, 13, 1, 4096, 1)]
  | 0x08, 0x02 => [(2, 0, 3, 1, 4, 1)]
  | 0x08, 0x03 => [(1, 0, 17, 1, 65536, 1)]
  | 0x09, 0x01 => [(2, 0, 13, 0, 4096, 256)]
  | 0x0A, 0x01 | 0x0A, 0x02 => [(0, 21, 2, 0, 2, 1), (3, 0, 27, 4, cartMax, 4)]
  | 0x0A, 0x03 => [(0, 21, 2, 0, 2, 1), (0, 24, 4, 0, 6, 1)]
  | 0x0B, 0x01 => [(3, 0, 32, 1, 2 ^ 32 - 1, 1)]
  | _, _ => []

/-- The aligned address words of an operation. -/
def alignRules (cls op : Nat) : List (Nat × Nat) :=
  match cls, op with
  | 0x01, 0x01 => [(8, 64)]
  | 0x02, 0x01 => [(0, 64)]
  | 0x02, 0x07 => [(0, 64)]
  | 0x03, 0x01 | 0x03, 0x05 => [(0, 4), (1, 4)]
  | 0x03, 0x02 => [(0, 16), (1, 64)]
  | 0x03, 0x03 => [(0, 64), (1, 16)]
  | 0x03, 0x04 => [(0, 8)]
  | 0x04, _ => [(0, pageBytes)]
  | 0x05, 0x01 => [(2, 4)]
  | 0x05, 0x02 => [(1, 8)]
  | 0x05, 0x10 => [(0, pageBytes)]
  | 0x05, 0x12 => [(0, 64), (4, 64)]
  | 0x05, 0x13 => [(3, 64)]
  | 0x06, 0x01 => [(3, 64)]
  | 0x06, 0x02 => [(1, 8)]
  | 0x06, 0x03 => [(1, 64)]
  | 0x08, 0x01 => [(0, 16), (1, 64)]
  | 0x08, 0x02 => [(0, 64), (1, 4096)]
  | 0x08, 0x03 => [(0, 4096)]
  | 0x09, 0x01 => [(0, 256)]
  | 0x09, 0x02 => [(0, 8), (1, 64)]
  | 0x0A, 0x03 => [(1, 8)]
  | _, _ => []

/-- The ranges an operation may touch, each by the body word of its address, with its length and whether it writes, as a descriptor bounds
them: what lies behind a list is not known at the bind, but for the bounds its limits give. -/
def State.opRanges (s : State) (ws : List Nat) : List (Nat × Nat × Bool) :=
  let b := dBody ws
  let rd (w n : Nat) : Nat × Nat × Bool := (w, n, false)
  let wr (w n : Nat) : Nat × Nat × Bool := (w, n, true)
  match dClass ws, dOp ws with
  | 0x01, 0x01 =>
    let p := passBody ws
    [rd 0 ((p.m - 1) * p.aStride + p.rowBytes), rd 1 (p.nt * p.ktTiles * p.tile), wr 2 p.footprint] ++
      (if p.pwf then [rd 6 (p.cbCount * 2 ^ pwfBits p.tile * cbEntry p.wFmt)] else []) ++
      (if p.mask = 0 then [] else [rd 8 64]) ++ (if p.bias = 0 then [] else [rd 11 (4 * p.validN)])
  | 0x01, 0x02 =>
    let n := bits (b 3) 0 32
    [rd 0 (n * (elemBits (bits (b 3) 32 4) / 8)), wr 2 (n * (elemBits (bits (b 3) 40 4) / 8))] ++
      (if b 1 = 0 then [] else [rd 1 (n * (elemBits (bits (b 3) 36 4) / 8))])
  | 0x02, 0x01 =>
    let h := s.idx (bits (b 3) 0 6)
    [rd 0 (2 * h.dim), rd 1 (4 * h.lists), wr 2 (64 + 32 * (bits (b 3) 8 12 + 1))] ++
      (if b 5 = 0 then [] else [rd 5 8])
  | 0x02, 0x02 => [rd 0 64, rd 2 (2 * (s.idx (bits (b 1) 0 6)).dim), wr 3 (64 + 32 * (bits (b 1) 6 12 + 1))]
  | 0x02, 0x04 => [rd 0 (bits (b 1) 6 13 * (s.idx (bits (b 1) 0 6)).entry)]
  | 0x02, 0x05 => [rd 0 (bits (b 1) 6 13 * 16)]
  | 0x02, 0x06 => [rd 0 (bits (b 1) 6 17 * 48)]
  | 0x02, 0x07 => [rd 0 (64 + bits (b 1) 0 9 * (64 + bits (b 3) 0 13 * 32)), wr 2 (64 + 32 * (bits (b 1) 9 12 + 1))]
  | 0x03, 0x01 => [rd 0 (bits (b 2) 0 32), wr 1 (bits (b 2) 0 32)]
  | 0x03, 0x02 => [rd 0 (16 * bits (b 2) 0 32), wr 1 (b 3)]
  | 0x03, 0x03 => [rd 1 (16 * bits (b 2) 0 32), rd 0 (64 * bits (b 2) 0 32)]
  | 0x03, 0x04 => [wr 0 (bits (b 1) 0 32)]
  | 0x03, 0x05 =>
    let n := bits (b 2) 32 32
    let rows := bits (b 2) 0 16
    [rd 0 (rows * bits (b 3) 0 32 + n), wr 1 (rows * bits (b 3) 32 32 + n)]
  | 0x05, 0x01 => [rd 0 (bits (b 1) 0 24), wr 2 (4 * bits (b 3) 0 19)]
  | 0x05, 0x02 => [rd 1 (72 * bits (b 0) 14 5)]
  | 0x05, 0x03 => [rd 1 (4 * bits (b 0) 12 7), wr 2 (b 3)]
  | 0x05, 0x04 => [wr 1 (b 2)]
  | 0x05, 0x10 => [rd 0 (bits (b 2) 0 27)]
  | 0x05, 0x12 => [wr 0 16384, rd 2 (72 * bits (b 1) 9 7), rd 3 (264 * bits (b 1) 16 5)] ++
      (if bits (b 1) 7 2 = 2 then [rd 4 32768] else [])
  | 0x05, 0x13 => [wr 0 16384, rd 2 (4 * bits (b 1) 0 4), wr 3 (64 + 32768 * (1 + bits (b 1) 4 4))]
  | 0x05, 0x14 => [rd 0 16384, rd 2 (4 * bits (b 1) 0 4), wr 3 (64 + 32768 * bits (b 1) 0 4)]
  | 0x05, 0x15 => [rd 0 16384, wr 1 16384]
  | 0x06, 0x01 =>
    let n := bits (b 2) 0 17
    let t := bits (b 0) 0 5
    rd 1 (4 * n) :: (match s.embDescOf t (s.get (R.EMB_TAB_STS_VERSION t)) with
      | some d => [wr 3 (gatherLen d (bits (b 0) 5 2) ((b 0).testBit 7) n)]
      | none => [])
  | 0x06, 0x02 =>
    let t := bits (b 0) 0 5
    match s.embDescOf t (s.get (R.EMB_TAB_STS_VERSION t)) with
    | some d => [rd 1 (bits (b 2) 0 17 * d.entry)]
    | none => []
  | 0x06, 0x03 => [rd 1 64]
  | 0x07, 0x01 => [rd 2 (bits (b 3) 0 27)]
  | 0x08, 0x01 => [rd 0 (16 * bits (b 2) 0 13), wr 1 (b 3)]
  | 0x08, 0x02 => [rd 0 (sectorBytes * bits (b 2) 0 3)]
  | 0x09, 0x01 => [rd 1 (bits (b 2) 0 13)]
  | 0x09, 0x02 => [rd 0 32, wr 1 320]
  | 0x0A, 0x01 => [wr 2 (bits (b 3) 0 27)]
  | 0x0A, 0x02 => [rd 2 (bits (b 3) 0 27)]
  | _, _ => []

/-- The hops of the longest route in the routing table (Table 2.5). -/
def State.longestRoute (s : State) : Nat :=
  lmax (s.fa.rows.filterMap fun r => if r.1 / 2 ^ 20 = 16 ∧ r.2.valid then some r.2.hops else none)

/-- The ranges that a site may touch, over every value of its addresses (R150): start, length, whether written. An address of 0 that
stands for none is left out. -/
def State.spans (s : State) (x : Site) : List (Nat × Nat × Bool) :=
  let all := x.worst.flatMap fun ws => (s.opRanges ws).map fun r => (r.1, dBody ws r.1 + r.2.1, r.2.1, r.2.2)
  ((all.map (·.1)).foldl addNew []).map fun w =>
    let mine := all.filter fun r => r.1 == w
    let b := x.bounds w 0 64
    let none_ := decide (b.1 = 0) && x.worst.all fun ws => dBody ws w != 0 || (s.opRanges ws).all fun r => r.1 != w
    let lo := if none_ then 1 else b.1
    (lo, (if lmax (mine.map (·.2.2.1)) = 0 then 0 else lmax (mine.map (·.2.1)) - lo), mine.any (·.2.2.2))

/-- The largest delta count of any tile of a site's tensor, wherever its directory may lie, over the variants of a table (R153). -/
def State.maxDelta (s : State) (ten : Nat) (vs : Tab (Nat × Nat)) (x : Site) : Nat :=
  if (x.bounds 3 48 9).2 = 0 then 0
  else
    let off := x.bounds 12 0 64
    let n := x.most fun ws => (passBody ws).nt * (passBody ws).ktTiles
    lmax (vs.map fun v => lmax ((List.range ((off.2 - off.1) / 8 + n)).map fun i => bits (s.vword ten (v.2.1 + off.1 + 8 * i)) 32 15))

/-- The beat count of a pass with the surcharge of the most deltas (R111, R125, R153). -/
def worstBeats (p : PassBody) (deltas : Nat) : Nat :=
  512 + p.nt * p.kt * max (if p.aFmt = 3 then 2 * p.m else p.m) (weightBeats p.wFmt + p.kp / 256 * surcharge deltas)

/-- The estimate of a killable operation, in beats (R32 and the rules of each class). The records of a `cart.scatter` are not known at
the bind: each counts the 4 bytes that R100 allows at the least (DESIGN CHOICE, log entry 64). -/
def State.estimateBeats (s : State) (deltas : Nat) (ws : List Nat) : Nat :=
  let b := dBody ws
  match dClass ws, dOp ws with
  | 0x01, 0x01 => worstBeats (passBody ws) deltas
  | 0x01, 0x02 => 512 + ceilDiv (bits (b 3) 0 32) 256
  | 0x02, 0x01 =>
    let h := s.idx (bits (b 3) 0 6)
    let limit := bits (b 3) 42 22 + 1
    512 + ceilDiv h.lists 512 + h.dim * (if h.metric = 2 then limit else 1) +
      limit * ceilDiv (h.maxList * (h.cb + 8)) 2048 + ceilDiv (h.sideCap * h.entry) 2048
  | 0x02, 0x02 => 512 + 2 * 4096 * ceilDiv (s.idx (bits (b 1) 0 6)).vecBytes 4096
  | 0x02, 0x03 => 512
  | 0x02, 0x04 => 512 + bits (b 1) 6 13 * (s.idx (bits (b 1) 0 6)).entry / 64
  | 0x02, 0x05 => 512 + bits (b 1) 6 13 * 16 / 64
  | 0x02, 0x06 => 512 + bits (b 1) 6 17 * 48 / 64
  | 0x02, 0x07 => 512 + ceilDiv (bits (b 1) 0 9 * bits (b 3) 0 13) 64
  | 0x03, 0x01 => ceilDiv (bits (b 2) 0 32) 64
  | 0x03, 0x02 => ceilDiv (b 3) 64 + bits (b 2) 0 32
  | 0x03, 0x03 => ceilDiv (4 * bits (b 2) 0 32) 64 + bits (b 2) 0 32
  | 0x03, 0x04 => ceilDiv (bits (b 1) 0 32) 64
  | 0x03, 0x05 => ceilDiv ((bits (b 2) 0 16 + 1) * bits (b 2) 32 32) 64 + bits (b 2) 0 16 + 1
  | 0x04, _ => bits (b 1) 0 18 + 1
  | 0x05, 0x01 => 512 + 4 * min (bits (b 1) 0 24) 262144
  | 0x05, 0x02 => 64 + bits (b 0) 14 5 * 9
  | 0x05, 0x03 => 64 + bits (b 0) 12 7 + ceilDiv (256 * bits (b 0) 12 7) 8
  | 0x05, 0x04 => 64 + ceilDiv 66 8
  | 0x05, 0x10 => 512 + bits (b 2) 0 27 / 64
  | 0x05, 0x11 => 64
  | 0x05, 0x12 => 64 + (72 * bits (b 1) 9 7 + 264 * bits (b 1) 16 5) / 64
  | 0x05, 0x13 => 128 + 16 * bits (b 1) 0 4 + 896 * (1 + bits (b 1) 4 4)
  | 0x05, 0x14 => 128 + 896 * bits (b 1) 0 4
  | 0x05, 0x15 => 64 + 256
  | 0x06, 0x01 =>
    let t := bits (b 0) 0 5
    512 + bits (b 2) 0 17 * (match s.embDescOf t (s.get (R.EMB_TAB_STS_VERSION t)) with
      | some d => ceilDiv d.stride 64
      | none => 0)
  | 0x08, 0x01 => ceilDiv (b 3) 64
  | 0x08, 0x03 => bits (b 1) 0 17
  | 0x09, 0x02 => 2048
  | 0x0A, 0x01 | 0x0A, 0x02 => ceilDiv (bits (b 3) 0 27) 64
  | _, _ => 0

/-- The estimate of a non-killable operation in ns, from its bytes at the rate of Table 2.5; `host` for a queue served by
host ports. -/
def State.estimateNs (s : State) (host : Bool) (ws : List Nat) : Nat :=
  let b := dBody ws
  match dClass ws with
  | 0x07 => ceilDiv (bits (b 3) 0 27) (if host then 25 else 100)
  | 0x08 => ceilDiv (sectorBytes * bits (b 2) 0 3 * 4) 3
  | 0x09 => 5 * bits (b 2) 0 13
  | 0x0A => ceilDiv 8 100 + 600 * s.longestRoute
  | 0x06 =>
    let t := bits (b 0) 0 5
    ceilDiv (bits (b 2) 0 17 * (match s.embDescOf t (s.get (R.EMB_TAB_STS_VERSION t)) with
      | some d => d.entry
      | none => 0)) 100 + 600 * s.longestRoute
  | _ => 0

/-! ## The checks of Table 6.2 -/

/-- The sites of a manifest in order. -/
def sitesOf (m : Manifest) : List SiteAt :=
  let all := m.tasks.zipIdx.flatMap fun t => t.1.queues.flatMap fun q => q.sites.map fun x => (t.2, q, x)
  all.zipIdx.map fun p => ⟨p.1.1, p.2, p.1.2.1, p.1.2.2⟩

/-- A refusal about the whole image, a task, a site, or a site's field. -/
def refuseAll (ten reason value limit : Nat) : Verdict := ⟨ten, reason, 0xFFFF, 0xFFFF, 0xFF, value, limit⟩
def refuseTask (ten reason task value limit : Nat) : Verdict := ⟨ten, reason, task, 0xFFFF, 0xFF, value, limit⟩
def refuseSite (ten reason : Nat) (x : SiteAt) (w value limit : Nat) : Verdict := ⟨ten, reason, x.task, x.num, w, value, limit⟩

/-- The first refusal of a list of sites. -/
def firstSite (m : Manifest) (f : SiteAt → Option Verdict) : Option Verdict := (sitesOf m).findSome? f

/-- Check 1 (R82). -/
def ldr1 (ten : Nat) (m : Manifest) : Option Verdict :=
  if m.isaMajor ≠ 2 ∨ 0 < m.isaMinor then some (refuseAll ten 0x10 (m.isaMajor * 256 + m.isaMinor) 0x200) else none

/-- Whether a pass's formats, tile bytes and last k are accepted (Table 5.2, R114, R121, R122, R126). -/
def passWord (p : PassBody) : Option Nat :=
  if !(pairOk p.aFmt p.wFmt && outOk p.aFmt p.oFmt) then some 3
  else if !(if p.pwf then (p.wFmt == 4 || p.wFmt == 8) && pwfBits p.tile != 0 && p.cbCount != 0 && decide (p.cbCount ≤ 4096)
    else p.tile == rawTile p.wFmt) then some 5
  else if p.kp < p.lastK || ((isMx p.aFmt || isMx p.wFmt) && p.lastK % 32 != 0) then some 7
  else if p.aStride < p.rowBytes || p.oStride < p.nt * 256 * p.oSize then some 4
  else none

/-- Check 2. A size of tiles that is a range holds values no unit accepts; a quantity that must be a multiple is judged at the bounds of its
range (DESIGN CHOICE, log entry 69). -/
def ldr2 (ten : Nat) (m : Manifest) : Option Verdict :=
  firstSite m fun a =>
    let x := a.x
    let bad (w v l : Nat) : Option Verdict := some (refuseSite ten 0x11 a w v l)
    if (x.cls ≠ 0 ∧ x.cls ≠ a.queue.cls) ∨ !opExists x.cls x.op then bad 0xFF x.op 0
    else if 64 < 2 + x.ndep + x.nbody then bad 0xFF (2 + x.ndep + x.nbody) 64
    else match x.fields.find? fun f => decide (64 < f.bit + f.w) || decide (f.hi < f.lo) || decide (2 ^ f.w ≤ f.hi) with
      | some f => bad f.word f.hi (2 ^ f.w - 1)
      | none =>
        let out (r : Nat × Nat × Nat × Nat × Nat × Nat) : Bool :=
          let v := x.bounds r.1 r.2.1 r.2.2.1
          decide (v.1 < r.2.2.2.1) || decide (r.2.2.2.2.1 < v.2) || v.1 % r.2.2.2.2.2 != 0 || v.2 % r.2.2.2.2.2 != 0
        match (fieldRules x.cls x.op).find? out with
        | some r => bad r.1 (x.bounds r.1 r.2.1 r.2.2.1).2 r.2.2.2.2.1
        | none =>
          let all := x.cases.flatMap Site.corners
          if x.isPass then
            if (x.bounds 5 0 32).1 ≠ (x.bounds 5 0 32).2 then bad 5 (x.bounds 5 0 32).2 (x.bounds 5 0 32).1
            else (all.findSome? fun ws => passWord (passBody ws)).bind fun w => bad w 0 0
          else if x.cls == 1 && x.op == 2 && (all.any fun ws =>
              !ewType (bits (dBody ws 3) 32 4) || !ewType (bits (dBody ws 3) 40 4) || decide (0xA < bits (dBody ws 3) 36 4) ||
                (decide (bits (dBody ws 3) 44 4 < 5) && dBody ws 1 != 0 && !ewType (bits (dBody ws 3) 36 4))) then bad 3 0 0
          else none

/-- Check 3. -/
def ldr3 (ten : Nat) (m : Manifest) : Option Verdict :=
  match firstSite m fun a =>
    ((alignRules a.x.cls a.x.op).find? fun r =>
      let v := a.x.bounds r.1 0 64
      v.1 % r.2 != 0 || v.2 % r.2 != 0).map fun r =>
        let v := a.x.bounds r.1 0 64
        refuseSite ten 0x12 a r.1 (if v.1 % r.2 ≠ 0 then v.1 else v.2) r.2 with
  | some v => some v
  | none => (m.tasks.zipIdx.findSome? fun t => (t.1.queues.find? fun q => q.ringBase % 64 != 0).map fun q =>
      refuseTask ten 0x12 t.2 q.ringBase 64)

/-- Whether a completion ring's size is a power of two from 64 to 65,536. -/
def ringSizeOk (n : Nat) : Bool := (upto 6 11).any fun k => n == 2 ^ k

/-- The cores bound to a hamlet: its CORE_MASK, or while that is zero the cores the manifest declares there (log entry 26). -/
def State.coresBound (s : State) (m : Manifest) (h : Nat) : Nat :=
  let mask := s.get (R.HAM_CTL_CORE_MASK h)
  if mask ≠ 0 then popCount 32 mask
  else ((m.tasks.flatMap (·.cores)).foldl addNew []).countP fun c => c / 32 == h

/-- Check 4. -/
def State.ldr4 (s : State) (ten : Nat) (m : Manifest) : Option Verdict :=
  let wells := m.wells.map (·.handle)
  let task (t : TaskDecl × Nat) : Option Verdict :=
    let bad (v l : Nat) : Option Verdict := some (refuseTask ten 0x13 t.2 v l)
    if 16 < t.1.queues.length then bad t.1.queues.length 16
    else if t.1.cores.any (fun c => decide (256 ≤ c)) || (t.1.cores.foldl addNew []).length != t.1.cores.length then bad 0 0
    else match t.1.queues.find? fun q => q.maxOut == 0 || decide (64 < q.maxOut) || !ringSizeOk q.ringSize with
      | some q => if q.maxOut = 0 ∨ 64 < q.maxOut then bad q.maxOut 64 else bad q.ringSize 65536
      | none =>
        match t.1.bars.find? fun b => decide (16 ≤ b.num) || decide (8 ≤ b.ham) || decide (s.coresBound m b.ham < b.count) with
        | some b => bad b.count (s.coresBound m b.ham)
        | none =>
          match t.1.usesQueues.find? fun q => decide (t.1.queues.length ≤ q) with
          | some q => bad q t.1.queues.length
          | none => (t.1.usesWells.find? fun w => !wells.contains w).bind fun w => bad w 0
  match m.tasks.zipIdx.findSome? task with
  | some v => some v
  | none =>
    if ((m.tasks.flatMap (·.cores)).foldl addNew []).length ≠ (m.tasks.flatMap (·.cores)).length then some (refuseAll ten 0x13 0 0)
    else firstSite m fun a =>
      if 4 < a.x.ndep then some (refuseSite ten 0x13 a 0xFF a.x.ndep 4)
      else if a.x.wellEn ∧ !wells.contains a.x.well then some (refuseSite ten 0x13 a 0xFF a.x.well 0)
      else none

/-- The pages a manifest's regions name, each with whether it is writable. -/
def regionPages (m : Manifest) : Tab Bool :=
  m.regions.foldl (fun t r => (upto (r.va / pageBytes) r.pages).foldl (fun t v => tset t v r.writable) t) []

/-- The first page of a range that is neither mapped nor in a region of the manifest, or lacks write access (check 5). -/
def State.rangeBad (s : State) (ten : Nat) (rs : Tab Bool) (r : Nat × Nat × Bool) : Option Nat :=
  if cwVa < r.1 + r.2.1 ∧ 0 < r.2.1 then some (max r.1 cwVa / pageBytes)
  else (pagesIn r.1 r.2.1).find? fun v =>
    match s.pageOf ten (v * pageBytes) with
    | some (_, p) => r.2.2 && (!p.writable || p.image)
    | none => match tfind rs v with
      | some w => r.2.2 && !w
      | none => true

/-- Check 5: ranges and rings, and the regions' own pages within the tenancy's quotas (07 R169). -/
def State.ldr5 (s : State) (ten : Nat) (m : Manifest) : Option Verdict :=
  let rs := regionPages m
  let fresh := (rs.filter fun p => (s.pageOf ten (p.1 * pageBytes)).isNone).length
  let used := (s.vm.pages.filter fun p => p.1 / 2 ^ 35 == ten).length
  let q := s.quota ten
  let room := q.2.1 + q.2.2.1 + q.2.2.2
  if room < used + fresh ∨ rs.any (fun p => decide (cwVa < (p.1 + 1) * pageBytes)) then some (refuseAll ten 0x14 (used + fresh) room)
  else match firstSite m fun a =>
    ((s.spans a.x).findSome? (s.rangeBad ten rs)).map fun v => refuseSite ten 0x14 a 0xFF (v * pageBytes) 0 with
  | some v => some v
  | none => m.tasks.zipIdx.findSome? fun t => (t.1.queues.findSome? fun q =>
      (List.range t.1.cores.length).findSome? fun k => s.rangeBad ten rs (ringOf q k, 64 * q.ringSize, true)).map fun v =>
        refuseTask ten 0x14 t.2 (v * pageBytes) 0

/-- Check 6. -/
def ldr6 (ten : Nat) (m : Manifest) : Option Verdict :=
  firstSite m fun a =>
    if !a.x.isPass then none
    else
      let d := a.x.most fun ws => let p := passBody ws
                                  if p.spillOk then 0 else p.demand
      if 16 < d then some (refuseSite ten 0x15 a 3 d 16) else none

/-- The bytes of the spill areas of a manifest: for each engine, from the largest demand it can meet (R144). -/
def spillBytes (m : Manifest) : Nat :=
  let need (e : Nat) : Nat := lmax ((sitesOf m).map fun a =>
    if a.x.isPass && a.queue.units.contains e then
      a.x.most fun ws => let p := passBody ws
                         if p.spillOk then (p.demand - 16) * 262144 else 0
    else 0)
  lsum ((List.range 104).map need)

/-- Check 7. -/
def State.ldr7 (s : State) (ten : Nat) (m : Manifest) : Option Verdict :=
  let pins := 32 * (s.vm.pages.filter fun p => p.1 / 2 ^ 35 == ten && p.2.pin == 1).length
  let left := ((s.quota ten).1 - pins) * granuleBytes
  if left < spillBytes m then some (refuseAll ten 0x16 (spillBytes m) left) else none

/-- A pass's beats with its spill handshakes, for a demand above 16 (check 8). -/
def State.spillBeats (s : State) (deltas : Nat) (ws : List Nat) : Nat :=
  let p := passBody ws
  if 16 < p.demand then s.estimateBeats deltas ws + 2048 * p.evictions else 0

/-- Check 8, over a variant table. -/
def State.ldr8 (s : State) (ten : Nat) (vs : Tab (Nat × Nat)) (m : Manifest) : Option Verdict :=
  firstSite m fun a =>
    let v := if a.x.isPass then a.x.most (s.spillBeats (s.maxDelta ten vs a.x)) else 0
    if beatCap < v then some (refuseSite ten 0x17 a 0xFF v beatCap) else none

/-- Whether a site's halo follows the one before it in its queue (R146, R147). -/
def haloBad (prev : Option Site) (x : Site) : Bool :=
  let send (y : Site) : Nat × Nat := if y.isPass then y.bounds 9 0 9 else (0, 0)
  let recv := if x.isPass then x.bounds 9 16 9 else (0, 0)
  let before := match prev with
    | some y => send y
    | none => (0, 0)
  let shape (z : Site) : List (Nat × Nat × Nat × Nat) := z.worst.map fun ws =>
    ((passBody ws).aFmt, (passBody ws).kt, (passBody ws).aStride, (passBody ws).rowBytes)
  let differs := match prev with
    | some y => match shape y ++ shape x with
      | v :: vs => vs.any fun w => w != v
      | [] => false
    | none => false
  let h := max (send x).2 recv.2
  decide (before ≠ recv) || (before.2 != 0 && (decide (before.1 ≠ before.2) || differs)) ||
    (x.isPass && (decide ((x.bounds 3 0 8).1 + 1 < h) || decide (1048576 < h * (x.bounds 4 0 32).2)))

/-- Check 9. -/
def ldr9 (ten : Nat) (m : Manifest) : Option Verdict :=
  let all := sitesOf m
  all.findSome? fun a =>
    let prev := (all.filter fun b => b.task == a.task && b.queue == a.queue && decide (b.num + 1 = a.num)).head?.map (·.x)
    if haloBad prev a.x then some (refuseSite ten 0x18 a 9 (a.x.bounds 9 16 9).2 (match prev with
      | some y => (y.bounds 9 0 9).2
      | none => 0)) else none

/-- Check 10, over a variant table. -/
def State.ldr10 (s : State) (ten : Nat) (vs : Tab (Nat × Nat)) (m : Manifest) : Option Verdict :=
  firstSite m fun a =>
    let v := if nonKillable a.x.cls a.x.op then 0 else a.x.most (s.estimateBeats (s.maxDelta ten vs a.x))
    if beatCap < v then some (refuseSite ten 0x19 a 0xFF v beatCap) else none

/-- Check 11. -/
def State.ldr11 (s : State) (ten : Nat) (m : Manifest) : Option Verdict :=
  firstSite m fun a =>
    let host := a.queue.units.any fun u => decide (u < 4)
    let v := if nonKillable a.x.cls a.x.op then a.x.most (s.estimateNs host) else 0
    if 40000 < v then some (refuseSite ten 0x1A a 0xFF v 40000) else none

/-- The worst-case number of live leases of a well (R151). -/
def liveLeases (m : Manifest) (w : Nat) : Nat :=
  lsum (m.tasks.map fun t =>
    t.cores.length * (lsum (t.queues.map fun q => if q.sites.any fun x => x.wellEn && x.well == w then q.maxOut else 0) +
      (if t.usesWells.contains w then 16 else 0)))

/-- Check 12. -/
def ldr12 (ten : Nat) (m : Manifest) : Option Verdict :=
  match m.wells.find? fun w => decide (256 < liveLeases m w.handle) with
  | some w => some (refuseAll ten 0x1B (liveLeases m w.handle) 256)
  | none => firstSite m fun a =>
      let lo := 2 + a.x.ndep
      let top := lo + a.x.nbody
      if a.x.wellEn ∧ (a.x.patch < lo ∨ top ≤ a.x.patch) then some (refuseSite ten 0x1B a 0xFF a.x.patch (top - 1)) else none

/-- The granules a site's writes may need: those of each written range and one more (R152). Each record of a `cart.scatter` is a range of
its own, of one granule at the least (log entry 64). -/
def State.writtenGranules (s : State) (x : Site) : Nat :=
  x.most fun ws => lsum (((s.opRanges ws).filter fun r => r.2.2 && decide (0 < r.2.1)).map fun r => ceilDiv r.2.1 granuleBytes + 1) +
    (if x.cls = 0x03 ∧ x.op = 0x03 then 2 * bits (dBody ws 2) 0 32 else 0)

/-- The shadow demand of a manifest (R58, R152). -/
def State.shadowDemand (s : State) (m : Manifest) : Nat :=
  let queues := lsum (m.tasks.map fun t => t.cores.length * lsum (t.queues.map fun q =>
    q.maxOut * lmax (q.sites.map s.writtenGranules)))
  roundUp (131072 * (m.tasks.flatMap (·.cores)).length + queues * granuleBytes) pageBytes

/-- Check 13. -/
def State.ldr13 (s : State) (ten : Nat) (m : Manifest) : Option Verdict :=
  let lim := (s.quota ten).1 * granuleBytes + (s.quota ten).2.1 * pageBytes
  if lim < s.shadowDemand m then some (refuseAll ten 0x1C (s.shadowDemand m) lim) else none

/-- The first refusal, in the order of Table 6.2. -/
def State.ldrRefusal (s : State) (ten : Nat) (m : Manifest) : Option Verdict :=
  let vs := s.en.variants
  [ldr1 ten m, ldr2 ten m, ldr3 ten m, s.ldr4 ten m, s.ldr5 ten m, ldr6 ten m, s.ldr7 ten m, s.ldr8 ten vs m, ldr9 ten m,
    s.ldr10 ten vs m, s.ldr11 ten m, ldr12 ten m, s.ldr13 ten m].findSome? id

/-! ## Binding -/

/-- The commands of a tenancy's queues: all of them over. -/
def State.quiet (s : State) (ten : Nat) : Bool :=
  s.x.cmds.all (fun p => p.2.ten != ten || p.2.st.isOver) &&
    s.x.cores.all fun p => p.2.ten != ten || (p.2.mode != .running && p.2.mode != .waiting && p.2.turns.isEmpty)

/-- A tenancy's program leaves: its tasks end and its commands become void; what has passed a start point, or is sheltered,
runs on first (log entry 26). -/
def State.unbind (s : State) (ten : Nat) : State :=
  let s := s.x.cores.foldl (fun s p => if p.2.ten = ten then s.endTask p.1 .rebind else s) s
  let s := s.x.cmds.foldl (fun s p => if p.2.ten = ten then s.killCmd p.1 .streamAbort else s) s
  if !s.quiet ten then s
  else
    let mine := (s.x.queues.filter fun q => q.2.ten == ten).map (·.1)
    { s with x := { s.x with
      cmds := tfilter (fun t _ => !mine.contains (qOf t)) s.x.cmds
      queues := tfilter (fun q _ => !mine.contains q) s.x.queues
      bars := tfilter (fun b _ => b / 128 != ten) s.x.bars
      progs := tdel s.x.progs ten } }

/-- The 32-byte record of a verdict, as its four words (Table 6.3). -/
def Verdict.record (v : Verdict) : List Nat :=
  [1 + v.reason % 2 ^ 8 * 2 ^ 8 + v.task % 2 ^ 16 * 2 ^ 16 + v.site % 2 ^ 16 * 2 ^ 32 + v.wordIx % 2 ^ 8 * 2 ^ 48,
    v.value % 2 ^ 64, v.limit % 2 ^ 64, 0]

/-- A verdict's record delivered to the requester of the bind (R154). -/
def State.verdict (s : State) (v : Verdict) : State := { s with x := { s.x with verdicts := s.x.verdicts ++ [(v.ten, v.record)] } }

/-- A well filled with a manifest's values, where it is unbound or bound to the tenancy; its returned list emptied, so that no value of the
range before is drawn. -/
def State.bindWell (s : State) (ten : Nat) (w : WellDecl) : State :=
  if s.get (R.WEL_CTL_EN w.handle) = 1 ∧ s.get (R.WEL_CTL_TEN w.handle) ≠ ten then s
  else
    let s := (s.setReg (R.WEL_BASE w.handle) w.base).setReg (R.WEL_LIMIT w.handle) w.limit
    let s := ((s.put (R.WEL_STEP_STEP w.handle) w.step).setReg (R.WEL_NEXT w.handle) w.base).setReg (R.WEL_CNT w.handle) 0
    s.setWell w.handle { s.well w.handle with returned := [] }

/-- A program bound: its regions mapped, its barriers and wells set up, its tasks started where they may. -/
def State.bindProgram (s : State) (ten port : Nat) (m : Manifest) : State :=
  let spill := spillBytes m / granuleBytes
  let shadow := s.shadowDemand m
  let s := (regionPages m).foldl (fun s p =>
    if (s.pageOf ten (p.1 * pageBytes)).isSome then s else s.setPage (pageKey ten p.1) { writable := p.2, era := s.era }) s
  let bars : List BarDecl := m.tasks.flatMap fun t => t.bars
  let cores : List Nat := m.tasks.flatMap fun t => t.cores
  let s : State := { s with x := { s.x with
    bars := bars.foldl (fun t b => tset t (barKey ten b.ham b.num) ⟨b.count, []⟩) s.x.bars
    progs := tset s.x.progs ten ⟨m, port, spill, shadow, cores⟩ } }
  (m.wells.foldl (fun (s : State) w => s.bindWell ten w) s).startTasks ten

/-- PROGRAM_BIND (R150, R154): the checks of Table 6.2, the verdict, and on a pass the binding. A program bound before leaves
first; while something of it runs on, the bind waits (log entry 26). -/
def execProgramBind (ten port : Nat) (m : Manifest) (s : State) : Host.Outcome State Fault Refusal :=
  if 64 ≤ ten ∨ 4 ≤ port then .fault .noSuchUnit
  else match s.ldrRefusal ten m with
    | some v => .next (s.verdict v)
    | none =>
      let s := s.unbind ten
      if (tfind s.x.progs ten).isSome then .next s
      else .next ((s.bindProgram ten port m).verdict ⟨ten, 0, 0xFFFF, 0xFFFF, 0xFF, 0, 0⟩)

/-! ## Variants (R153, 13 R346) -/

/-- VARIANT_LOAD (R153): refused when it would raise a bound program's beat count above a cap. -/
def execVariantLoad (v base size : Nat) (s : State) : Host.Outcome State Fault Refusal :=
  if v = 0 ∨ 256 < v then .fault .noSuchUnit
  else
    let vs := tset s.en.variants v (base, size)
    let bad := s.x.progs.findSome? fun p =>
      match s.ldr8 p.1 vs p.2.manifest with
      | some r => some r
      | none => s.ldr10 p.1 vs p.2.manifest
    match bad with
    | some r => .next (s.verdict r)
    | none => .next { s with en := { s.en with variants := vs } }

/-- VARIANT_REMOVAL (13 R346): pending until no admitted request names the variant. -/
def execVariantRemoval (v : Nat) (s : State) : Host.Outcome State Fault Refusal :=
  if (tfind s.en.variants v).isNone then .next s
  else .next ({ s with sv := { s.sv with removing := addNew s.sv.removing v } }.settleVariants)

end Sys2Proof.Machine
end

