-- ==== Sys2Proof/Machine/Sched.lean ====
section
/-!
DEFINITION. Slices and rotas (14 R365 to R370), tenancies (R352), the start of a re-bind (R353 to R355), and what stopping a
unit does to the work on it (21 R536).
-/
namespace Sys2Proof.Machine

/-! ## Stopping units -/

/-- The commands on units that a test picks, killed for a cause; draws that wait at such a unit go back to waiting for a unit. -/
def State.stopUnits (s : State) (on : Nat → Nat → Bool) (cause : Cause) : State :=
  s.x.cmds.foldl (fun (s : State) p =>
    if !on (dClass p.2.words) p.2.unit then s
    else if p.2.st.live || p.2.st == .killed then s.killCmd p.1 cause
    else if p.2.st = .issued ∧ p.2.drawWait then s.setCmd p.1 { p.2 with drawWait := false }
    else s) s

/-- A core's outstanding turns killed for a cause; a sheltered one runs on (02 R31). -/
def State.killCore (s : State) (c : Nat) (cause : Cause) : State :=
  let k := s.core c
  match k.turns with
  | [] => s
  | t :: _ => if k.shelters t.num && cause.shelters then s.killTurns c 1 cause else s.killTurns c 0 cause

/-- Whether the commands on the units that a test picks have all left them. -/
def State.unitsQuiet (s : State) (on : Nat → Nat → Bool) : Bool :=
  s.x.cmds.all fun p => !on (dClass p.2.words) p.2.unit || !(p.2.st.live || p.2.st == .irrevocable || p.2.discarding)

/-! ## Slices -/

/-- Whether a member has a command Issued, or to be issued again, or a task able to run (R367). -/
def State.hasWork (s : State) (ten : Nat) : Bool :=
  (s.x.cmds.any fun p => p.2.ten == ten && (p.2.st == .issued || (p.2.st == .killed && p.2.lastKill != Cause.translation.code))) ||
    s.x.cores.any fun p => p.2.ten == ten && p.2.mode == .running && !p.2.down

/-- The members of a rota, ascending (R365). -/
def State.members (s : State) (r : Nat) : List Nat :=
  (List.range 64).filter fun t => s.get (R.SCH_TEN_STS_STATE t) != 0 && s.rotaOf t == some r

/-- The members in rota order from the one after a member. -/
def State.rotaOrder (s : State) (r last : Nat) : List Nat :=
  let ms := s.members r
  (ms.filter fun m => decide (last < m)) ++ ms.filter fun m => decide (m ≤ last)

/-- A slice of a member begun: its length is SLICE less the charge (R366, R370). -/
def State.beginSlice (s : State) (r m start : Nat) : State :=
  let len := s.get (R.SCH_TEN_SLICE_SLICE m) * 1000
  let charge := s.get (R.SCH_TEN_OVERRUN_CHARGE m)
  let s := if charge < len then s.put (R.SCH_TEN_OVERRUN_CHARGE m) 0
    else (s.put (R.SCH_TEN_OVERRUN_CHARGE m) (charge - len)).raise R.SCH_ERR_SLICE_SKIPPED (some m)
  let n := tget s.sc.held m 0
  let s := s.setReg (R.SCH_TEN_SLICENO m) n
  let s : State := { s with sc := { s.sc with ends := tset s.sc.ends r (start + (len - charge)), held := tset s.sc.held m (n + 1) } }
  if r < 16 then ((s.put (R.SCH_ROTA_STS_HOLDER r) m).put (R.SCH_ROTA_STS_IDLE r) 0).bump (R.SCH_ROTA_STS_SLICES r) 1 else s

/-- A command killed at the end of its tenancy's slice, which keeps the end's stamp (R356, R368). -/
def State.cutCmd (s : State) (t : Nat) (c : Cmd) (finish : Nat) : State :=
  let s := s.killCmd t .sliceEnd
  match s.cmd t with
  | some k => if k.st = .killed ∧ c.st ≠ .killed then s.setCmd t { k with cutAt := some finish } else s
  | none => s

/-- The holder's slice ended at a stamp (R368): its commands and turns killed, and those that run on noted (R370). -/
def State.endSlice (s : State) (r finish : Nat) : State :=
  let h := s.rotaHolder r
  let s := s.x.cmds.foldl (fun (s : State) p => if p.2.ten = h then s.cutCmd p.1 p.2 finish else s) s
  let s := s.x.cores.foldl (fun (s : State) p => if p.2.ten = h then s.killCore p.1 .sliceEnd else s) s
  let cs := s.x.cmds.filter fun p => p.2.ten == h && (p.2.st == .irrevocable || (p.2.sheltered && p.2.st.live))
  let ts := s.x.cores.filter fun p => p.2.ten == h && !p.2.turns.isEmpty
  let refs : List Ref := cs.map (fun p => Ref.cmd p.1) ++ ts.map fun p => Ref.turn p.1
  { s with sc := { s.sc with
    ends := tdel s.sc.ends r
    past := if refs.isEmpty then s.sc.past else s.sc.past ++ [⟨h, finish, 0, refs⟩] } }

/-- The next slice, at a stamp, for the first member in rota order after the last holder that has work; else the rota is
idle (R367). -/
def State.nextSlice (s : State) (r last start : Nat) : State :=
  match (s.rotaOrder r last).find? s.hasWork with
  | some m => s.beginSlice r m start
  | none => if r < 16 then s.put (R.SCH_ROTA_STS_IDLE r) 1 else s

/-- Whether a number names a rota: 0 to 15, or 64 + t. -/
def isRota (r : Nat) : Bool := decide (r < 16) || (decide (64 ≤ r) && decide (r < 128))

/-- SLICE_END (R366 to R368): the end deadline reached in the rota's port time (02 R45). -/
def execSliceEnd (rota : Nat) (s : State) : Host.Outcome State Fault Refusal :=
  if !isRota rota then .fault .noSuchUnit
  else match tfind s.sc.ends rota with
    | none => .next s
    | some e =>
      let h := s.rotaHolder rota
      if s.time (s.tenPort h) < e then .next s else .next ((s.endSlice rota e).nextSlice rota h e)

/-- The lowest level number of a tenancy's ready steps, and of its ready or running ones. -/
def State.readyLevel (s : State) (ten : Nat) (running : Bool) : Option Nat :=
  let ls := (s.sv.batches.filter fun p => p.2.ten == ten && (p.2.ready || (running && p.2.fed))).map fun p => s.effLevel p.2
  if ls.isEmpty then none else some (least ls)

/-- EARLY_SLICE_END (R369): the waiting member of lowest level number, ties to the first in rota order. -/
def execEarlySliceEnd (rota : Nat) (s : State) : Host.Outcome State Fault Refusal :=
  if 16 ≤ rota then .fault .noSuchUnit
  else if (tfind s.sc.ends rota).isNone ∨ s.get (R.SCH_ROTA_CTL_PREEMPT_EN rota) = 0 then .next s
  else
    let h := s.rotaHolder rota
    let top := s.get (R.SCH_ROTA_CTL_PREEMPT_LEVEL rota)
    let held : Nat := (s.readyLevel h true).getD 8
    let ws := (s.rotaOrder rota h).filterMap fun m =>
      match s.readyLevel m false with
      | some l => if m ≠ h ∧ l ≤ top ∧ l < held then some (m, l) else none
      | none => none
    match ws with
    | [] => .next s
    | w :: rest =>
      let pick := rest.foldl (fun (a b : Nat × Nat) => if b.2 < a.2 then b else a) w
      let now := s.time (s.tenPort h)
      .next ((s.endSlice rota now).beginSlice rota pick.1 now)

/-- ROTA_IDLE_RESUME (R367): an idle rota whose member has work. -/
def execRotaIdleResume (rota : Nat) (s : State) : Host.Outcome State Fault Refusal :=
  if !isRota rota then .fault .noSuchUnit
  else if (tfind s.sc.ends rota).isSome then .next s
  else match (s.rotaOrder rota (s.rotaHolder rota)).find? s.hasWork with
    | some m => .next (s.beginSlice rota m (s.time (s.tenPort m)))
    | none => .next s

/-- What a commit past a slice's end adds to its holder's charge (R370): the slice in progress is shortened, or the next one. -/
def State.charge (s : State) (ten n : Nat) : State :=
  let total := tget s.sc.totals ten 0 + n
  let s : State := { s with sc := { s.sc with totals := tset s.sc.totals ten total } }
  let s := s.put (R.SCH_TEN_OVERRUN_TOTAL ten) (total / 1000)
  let r := (s.rotaOf ten).getD 128
  match tfind s.sc.ends r with
  | some e =>
    if s.rotaHolder r = ten then
      let now := s.time (s.tenPort ten)
      let s := s.put (R.SCH_TEN_OVERRUN_CHARGE ten) (s.get (R.SCH_TEN_OVERRUN_CHARGE ten) + (now - (e - n)))
      { s with sc := { s.sc with ends := tset s.sc.ends r (max now (e - n)) } }
    else s.bump (R.SCH_TEN_OVERRUN_CHARGE ten) n
  | none => s.bump (R.SCH_TEN_OVERRUN_CHARGE ten) n

/-- The overrun of a commit (R370): of a command or turn that ran past its slice's end. -/
def State.overrun (s : State) (ref : Ref) (sheltered : Bool) : State :=
  let mine := s.sc.past.filter fun p => p.refs.contains ref
  let s := mine.foldl (fun (s : State) p =>
    let d := s.time (s.tenPort p.ten) - p.finish
    let s := if sheltered && decide (0 < d) then s.raise R.SCH_ERR_SHELTER_OVERRUN (some p.ten) else s
    if p.beyond < d then s.charge p.ten (d - p.beyond) else s) s
  let step (p : Past) : Past :=
    if p.refs.contains ref then
      { p with refs := p.refs.erase ref, beyond := max p.beyond (s.time (s.tenPort p.ten) - p.finish) }
    else p
  { s with sc := { s.sc with past := (s.sc.past.map step).filter fun p => !p.refs.isEmpty } }

/-! ## Tenancies (R352) -/

/-- Rows of a batch cancelled as if by a CANCEL that commits now; the twin hears of it where the batch is mirrored. -/
def State.cancelNow (s : State) (h mask : Nat) : State :=
  match s.batch h with
  | none => s
  | some b =>
    let s := if s.mirrors b then
      (b.cancelEnds mask).foldl (fun (s : State) i => s.mirEnd b.ten h i 4) (s.mirror 0x23 b.ten [h, mask] []) else s
    s.cancelCommit h mask

/-- A tenancy enters CLOSING: every live request cancelled. -/
def State.closeTenancy (s : State) (ten : Nat) : State :=
  let s := s.put (R.SCH_TEN_STS_STATE ten) 4
  s.sv.batches.foldl (fun (s : State) p => if p.2.ten = ten then s.cancelNow p.1 (maskOf p.2.liveRows) else s) s

/-- DRAIN as a write leaves it (Table 14.2). -/
def State.drainTenancy (s : State) (ten : Nat) : State :=
  let st := s.get (R.SCH_TEN_STS_STATE ten)
  if s.get (R.SCH_TEN_CTL_DRAIN ten) = 1 then
    if st = 1 then s.put (R.SCH_TEN_STS_STATE ten) (if s.hasBatch ten then 2 else 3) else s
  else if st = 2 ∨ st = 3 then s.put (R.SCH_TEN_STS_STATE ten) 1 else s

/-- The units bound to a tenancy give up their EN, their work killed (21 R536): engines, hamlets, scan units, wells. -/
def State.releaseUnits (s : State) (ten : Nat) : State :=
  let engs := (List.range 104).filter fun n => s.boundTo .eng n ten
  let scns := (List.range 16).filter fun n => s.boundTo .scn n ten
  let hams := (List.range 8).filter fun n => s.boundTo .ham n ten
  let wels := (List.range 128).filter fun n => s.boundTo .wel n ten
  let s := s.stopUnits (fun c n => (c == 1 && engs.contains n) || (c == 2 && scns.contains n)) .rebind
  let s := engs.foldl (fun (s : State) n => s.put (R.ENG_CTL_EN n) 0) s
  let s := scns.foldl (fun (s : State) n => s.put (R.SCN_CTL_EN n) 0) s
  let s := hams.foldl (fun (s : State) h => ((upto (32 * h) 32).foldl (fun (s : State) c => s.endTask c .rebind) s).put (R.HAM_CTL_EN h) 0) s
  wels.foldl (fun (s : State) n => s.put (R.WEL_CTL_EN n) 0) s

/-- TENANCY_FREE (R352): once every batch of a CLOSING tenancy has ended, its units, pages, quotas, grammar slots and streams
are released; while work of its program runs on past a start point or sheltered, the release waits for it. -/
def execTenancyFree (ten : Nat) (s : State) : Host.Outcome State Fault Refusal :=
  if 64 ≤ ten then .fault .noSuchUnit
  else if s.get (R.SCH_TEN_STS_STATE ten) ≠ 4 ∨ s.hasBatch ten ∨ s.tw.leaving.contains ten then .next s
  else
    let s := (s.releaseUnits ten).unbind ten
    if !s.quiet ten then .next s
    else
      let pages := (tkeys s.vm.pages).filter fun pk => pk / 2 ^ 35 == ten
      let s := pages.foldl State.dropPage s
      let s := (s.resetReg (R.MEM_QUOTA ten)).resetReg (R.MEM_QUOTA_POOL ten)
      let slots := (List.range 64).filter fun n => s.get (R.TXT_GRM_SLOT_VALID n) == 1 && s.get (R.TXT_GRM_SLOT_TEN n) == ten
      let s := slots.foldl (fun (s : State) n =>
        ((s.resetReg (R.TXT_GRM_SLOT n)).resetReg (R.TXT_GRM_IMAGE n)).resetReg (R.TXT_GRM_SERIAL n)) s
      let s : State := { s with tx := { s.tx with
        streams := tfilter (fun _ st => st.ten != ten) s.tx.streams, slotBytes := tfilter (fun n _ => !slots.contains n) s.tx.slotBytes } }
      let s : State := { s with sv := { s.sv with kv := tfilter (fun _ k => k.ten != ten) s.sv.kv } }
      .next (s.put (R.SCH_TEN_STS_STATE ten) 0)

/-! ## Re-binding (R353 to R355) -/

/-- The units a re-bind names, by class and number: engines, scan units. -/
def State.rebindUnits (s : State) (r : Rebind) (cls n : Nat) : Bool :=
  (r.kind == 1 && cls == 1 && r.set.testBit (s.groupNow n)) || (r.kind == 3 && cls == 2 && r.set.testBit n)

/-- The hamlets, and the wells, it names. -/
def Rebind.hamlets (r : Rebind) : List Nat := if r.kind = 2 then setPlaces 8 r.set else []
def Rebind.wells (r : Rebind) : List Nat :=
  if r.kind = 4 then setPlaces 64 r.set else if r.kind = 5 then (setPlaces 64 r.set).map (64 + ·) else []

/-- The amounts a quota move names: oasis granules, granary frames, spill units (MEM_QUOTA layout), or borrowed frames. -/
def Rebind.amounts (r : Rebind) : Nat × Nat × Nat × Nat :=
  if r.kind = 7 then (bits r.set 0 14, bits r.set 16 20, bits r.set 36 24, 0) else (0, 0, 0, bits r.set 0 20)

/-- Whether a quota move would leave its source below its pinned pages, shadow reserve and spill areas. -/
def State.quotaShort (s : State) (r : Rebind) : Bool :=
  let q := s.quota r.frm
  let a := r.amounts
  let pins := (s.vm.pages.filter fun p => p.1 / 2 ^ 35 == r.frm && p.2.pin != 0).map (·.2)
  let oas := 32 * (pins.filter fun p => p.pin == 1).length + s.oasisReserved r.frm
  decide (q.1 < a.1 + oas) || decide (q.2.1 < a.2.1 + pins.length) || decide (q.2.2.1 < a.2.2.1) || decide (q.2.2.2 < a.2.2.2)

/-- The reason a re-bind cannot proceed (R355), if any. -/
def State.rebindRefusal (s : State) (r : Rebind) : Option Nat :=
  let st := s.get (R.SCH_TEN_STS_STATE r.dest)
  if r.kind = 0 ∨ 8 < r.kind ∨ ((r.kind = 1 ∨ r.kind = 3) ∧ 2 ^ 16 ≤ r.set) ∨ (r.kind = 2 ∧ 2 ^ 8 ≤ r.set) ∨
      (r.kind = 6 ∧ 1024 ≤ r.qp) then some 0x6D
  else if st = 0 ∨ st = 4 then some 0x6E
  else if r.kind = 6 ∧ r.qp / 256 ≠ s.tenPort r.dest then some 0x6F
  else if (r.kind = 7 ∨ r.kind = 8) ∧ s.quotaShort r then some 0x70
  else if r.kind = 1 ∧ (List.range 104).any (fun n => r.set.testBit (s.groupNow n) && s.get (R.ENG_STS_STATE n) == 3) then some 0x71
  else none

/-- The host port that carried a write: the steward's count in the time of H0 (21 R533). -/
def viaPort : Via → Nat
  | .host q => q / 256
  | .steward => 0

/-- REBIND_DONE, to the queue pair that wrote SCH_REBIND (15 R402). -/
def State.rebindDone (s : State) (r : Rebind) (reason : Nat) : State :=
  let s := ((s.put R.SCH_REBIND_STS_CHK reason).put R.SCH_REBIND_STS_TAG r.tag).put R.SCH_REBIND_STS_BUSY 0
  let s := s.put R.SCH_STS_REBIND_BUSY 0
  let s := if reason = 0 then s else s.raise R.SCH_ERR_REBIND_REFUSED none
  match r.via with
  | .host q =>
    if s.connected q && s.get (qpReg R.HST_QP_VER q) != 0 then s.eventOn 0x01 reason none (s.time (q / 256)) [r.tag] q
    else s.bump (R.HST_CNT1_EVENT_LOST (q / 256)) 1
  | .steward => s.bump (R.HST_CNT1_EVENT_LOST (s.get R.ERR_CTL_REF_PORT)) 1

/-- A well's drawers killed with REBIND (04 R107). -/
def State.killDrawers (s : State) (n : Nat) : State :=
  (s.well n).live.foldl (fun (s : State) l => match l.drawer with
    | .cmd t => s.killCmd t .rebind
    | .turn c num =>
      match (s.core c).turns.findIdx? fun t => t.num == num with
      | some i => s.killTurns c i .rebind
      | none => s) s

/-- A write of SCH_REBIND (R353 steps 1 and 2, R355). -/
def State.startRebind (s : State) (via : Via) (v : Nat) : State :=
  if s.sc.rebind.isSome then s.raise R.SCH_ERR_REBIND_BUSY none
  else
    let r : Rebind := ⟨bits v 0 4, bits v 4 6, bits v 10 6, bits v 16 16, bits v 32 16, (s.reg R.SCH_REBIND_SET).toNat, via⟩
    match s.rebindRefusal r with
    | some code => s.rebindDone r code
    | none =>
      let s := ((s.put R.SCH_REBIND_STS_BUSY 1).put R.SCH_REBIND_STS_TAG r.tag).put R.SCH_STS_REBIND_BUSY 1
      let s := s.stopUnits (s.rebindUnits r) .rebind
      let s := (r.hamlets.flatMap fun h => upto (32 * h) 32).foldl (fun (s : State) c => s.endTask c .rebind) s
      let s := r.wells.foldl State.killDrawers s
      { s with sc := { s.sc with rebind := some r } }

/-- Whether nothing runs any more on what a re-bind names. -/
def State.rebindQuiet (s : State) (r : Rebind) : Bool :=
  s.unitsQuiet (s.rebindUnits r) && (r.hamlets.all fun h => (upto (32 * h) 32).all fun c => (s.core c).mode == .idle) &&
    r.wells.all fun n => (s.well n).live.isEmpty

end Sys2Proof.Machine
end

