-- ==== Sys2Proof/Machine/Power.lean ====
section
/-!
DEFINITION. The power manager (19): input thresholds, non-volatile permission, controlled shutdown, power domains, core voltage
and heat; and the reference clocks (23). What the sensors measure is an operand of each event.
-/
namespace Sys2Proof.Machine

/-- A stamp in the port time in which this chapter's durations run, with its port (R485). -/
def State.pwrStamp (s : State) : Nat × Nat := (s.pwrPort, s.time s.pwrPort)

/-- The input noted in range, or not, as the module waits to start again after a controlled shutdown (R492). -/
def State.settle (s : State) : State :=
  let steady : Option (Nat × Nat) :=
    if s.pw.phase ≠ 4 ∨ s.get R.PWR_STS_IN_LOW = 1 ∨ s.get R.PWR_STS_IN_HIGH = 1 then none
    else match s.pw.steadyAt with
      | some t => some t
      | none => some s.pwrStamp
  { s with pw := { s.pw with steadyAt := steady } }

/-! ## Input thresholds (R486 to R488) -/

/-- NV_OK cleared: a key-store write in progress has no effect (20 R519). -/
def State.clearNv (s : State) : State :=
  let s := s.put R.PWR_STS_NV_OK 0
  let s := s.noteStalls s.awaitedPages
  match s.se.writing with
  | none => s
  | some _ =>
    let s := (s.put R.SEC_KS_STS_CHK 0xA8).put R.SEC_KS_STS_BUSY 0
    ({ s with se := { s.se with writing := none } } : State).raise R.SEC_ERR_KS_REFUSED none

/-- A controlled shutdown starts (R491 step 1). -/
def State.shutdown (s : State) (cause : Nat) : State :=
  if s.get R.PWR_STS_SHUTDOWN = 1 then s
  else
    let s := (s.clearNv.put R.PWR_STS_SHUTDOWN 1).put R.PWR_STS_CAUSE cause
    { s with pw := { s.pw with phase := 2 } }

/-- A measured input voltage, in units of 10 mV. -/
def State.measured (s : State) (v : Nat) : State := s.put R.PWR_STS_IN_V v

/-- INPUT_LOW_FALL: below 54.0 V. -/
def execInputLowFall (v : Nat) (s : State) : Host.Outcome State Fault Refusal :=
  if v < 5400 then .next (((s.measured v).put R.PWR_STS_IN_LOW 1).raise R.PWR_ERR_IN_LOW none).settle else .next s

/-- INPUT_LOW_RISE: above 54.5 V. -/
def execInputLowRise (v : Nat) (s : State) : Host.Outcome State Fault Refusal :=
  if 5450 < v then .next ((s.measured v).put R.PWR_STS_IN_LOW 0).settle else .next s

/-- NV_CUTOFF: below 52.0 V (R487, R488). -/
def execNvCutoff (v : Nat) (s : State) : Host.Outcome State Fault Refusal :=
  if v < 5200 then .next ((s.measured v).clearNv.raise R.PWR_ERR_NV_CUT none) else .next s

/-- NV_RESTORE: above 53.5 V. -/
def execNvRestore (v : Nat) (s : State) : Host.Outcome State Fault Refusal :=
  if 5350 < v then .next ((s.measured v).put R.PWR_STS_NV_OK 1) else .next s

/-- UNDERVOLTAGE_SHUTDOWN: below 46.0 V, cause 1. -/
def execUndervoltageShutdown (v : Nat) (s : State) : Host.Outcome State Fault Refusal :=
  if v < 4600 then .next ((s.measured v).shutdown 1) else .next s

/-- INPUT_HIGH_RISE: above 64.5 V. -/
def execInputHighRise (v : Nat) (s : State) : Host.Outcome State Fault Refusal :=
  if 6450 < v then .next (((s.measured v).put R.PWR_STS_IN_HIGH 1).raise R.PWR_ERR_IN_HIGH none).settle else .next s

/-- INPUT_HIGH_FALL: below 64.0 V. -/
def execInputHighFall (v : Nat) (s : State) : Host.Outcome State Fault Refusal :=
  if v < 6400 then .next ((s.measured v).put R.PWR_STS_IN_HIGH 0).settle else .next s

/-- OVERVOLTAGE_SHUTDOWN: above 68.0 V, cause 2. -/
def execOvervoltageShutdown (v : Nat) (s : State) : Host.Outcome State Fault Refusal :=
  if 6800 < v then .next ((s.measured v).shutdown 2) else .next s

/-! ## What loses its state -/

/-- Registers from an offset on, n bytes of them, set back to their reset values. -/
def State.resetRange (s : State) (lo n : Nat) : State :=
  { s with cw := s.cw.filter fun p => decide (p.1 < lo) || decide (lo + n ≤ p.1) }

/-- Whether the memory of a space outlives a reset of the dies: the flash arrays and the island's buffer. -/
def lastingSpace (sp : Nat) : Bool := sp == spFlash || sp == spRecovery || decide (512 ≤ sp)

/-- What an image places. -/
def layoutOf : ImgContent → Layout
  | .model m l => modelLayout m l
  | .index _ _ l => l

/-- The store pages of the images kept: runs of addresses of the module's pages. -/
def State.storeRuns (s : State) : List (Nat × Nat) :=
  s.nv.images.flatMap fun i => (layoutOf i.2.2).store.map fun r => (key spModule r.1, r.2.1 * pageBytes)

/-- The memory that outlives a reset of the dies: with it the contents of the store pages, which are their images (07 R161, R196). -/
def State.lastingMem (s : State) : List Host.Cell :=
  s.mem.filter fun c => lastingSpace (c.1 / 2 ^ 56) || s.storeRuns.any fun r => decide (r.1 ≤ c.1) && decide (c.1 < r.1 + r.2)

/-- Every domain but 48 and 49 reset (24 R569, 19 R495): what those two hold, the flash arrays and the pins stay. The module epoch is
the steward's. -/
def State.resetDies (s : State) : State :=
  let epoch := (s.reg R.TWN_EPOCH).toNat
  let r : State := { pending := s.pending
                     cw := s.cw.filter fun p => decide (p.1 < 0x400000)
                     mem := s.lastingMem
                     vm := { badSectors := s.vm.badSectors, retireList := s.vm.retireList }
                     x := { free := s.x.free, serial := s.x.serial, epochs := s.x.epochs }
                     tw := { peerEpoch := s.tw.peerEpoch }
                     pw := s.pw, se := s.se, nv := s.nv, sb := s.sb }
  r.setReg R.TWN_EPOCH epoch

/-- The field dies' state lost (R491 step 3, 03 R57): tasks, scratch, the oases and the granary, and what ran there. -/
def State.loseFields (s : State) : State :=
  let gone := (s.vm.pages.filter fun p => decide (p.2.st ≤ 1) && !p.2.image).map (·.1)
  let s := gone.foldl (fun (s : State) pk => s.clearRun (pk * pageBytes) pageBytes) s
  { s with
    mem := s.mem.filter fun c => decide (c.1 / 2 ^ 56 < 128) || decide (512 ≤ c.1 / 2 ^ 56)
    x := { s.x with cores := [], bars := [] }
    en := { s.en with fill := [], tileWait := [] } }

/-- SHUTDOWN_FIELD_GATE (R491 step 3): every Irrevocable command has passed the end of its counted length, for `cel.prog` and
`sec.bfw` the issue of their array operations. -/
def execShutdownFieldGate (s : State) : Host.Outcome State Fault Refusal :=
  let busy := s.x.cmds.any fun p => p.2.st == .irrevocable && !p.2.nkDone && dClass p.2.words != 8 && dClass p.2.words != 9
  if s.pw.phase ≠ 2 ∨ busy then .next s
  else
    let s := s.loseFields
    let s := s.put R.PWR_DOM_STS_POWERED (s.get R.PWR_DOM_STS_POWERED / 2 ^ 40 * 2 ^ 40)
    .next { s with pw := { s.pw with phase := 3 } }

/-- The domains that stay powered: the steward and the island. -/
def alwaysOn : Nat := 2 ^ 48 + 2 ^ 49

/-- SHUTDOWN_GATE_DIE_GATE (R491 step 4): every array program has completed, or has ended because its channel failed. -/
def execShutdownGateDieGate (s : State) : Host.Outcome State Fault Refusal :=
  let busy := s.x.cmds.any fun p => p.2.st == .irrevocable && !p.2.nkDone
  if s.pw.phase ≠ 3 ∨ busy then .next s
  else
    let s := s.resetDies.put R.PWR_DOM_STS_POWERED alwaysOn
    .next ({ s with pw := { s.pw with phase := 4, pwrgd := false, steadyAt := none } } : State).settle

/-- All fifty domains. -/
def allDomains : Nat := 2 ^ 50 - 1

/-- Bring-up entered at a stage (25 R575), its progress registers at their reset values (R576). -/
def State.startBringUp (s : State) (stage : Nat) : State :=
  ((s.resetReg R.ERR_BRING).resetReg R.ERR_BRING_T).put R.ERR_BRING_STAGE stage

/-- Whether the input has lain in range for 10 ms (R492). -/
def State.steady (s : State) : Bool := match s.pw.steadyAt with
  | some t => decide (t.2 + 10000000 ≤ s.time t.1)
  | none => false

/-- SHUTDOWN_RESTART (R492): the input in range for 10 ms; after a thermal shutdown every temperature at most 70; after cause 4
MEM_REFCLK present. The temperatures read are the two field dies', the gate die's and the hottest stack's. -/
def execShutdownRestart (fd0 fd1 gate hbm : Nat) (s : State) : Host.Outcome State Fault Refusal :=
  let cause := s.get R.PWR_STS_CAUSE
  let cool := decide (fd0 ≤ 70) && decide (fd1 ≤ 70) && decide (gate ≤ 70) && decide (hbm ≤ 70)
  if s.pw.phase ≠ 4 ∨ !s.steady ∨ s.get R.PWR_STS_IN_LOW = 1 ∨ s.get R.PWR_STS_IN_HIGH = 1 ∨ (cause = 3 ∧ !cool) ∨
      (cause = 4 ∧ s.pw.absent.contains 5) then .next s
  else
    let s := ((s.put (R.PWR_FD_STS_TJ 0) fd0).put (R.PWR_FD_STS_TJ 1) fd1).put R.PWR_TEMP_GATE_TJ gate
    let s := (s.put R.PWR_TEMP_HBM_MAX hbm).put R.PWR_DOM_STS_POWERED allDomains
    let s := (s.put R.PWR_STS_SHUTDOWN 0).put R.PWR_STS_CAUSE 0
    .next (({ s with pw := { s.pw with phase := 0, pwrgd := true, steadyAt := none } } : State).startBringUp 1)

/-- RAILS_FAIL (24 R569): the hold-up is exhausted; only the flash arrays, the fuses and the straps keep what they hold. -/
def execRailsFail (s : State) : Host.Outcome State Fault Refusal :=
  let r : State := { pending := s.pending
                     mem := s.lastingMem.filter fun c => c.1 / 2 ^ 56 != spRecovery
                     vm := { badSectors := s.vm.badSectors, retireList := s.vm.retireList }
                     x := { free := s.x.free }
                     se := { boot := s.se.boot, store := s.se.store }
                     pw := { absent := s.pw.absent, rstLow := s.pw.rstLow, pwrgd := false, charged := false }
                     sb := s.sb, nv := s.nv }
  .next ((r.put R.SEC_STS_SVN_FLOOR (s.get R.SEC_STS_SVN_FLOOR)).put R.PWR_DOM_STS_POWERED 0)

/-- HOT_INSERT_PRECHARGE (24 R564): main current flows only once the bulk capacitance reaches 50 V. -/
def execHotInsertPrecharge (v : Nat) (s : State) : Host.Outcome State Fault Refusal :=
  .next { s with pw := { s.pw with charged := s.pw.charged || decide (5000 ≤ v) } }

/-! ## Power domains (R493, R494) -/

/-- Whether a domain holds a page, by its kind: an oasis half's die, a granary quad's stacks. -/
def domHolds (dom : Nat) (p : Page) : Bool :=
  let d := dom / 20
  let k := dom % 20
  if k = 12 ∨ k = 13 then p.st == 1 && p.frame / 262144 == d && (p.oasis != 0 || p.pin == 1)
  else p.st == 1 && p.frame / 32768 / 2 == 4 * d + (k - 14)

/-- Whether a domain is an oasis half or a granary quad. -/
def domMemory (dom : Nat) : Bool := decide (dom < 40) && decide (12 ≤ dom % 20) && decide (dom % 20 < 18)

/-- The reason a request to switch a domain off cannot be met (R494), if any. -/
def State.gateRefusal (s : State) (dom : Nat) : Option Nat :=
  if 48 ≤ dom then some 0x9B
  else if (dom < 40 ∧ 18 ≤ dom % 20) ∨ dom = 40 ∨ 45 ≤ dom then some 0x9C
  else if domMemory dom then
    (if s.vm.pages.any fun p => domHolds dom p.2 && (p.2.pin != 0 || p.2.held || s.nkHolds p.1) then some 0x9D else none)
  else if 41 ≤ dom ∧ s.get R.TWN_STS_STATE = 1 ∧ (upto (4 * (dom - 41)) 4).any s.twinPort then some 0x9E
  else none

/-- PENDING: whether requests wait. -/
def State.gatePending (s : State) : State := s.put R.PWR_GATE_STS_PENDING (if s.pw.queue.isEmpty then 0 else 1)

/-- A change of one bit of PWR_DOM_CTL: queued in ascending domain number, refused, or taking back one that waits. -/
def State.domRequest (s : State) (dom : Nat) (on : Bool) : State :=
  if s.pw.queue.any fun p => p.1 == dom then { s with pw := { s.pw with queue := s.pw.queue.filter fun p => p.1 != dom } }
  else if s.powered dom = on then s
  else
    match (if on then none else s.gateRefusal dom) with
    | some code => ((s.put R.PWR_GATE_STS_CHK code).put R.PWR_GATE_STS_DOMAIN dom).raise R.PWR_ERR_GATE_REFUSED none
    | none => { s with pw := { s.pw with queue := insertBy (fun a b => decide (a.1 ≤ b.1)) (dom, on) s.pw.queue } }

/-- The changes of a write of PWR_DOM_CTL, from the old value of ON to the present one (R494). -/
def State.domWrite (s : State) (old : Nat) : State :=
  let new := s.get R.PWR_DOM_CTL_ON
  ((List.range 50).foldl (fun (s : State) d =>
    if old.testBit d = new.testBit d then s else s.domRequest d (new.testBit d)) s).gatePending

/-- The engines of an engine-group domain, as placed (05 Table 5.5); the scan units of a granary quad. -/
def domEngines (dom : Nat) : List Nat :=
  if dom < 40 ∧ dom % 20 < 8 then (upto (52 * (dom / 20)) 52).filter fun n => engGroup (n % 52) == dom % 20 else []
def domScans (dom : Nat) : List Nat :=
  if domMemory dom ∧ 14 ≤ dom % 20 then upto (8 * (dom / 20) + 2 * (dom % 20 - 14)) 2 else []
def domCores (dom : Nat) : List Nat :=
  if dom < 40 ∧ 8 ≤ dom % 20 ∧ dom % 20 < 12 then upto (32 * (4 * (dom / 20) + (dom % 20 - 8))) 32 else []
def domPorts (dom : Nat) : List Nat := if 41 ≤ dom ∧ dom < 45 then upto (4 * (dom - 41)) 4 else []

/-- Whether a domain's commands include the ones of a unit. -/
def domUnit (dom cls n : Nat) : Bool := (cls == 1 && (domEngines dom).contains n) || (cls == 2 && (domScans dom).contains n)

/-- Whether the condition for gating a domain holds (Table 19.3): idle or halted cores; homes moved out, an oasis half's to
the die's other half; no Irrevocable command on its units. -/
def State.gateReady (s : State) (dom : Nat) : Bool :=
  let cores := (domCores dom).all fun c => (s.core c).mode != .running && (s.core c).mode != .waiting
  let d := dom / 20
  let k := dom % 20
  let mem := if !domMemory dom then true
    else if k < 14 then decide (s.oasisHomed d ≤ if s.powered (20 * d + 25 - k) then 3584 else 0) &&
      !(s.vm.pages.any fun p => domHolds dom p.2 && s.nkHolds p.1)
    else !(s.vm.pages.any fun p => domHolds dom p.2)
  let busy := s.x.cmds.any fun p => p.2.st == .irrevocable && domUnit dom (dClass p.2.words) p.2.unit
  cores && mem && !busy

/-- The sticky bits of a domain's units gone with its power (22 R543): an oasis keeps its own while one half is powered. -/
def State.dropBits (s : State) (dom : Nat) : State :=
  let s := (domEngines dom).foldl (fun (s : State) n => s.resetReg (R.ENG_ERR n)) s
  let s := (domScans dom).foldl (fun (s : State) n => s.resetReg (R.SCN_ERR n)) s
  let s := match domCores dom with
    | c :: _ => s.resetReg (R.HAM_ERR (c / 32))
    | [] => s
  if domMemory dom ∧ dom % 20 < 14 ∧ !s.powered (20 * (dom / 20) + 25 - dom % 20) then s.resetReg (R.OAS_ERR (dom / 20)) else s

/-- A domain gated: its engines' and scan units' commands killed with POWER_GATE, its hamlet's tasks gone, its ports out of
routing with their caravans sent again (16 R411, R416). -/
def State.gate (s : State) (dom : Nat) : State :=
  let s := s.stopUnits (domUnit dom) .powerGate
  let s := (domCores dom).foldl State.resetCore s
  let s := (domPorts dom).foldl (fun (s : State) n => if s.portUp n then (s.leaveRouting n).flood else s) s
  let s := (((List.range 20).filter fun e => portDomain e == dom).foldl State.crossReset s).dropBits dom
  s.put R.PWR_DOM_STS_POWERED (setBits (s.get R.PWR_DOM_STS_POWERED) dom 1 0)

/-- DOMAIN_GATE_DONE (R494): the request at the head of the queue, once its condition holds. -/
def execDomainGateDone (dom : Nat) (s : State) : Host.Outcome State Fault Refusal :=
  if 50 ≤ dom then .fault .noSuchUnit
  else match s.pw.queue with
    | (d, false) :: q =>
      if d = dom ∧ s.gateReady dom then .next (({ s with pw := { s.pw with queue := q } } : State).gate dom).gatePending
      else .next s
    | _ => .next s

/-- The units of a domain quarantined as it is powered again (18 R481): registers at reset, bind epoch raised, an engine in STATE
4 unless it is retired. -/
def State.quarantine (s : State) (dom : Nat) : State :=
  let s := (domEngines dom).foldl (fun (s : State) n =>
    let retired := s.get (R.ENG_STS_STATE n) = 3
    let s := (s.resetRange (R.ENG_CTL n) 0x10000).raiseEpoch 1 n
    s.put (R.ENG_STS_STATE n) (if retired then 3 else 4)) s
  let s := (domScans dom).foldl (fun (s : State) n => (s.resetRange (R.SCN_CTL n) 0x10000).raiseEpoch 2 n) s
  let s := (domCores dom).foldl (fun (s : State) c => s.raiseEpoch clsCore c) s
  let s := match domCores dom with
    | c :: _ => s.resetRange (R.HAM_CTL (c / 32)) 0x40000
    | [] => s
  let s := (domPorts dom).foldl (fun (s : State) n =>
    let s := s.resetRange (R.FAB_PORT_CTL n) 0x20
    { s with pt := { s.pt with meters := tdel s.pt.meters (4 + n), locked := s.pt.locked.erase (4 + n) } }) s
  if domMemory dom ∧ dom % 20 < 14 ∧ !s.powered (20 * (dom / 20) + 25 - dom % 20) then s.resetRange (R.OAS_CTL (dom / 20)) 0x18 else s

/-- DOMAIN_POWER_UP_DONE (R494). -/
def execDomainPowerUpDone (dom : Nat) (s : State) : Host.Outcome State Fault Refusal :=
  if 50 ≤ dom then .fault .noSuchUnit
  else match s.pw.queue with
    | (d, true) :: q =>
      if d = dom then
        let s : State := { s.quarantine dom with pw := { s.pw with queue := q } }
        .next (s.put R.PWR_DOM_STS_POWERED (setBits (s.get R.PWR_DOM_STS_POWERED) dom 1 1)).gatePending
      else .next s
    | _ => .next s

/-- A write of PWR_CTL.SLEEP, from its old value (R495): 1 is accepted only with no tenancy enabled and the fabric off; 0 wakes the
module into bring-up. -/
def State.sleepWrite (s : State) (old : Nat) : State :=
  let new := s.get R.PWR_CTL_SLEEP
  if new = old then s
  else if new = 1 then
    if (List.range 64).any (fun t => s.get (R.SCH_TEN_CTL_EN t) == 1) || s.get R.FAB_CTL_EN == 1 then
      (s.put R.PWR_CTL_SLEEP 0).raise R.PWR_ERR_GATE_REFUSED none
    else
      let s := s.resetDies.put R.PWR_DOM_STS_POWERED alwaysOn
      { s with pw := { s.pw with asleep := true, queue := [] } }
  else
    let s := s.put R.PWR_DOM_STS_POWERED allDomains
    ({ s with pw := { s.pw with asleep := false } } : State).startBringUp 2

/-! ## Core voltage, heat and current (R496 to R500) -/

/-- The settings in force: the programmed ones while EN is 1, else the reset values (R501). -/
def State.vset (s : State) (die : Nat) : Nat := if s.get R.PWR_CTL_EN = 1 then s.get (R.PWR_FD_CTL_VSET die) else 780
def State.tjHigh (s : State) : Nat := if s.get R.PWR_CTL_EN = 1 then s.get R.PWR_CTL_TJ_HIGH else 90
def State.capWatts (s : State) : Nat := if s.get R.PWR_CTL_EN = 1 then s.get R.PWR_CTL_CAP else 4000

/-- The VCORE a die is to have (R496). -/
def State.vTarget (s : State) (die : Nat) : Nat :=
  max 720 (min 860 (min (s.vset die) (min (tget s.pw.capLimit die 860) (tget s.pw.thermal die 860))))

/-- VCORE_STEP (R496): one step of 10 mV toward the setting, 10 µs after the last. -/
def execVcoreStep (die : Nat) (s : State) : Host.Outcome State Fault Refusal :=
  if 2 ≤ die then .fault .noSuchUnit
  else
    let v := s.get (R.PWR_FD_STS_VCORE die)
    let w := s.vTarget die
    let early : Bool := match tfind s.pw.stepAt die with
      | some t => decide (s.time t.1 < t.2 + 10000)
      | none => false
    let go (n : Nat) : Host.Outcome State Fault Refusal :=
      .next { s.put (R.PWR_FD_STS_VCORE die) n with pw := { s.pw with stepAt := tset s.pw.stepAt die s.pwrStamp } }
    if early then .next s
    else if w < v then go (v - 10)
    else if v + 10 ≤ w then go (v + 10)
    else .next s

/-- PACER_WINDOW (R497): handshakes counted in 10 µs. -/
def execPacerWindow (die count : Nat) (s : State) : Host.Outcome State Fault Refusal :=
  if 2 ≤ die then .fault .noSuchUnit
  else
    let s := s.put (R.PWR_FD_STS_RATE die) (count / 10)
    .next (if count / 10 < 1450 then s.raise R.PWR_ERR_RATE_LOW none else s)

/-- POWER_AVERAGE_WINDOW (R498): the average of 1 ms, in W. -/
def execPowerAverageWindow (watts : Nat) (s : State) : Host.Outcome State Fault Refusal :=
  let s := s.put R.PWR_STS_IN_W watts
  let v (d : Nat) : Nat := s.get (R.PWR_FD_STS_VCORE d)
  let limit (f : Nat → Nat) : State := { s with pw := { s.pw with capLimit := tset (tset s.pw.capLimit 0 (f 0)) 1 (f 1) } }
  if s.capWatts < watts then
    if v 0 ≤ 720 ∧ v 1 ≤ 720 then .next (s.raise R.PWR_ERR_CAP_MISS none)
    else .next (limit fun d => max 720 (v d - 10))
  else if watts * 100 < s.capWatts * 95 then
    .next (limit fun d => min 860 (max (tget s.pw.capLimit d 860) 720 + 10))
  else .next s

/-- A die's thermal limit set. -/
def State.setThermal (s : State) (die v : Nat) : State := { s with pw := { s.pw with thermal := tset s.pw.thermal die v } }

/-- TJ_HIGH_CROSSING (R499): at or above TJ_HIGH VCORE goes down step by step; it is raised again only below TJ_HIGH - 5. -/
def execTjHighCrossing (die tj : Nat) (s : State) : Host.Outcome State Fault Refusal :=
  if 2 ≤ die then .fault .noSuchUnit
  else
    let s := s.put (R.PWR_FD_STS_TJ die) tj
    .next (if s.tjHigh ≤ tj then s.setThermal die 720 else if tj + 5 < s.tjHigh then s.setThermal die 860 else s)

/-- TJ_OVER (R499): above 95 °C VCORE is held at 0.72 V. -/
def execTjOver (die tj : Nat) (s : State) : Host.Outcome State Fault Refusal :=
  if 2 ≤ die then .fault .noSuchUnit
  else if tj ≤ 95 then .next s
  else .next (((s.put (R.PWR_FD_STS_TJ die) tj).setThermal die 720).raise R.PWR_ERR_TJ_OVER none)

/-- The hottest stack, as PWR_TEMP shows it. -/
def State.stackTemp (s : State) (stk temp : Nat) : State :=
  if s.get R.PWR_TEMP_HBM_MAX ≤ temp ∨ s.get R.PWR_TEMP_HBM_STACK = stk then
    (s.put R.PWR_TEMP_HBM_MAX temp).put R.PWR_TEMP_HBM_STACK stk else s

/-- THERMAL_SHUTDOWN (R499): a die or stack at or above 105 °C for 10 µs, cause 3. -/
def execThermalShutdown (sensor : Sensor) (temp : Nat) (s : State) : Host.Outcome State Fault Refusal :=
  let hot (s : State) : Host.Outcome State Fault Refusal := .next (if temp < 105 then s else s.shutdown 3)
  match sensor with
  | .field d => if 2 ≤ d then .fault .noSuchUnit else hot (s.put (R.PWR_FD_STS_TJ d) temp)
  | .gate => hot (s.put R.PWR_TEMP_GATE_TJ temp)
  | .stack n => if 16 ≤ n then .fault .noSuchUnit else hot (s.stackTemp n temp)

/-- HBM_HOT (R499). -/
def execHbmHot (stk temp : Nat) (s : State) : Host.Outcome State Fault Refusal :=
  if 16 ≤ stk then .fault .noSuchUnit
  else if temp < 95 then .next (s.stackTemp stk temp)
  else .next ((s.stackTemp stk temp).raise R.PWR_ERR_HBM_HOT none)

/-- CURRENT_STEP_WINDOW (R500): the largest change of a die's core current in 1 µs, in A. -/
def execCurrentStepWindow (die amps : Nat) (s : State) : Host.Outcome State Fault Refusal :=
  if 2 ≤ die then .fault .noSuchUnit
  else
    let s := s.put (R.PWR_FD_STEP_STEP_PEAK die) (max amps (s.get (R.PWR_FD_STEP_STEP_PEAK die)))
    .next (if s.get (R.PWR_FD_STEP_STEP_MAX die) < amps then s.raise R.PWR_ERR_STEP none else s)

/-! ## Reference clocks (23 R556, R559) -/

/-- The edges that a reference serves. -/
def clockEdges (n : Nat) : List Nat := (List.range 20).filter fun e => edgeClock e == n

/-- A reference noted absent: the crossings of its edges hold what they have (R559). -/
def State.clockGone (s : State) (n : Nat) : State :=
  let s := { s with pw := { s.pw with absent := addNew s.pw.absent n } }
  (clockEdges n).foldl (fun (s : State) e => { s with cx := tset s.cx e { s.crossing e with stopped := true } }) s

/-- HOST_REFCLK_LOSS: H0 to H3 lose PCS lock; their meters run on from the island crystal. -/
def execHostRefclkLoss (s : State) : Host.Outcome State Fault Refusal :=
  .next ((List.range 4).foldl (fun (s : State) p => s.setLock p false) (s.clockGone 0))

/-- FAB_REFCLK_LOSS: the quadrant's ports leave routing as under R411. -/
def execFabRefclkLoss (q : Nat) (s : State) : Host.Outcome State Fault Refusal :=
  if 4 ≤ q then .fault .noSuchUnit
  else .next ((upto (4 * q) 4).foldl (fun (s : State) n =>
    let s := (s.setLock (4 + n) false).put (R.FAB_PORT_STS_LANES n) 0
    if s.portUp n then s.leaveRouting n else s) (s.clockGone (1 + q)))

/-- The refresh of the granary has lapsed: every granule there poisoned, every channel group retired, every ONFI channel failed. -/
def State.memLost (s : State) : State :=
  let pages := tmap (fun _ p => if p.st = 1 then { p with poison := 2 ^ 32 - 1 } else p) s.vm.pages
  let s : State := { s with vm := { s.vm with pages := pages } }
  let s := (List.range 128).foldl (fun (s : State) g => s.retireGroup (g / 8) (g % 8)) s
  let s := s.raise R.MEM_ERR_HBM_UE none
  (List.range 32).foldl State.channelFail s

/-- MEM_REFCLK_LOSS: accesses wait; absent for more than 10 µs, the granary is lost and the module shuts down with cause 4. -/
def execMemRefclkLoss (long : Bool) (s : State) : Host.Outcome State Fault Refusal :=
  let s := s.clockGone 5
  .next (if long then s.memLost.shutdown 4 else s)

/-- REFCLK_RETURN (R559): reference 0 HOST_REFCLK, 1 to 4 FAB_REFCLK0 to 3, 5 MEM_REFCLK. The crossings of its edges deliver what they
hold; the edge then retrains (PCS_LOCK_GAINED). -/
def execRefclkReturn (clock : Nat) (s : State) : Host.Outcome State Fault Refusal :=
  if 6 ≤ clock then .fault .noSuchUnit
  else
    let s := { s with pw := { s.pw with absent := s.pw.absent.erase clock } }
    .next ((clockEdges clock).foldl (fun (s : State) e => { s with cx := tset s.cx e (s.crossing e).drain }) s)

end Sys2Proof.Machine
end

