-- ==== Sys2Proof/Machine/Security.lean ====
section
/-!
DEFINITION. The security island (20): measurements and reports, the boot control block and the boot chain, firmware updates, the
key store, the commands of class 0x09.
-/
namespace Sys2Proof.Machine

/-! ## Bytes of digests and registers -/

/-- A 32-byte value as its bytes, most significant first, as SM3 gives a digest. -/
def digestBytes (v : Nat) : List Byte := beBytes 32 v
/-- The value of a run of bytes, most significant first. -/
def ofBe (bs : List Byte) : Nat := ofLe bs.reverse
/-- SM3 of a run of bytes, as a number. -/
def sm3 (bs : List Byte) : Nat := (Config.sm3 bs).toNat

/-! ## Measurements (R512 to R515) -/

/-- The bytes of a measurement register. -/
def State.meas (s : State) (r : Nat) : List Byte := (List.range 4).flatMap fun w => leBytes 8 (s.reg (R.SEC_MEAS r w)).toNat

/-- A measurement register set. -/
def State.setMeas (s : State) (r : Nat) (bs : List Byte) : State :=
  (wordsOf 4 bs).zipIdx.foldl (fun (s : State) p => s.setReg (R.SEC_MEAS r p.2) p.1) s

/-- The most entries the measurement log holds (R514). -/
def logMax : Nat := 4096

/-- A register extended with a value: M becomes SM3(M ‖ v), and the log takes an entry while it has room. -/
def State.extend (s : State) (r v : Nat) : State :=
  let s := s.setMeas r (digestBytes (sm3 (s.meas r ++ digestBytes v)))
  if s.se.log.length < logMax then
    let s : State := { s with se := { s.se with log := s.se.log ++ [(r, v)] } }
    s.put R.SEC_STS_LOG_COUNT s.se.log.length
  else s.raise R.SEC_ERR_LOG_FULL none

/-- MODEL, INDEX and CONFIG reset and their entries removed (R515). -/
def State.resetMeas (s : State) : State :=
  let s := [1, 2, 3].foldl (fun (s : State) r => s.setMeas r (List.replicate 32 0)) s
  let s : State := { s with se := { s.se with log := s.se.log.filter fun e => e.1 == 0 } }
  s.put R.SEC_STS_LOG_COUNT s.se.log.length

/-! ## Copies in the boot flash (R503) -/

/-- The copy in force: of those whose digest verifies, the one of higher sequence. -/
def State.bootCtl (s : State) : BootCtl :=
  (s.se.boot.filter (·.valid)).foldl (fun a b => if a.seq ≤ b.seq then b else a) {}
def State.keyStore (s : State) : KeyCopy :=
  (s.se.store.filter (·.valid)).foldl (fun a b => if a.seq ≤ b.seq then b else a) {}

/-- The boot control block written: over the copy of lower sequence, one above the other's. -/
def State.writeBoot (s : State) (b : BootCtl) : State :=
  let now := s.bootCtl
  { s with se := { s.se with boot := [now, { b with seq := now.seq + 1, valid := true }] } }

/-- The key store written likewise. -/
def State.writeStore (s : State) (k : KeyCopy) : State :=
  let now := s.keyStore
  { s with se := { s.se with store := [now, { k with seq := now.seq + 1, valid := true }] } }

/-- The key store's other copy brought up to date at a bring-up (R519). -/
def State.evenStore (s : State) : State :=
  let k := s.keyStore
  if s.se.store.all fun c => c.valid && decide ({ c with seq := k.seq } = k) then s else s.writeStore k

/-! ## Images (R509, R510) -/

/-- An image header's fields (Table 20.3). -/
structure ImgHdr where
  ver : Nat
  kind : Nat
  enc : Bool
  signer : Nat
  key : Nat
  rsvd : Nat
  svn : Nat
  bodyLen : Nat
  digest : Nat
  iv : Nat
  zeros : Bool
  sig : Nat
  signed : List Byte

/-- The header of an image's first 256 bytes. -/
def imgHdr (bs : List Byte) : ImgHdr :=
  let w := ofLe (bs.take 8)
  let at_ (o n : Nat) : List Byte := (bs.drop o).take n
  { ver := bits w 0 8, kind := bits w 8 8, enc := w.testBit 16, signer := bits w 17 3, key := bits w 20 4, rsvd := bits w 24 8,
    svn := w / 2 ^ 32, bodyLen := ofLe (at_ 8 8), digest := ofBe (at_ 0x10 32), iv := ofBe (at_ 0x30 16),
    zeros := (at_ 0x40 64).all (· == 0) && (at_ 0xC0 64).all (· == 0), sig := ofBe (at_ 0x80 64), signed := bs.take 128 }

/-- Whether a header's form is that of its kind, with a body of n bytes received. -/
def ImgHdr.formOk (h : ImgHdr) (kind n : Nat) : Bool :=
  h.ver == 1 && h.kind == kind && h.rsvd == 0 && h.zeros && (h.enc || h.key == 0) && (kind != 2 || h.signer == 0) && h.bodyLen == n

/-- The plaintext of a body. -/
def ImgHdr.plain (h : ImgHdr) (keys : Tab Nat) (body : List Byte) : List Byte :=
  if h.enc then Config.sm4ctr (tget keys h.key 0) h.iv body else body

/-- Whether a signature over bytes verifies under a key (R507). -/
def sigOk (key : Nat) (bs : List Byte) (sig : Nat) : Bool := Config.sm2Verify key (sm3 bs) sig

/-- The checks of a model-set or index image, orders 2 to 6 of Table 20.4: the reason of the first that fails. -/
def State.imageRefusal (s : State) (kind : Nat) (bs : List Byte) : Option Nat :=
  let h := imgHdr bs
  let body := bs.drop 256
  let k := s.keyStore
  if bs.length < 256 ∨ !h.formOk kind body.length then some 0xA2
  else match tfind k.signers h.signer with
    | none => some 0xA3
    | some key =>
      if k.revoked.contains (16 + h.signer) then some 0xA3
      else if !sigOk key h.signed h.sig then some 0xA4
      else if h.enc ∧ (tfind k.keys h.key).isNone then some 0xA5
      else if sm3 (h.plain k.keys body) ≠ h.digest then some 0xA6
      else none

/-- What step 2 of R504 finds in a firmware image: the reason it fails with (Table 21.5), or its certificate's bytes and header.
A bad certificate counts as a bad signer, an SVN below the floor as a malformed image; a nonzero reserved header field is refused here as
Table 20.4 refuses it of any image (DESIGN CHOICE, log entry 30). -/
def State.firmware (s : State) (bs : List Byte) : Except Nat (List Byte × ImgHdr) :=
  let h := imgHdr bs
  let rest := bs.drop 256
  let cert := rest.take (min 4096 (Config.certLen rest))
  let body := (rest.drop cert.length).take h.bodyLen
  if bs.length < 256 ∨ !h.formOk 2 body.length ∨ h.svn < s.get R.SEC_STS_SVN_FLOOR then .error 0xA2
  else if !Config.certOk cert then .error 0xA3
  else if !sigOk (Config.certKey cert) h.signed h.sig then .error 0xA4
  else if h.enc ∧ (tfind s.keyStore.keys h.key).isNone then .error 0xA5
  else if sm3 (h.plain s.keyStore.keys body) ≠ h.digest then .error 0xA6
  else .ok (cert, h)

/-! ## The boot chain (R504, R505) -/

/-- Bytes of a firmware slot, and its place in the flash (Table 20.2). -/
def slotBytes : Nat := 67108864
def slotAt (slot : Nat) : Nat := key spFlash (slot * slotBytes)

/-- The steward started on a slot (R504 step 5); where the build number stands in an image is not given. -/
def State.startSteward (s : State) (slot svn : Nat) (tried : Bool) : State :=
  let (build, s) := s.takeFree
  let s := ((s.put R.SEC_STS_STAGE 1).put R.SEC_STS_SLOT slot).put R.SEC_STS_FW_SVN svn
  let s := (s.put R.MOD_FW_BUILD build).put R.MOD_FW_SVN svn
  { s with se := { s.se with tryWait := none, tried := tried } }

/-- One slot tried (R504 steps 2 and 3): the state with it measured, and its SVN. -/
def State.trySlot (s : State) (slot : Nat) : Option (State × Nat) :=
  match s.firmware (s.run (slotAt slot) slotBytes) with
  | .error _ => none
  | .ok (cert, h) => some ((s.extend 0 (sm3 cert)).extend 0 h.digest, h.svn)

/-- A slot booted: one that came from TRY waits until TRY is cleared (R504 step 4). -/
def State.bootSlot (s : State) (slot svn : Nat) (fromTry : Bool) : State :=
  if fromTry then
    let s := (s.put R.SEC_STS_SLOT slot).put R.SEC_STS_FW_SVN svn
    { s with se := { s.se with tryWait := some slot } }
  else s.startSteward slot svn false

/-- R504 from its step 1: TRY when named, else ACTIVE; a slot that fails is followed by the other; with neither, STAGE is 2. -/
def State.bootRun (s : State) : State :=
  let s := if s.se.boot.all (·.valid) && s.se.store.all (·.valid) then s else s.raise R.SEC_ERR_COPY_INVALID none
  let b := s.bootCtl
  let first := b.try_.getD b.active
  match s.trySlot first with
  | some (s, svn) => s.bootSlot first svn b.try_.isSome
  | none =>
    let s := s.raise R.SEC_ERR_BOOT_SLOT_FAIL none
    match s.trySlot (1 - first) with
    | some (s, svn) => s.bootSlot (1 - first) svn false
    | none => s.put R.SEC_STS_STAGE 2

/-- ROM_BOOT (R504): domain 49 leaves reset; the measurements start at zero. -/
def execRomBoot (s : State) : Host.Outcome State Fault Refusal :=
  if s.pw.charged = false ∨ s.get R.SEC_STS_STAGE ≠ 0 ∨ s.se.tryWait.isSome then .next s
  else
    let s := s.put R.PWR_DOM_STS_POWERED (s.get R.PWR_DOM_STS_POWERED ||| alwaysOn)
    let s : State := { s with se := { s.se with log := [], writing := none } }
    .next (s.resetMeas.setMeas 0 (List.replicate 32 0)).bootRun

/-- ROM_TRY_CLEAR (R504 step 4): TRY cleared once NV_OK is 1; a write that fails abandons the slot for ACTIVE. -/
def execRomTryClear (written : Bool) (s : State) : Host.Outcome State Fault Refusal :=
  match s.se.tryWait with
  | none => .next s
  | some slot =>
    if s.get R.PWR_STS_NV_OK = 0 then .next s
    else if written then
      .next ((s.writeBoot { s.bootCtl with try_ := none }).startSteward slot (s.get R.SEC_STS_FW_SVN) true)
    else
      let s : State := { s.raise R.SEC_ERR_BFW_FAIL none with se := { s.se with tryWait := none } }
      match s.trySlot s.bootCtl.active with
      | some (s, svn) => .next (s.bootSlot s.bootCtl.active svn false)
      | none => .next ((s.raise R.SEC_ERR_BOOT_SLOT_FAIL none).put R.SEC_STS_STAGE 2)

/-! ## Firmware updates (R506) -/

/-- A verdict on a firmware operation; START's also goes out as IMAGE_DONE with KIND 2. -/
def State.fwResult (s : State) (code : Nat) : State := s.put R.SEC_FW_STS_CHK code
def State.fwDone (s : State) (code : Nat) : State :=
  (s.fwResult code).sendEvent 0x04 code none (s.time (s.get R.ERR_CTL_REF_PORT)) [2, 0]

/-- OP START: the image in the stage region checked, programmed into the slot not booted, and named in TRY. -/
def State.fwStart (s : State) (n : Nat) : State :=
  if s.get R.SEC_CTL_EN = 0 then s
  else if s.get R.HST_IMG_STS_ACTIVE = 1 ∨ s.get R.SEC_FW_STS_BUSY = 1 then s.fwDone 0xA7
  else if s.get R.PWR_STS_NV_OK = 0 then s.fwDone 0xA1
  else if slotBytes < n then s.fwDone 0xA2
  else
    let bs := s.run (key spStage 0) n
    match s.firmware bs with
    | .error code => (s.raise R.SEC_ERR_IMG_REFUSED none).fwDone code
    | .ok _ =>
      let slot := 1 - s.get R.SEC_STS_SLOT
      let s := (s.clearRun (slotAt slot) slotBytes).writeRun (slotAt slot) bs
      (s.writeBoot { s.bootCtl with try_ := some slot }).fwDone 0

/-- OP CONFIRM: the running firmware's slot becomes ACTIVE. -/
def State.fwConfirm (s : State) : State :=
  if s.get R.SEC_CTL_EN = 0 then s
  else if s.get R.SEC_STS_STAGE ≠ 1 then s.fwResult 0xA7
  else if s.get R.PWR_STS_NV_OK = 0 then s.fwResult 0xA1
  else (s.writeBoot { s.bootCtl with active := s.get R.SEC_STS_SLOT }).fwResult 0

/-- OP ADVANCE: SVN_FLOOR raised to the running firmware's SVN, while the running slot is ACTIVE. -/
def State.fwAdvance (s : State) : State :=
  if s.get R.SEC_CTL_EN = 0 then s
  else if s.get R.SEC_STS_STAGE ≠ 1 ∨ s.bootCtl.active ≠ s.get R.SEC_STS_SLOT then s.fwResult 0xA7
  else (s.put R.SEC_STS_SVN_FLOOR (max (s.get R.SEC_STS_SVN_FLOOR) (s.get R.SEC_STS_FW_SVN))).fwResult 0

/-! ## Reports (R516, R517) -/

/-- The bytes of an attestation report (Table 20.5) with its signature. -/
def State.report (s : State) (stamp port ten : Nat) (manager : Bool) (nonce : List Byte) : List Byte :=
  let head := bytesOf
    [1 + s.get R.SEC_ERR_LOG_FULL * 2 ^ 8 + s.se.log.length * 2 ^ 16, s.get R.MOD_IDENT_IDENTITY,
     s.get R.TWN_EPOCH_EPOCH + s.get R.SEC_STS_FW_SVN * 2 ^ 32 + s.get R.FAB_CTL_ADDR * 2 ^ 40, stamp,
     port + ten * 2 ^ 2 + (if manager then 2 ^ 8 else 0), 0, 0, 0]
  let body := head ++ nonce ++ ((List.range 4).flatMap s.meas) ++ List.replicate 32 0
  body ++ beBytes 64 (Config.sm2Sign (sm3 body))

/-- Whether the island signs (R511). -/
def State.maySign (s : State) : Bool := s.get R.SEC_STS_LIFECYCLE == 1

/-- A GO write (R517). -/
def State.quoteGo (s : State) (via : Via) : State :=
  if s.get R.SEC_CTL_EN = 0 ∨ s.get R.SEC_STS_QUOTE_BUSY = 1 ∨ !s.maySign then s
  else
    let nonce := (List.range 4).flatMap fun i => leBytes 8 (s.reg (R.SEC_NONCE i)).toNat
    let ws := wordsOf 40 (s.report (s.time (viaPort via)) (viaPort via) 0 true nonce)
    ws.zipIdx.foldl (fun (s : State) p => s.setReg (R.SEC_REPORT p.2) p.1) s

/-! ## Key store (R518, R519) -/

/-- Bytes of SEC_KS_IN. -/
def State.ksIn (s : State) : List Byte := (List.range 32).flatMap fun i => leBytes 8 (s.reg (R.SEC_KS_IN i)).toNat

/-- A key-store write refused. -/
def State.ksRefuse (s : State) (code : Nat) : State := (s.put R.SEC_KS_STS_CHK code).raise R.SEC_ERR_KS_REFUSED none

/-- Whether signer slot 0 signs bytes. -/
def KeyCopy.rootSigns (k : KeyCopy) (bs : List Byte) (sig : Nat) : Bool :=
  match tfind k.signers 0 with
  | some key => !k.revoked.contains 16 && sigOk key bs sig
  | none => false

/-- The key store as an operation of Table 20.6 would leave it, if its blob holds. A signer slot above 7 is no slot. -/
def KeyCopy.after (k : KeyCopy) (op slot : Nat) (bs : List Byte) : Option KeyCopy :=
  match op with
  | 1 => (Config.ksUnwrap (bs.take 113)).map fun x =>
      { k with keys := tset k.keys slot x, revoked := k.revoked.filter (· != slot) }
  | 2 =>
    let pub := bs.take 64
    let sig := ofBe ((bs.drop 64).take 64)
    let free := slot == 0 && (tfind k.signers 0).isNone
    if 8 ≤ slot ∨ !(free || k.rootSigns (BitVec.ofNat 8 slot :: pub) sig) then none
    else some { k with signers := tset k.signers slot (ofBe pub), revoked := k.revoked.filter (· != 16 + slot) }
  | 3 =>
    let b := (bs.take 1).map (·.toNat)
    let sig := ofBe ((bs.drop 1).take 64)
    if !k.rootSigns (bs.take 1 ++ [BitVec.ofNat 8 slot]) sig then none
    else if nw b 0 = 0 then some { k with keys := tdel k.keys slot, revoked := addNew k.revoked slot }
    else if nw b 0 = 1 ∧ slot < 8 then some { k with signers := tdel k.signers slot, revoked := addNew k.revoked (16 + slot) }
    else none
  | _ => none

/-- A write of SEC_KS_CTL: refused (R519), or begun. -/
def State.ksStart (s : State) (op slot : Nat) : State :=
  if s.get R.SEC_CTL_EN = 0 ∨ op = 0 then s
  else if s.get R.PWR_STS_NV_OK = 0 then s.ksRefuse 0xA8
  else match s.keyStore.after op slot s.ksIn with
    | none => s.ksRefuse 0xA9
    | some k =>
      if s.get R.SEC_KS_STS_BUSY = 1 then s.ksRefuse 0xAA
      else { s.put R.SEC_KS_STS_BUSY 1 with se := { s.se with writing := some k } }

/-- KS_WRITE_DONE (R519): the last `sec.bfw` of the copy commits, or its read-back disagrees (R521). -/
def execKsWriteDone (written : Bool) (s : State) : Host.Outcome State Fault Refusal :=
  match s.se.writing with
  | none => .next s
  | some k =>
    let s := (({ s with se := { s.se with writing := none } } : State).put R.SEC_KS_STS_BUSY 0)
    if written then .next ((s.writeStore k).put R.SEC_KS_STS_CHK 0)
    else .next ((s.raise R.SEC_ERR_BFW_FAIL none).ksRefuse 0xA8)

/-! ## Commands (R520, R521) -/

def stSecDenied : Nat := 0x40
def stBfwRange : Nat := 0x42

/-- SEC_QUOTE_CMD (R516, R520). -/
def execSecQuoteCmd (t : Nat) (s : State) : Host.Outcome State Fault Refusal :=
  s.opRow t 0x09 0x02 .unit fun c =>
    let nonce := c.body 0
    let dst := c.body 1
    if nonce % 8 ≠ 0 ∨ dst % 64 ≠ 0 then .refuse stBadField
    else if !s.maySign then .refuse stSecDenied
    else .go [(nonce, 32)] [(dst, 320)]
      ⟨stDone, [s.se.log.length], [.write (key c.ten dst) (s.report 0 0 c.ten false (s.vrun c.ten nonce 32))]⟩

/-- SEC_BFW (R520): SEC_DENIED from a tenancy task; of the steward, whose space is 64, the erase and the program. -/
def execSecBfw (t : Nat) (s : State) : Host.Outcome State Fault Refusal :=
  s.opRow t 0x09 0x01 .unit fun c =>
    let dst := c.body 0
    let src := c.body 1
    let n := bits (c.body 2) 0 13
    let erase := (c.body 2).testBit 13
    if c.ten < 64 then .refuse stSecDenied
    else if dst % 256 ≠ 0 ∨ n % 256 ≠ 0 ∨ 4096 < n then .refuse stBadField
    else if 536870912 < dst + max n 1 ∨ (0 < n ∧ dst / 65536 ≠ (dst + n - 1) / 65536) ∨ (erase ∧ dst % 65536 ≠ 0) then .refuse stBfwRange
    else if !s.nvOk then .refuse stNvBlocked
    else
      let w : List Effect := [.write (key spFlash dst) (s.vrun c.ten src n)]
      .go [(src, n)] [] ⟨stDone, [n], if erase then .fill (key spFlash dst) 65536 (2 ^ 64 - 1) :: w else w⟩

end Sys2Proof.Machine
end

