-- ==== Sys2Proof/Machine/Image.lean ====
section
/-!
DEFINITION. Loading model sets and indexes (15 R406, 20 R510): the stage region, the loader's checks of an image's content, its
placement in module-owned pages. How an image's body spells its content is not given: the content is the check's operand (log
entry 31).
-/
namespace Sys2Proof.Machine

/-! ## Operations of HST_IMG_CTL (R406) -/

/-- The largest chunk. -/
def chunkMax : Nat := 1073741824

def State.imgResult (s : State) (code : Nat) : State := s.put R.HST_IMG_STS_CHK code

/-- A load in progress changed. -/
def State.setImg (s : State) (l : Option ImgLoad) : State := { s with ho := { s.ho with img := l } }

/-- BEGIN. -/
def State.imgBegin (s : State) (kind target : Nat) : State :=
  if s.ho.img.isSome ∨ s.get R.SEC_FW_STS_BUSY = 1 then s.imgResult 0x7A
  else
    let s := (s.clearRun (key spLoad 0) (2 ^ 56)).setImg (some ⟨kind, target, 0, false, false⟩)
    ((s.put R.HST_IMG_STS_ACTIVE 1).put R.HST_IMG_STS_RECEIVED 0).imgResult 0

/-- CHUNK: the staged bytes are programmed after those received; a program refused for supply is noted (20 Table 20.4). -/
def State.imgChunk (s : State) : State :=
  let n := s.get R.HST_IMG_LEN_BYTES
  match s.ho.img with
  | none => s.imgResult 0x7A
  | some l =>
    if l.ended ∨ n = 0 ∨ chunkMax < n then s.imgResult 0x7A
    else
      let bs := s.run (key spStage 0) n
      let s := (s.writeRun (key spLoad l.received) bs).setImg (some { l with received := l.received + n, nv := l.nv || !s.nvOk })
      let s := if s.nvOk then s.bump R.CEL_PROG_BYTES n else s.raise R.CEL_ERR_NV_REFUSED none
      (s.put R.HST_IMG_STS_RECEIVED (l.received + n)).imgResult 0

/-- END: the island's check begins. -/
def State.imgEnd (s : State) : State :=
  match s.ho.img with
  | none => s.imgResult 0x7A
  | some l => if l.ended then s.imgResult 0x7A else (s.setImg (some { l with ended := true })).imgResult 0

/-- A write of HST_IMG_CTL. -/
def State.imgOp (s : State) (op kind target : Nat) : State :=
  match op with
  | 1 => s.imgBegin kind target
  | 2 => s.imgChunk
  | 3 => s.imgEnd
  | _ => s

/-! ## The model envelope (01 R9, R10) -/

/-- Whether a number is a multiple of another within bounds. -/
def within (lo hi step n : Nat) : Bool := decide (lo ≤ n) && decide (n ≤ hi) && n % step == 0

/-- A principal or draft model. -/
def decoderOk (m : ModelShape) : Bool :=
  m.arch == 0 && m.pos == 0 && decide (m.ffn ≤ 1) && m.out == 0 && within 1 131072 1 m.seq && within 1 192 1 m.layers && within 1024 16384 256 m.width && [64, 128, 256].contains m.headDim &&
    within 1 128 1 m.qHeads && within 1 16 1 m.kvHeads && m.qHeads % m.kvHeads == 0 && decide (m.windows.length ≤ m.layers) &&
    m.windows.all (within 256 65536 64) && within 1 256 1 m.experts && within 1 8 1 m.active && decide (m.active ≤ m.experts) &&
    within 1 262144 1 m.vocab

/-- A query encoder, or a re-ranker, by its output; `vocab` is the principal model's. -/
def encoderOk (m : ModelShape) (out vocab : Nat) : Bool :=
  m.arch == 1 && decide (m.pos ≤ 1) && decide (m.ffn ≤ 2) && m.out == out && within 1 1024 1 m.seq && within 1 48 1 m.layers && within 256 4096 256 m.width && [64, 128].contains m.headDim &&
    within 1 64 1 m.qHeads && m.kvHeads == m.qHeads && m.windows.isEmpty && m.experts == 1 && m.active == 1 &&
    m.vocab == vocab

/-- The dimensions of the indexes loaded, those of one index number left out. -/
def State.indexDims (s : State) (but : Nat) : List Nat :=
  s.nv.images.filterMap fun p => match p.2.2 with
    | .index d _ _ => if p.1 = but then none else some d
    | .model _ _ => none

/-- Whether a model set lies within the envelope and agrees with the indexes loaded. -/
def State.shapeOk (s : State) (m : ModelSet) : Bool :=
  decoderOk m.principal && decoderOk m.draft && encoderOk m.encoder 1 m.principal.vocab && encoderOk m.ranker 2 m.principal.vocab && within 64 4096 1 m.encoder.outDim &&
    m.principal.merges && m.draft.merges && m.encoder.merges && m.ranker.merges && m.draft.vocab == m.principal.vocab &&
    (s.indexDims 0).all (· == m.encoder.outDim)

/-! ## Templates (10 R261) -/

def segmentOk (g : Segment) (i : Nat) : Bool :=
  match g.kind with
  | 0 => i == 0 && g.slots == 0 && g.after == 0 && within 1 32768 1 g.count
  | 1 => g.slots == 0 && g.after == 0 && within 1 256 1 g.count
  | 2 => within 1 64 1 g.slots && decide (g.count ≤ 64) && decide (g.after ≤ 64)
  | 3 => g.slots == 0 && g.after == 0 && g.addr == 0
  | _ => false

/-- Whether a template record holds to Table 10.2. -/
def templateOk (w : List Nat) : Bool :=
  let t := tplSegments w
  bits (nw w 0) 0 8 == 1 && within 2 8 1 (bits (nw w 0) 12 4) && decide (1 + 2 * bits (nw w 0) 12 4 ≤ w.length) &&
    (t.zipIdx.all fun p => segmentOk p.1 p.2) && t.countP (fun g => g.kind == 2) == 1 && t.countP (fun g => g.kind == 3) == 1

def templatesOk (m : ModelSet) : Bool :=
  decide (m.templates.length ≤ 16) && m.templates.all templateOk && ((m.templates.map tplNumber).foldl addNew []).length == m.templates.length

/-! ## The tokenizer (11 R278, 13 R347) -/

/-- A vocabulary entry's word. -/
def State.vocabWord (s : State) (k : Tok) (t : Nat) : Nat := s.word (key spModule (k.vocabAddr + 8 * t))
/-- Its bytes, and whether it is SPECIAL. -/
def State.vocabRaw (s : State) (k : Tok) (t : Nat) : List Byte :=
  let w := s.vocabWord k t
  s.run (key spModule (k.pool + bits w 0 32)) (bits w 32 9)
def State.special (s : State) (k : Tok) (t : Nat) : Bool := (s.vocabWord k t).testBit 41

/-- Whether the header's fields lie in their ranges (Table 11.1). -/
def State.tokHeaderOk (s : State) (a : Nat) : Bool :=
  let w (i : Nat) : Nat := s.word (key spModule (a + 8 * i))
  bits (w 0) 0 8 == 1 && decide (bits (w 0) 8 2 < 2) && zeros (w 0) [(10, 6), (35, 29)] && within 257 262144 1 (bits (w 0) 16 19) &&
    decide (bits (w 1) 0 19 ≤ 262144) && zeros (w 1) [(19, 13), (50, 14)] && decide (bits (w 5) 0 23 ≤ 4194304) && zeros (w 5) [(23, 41)]

/-- Whether a merge holds: tokens of the vocabulary, none SPECIAL, and the bytes of the two joined. -/
def State.mergeOk (s : State) (k : Tok) (i : Nat) : Bool :=
  let (l, r, x) := s.mergeOf k i
  [l, r, x].all (fun t => decide (t < k.vocab) && !s.special k t) && s.vocabRaw k x == s.vocabRaw k l ++ s.vocabRaw k r

/-- R278 of the tokenizer at an address of the module's pages, and R347 of a set's end tokens. -/
def State.tokenizerOk (s : State) (m : ModelSet) : Bool :=
  let a := m.tokAddr
  let k := (s.setReg R.TXT_TAB a).tok
  let pool := bits (s.word (key spModule (a + 0x28))) 0 23
  s.tokHeaderOk a && decide (k.byteBase + 255 < k.vocab) &&
    ((List.range 256).all fun b => s.vocabRaw k (k.byteBase + b) == [BitVec.ofNat 8 b] && !s.special k (k.byteBase + b)) &&
    ((List.range k.merges).all (s.mergeOk k)) &&
    ((List.range k.merges).all fun i => s.rankOf k (s.mergeOf k i).1 (s.mergeOf k i).2.1 == some i) &&
    ((List.range k.vocab).all fun t => let w := s.vocabWord k t
                                       decide (bits w 32 9 ≤ 256) && decide (bits w 0 32 + bits w 32 9 ≤ pool)) &&
    within 1 4 1 m.ends.length && m.ends.all fun t => decide (t < k.vocab) && s.special k t

/-! ## Placement in module-owned pages (07 R158) -/

/-- The page numbers of address-and-count runs. -/
def runPages (va n : Nat) : List Nat := upto (va / pageBytes) n

/-- The page numbers an image maps. -/
def layoutPages (l : Layout) : List Nat :=
  l.regions.flatMap (fun r => runPages r.va r.pages) ++ (l.store ++ l.shared).flatMap fun r => runPages r.1 r.2.1

/-- An image's pages gone. -/
def State.dropLayout (s : State) (l : Layout) : State := (layoutPages l).foldl (fun (s : State) v => s.dropPage (pageKey spModule v)) s

/-- A module-owned page: mapped read-only into every tenancy (07 R158). -/
def ownedPage (writable : Bool) (st frame source : Nat) : Page := { writable := writable, st := st, frame := frame, users := List.range 64, source := source }

/-- A granary page of an image's region in a free frame of the group that the module's round has come to (07 R190), pinned to the granary
where the region is, or pinned in the stack of its list (08 R211); none when there is no such frame. -/
def State.placePage (s : Option State) (v : Nat) (r : Region) (source : Nat) : Option State :=
  s.bind fun s =>
    match r.stack with
    | some k => ((upto (32768 * k) 32768).find? s.frameFree).map fun f =>
        s.setPage (pageKey spModule v) { ownedPage r.writable 1 f source with era := s.era, pin := 2, pinStack := some k }
    | none => (s.nextPlace spModule).bind fun i =>
        ((upto (4096 * roundGroup i) 4096).find? s.frameFree).map fun f =>
          ({ s with vm := { s.vm with rota := tset s.vm.rota spModule ((i + 1) % 128) } } : State).setPage (pageKey spModule v)
            { ownedPage r.writable 1 f source with era := s.era, pin := if r.pinned then 2 else 0 }

/-- Store pages at their images, and pages that a peer exports. -/
def State.placeFar (s : State) (l : Layout) : State :=
  let s := l.store.foldl (fun (s : State) r => (List.range r.2.1).foldl (fun (s : State) i =>
    s.setPage (pageKey spModule (r.1 / pageBytes + i)) { ownedPage false 3 (r.2.2 + i) 0 with image := true, imageUnit := r.2.2 + i }) s) s
  l.shared.foldl (fun (s : State) r => (List.range r.2.1).foldl (fun (s : State) i =>
    s.setPage (pageKey spModule (r.1 / pageBytes + i)) (ownedPage false 5 (r.2.2 + i) 0)) s) s

/-- The bytes of an image in its pages; a store unit's sectors are new. -/
def State.placeData (s : State) (l : Layout) : State :=
  let units := l.store.flatMap fun r => upto r.2.2 r.2.1
  let s : State := { s with vm := { s.vm with badSectors := s.vm.badSectors.filter fun q => !units.contains (q / 512) } }
  l.data.foldl (fun (s : State) d => s.writeRun (key spModule d.1) d.2) s

/-- The bytes of an image in its pages but for its store pages: these have kept what they hold (07 R196). -/
def State.placeAgain (s : State) (l : Layout) : State :=
  let kept (va : Nat) : Bool := l.store.any fun r => decide (r.1 ≤ va) && decide (va < r.1 + r.2.1 * pageBytes)
  l.data.foldl (fun (s : State) d =>
    (byPage (d.1, d.2.length)).foldl (fun (s : State) r =>
      if kept r.1 then s else s.writeRun (key spModule r.1) ((d.2.drop (r.1 - d.1)).take r.2)) s) s

/-- A layout placed; none when the granary has no room for it. At bring-up the store pages are as they were left (`again`). -/
def State.placeLayout (s : State) (l : Layout) (source : Nat) (again : Bool) : Option State :=
  let ps := l.regions.flatMap fun r => (runPages r.va r.pages).map fun v => (v, r)
  (ps.foldl (fun s p => State.placePage s p.1 p.2 source) (some s)).map fun s =>
    if again then (s.placeFar l).placeAgain l else (s.placeFar l).placeData l

/-! ## The content's checks (20 Table 20.4, order 7) and the load -/

/-- The layout that image i has had. -/
def State.oldLayout (s : State) (i : Nat) : Layout :=
  match tfind s.nv.images i with
  | some (_, c) => layoutOf c
  | none => ⟨[], [], [], []⟩

/-- Image i (0 the model set, 1 + x index x) placed for a content, in place of what it held; a loader's code where it is refused. -/
def State.placeImage (s : State) (i : Nat) (c : ImgContent) (digest : Nat) (again : Bool) : Except Nat State :=
  let clean := if again then s else s.dropLayout (s.oldLayout i)
  match i, c with
  | 0, .model m l =>
    if !s.shapeOk m then .error 0x1D
    else if !templatesOk m then .error 0x1E
    else match clean.placeLayout (modelLayout m l) 1 again with
      | none => .error 0x14
      | some s =>
        if !s.tokenizerOk m then .error 0x1F
        else
          let s : State := { s with sv := { s.sv with model := some (m, digest) } }
          .ok (((s.setReg R.TXT_TAB m.tokAddr).put R.TXT_STS_TABLES 1).extend 1 digest)
  | x + 1, .index d _ l =>
    if (match s.sv.model with | some (m, _) => m.encoder.outDim != d | none => false) then .error 0x1D
    else match clean.placeLayout l 0 again with
      | none => .error 0x14
      | some s => .ok (s.extend 2 (sm3 (BitVec.ofNat 8 x :: digestBytes digest)))
  | _, _ => .error 0xA2

/-- The checks of Table 20.4 from order 2 on an image's bytes, and its placement. -/
def State.loadImage (s : State) (i : Nat) (bs : List Byte) (c : ImgContent) (again : Bool) : Except Nat State :=
  match s.imageRefusal (if i = 0 then 0 else 1) bs with
  | some code => .error code
  | none => s.placeImage i c (imgHdr bs).digest again

/-- The end of a load: its verdict, in HST_IMG_STS and IMAGE_DONE. -/
def State.imageDone (s : State) (l : ImgLoad) (code : Nat) : State :=
  let s := ((s.setImg none).put R.HST_IMG_STS_ACTIVE 0).imgResult code
  let s := (s.clearRun (key spLoad 0) (2 ^ 56)).put R.HST_IMG_STS_STAGE_FREE 1
  s.sendEvent 0x04 code none (s.time (s.get R.ERR_CTL_REF_PORT)) [l.kind, l.target]

/-- The number of the image that a load is for; none for a reserved KIND. -/
def ImgLoad.number (l : ImgLoad) : Option Nat := if l.kind = 0 then some 0 else if l.kind = 1 then some (1 + l.target) else none

/-- IMAGE_CHECK_DONE (R510): the image checked; a pass loads it and keeps it in the store region, a failure trims it. -/
def execImageCheckDone (content : ImgContent) (s : State) : Host.Outcome State Fault Refusal :=
  match s.ho.img with
  | none => .next s
  | some l =>
    if !l.ended then .next s
    else
      let bs := s.run (key spLoad 0) l.received
      let r : Except Nat (Nat × State) := if l.nv then .error 0xA1 else match l.number with
        | none => .error 0xA2
        | some i => (s.loadImage i bs content false).map fun s => (i, s)
      match r with
      | .error code => .next ((s.raise R.SEC_ERR_IMG_REFUSED none).imageDone l code)
      | .ok (i, s) =>
        let s := (s.clearRun (key (spImage i) 0) (2 ^ 56)).writeRun (key (spImage i) 0) bs
        .next (({ s with nv := { s.nv with images := tset s.nv.images i (l.received, content) } } : State).imageDone l 0)

end Sys2Proof.Machine
end

