-- ==== Sys2Proof/Machine/Check.lean ====
section
/-!
DEFINITION. Consistency checks (21 R531 to R536): each unit's CTL register, the conditions of its chapter in their order with the
codes of Table 21.5, the measurement of an enable (20 R513), what a pass sets going and what a clear of EN stops.
-/
namespace Sys2Proof.Machine

/-! ## The units -/

/-- The offset of a block copy's CTL register, for the blocks that have one. -/
def ctlAt (b : Blk) (n : Nat) : Option Nat :=
  match b with
  | .ham => some (R.HAM_CTL n) | .wel => some (R.WEL_CTL n) | .eng => some (R.ENG_CTL n) | .mem => some R.MEM_CTL
  | .cel => some R.CEL_CTL | .scn => some (R.SCN_CTL n) | .idx => some (R.SCN_IDX_CTL n) | .txt => some R.TXT_CTL
  | .grm => some R.TXT_GRM_CTL | .sch => some R.SCH_CTL | .ten => some (R.SCH_TEN_CTL n) | .hst => some (R.HST_CTL n)
  | .fab => some R.FAB_CTL | .emb => some R.EMB_CTL | .tab => some (R.EMB_TAB_CTL n) | .twn => some R.TWN_CTL
  | .pwr => some R.PWR_CTL | .sec => some R.SEC_CTL | .oas => some (R.OAS_CTL n)
  | .mod | .err | .img => none

/-- The EN field of a CTL register. -/
def enOf (ctl : Nat) : Field := ⟨ctl, 0, 1⟩

/-- The CHK field of a block copy's STS register, the register after CTL; an embedding table's stands one later. -/
def chkOf (b : Blk) (ctl : Nat) : Field := ⟨ctl + (if b = .tab then 16 else 8), 0, 8⟩

/-- The block and copy whose CTL register stands at an offset. -/
def unitAt (off : Nat) : Option (Blk × Nat) :=
  match findReg off with
  | some (d, ix) => if ctlAt d.blk (copyNumber d ix) = some off then some (d.blk, copyNumber d ix) else none
  | none => none

/-! ## The measurement of an enable (20 R513) -/

/-- The bits of a register's RWL fields. -/
def rwlMask (d : RegDef) : Nat := d.fields.foldl (fun a f => if f.acc = .rwl then setBits a f.lo f.w (2 ^ f.w - 1) else a) 0

/-- How far copy n of a block lies from the first. -/
def copyAt : List (Nat × Nat) → Nat → Nat
  | [], _ => 0
  | (st, c) :: ds, n => n / (ds.foldl (fun a d => a * d.2) 1) % c * st + copyAt ds n

/-- How far the copies of a register within its block lie from the first. -/
def innerAt : List (Nat × Nat) → List Nat
  | [] => [0]
  | (st, c) :: ds => (List.range c).flatMap fun i => (innerAt ds).map fun x => i * st + x

/-- The registers of a block copy that hold an RWL field, with the bits of those fields, in ascending offset. -/
def lockedRegs (b : Blk) (n : Nat) : List (Nat × Nat) :=
  let all := (R.regMap.filter fun d => decide (d.blk = b) && rwlMask d != 0).flatMap fun d =>
    (innerAt (d.dims.drop d.udims)).map fun x => (d.base + copyAt (d.dims.take d.udims) n + x, rwlMask d)
  sortBy (fun a b => decide (a.1 ≤ b.1)) all

/-- The record of an enable: the CTL register's address, then each such register with its other bits zero. -/
def State.enableRecord (s : State) (b : Blk) (n : Nat) : List Byte :=
  leBytes 8 ((ctlAt b n).getD 0) ++ (lockedRegs b n).flatMap fun r => leBytes 8 ((s.reg r.1).toNat &&& r.2)

/-! ## The conditions -/

/-- The code of the first condition that fails, 0 when all hold: conditions in order, each with its code. -/
def firstFail (cs : List (Bool × Nat)) : Nat := ((cs.find? (·.1)).map (·.2)).getD 0

/-- Whether a tenancy is in state CLOSING. -/
def State.closing (s : State) (ten : Nat) : Bool := s.get (R.SCH_TEN_STS_STATE ten) == 4

/-- Whether a range of the module's addresses lies in module-owned pages. -/
def State.owned (s : State) (va len : Nat) : Bool := (pagesIn va len).all fun v => decide (v < 2 ^ 35) && (s.page (pageKey spModule v)).isSome

/-- Whether a table of 16 R437 is misplaced. -/
def State.tableBad437 (s : State) (a : Nat) : Bool := a != 0 && (a % 64 != 0 || !s.owned a 64)

/-- The sum of a field over the tenancies. -/
def State.sumTen (s : State) (f : Nat → Field) : Nat := lsum ((List.range 64).map fun t => s.get (f t))

/-- The granary frames in use: all but the retired ones (07 R207). -/
def State.framesLeft (s : State) : Nat := lsum ((List.range 16).map s.stackFrames)

/-- The check of index x's header (08 R244): it is read only once its bytes lie in module-owned pages. -/
def State.idxCode (s : State) (x : Nat) : Nat :=
  let a := (s.reg (R.SCN_IDX_HDR x)).toNat
  let h := s.idx x
  firstFail [(!s.owned a 128, 0x5C), (!h.rangesOk x, 0x5A), (!h.shapeOk, 0x5B),
    (!(s.owned h.dir (32 * h.lists) && s.owned h.pq (512 * h.dim) && s.owned h.cent (h.lists * h.dim * (h.centFmt + 1))), 0x5C)]

/-- The check of a tenancy (14 R377). -/
def State.tenCode (s : State) (t : Nat) : Nat :=
  let rota := s.get (R.SCH_TEN_CTL_ROTA t)
  let slice := s.get (R.SCH_TEN_SLICE_SLICE t)
  let port := s.tenPort t
  let qp := (List.range 256).any fun i =>
    s.get (R.HST_QP_STATE port i) != 0 && s.get (R.HST_QP_ROLE port i) == 0 && s.get (R.HST_QP_TEN port i) == t
  let other := decide (rota < 16) && (List.range 64).any fun u =>
    u != t && s.get (R.SCH_TEN_STS_STATE u) != 0 && s.get (R.SCH_TEN_CTL_ROTA u) == rota && s.tenPort u != port
  firstFail [(s.closing t, 0x72), (!qp, 0x69), (other, 0x6A),
    ((slice != 0 && (decide (slice < 10) || decide (10000 < slice))) || (slice == 0 && rota != 31), 0x6B),
    (s.get (R.SCH_TEN_LIMITS_KV_PAGES t) == 0, 0x6C)]

/-- The check of a unit: the code of the first condition that fails, in the order of its chapter. -/
def State.checkCode (s : State) (b : Blk) (n : Nat) : Nat :=
  match b with
  | .ham =>
    let t := s.get (R.HAM_CTL_TEN n)
    firstFail [(s.closing t, 0x30), ((tfind s.x.progs t).isNone, 0x31),
      ((match tfind s.x.progs t with | some p => (ldr1 t p.manifest).isSome | none => false), 0x32),
      (s.get (R.HAM_CTL_CORE_MASK n) == 0, 0x33)]
  | .wel =>
    firstFail [(s.closing (s.get (R.WEL_CTL_TEN n)), 0x38), (s.get (R.WEL_STEP_STEP n) == 0, 0x39),
      (decide ((s.reg (R.WEL_LIMIT n)).toNat < (s.reg (R.WEL_BASE n)).toNat), 0x3A)]
  | .eng =>
    firstFail [(s.closing (s.get (R.ENG_CTL_TEN n)), 0x40), (s.get (R.ENG_STS_STATE n) == 3, 0x41),
      (s.get (R.ENG_IDLE_FILL_EN n) == 1 && s.get (R.ENG_IDLE_GAP_MAX n) == 0, 0x42)]
  | .mem =>
    let low := s.get R.MEM_CTL_LOW_PCT
    let high := s.get R.MEM_CTL_HIGH_PCT
    firstFail [(decide (14336 < s.sumTen R.MEM_QUOTA_OASIS + s.get R.MEM_RESV_OASIS) ||
        decide (s.framesLeft < s.sumTen R.MEM_QUOTA_GRANARY + s.get R.MEM_RESV_GRANARY) ||
        decide (s.get R.CEL_CAP_CAP < s.sumTen R.MEM_QUOTA_CELLAR), 0x48),
      (decide (s.get R.MEM_CTL_DECAY_SHIFT < 20) || decide (40 < s.get R.MEM_CTL_DECAY_SHIFT), 0x49),
      (decide (high ≤ low) || decide (100 < high), 0x4A),
      (s.get R.MEM_CTL_IN_OASIS == 0 || s.get R.MEM_CTL_IN_GRANARY == 0, 0x4B)]
  | .cel =>
    firstFail [(decide (s.get R.CEL_CAP_CAP < s.get R.CEL_STORE_STORE + s.get R.CEL_SPILL_SPILL), 0x50),
      (s.get R.CEL_STS_CH_FAIL == 2 ^ 32 - 1, 0x51)]
  | .scn =>
    firstFail [(s.closing (s.get (R.SCN_CTL_TEN n)), 0x58),
      (!s.powered (20 * (n / 8) + 14 + n % 8 / 2) || s.get (R.MEM_STACK_GROUPS_RETIRED n) == 255, 0x59)]
  | .idx => s.idxCode n
  | .txt => firstFail [(s.get R.TXT_STS_TABLES == 0, 0x60), (s.get R.TXT_CTL_TOK_LANES == 0 || s.get R.TXT_CTL_DET_LANES == 0, 0x61)]
  | .grm => firstFail [(s.get R.TXT_CTL_EN == 0, 0x62), (s.get R.TXT_GRM_CTL_LANES == 0, 0x63)]
  | .sch => firstFail [(s.get R.MEM_CTL_EN == 0, 0x68)]
  | .ten => s.tenCode n
  | .hst => firstFail [(s.get (R.HST_CTL_MTU n) == 3, 0x78), (s.get (R.HST_CTL_PFC_EN n) == 1 && s.get (R.HST_CTL_PFC_PRIO n) == 0, 0x79)]
  | .fab =>
    let a := s.get R.FAB_CTL_ADDR
    let t := s.get R.FAB_TWIN_TWIN
    firstFail [(a == 0 || decide (groupBase ≤ a), 0x80), (s.get R.FAB_CTL_PORTS == 0, 0x81),
      ((t != 0 && s.get R.FAB_TWIN_TWIN_PORTS == 0) || t == a, 0x82),
      ([R.FAB_GROUP_GROUP_ADDR, R.FAB_ISET_ISET_ADDR, R.FAB_PIPE_PIPE_ADDR].any fun f => s.tableBad437 (s.get f), 0x83)]
  | .emb => firstFail [(s.get R.MEM_CTL_EN == 0, 0x88), (decide (s.get R.MEM_RESV_OASIS < s.get R.EMB_CTL_CACHE_GRANULES), 0x89)]
  | .tab =>
    let t := s.get (R.EMB_TAB_CTL_TEN n)
    firstFail [(!s.descOk t (s.reg (R.EMB_TAB_DESC n)).toNat, 0x8A), (s.get (R.SCH_TEN_CTL_EN t) == 0, 0x8B)]
  | .twn =>
    let c := s.get R.TWN_CTL_CONFIRM_WAIT
    let u := s.get R.TWN_CTL_UNIT_WAIT
    firstFail [(s.get R.FAB_CTL_EN == 0, 0x90),
      (decide (c < 2 * s.get R.FAB_TWIN_ACK_WAIT) || decide (30000 < c) || decide (u < 2000) || decide (20000 < u), 0x91)]
  | .pwr =>
    firstFail [((List.range 2).any (fun d => decide (s.get (R.PWR_FD_CTL_VSET d) < 720) || decide (860 < s.get (R.PWR_FD_CTL_VSET d))), 0x98),
      (decide (s.get R.PWR_CTL_CAP < 3000) || decide (4000 < s.get R.PWR_CTL_CAP), 0x99),
      (decide (s.get R.PWR_CTL_TJ_HIGH < 70) || decide (95 < s.get R.PWR_CTL_TJ_HIGH), 0x9A)]
  | .sec => firstFail [((s.reg R.MOD_IDENT).toNat == 0, 0xA0)]
  | .oas => firstFail [(!s.powered (20 * n + 12) && !s.powered (20 * n + 13), 0xB0)]
  | .mod | .err | .img => 0

/-! ## A pass -/

/-- TWIN_OFFER's payload, and the offer on each twin port (16 R439). -/
def State.offerWords (s : State) : List Nat :=
  [s.modelTag, s.get R.FAB_TWIN_TWIN + (s.stageOf s.ownAddr).getD 0 * 2 ^ 20]

def State.offerOn (s : State) (n : Nat) : State := s.sendOnPort n 5 0 (s.get R.FAB_TWIN_TWIN) 0 0 s.offerWords []

def State.offer (s : State) : State := ((List.range 16).filter s.twinPort).foldl State.offerOn s

/-- The pages of an index's lists bound to their stacks, as its directory names them (08 R211). -/
def State.pinLists (s : State) (x : Nat) : State :=
  let h := s.idx x
  (List.range h.lists).foldl (fun (s : State) l =>
    let d := s.dirOf x h l
    (d.vpns h.cb).foldl (fun (s : State) v =>
      s.modPage (pageKey spModule v) fun p => { p with pin := 2, pinStack := some d.stack }) s) s

/-- What a pass sets going in each unit. -/
def State.started (s : State) (b : Blk) (n : Nat) : State :=
  match b with
  | .ham => s.startTasks (s.get (R.HAM_CTL_TEN n))
  | .wel =>
    let s := s.setWell n { s.well n with returned := [] }
    (s.setReg (R.WEL_NEXT n) (s.reg (R.WEL_BASE n)).toNat).setReg (R.WEL_CNT n) 0
  | .eng =>
    if s.get (R.ENG_STS_STATE n) = 4 then
      s.put (R.ENG_STS_STATE n) (if isSpare n ∧ s.get (R.ENG_STS_SUBST_FOR n) = 0x3F then 2 else 1)
    else s
  | .cel => { s with nv := { s.nv with regions := (s.get R.CEL_STORE_STORE, s.get R.CEL_SPILL_SPILL) } }
  | .idx =>
    let q := (s.idx n).seq0
    (((s.setReg (R.SCN_IDX_SEQ n) q).setReg (R.SCN_IDX_FLOOR n) q).setReg (R.SCN_IDX_SIDE n) 0).pinLists n
  | .ten =>
    let s := (s.put (R.SCH_TEN_STS_STATE n) 1).setReg (R.SCH_TEN_OVERRUN n) 0
    let s : State := { s with sc := { s.sc with totals := tdel s.sc.totals n } }
    (s.drainTenancy n).sendCredits n
  | .fab =>
    let s := if s.get R.FAB_TWIN_TWIN = 0 then s else (s.put R.FAB_TWIN_STATE 1).offer
    s.flood
  | .tab => s.startTable n
  | .twn => if s.paired then s.put R.TWN_STS_STATE 1 else s
  | .mem | .scn | .txt | .grm | .sch | .hst | .emb | .pwr | .sec | .oas | .mod | .err | .img => s

/-- A check's end (R534): EN and CHK_OK with the measurement, or the code of the first condition that fails. -/
def State.endCheck (s : State) (b : Blk) (n : Nat) : State :=
  match ctlAt b n with
  | none => s
  | some ctl =>
    match s.checkCode b n with
    | 0 =>
      let s := (s.put (enOf ctl) 1).put (chkOf b ctl) 0
      (s.extend 3 (sm3 (s.enableRecord b n))).started b n
    | c + 1 => (s.put (enOf ctl) 0).put (chkOf b ctl) (c + 1)

/-! ## A clear of EN (R536) -/

/-- Commands of classes and operations that a test picks, killed with REBIND. -/
def State.stopCmds (s : State) (on : Cmd → Bool) : State :=
  s.x.cmds.foldl (fun (s : State) p => if on p.2 && p.2.st.live then s.killCmd p.1 .rebind else s) s

/-- What a clear of EN stops in each unit. -/
def State.stopped (s : State) (b : Blk) (n : Nat) : State :=
  match b with
  | .ham => (upto (32 * n) 32).foldl (fun (s : State) c => s.endTask c .rebind) s
  | .wel => s.stopCmds fun c => dClass c.words == 0x0B && bits (c.body 0) 0 7 == n
  | .eng => (s.stopUnits (fun c m => c == 1 && m == n) .rebind).endFill n
  | .scn => s.stopUnits (fun c m => c == 2 && m == n) .rebind
  | .mem => s.stopCmds fun c => dClass c.words == 0x04
  | .txt => s.stopCmds fun c => dClass c.words == 0x05 && decide (dOp c.words < 0x10)
  | .grm => s.stopCmds fun c => dClass c.words == 0x05 && decide (0x10 ≤ dOp c.words)
  | .emb => s.stopCmds fun c => dClass c.words == 0x06
  | .hst => s.stopCmds fun c => dClass c.words == 0x07 && c.unit == n
  | .cel => s.stopCmds fun c => dClass c.words == 0x08
  | .fab =>
    let s := s.stopCmds fun c => (dClass c.words == 0x07 && decide (4 ≤ c.unit)) || dClass c.words == 0x0A
    let s := ((s.put R.FAB_TWIN_STATE 0).put R.FAB_STS_ROUTED 0).put R.FAB_STS_UP 0
    { s with fa := { s.fa with nbrs := [] } }
  | .twn => s.put R.TWN_STS_STATE 0
  | .ten => if s.get (R.SCH_TEN_STS_STATE n) = 0 ∨ s.closing n then s else s.closeTenancy n
  | .idx | .tab | .sch | .pwr | .sec | .oas | .mod | .err | .img => s

/-! ## Spares (18 R464, R481) -/

/-- The spare of an engine's pair. -/
def spareOf (n : Nat) : Nat := n / 52 * 52 + engGroup (n % 52) / 2 * 13 + 6

/-- An engine retired, its place taken by its pair's spare: quarantined, its epoch raised, checked, then in service. A spare not
in service has no place to take. -/
def State.retireEngine (s : State) (n : Nat) : State :=
  let gone := s.servesFor n % 52
  let idle := decide (s.get (R.ENG_STS_STATE n) = 2)
  let s := s.put (R.ENG_STS_STATE n) 3
  let sp := spareOf n
  if idle then s
  else if sp = n ∨ s.get (R.ENG_STS_STATE sp) ≠ 2 then s.raise R.TWN_ERR_SPARE_NONE none
  else
    let s := ((s.put (R.ENG_STS_STATE sp) 4).put (R.ENG_STS_SUBST_FOR sp) gone).raiseEpoch 1 sp
    if s.get (R.ENG_CTL_EN n) = 1 then (s.put (R.ENG_CTL_TEN sp) (s.get (R.ENG_CTL_TEN n))).endCheck .eng sp
    else s.put (R.ENG_STS_STATE sp) 1

/-! ## Edges (23 R560, 02 R41) -/

/-- An edge retrained: after a stopped reference its crossing is reset on both sides, and the port is quarantined (23 R560, 18 R481). -/
def State.retrain (s : State) (port : Nat) : State :=
  if !(s.crossing port).stopped then s
  else
    let s := ((s.stopUnits (fun c m => c == 7 && m == port) .unitFault).crossReset port).raiseEpoch 0x07 port
    if port < 4 ∧ s.get (R.HST_CTL_EN port) = 1 then s.endCheck .hst port else s

/-- PCS_LOCK_GAINED (R41). -/
def execPcsLockGained (port : Nat) (s : State) : Host.Outcome State Fault Refusal :=
  if 20 ≤ port then .fault .noSuchUnit
  else if s.powered (portDomain port) ∧ s.pt.locked.contains port = false ∧ s.pw.absent.contains (edgeClock port) = false then
    .next ((s.retrain port).setLock port true)
  else .next s

end Sys2Proof.Machine
end

