-- ==== Sys2Proof/Machine/Twin.lean ====
section
/-!
DEFINITION. Faults (18): the answers to remote reads, units lost, twin mode with its mirroring, suspicion, takeover and quarantine,
and the rows of links that bear on it.
-/
namespace Sys2Proof.Machine

def State.twin (s : State) : Nat := s.get R.FAB_TWIN_TWIN
/-- TWN_STS.STATE set (Table 18.4). -/
def State.twn (s : State) (v : Nat) : State := s.put R.TWN_STS_STATE v
/-- The twin ports as FAB_TWIN names them. -/
def State.twinSet (s : State) : List Nat := (List.range 16).filter s.twinPort
/-- The ports in routing that are not twin ports. -/
def State.otherPorts (s : State) : List Nat := s.upPorts.filter fun n => !s.twinPort n

/-! ## Suspicion (R472) -/

/-- A suspicion ends with what it waited for. -/
def State.endSuspicion (s : State) : State :=
  let s : State := match s.tw.confirm with
    | some id => s.dropOp id
    | none => s
  { s with tw := { s.tw with suspectAt := none, confirm := none } }

/-- ISOLATED (R476): the module fences itself. -/
def State.isolate (s : State) : State := (s.endSuspicion.twn 5).raise R.TWN_ERR_ISOLATED none

/-- The port a confirming read leaves by: one of the twin's row that is not a twin port, else any such port. -/
def State.confirmPort (s : State) : Option Nat :=
  let out := s.otherPorts
  let via : List Nat := match s.fa.row 16 s.twin with
    | some r => out.filter r.mask.testBit
    | none => []
  (via ++ out).head?

/-- With every twin port showing TWIN_LOS or ACK_MISS, a module that mirrors suspects its partner: the confirming read leaves, or
the module is cut off. -/
def State.suspect (s : State) : State :=
  let st := s.get R.TWN_STS_STATE
  let ps := s.twinSet
  if (st = 1 ∨ st = 6) ∧ ps ≠ [] ∧ ps.all (fun n => s.tw.los.contains n || s.tw.miss.contains n) = true then
    let at_ := s.ftime (ps.head?.getD 0)
    let cause := if ps.all s.tw.los.contains then 1 else 2
    let s := (({ s with tw := { s.tw with suspectAt := some at_, cause := cause } } : State).twn 2).raise R.TWN_ERR_SUSPECT none
    match s.confirmPort with
    | none => s.isolate
    | some n =>
      let r := s.addOp ⟨noTicket, 6, s.twin, 0, 0, 8, []⟩
      ({ r.1 with tw := { r.1.tw with confirm := some r.2 } } : State).sendOnPort n 0x14 1 s.twin 0 1 [0, r.2, 8] []
  else s

/-- Every batch homed here stands unmirrored. -/
def State.unmirror (s : State) : State :=
  { s with
    sv := { s.sv with batches := tmap (fun _ (b : Batch) => { b with mirrored := false }) s.sv.batches }
    fa := { s.fa with mirrors := [] } }

/-- PARTED: the partner is alive; mirroring stops and what commits wait for lapses. -/
def State.parted (s : State) : State :=
  let s := (s.endSuspicion.twn 3).raise R.TWN_ERR_PARTED none
  let s : State := { s with tw := { s.tw with beatIn := false, beatOut := false, miss := [] } }
  s.unmirror.grantAll

/-- RESYNC entered, left at once when every live batch is mirrored (Table 18.4). -/
def State.settleResync (s : State) : State :=
  if s.get R.TWN_STS_STATE = 6 ∧ s.sv.batches.all (fun p => p.2.mirrored) then s.twn 1 else s
def State.enterResync (s : State) : State := (s.twn 6).settleResync

/-- Beats carried both ways again end PARTED. -/
def State.rejoin (s : State) : State :=
  if s.get R.TWN_STS_STATE = 3 ∧ s.tw.beatIn ∧ s.tw.beatOut then s.enterResync else s

/-! ## Quarantine (R480, R515) and handover (R467) -/

/-- The batches of a tenancy ended here without delivery. -/
def State.endBatches (s : State) (ten : Nat) : State :=
  let mine := (s.sv.batches.filter fun p => p.2.ten == ten)
  let orders := mine.map fun p => p.2.order
  let keep (m : HostMsg) : Bool := m.entries.isEmpty || !orders.contains m.order
  let s : State := { s with ho := { s.ho with qps := tmap (fun _ (q : Qp) => { q with sent := q.sent.filter keep }) s.ho.qps } }
  let s := mine.foldl (fun (s : State) p =>
    let b := { (List.range p.2.rows.length).foldl (fun (b : Batch) i => b.modRow i fun r => { r with live := false, records := [] }) p.2 with
               owed := [] }
    (s.setBatch p.1 b).closeBatch p.1) s
  let s : State := { s with sv := { s.sv with tails := s.sv.tails.filter fun b => b.ten != ten } }
  (s.countBatches ten).publish ten

/-- A tenancy's units, work and private pages gone; a host enables it again. -/
def State.emptyTenancy (s : State) (ten : Nat) : State :=
  let s := ((s.endBatches ten).releaseUnits ten).unbind ten
  let pages := (tkeys s.vm.pages).filter fun pk => pk / 2 ^ 35 == ten
  let s := pages.foldl State.dropPage s
  let s : State := { s with sv := { s.sv with kv := tfilter (fun _ q => q.ten != ten) s.sv.kv } }
  let s : State := { s with tx := { s.tx with streams := tfilter (fun _ st => st.ten != ten) s.tx.streams } }
  (s.put (R.SCH_TEN_CTL_EN ten) 0).put (R.SCH_TEN_STS_STATE ten) 0

/-- A tenancy that is leaving has its units and pages zeroed once the commands of its committed turns have committed (03 R589, R467). -/
def State.settleLeaving (s : State) (ten : Nat) : State :=
  if s.tw.leaving.contains ten && s.quiet ten then
    ({ s with tw := { s.tw with leaving := s.tw.leaving.erase ten } } : State).emptyTenancy ten
  else s

/-- A tenancy handed over to the twin: its batches end here without delivery and its tasks end; what its committed turns issued runs on. -/
def State.handOver (s : State) (ten : Nat) : State :=
  let s : State := { s with tw := { s.tw with handed := addNew s.tw.handed ten, leaving := addNew s.tw.leaving ten } }
  let s := (s.raise R.TWN_ERR_HANDOVER (some ten)).put (R.SCH_TEN_STS_STATE ten) 4
  let s := s.endBatches ten
  let s := s.x.cores.foldl (fun (s : State) p => if p.2.ten = ten then s.endTask p.1 .unitFault else s) s
  s.settleLeaving ten

/-- One image of the store region checked and placed again, its store pages as they were left (07 R196); a refused one is gone from the
module's pages. -/
def State.reloadImage (s : State) (i : Nat) : State :=
  match tfind s.nv.images i with
  | none => s
  | some (n, c) =>
    let l := layoutOf c
    match (s.dropLayout { l with store := [] }).loadImage i (s.run (key (spImage i) 0) n) c true with
    | .ok s => s
    | .error _ =>
      let s := (s.dropLayout (layoutOf c)).raise R.SEC_ERR_IMG_REFUSED none
      if i = 0 then { s with sv := { s.sv with model := none } } else s

/-- What a peer and this module count of each other begins anew, as either has come back at a higher epoch. -/
def State.forgetPeer (s : State) (a : Nat) : State :=
  { s with fa := { s.fa with
    pseq := tdel s.fa.pseq a
    oseq := tfilter (fun k _ => k / 4 != a) s.fa.oseq
    taken := tfilter (fun k _ => k / 2 ^ 20 != a) s.fa.taken
    oseqIn := tfilter (fun k _ => k / 4 / 2 ^ 20 != a) s.fa.oseqIn
    held := s.fa.held.filter fun c => c.src != a
    mirrors := [] } }

/-- The module's epoch raised by 1 (R479); the boot control block keeps it while the supply permits. -/
def State.raiseModuleEpoch (s : State) : State :=
  let e := (s.get R.TWN_EPOCH_EPOCH + 1) % 2 ^ 32
  let s := s.put R.TWN_EPOCH_EPOCH e
  if s.nvOk then s.writeBoot { s.bootCtl with epoch := e } else s

/-- QUARANTINE entered: every tenancy emptied, mirrored copies and the oases gone, the measurements of images and units begun
anew, the images checked and placed again, the pairing offered. -/
def State.enterQuarantine (s : State) : State :=
  let s := (s.twn 7).raiseModuleEpoch
  let s := ((List.range 64).filter fun t => s.get (R.SCH_TEN_STS_STATE t) != 0).foldl State.emptyTenancy s
  let s := ((tkeys s.vm.pages).filter fun pk => decide (pk / 2 ^ 35 < 64)).foldl State.dropPage s
  let s : State := { s with
    tw := { s.tw with batches := [], pieces := [], kv := [] }
    vm := { s.vm with pages := tmap (fun _ (p : Page) => { p with oasis := 0, gheat := [] }) s.vm.pages } }
  let s := (tkeys s.nv.images).foldl State.reloadImage s.resetMeas
  (s.forgetPeer s.twin).offer

/-- A module that was cut off enters QUARANTINE once a fabric port is in routing again (Table 18.4). -/
def State.returned (s : State) : State := if s.isolated ∧ s.upPorts ≠ [] then s.enterQuarantine else s

/-! ## Takeover (R475) -/

/-- A message of output that the partner may have delivered already. -/
def State.again (s : State) (h kind : Nat) (words : List Nat) (es : List (Nat × List Byte)) : State :=
  (s.deliver h ⟨kind, false, words, es⟩).bump R.TWN_CNT_REDELIVERED es.length

/-- The step at which an ended row ended. -/
def Row.endStep (r : Row) : Nat := ((r.recs.getLast?).map (·.step)).getD 0

/-- The output of a batch's last 16 committed steps, for its live rows, and the DONE entries of rows that ended in them. -/
def State.redeliver (s : State) (h : Nat) : State :=
  match s.batch h with
  | none => s
  | some b =>
    let live := b.numbered.filter fun p => p.1.live
    let out := live.flatMap fun p => p.1.history.map fun x => (x.1, p.2, x.2)
    let steps := sortBy (fun a b => decide (a ≤ b)) ((out.map (·.1)).foldl addNew [])
    let s := steps.foldl (fun (s : State) st =>
      (groupEntries [] ((out.filter fun o => o.1 == st).map fun o => (o.2.1, o.2.2))).foldl (fun (s : State) g =>
        s.again h 0x83 (entriesMsg b.ver 0x83 b.id h [st % 2 ^ 32] g) g) s) s
    let ended := b.numbered.filter fun p => !p.1.live && decide (b.step ≤ p.1.endStep + 16)
    let es := ended.map fun p => (p.2, doneEntry b.ver p.2 p.1)
    s.again h 0x84 (entriesMsg b.ver 0x84 b.id h [] es) es

/-- A row as the survivor resumes it: its next interval spans the loss and is not measured (R462). -/
def Row.resumed (r : Row) (now : Nat) : Row :=
  { r with onRing := false, feed := none, stepRec := none, props := [], lastAt := some (now, 255) }

/-- A mirrored batch of the partner admitted here, its key/value entries with it. -/
def State.takeBatch (s : State) (kv : Tab (List (List Nat × List Byte))) (old : Nat) (b : Batch) (lost reason : Nat) : State :=
  let h := s.freeHandle
  let q := s.eventQp b.ten
  let port : Nat := match q with
    | some q => q / 256
    | none => s.tenPort b.ten
  let now := s.time port
  let b := { b with
    qp := q.getD 1024, noQp := q.isNone, port := port, stamp := now, order := s.sv.nextOrder, fed := false
    admitWait := none, stepWait := none, cancelWait := [], mirEnded := [], mirrored := false
    rows := b.rows.map fun r => if r.live then r.resumed now else r }
  let s := (s.setBatch h b).takeCredits b
  let s : State := { s with sv := { s.sv with nextOrder := s.sv.nextOrder + 1 } }
  let s := s.openRows h b
  let s := (b.numbered.filter fun p => p.1.live && p.1.packed).foldl (fun (s : State) p =>
    let k := kvKey s.ownAddr h p.2
    let size : Nat := match s.sv.model with
      | some m => 2 * kvBytes m.1
      | none => 0
    let s := kv.foldl (fun (s : State) e => if e.1 = old * 64 + p.2 then
      (joinKv size e.2).foldl (fun (s : State) c => s.kvRestore k c.1 c.2) s else s) s
    s.kvPrompt k p.1.valid) s
  let s := s.sendEvent 0x07 reason (some b.ten) now [lost, b.id, old + h * 2 ^ 16, maskOf b.liveRows]
  let s := (s.bump R.TWN_CNT_TAKEOVERS 1).redeliver h
  (s.countBatches b.ten).publish b.ten

/-- A substitution installed in a free entry, unless it is held already; none when no entry is free. -/
def State.install (s : State) (lost subst : Nat) : Option State :=
  let held := (List.range 16).any fun i =>
    s.get (R.TWN_SUBST_VALID i) == 1 && s.get (R.TWN_SUBST_LOST i) == lost && s.get (R.TWN_SUBST_SUBST i) == subst
  if held then some s
  else ((List.range 16).find? fun i => s.get (R.TWN_SUBST_VALID i) == 0).map fun i =>
    s.setReg (R.TWN_SUBST i) (lost + subst * 2 ^ 20 + 2 ^ 40)

/-- The partner declared lost: fenced, its place in its pipeline and its batches taken; what commits waited for lapses. -/
def State.takeover (s : State) (pipe : List Nat) : State :=
  let lost := s.twin
  let reason := s.tw.cause
  let s := (s.endSuspicion.twn 4).raise R.TWN_ERR_DECLARED none
  let s := (s.put R.TWN_EPOCH_PEER_FENCED s.tw.peerEpoch).peerLost lost
  let s : State := { s with tw := { s.tw with fenced := true, substAcks := [] } }
  let w := lost + s.ownAddr * 2 ^ 20
  let s := (pipe.filter fun a => a != lost && a != s.ownAddr).foldl (fun (s : State) a => s.sendCar 6 0 a 0 0 [w] []) s
  let s := (s.install lost s.ownAddr).getD s
  let bs := s.tw.batches
  let kv := s.tw.kv
  let s : State := { s with tw := { s.tw with batches := [], pieces := [], kv := [] } }
  let s := bs.foldl (fun (s : State) p => s.takeBatch kv p.1 p.2 lost reason) s
  s.unmirror.grantAll

/-! ## Pairing (16 R439, 25 R587) -/

/-- The substitution entries of a module cleared, as it pairs again at a higher epoch. -/
def State.clearSubst (s : State) (lost : Nat) : State :=
  (List.range 16).foldl (fun (s : State) i =>
    if s.get (R.TWN_SUBST_VALID i) = 1 ∧ s.get (R.TWN_SUBST_LOST i) = lost then s.setReg (R.TWN_SUBST i) 0 else s) s

/-- An offer taken on a port from a module at an epoch. -/
def State.takeOffer (s : State) (port : Nat) (c : Car) (epoch : Nat) : State :=
  let w := carArg c 1
  let st := s.get R.FAB_TWIN_STATE
  let agree := c.src == s.twin && bits w 0 20 == s.ownAddr && carArg c 0 == s.modelTag && bits w 20 4 == (s.stageOf s.ownAddr).getD 0
  let s := s.returned
  if s.twin = 0 ∨ st = 0 then s
  else if !agree then
    if st = 2 then s else (s.put R.FAB_TWIN_STATE 3).raise R.FAB_ERR_TWIN_MISMATCH none
  else
    let higher := s.tw.peerEpoch < epoch
    let s := if higher ∧ 0 < s.tw.peerEpoch then s.forgetPeer s.twin else s
    let s := if higher ∧ st = 2 ∧ port < 16 then s.offerOn port else s
    let s := s.put R.FAB_TWIN_STATE 2
    let back := s.tw.fenced && decide (s.get R.TWN_EPOCH_PEER_FENCED < epoch)
    let s := if back then s.clearSubst s.twin else s
    let s : State := { s with
      tw := { s.tw with peerEpoch := epoch, fenced := s.tw.fenced && !back }
      fa := { s.fa with lost := if back then s.fa.lost.erase s.twin else s.fa.lost } }
    if s.get R.TWN_CTL_EN = 0 then s
    else match s.get R.TWN_STS_STATE with
      | 0 => s.twn 1
      | 4 => if back then s.enterResync else s
      | 7 => s.enterResync
      | _ => s

/-- TWIN_OFFER (16 R439): compared with the module's own. `epoch` is the module epoch of its sender. -/
def execTwinOffer (port : Nat) (car : Car) (epoch : Nat) (s : State) : Host.Outcome State Fault Refusal :=
  s.carRow 0x05 port car fun s c => (s.takeOffer port c epoch, true)

/-- The hand-offs to a lost module that are kept for steps not yet committed sent again, to the one that serves in its place (R475). -/
def State.sendAgain (s : State) (lost : Nat) : State :=
  s.sv.batches.foldl (fun (s : State) p => if p.2.fed then s.stageOut ((s.feedOut p.1 p.2).filter fun m => stageDst m == lost) else s) s

/-- SUBST (R475): taken when LOST is a module of the pipeline. -/
def execSubst (port : Nat) (car : Car) (s : State) : Host.Outcome State Fault Refusal :=
  s.carRow 0x06 port car fun s c =>
    let w := carArg c 0
    if (s.stageOf (bits w 0 20)).isNone then (s, true)
    else match s.install (bits w 0 20) (bits w 20 20) with
      | some t => (((if s.substOf (bits w 0 20) = t.substOf (bits w 0 20) then t else t.sendAgain (bits w 0 20))).sendCar 7 0 c.src 0 0 [w] [], true)
      | none => (s, true)

/-- SUBST_ACK (R475). -/
def execSubstAck (port : Nat) (car : Car) (s : State) : Host.Outcome State Fault Refusal :=
  s.carRow 0x07 port car fun s c => ({ s with tw := { s.tw with substAcks := addNew s.tw.substAcks c.src } }, true)

/-! ## Mirror caravans (R440, R468 to R471, Table 16.7) -/

/-- A mirror caravan from the partner: acted on and acknowledged; none is taken from a fenced epoch (R479). -/
def State.mirRow (kind port : Nat) (car : Car) (s : State) (act : State → Car → State) : Host.Outcome State Fault Refusal :=
  s.carRow kind port car fun s c =>
    if c.src ≠ s.twin ∨ s.paired = false ∨ s.tw.fenced = true then (s, true)
    else ((act s c).mirror 0x25 0 [c.oseq] [], true)

def State.shadow (s : State) (h : Nat) : Option Batch := tfind s.tw.batches h
def State.setShadow (s : State) (h : Nat) (b : Batch) : State := { s with tw := { s.tw with batches := tset s.tw.batches h b } }

/-- A mirrored row's shadow grammar session begun, from its grammar block (R471). -/
def State.shadowSess (s : State) (ten : Nat) (sec : List Byte) (r : Row) : Row :=
  if r.req.gen.grammarEn && r.req.gram.isSome && (s.slotBad (gSlot sec) ten).isNone then
    { r with sess := (s.newSess ten (gSlot sec) ((w64 sec (oGram sec)).testBit 20) (gFall sec) 0 (blockBans sec) (blockForces sec)).bytes }
  else r

/-- It advanced over the tokens of a record. -/
def State.sessStep (s : State) (ten : Nat) (r : Row) (ts : List Nat) : Row :=
  if r.sess.isEmpty then r
  else
    let x := sessOf r.sess
    { r with sess := (ts.foldl (s.advance (s.slotGram x.slot ten)) x).bytes }

/-- A mirrored BATCH complete: its shadow, in place of what the handle named before. -/
def State.admitShadow (s : State) (h ten : Nat) (m : List Byte) : State :=
  let s : State := { s with tw := { s.tw with pieces := tdel s.tw.pieces h, kv := tfilter (fun k _ => k / 64 != h) s.tw.kv } }
  match batchSections m with
  | none => s
  | some ss =>
    let secs := ss.map fun p => (m.drop p.1).take p.2
    let b := s.newBatch 0 ten 0 m secs false
    s.setShadow h { b with rows := b.rows.zipWith (fun r sec => s.shadowSess ten sec r) secs }

/-- MIR_ADMIT (R468). -/
def execMirAdmit (port : Nat) (car : Car) (s : State) : Host.Outcome State Fault Refusal :=
  State.mirRow 0x20 port car s fun s c =>
    let h := bits (carArg c 0) 0 10
    let m := tget s.tw.pieces h [] ++ c.data
    if 8 ≤ m.length ∧ w64 m 0 / 2 ^ 32 ≤ m.length then s.admitShadow h c.ten m
    else { s with tw := { s.tw with pieces := tset s.tw.pieces h m } }

/-- MIR_KV (R469): a layer's key/value entries kept for the row. -/
def execMirKv (port : Nat) (car : Car) (s : State) : Host.Outcome State Fault Refusal :=
  State.mirRow 0x21 port car s fun s c =>
    let k := bits (carArg c 0) 0 10 * 64 + bits (carArg c 0) 10 6
    { s with tw := { s.tw with kv := tset s.tw.kv k (tget s.tw.kv k [] ++ [(c.words, c.data)]) } }

/-- A step record in a shadow: the row as its step commit leaves it, its end left to MIR_END. -/
def State.shadowStep (s : State) (b : Batch) (x : StepRec) : Batch :=
  match b.rows[x.row]? with
  | none => b
  | some r =>
    let b := { b with step := x.step }
    let e := s.rowEnd b x.row { s.sessStep b.ten r x.tokens with generated := x.gen } x
    { b.modRow x.row fun _ => { e.row with live := r.live, status := r.status } with step := x.step + 1 }

/-- MIR_STEP (R471): the record taken, the shadow stream and session advanced over its tokens. -/
def execMirStep (port : Nat) (car : Car) (s : State) : Host.Outcome State Fault Refusal :=
  State.mirRow 0x22 port car s fun s c =>
    let h := bits (carArg c 0) 0 10
    match s.shadow h with
    | some b => s.setShadow h (s.shadowStep b (recOfWords (c.words.drop 1)))
    | none => s

/-- MIR_CANCEL (R468). -/
def execMirCancel (port : Nat) (car : Car) (s : State) : Host.Outcome State Fault Refusal :=
  State.mirRow 0x23 port car s fun s c =>
    let h := bits (carArg c 0) 0 10
    match s.shadow h with
    | some b => s.setShadow h ((b.liveRows.filter (carArg c 1).testBit).foldl (fun (b : Batch) i =>
        b.modRow i fun r => { r with cancel := some 0 }) b)
    | none => s

/-- MIR_END (R468): the row ended; a batch with no live row is mirrored no longer. -/
def execMirEnd (port : Nat) (car : Car) (s : State) : Host.Outcome State Fault Refusal :=
  State.mirRow 0x24 port car s fun s c =>
    let w := carArg c 0
    let h := bits w 0 10
    match s.shadow h with
    | none => s
    | some b =>
      let b := b.endRow (bits w 10 6) (bits w 16 3)
      let s := s.setShadow h b
      if b.liveRows.isEmpty then { s with tw := { s.tw with
        batches := tdel s.tw.batches h, kv := tfilter (fun k _ => k / 64 != h) s.tw.kv } } else s

/-- MIR_ACK (R440): the caravans up to an OSEQ acknowledged, and the commits that wait on them released. -/
def execMirAck (port : Nat) (car : Car) (s : State) : Host.Outcome State Fault Refusal :=
  s.carRow 0x25 port car fun s c =>
    if c.src ≠ s.twin ∨ s.tw.fenced = true then (s, true)
    else
      let upTo (m : MirWait) : Bool := decide ((carArg c 0 + 2 ^ 32 - m.oseq) % 2 ^ 32 < 2 ^ 31)
      let gone := s.fa.mirrors.filter upTo
      let s : State := { s with
        fa := { s.fa with mirrors := s.fa.mirrors.filter fun m => !upTo m }
        tw := { s.tw with miss := s.tw.miss.filter fun n => !(gone.any fun m => m.port == n), beatOut := s.tw.beatOut || !gone.isEmpty } }
      (s.grantAll.rejoin, true)

/-- TWIN_BEAT (R440). -/
def execTwinBeat (port : Nat) (car : Car) (s : State) : Host.Outcome State Fault Refusal :=
  State.mirRow 0x26 port car s fun s _ => ({ s with tw := { s.tw with beatIn := true, los := s.tw.los.erase port } } : State).rejoin

/-- TWIN_BEAT_TIMER (R440): 2 µs of a twin port's time. -/
def execTwinBeatTimer (port : Nat) (s : State) : Host.Outcome State Fault Refusal :=
  if 16 ≤ port then .fault .noSuchUnit
  else if s.paired ∧ s.twinPort port ∧ s.portUp port ∧ s.timer (port * 4 + 1) + 2000 ≤ s.ftime port then
    .next ((s.setTimer (port * 4 + 1) (s.ftime port)).mirrorOn port 0x26 0 [] [])
  else .next s

/-! ## What a twin port shows (16 R441) -/

/-- ACK_WAIT_EXPIRY (R441, R472): mirror caravans without MIR_ACK for ACK_WAIT in their ports' time. -/
def execAckWaitExpiry (s : State) : Host.Outcome State Fault Refusal :=
  let late := (s.fa.mirrors.filter fun m => decide (m.stamp + s.get R.FAB_TWIN_ACK_WAIT ≤ s.ftime m.port)).map (·.port)
  if late = [] then .next s
  else
    let s : State := { s with tw := { s.tw with miss := late.foldl addNew s.tw.miss } }
    .next (s.raise R.FAB_ERR_ACK_MISS none).suspect

/-- LINK_SIGNAL_LOSS (16 R422, R441): signal lost on every lane of a port. -/
def execLinkSignalLoss (port : Nat) (s : State) : Host.Outcome State Fault Refusal :=
  if 16 ≤ port then .fault .noSuchUnit
  else if !s.portInUse port then .next s
  else
    let s := (s.put (R.FAB_PORT_STS_LANES port) 0).neighbourLost port
    if s.twinPort port then
      let s : State := { s with tw := { s.tw with los := addNew s.tw.los port } }
      .next ((if s.twinSet.all s.tw.los.contains then s.raise R.FAB_ERR_TWIN_LOS none else s).suspect)
    else .next s

/-- LANE_RETRAIN_DONE (16 R411, R473): the port rejoins routing in the mode trained. -/
def execLaneRetrainDone (port lanes : Nat) (s : State) : Host.Outcome State Fault Refusal :=
  if 16 ≤ port then .fault .noSuchUnit
  else if s.mayRetrain port lanes then
    let s := s.retrained port lanes
    .next ({ s with tw := { s.tw with los := s.tw.los.erase port } } : State).returned
  else .next s

/-- LINK_HELLO (16 R422): a neighbour after three in a row that name the same identity and port. -/
def execLinkHello (port : Nat) (car : Car) (s : State) : Host.Outcome State Fault Refusal :=
  s.carRow 0x01 port car fun s c =>
    let w := nw c.words 1
    let old := tget s.fa.nbrs port {}
    let same := decide (0 < old.count) && old.ident == nw c.words 0 && old.port == bits w 20 4
    let b : Nbr := ⟨nw c.words 0, bits w 0 20, bits w 20 4, w.testBit 24, if same then old.count + 1 else 1, s.ftime port⟩
    let s := { s with fa := { s.fa with nbrs := tset s.fa.nbrs port b } }
    (if 3 ≤ b.count && !s.portUp port && s.lanes port != 0 then (s.declareNbr port b).returned else s, true)

/-- CONFIRM_WAIT_EXPIRY (R472, Table 18.3): no answer by the suspicion's stamp plus CONFIRM_WAIT. `pipe` lists the modules of the
partner's pipeline. -/
def execConfirmWaitExpiry (pipe : List Nat) (s : State) : Host.Outcome State Fault Refusal :=
  match s.tw.suspectAt with
  | none => .next s
  | some t =>
    if s.otherPorts.isEmpty then .next s.isolate
    else if t + s.get R.TWN_CTL_CONFIRM_WAIT ≤ s.ftime s.firstTwin then .next (s.takeover pipe)
    else .next s

/-- RESYNC_BATCH_PROTECT (R474): the oldest live batch not mirrored is mirrored in full: its BATCH, its live rows' key/value entries, their
last 16 records. -/
def execResyncBatchProtect (s : State) : Host.Outcome State Fault Refusal :=
  if s.get R.TWN_STS_STATE ≠ 6 then .next s
  else
    let todo := s.sv.batches.filter fun p => !p.2.mirrored
    let first := todo.foldl (fun (a : Option (Nat × Batch)) p =>
      match a with
      | some x => if p.2.order < x.2.order then some p else a
      | none => some p) none
    match first with
    | none => .next s.settleResync
    | some (h, b) =>
      let s := s.mirAdmit b.ten h b.msg
      let s := (b.numbered.filter fun p => p.1.live && p.1.packed).foldl (fun (s : State) p => s.mirRow' h p.2 0 (p.1.valid - 1)) s
      let recs := (b.rows.filter (·.live)).flatMap fun r => r.recs
      let steps := sortBy (fun (x y : StepRec) => decide (x.step ≤ y.step)) recs
      let s := steps.foldl (fun (s : State) x => s.mirStep b.ten h x) s
      let s := (b.numbered.filter fun p => !p.1.live).foldl (fun (s : State) p => s.mirEnd b.ten h p.2 p.1.status) s
      .next (s.setBatch h { b with mirrored := true }).settleResync

/-! ## The answer to a remote read (16 R429) -/

/-- The part of a shared pool page that a command or a load has asked for has come (02 R23). -/
def State.poolSent (s : State) (id : Nat) (o : RemoteOp) : State :=
  if o.kind = 7 then
    match s.cmd o.ticket with
    | some k => s.setCmd o.ticket { k with fetched := k.fetched ++ [(o.arg, o.total)] }
    | none => s
  else if o.kind = 9 then { s with fa := { s.fa with fetched := s.fa.fetched ++ [(o.arg, o.total)] } }
  else if (s.core o.hops).wait = .pool id then s.setCore o.hops { s.core o.hops with wait := .none, pool := some (o.arg, o.total) }
  else s

/-- The peer refuses it: PROTECTION (DESIGN CHOICE, log entry 72). -/
def State.poolRefused (s : State) (id : Nat) (o : RemoteOp) : State :=
  if o.kind = 7 then s.setDone o.ticket ⟨stProtection, [], []⟩
  else if o.kind = 9 then { s with fa := { s.fa with denied := s.fa.denied ++ [(o.arg, o.total)] } }
  else if (s.core o.hops).wait = .pool id then (s.setCore o.hops { s.core o.hops with wait := .none }).exception o.hops .protection
  else s

/-- READ_RESP: data of a `fab.read`, of a remote row, or of a confirming read, which any answer settles (R472). -/
def execReadResp (port : Nat) (car : Car) (s : State) : Host.Outcome State Fault Refusal :=
  s.carRow 0x15 port car fun s c =>
    let s := s.echo c
    let id := carArg c 0 % 2 ^ 32
    match tfind s.fa.ops id with
    | none => (s, true)
    | some o =>
      if o.dst ≠ c.src then (s, true)
      else match o.kind with
        | 6 => (if s.tw.confirm = some id then s.parted else s.dropOp id, true)
        | 1 =>
          if carStatus c ≠ 0 then ((s.dropOp id).setDone o.ticket ⟨carStatus c, [], []⟩, true)
          else
            let got := insertBy (fun a b => decide (a.1 ≤ b.1)) (carArg c 1 % 2 ^ 32, c.data) o.got
            if lsum (got.map fun g => g.2.length) < o.total then
              ({ s with fa := { s.fa with ops := tset s.fa.ops id { o with got := got } } }, true)
            else match s.cmd o.ticket with
              | none => (s.dropOp id, true)
              | some k =>
                let w : Effect := .write (key k.ten (k.body 2)) (got.flatMap (·.2))
                ((s.dropOp id).setDone o.ticket ⟨stDone, [o.total, o.hops], [w]⟩, true)
        | 7 | 8 | 9 =>
          if carStatus c ≠ 0 then ((s.dropOp id).poolRefused id o, true)
          else
            let got := insertBy (fun a b => decide (a.1 ≤ b.1)) (carArg c 1 % 2 ^ 32, c.data) o.got
            if lsum (got.map fun g => g.2.length) < o.total then
              ({ s with fa := { s.fa with ops := tset s.fa.ops id { o with got := got } } }, true)
            else (((s.dropOp id).poolRead o got).poolSent id o, true)
        | 5 =>
          if carStatus c ≠ 0 then ((s.dropOp id).setDone o.ticket ⟨carStatus c, [], []⟩, true)
          else (s.rowData id o (carArg c 1 % 2 ^ 32) c.data, true)
        | _ => (s, true)

/-! ## Units lost (R463 to R467) -/

/-- Whether the steward declares units lost (TWN_CTL.EN). -/
def State.declares (s : State) : Bool := s.get R.TWN_CTL_EN == 1

/-- Commands killed with UNIT_FAULT, their leases fenced first where the unit is declared lost. -/
def State.faultCmds (s : State) (ts : List Nat) : State := ts.foldl (fun (s : State) t => s.killCmd t .unitFault) s

/-- A unit lost: its epoch raised, its leases fenced, its commands killed. -/
def State.loseUnit (s : State) (cls n : Nat) : State :=
  let on (c m : Nat) : Bool := c == cls && m == n
  if s.declares then
    (((s.raise R.TWN_ERR_UNIT_LOST (s.unitTen cls n)).raiseEpoch cls n).fenceLeases fun l => l.unit == unitKey cls n).stopUnits on .unitFault
  else s.stopUnits on .unitFault

/-- An engine lost: retired, and its spare put in service (R464). -/
def State.loseEngine (s : State) (n : Nat) : State :=
  let s := s.loseUnit 1 n
  if s.declares ∧ s.get (R.ENG_STS_STATE n) ≠ 3 then s.retireEngine n else s

/-- A lost lane or stream: the leases of its commands fenced where it is declared lost, its commands killed. -/
def State.loseLane (s : State) (ts : List Nat) : State :=
  (if s.declares then (s.raise R.TWN_ERR_UNIT_LOST none).fenceLeases fun l => ts.any fun t => Drawer.isCmd t l.drawer else s).faultCmds ts

/-- Requests that end ABANDONED (R482): each a batch handle and a row mask. -/
def State.abandon (s : State) (served : List (Nat × Nat)) : State :=
  served.foldl (fun (s : State) p =>
    match s.batch p.1 with
    | none => s
    | some b =>
      let is := b.liveRows.filter p.2.testBit
      if is.isEmpty then s
      else
        let s := s.raise R.TWN_ERR_ABANDONED (some b.ten)
        let s := (s.setBatch p.1 (is.foldl (fun (b : Batch) i => b.endRow i 6) b)).reportEnds p.1 is
        (s.countBatches b.ten).publish b.ten) s

/-- The requests homed here whose private key/value pages reach into a granule: a batch handle and a row each. -/
def State.kvOwners (s : State) (granule : Nat) : List (Nat × Nat) :=
  match s.sv.model with
  | none => []
  | some (m, _) =>
    let ten := granule / 32 / 2 ^ 35
    let lo := granule % 2 ^ 40 * granuleBytes
    (s.sv.kv.filter fun e => e.1 / 2 ^ 16 == s.ownAddr && e.2.ten == ten &&
      (tvals e.2.pages).any fun n => overlaps (m.kvPages + n * pageLen m) (pageLen m) lo granuleBytes).map fun e => (e.1 / 64 % 1024, e.1 % 64)

/-- A granule poisoned whose contents no other page holds (R466, R467, R482): mirrored key/value pages are rebuilt from the twin; else the
tenancy is handed over to a twin that protects it, or the requests whose pages lie there end. -/
def State.granuleLost (s : State) (granule : Nat) : State :=
  match s.page (granule / 32) with
  | none => s
  | some p =>
    let ten := granule / 32 / 2 ^ 35
    let os := s.kvOwners granule
    if 64 ≤ ten ∨ p.source? ∨ !p.poison.testBit (granule % 32) then s
    else if s.get R.TWN_STS_STATE = 1 then
      if !os.isEmpty && os.all fun o => (s.batch o.1).any (·.mirrored) then s.setPage (granule / 32) { p with source := 3 }
      else s.handOver ten
    else s.abandon (os.map fun o => (o.1, 2 ^ o.2))

/-- GRANULE_POISON (07 R194). -/
def execGranulePoison (granule : Nat) (r : Ref) (s : State) : Host.Outcome State Fault Refusal :=
  match s.lineLost granule r with
  | some s => .next (s.granuleLost granule)
  | none => .next s

/-- CELLAR_MEDIA_EVENT (07 R206). -/
def execCellarMediaEvent (e : MediaEvent) (s : State) : Host.Outcome State Fault Refusal :=
  let s := s.mediaEvent e
  match e with
  | .spillUe g => .next (s.granuleLost g)
  | _ => .next s

/-- CELLAR_CHANNEL_FAIL (07 R206): what the spill region held on the channel is lost. -/
def execCellarChannelFail (ch : Nat) (s : State) : Host.Outcome State Fault Refusal :=
  if 32 ≤ ch then .fault .noSuchUnit
  else
    let was := s.vm.pages
    let s := s.channelFail ch
    let new := (s.vm.pages.filter fun p => decide (p.1 / 2 ^ 35 < 64) && tfind was p.1 != some p.2).map (·.1)
    .next (new.foldl (fun (s : State) pk => (upto (32 * pk) 32).foldl State.granuleLost s) s)

/-- The task on a core loses its state (03 R589): it ends, and its tenancy is handed over to a twin that protects it, else the
requests it served end. -/
def State.loseTask (s : State) (c : Nat) (served : List (Nat × Nat)) : State :=
  let k := s.core c
  if k.open_ then s
  else
    let s := s.endTask c .unitFault
    if s.get R.TWN_STS_STATE = 1 then s.handOver k.ten else s.abandon served

/-- A core fault (03 R56): its turns are killed and its task waits for another core; a core that holds none, idle or halted, stays as it is. -/
def State.loseCore (s : State) (c : Nat) : State :=
  let s := s.loseUnit clsCore c
  if (s.core c).open_ then s
  else
    let s := s.killTurns c 0 .unitFault
    (s.setCore c { s.core c with down := true }).placeTasks (c / 32)

/-- A bit of an ERR register raised. -/
def State.report1 (s : State) (err bit : Nat) (ten : Option Nat) (d0 : Nat) : State := s.raiseAt ⟨err, bit, 1⟩ ten d0 noTicket

/-- UNIT_ERROR_REPORT (R463). Bits that are not marked UNIT_FAULT are recorded only, and a row-cache entry that cannot be
corrected is dropped. A lost stream is rebuilt from what its requests committed (R466), so it stands as it was. -/
def execUnitErrorReport (err : UnitErr) (s : State) : Host.Outcome State Fault Refusal :=
  match err with
  | .engine n bit =>
    if 104 ≤ n ∨ 6 < bit then .fault .noSuchUnit
    else
      let s := s.report1 (R.ENG_ERR n) bit (s.unitTen 1 n) 0
      .next (if bit = 2 ∨ bit = 4 then s else s.loseEngine n)
  | .scan n bit =>
    if 16 ≤ n ∨ 4 < bit then .fault .noSuchUnit
    else
      let s := s.report1 (R.SCN_ERR n) bit (s.unitTen 2 n) 0
      .next (if bit = 0 ∨ bit = 2 then s else s.loseUnit 2 n)
  | .core c bit served =>
    if 256 ≤ c ∨ bit = 0 ∨ 6 < bit then .fault .noSuchUnit
    else
      let s := s.report1 (R.HAM_ERR (c / 32)) bit (s.unitTen clsCore c) 0
      .next (match bit with
        | 2 | 6 => s.loseCore c
        | 4 | 5 => s.loseTask c served
        | _ => s)
  | .text bit lane on =>
    if 4 < bit ∨ 32 ≤ lane then .fault .noSuchUnit
    else
      let s := s.report1 R.TXT_ERR bit none 0
      .next (match bit with
        | 1 => s.loseLane ((s.x.cmds.filter fun p => dClass p.2.words == 5 && decide (dOp p.2.words < 0x10) && p.2.st.live).map (·.1))
        | 3 => s.loseLane on
        | 4 => (s.put ⟨R.TXT_CTL, 16 + lane, 1⟩ 0).loseLane on
        | _ => s)
  | .grammar bit lane on =>
    if 2 < bit ∨ 32 ≤ lane then .fault .noSuchUnit
    else
      let s := s.report1 R.TXT_GRM_ERR bit none 0
      .next (match bit with
        | 1 => s.loseLane on
        | 2 => (s.put ⟨R.TXT_GRM_CTL, 32 + lane, 1⟩ 0).loseLane on
        | _ => s)
  | .oasis die bit granule readers =>
    if 2 ≤ die ∨ 1 < bit then .fault .noSuchUnit
    else
      let s := s.report1 (R.OAS_ERR die) bit none (granule * granuleBytes % 2 ^ 56)
      .next (if bit = 0 then s else 
        (readers.foldl State.poisonKill ((s.poison granule).report1 R.MEM_ERR 1 none (granule * granuleBytes % 2 ^ 56))).granuleLost granule)
  | .rowCache bit slot =>
    if bit ≠ 1 ∧ bit ≠ 2 then .fault .noSuchUnit
    else
      let s := s.report1 R.EMB_ERR bit none 0
      .next (if bit = 1 then s else { s with em := { s.em with cache := tdel s.em.cache slot } })

/-- UNIT_WAIT_EXPIRY (R463): a command that has been Running for UNIT_WAIT, in the time of the port its start was stamped at, without a
handshake. -/
def execUnitWaitExpiry (t : Nat) (s : State) : Host.Outcome State Fault Refusal :=
  match s.cmd t with
  | none => .next s
  | some c =>
    if !s.declares ∨ c.st ≠ .running ∨ s.time c.runAt.1 < c.runAt.2 + s.get R.TWN_CTL_UNIT_WAIT then .next s
    else if dClass c.words = 1 then .next (s.loseEngine c.unit)
    else .next (s.loseUnit (dClass c.words) c.unit)

end Sys2Proof.Machine
end

