-- ==== Sys2Proof/Machine/Arbiter.lean ====
section
/-!
DEFINITION. The window arbiter (21 R523 to R538): a register write under the field access codes, what each register's write sets
going, the enables, and the end of a re-bind (14 R353).
-/
namespace Sys2Proof.Machine

/-! ## A write under the access codes (00 R3, R537) -/

/-- A register's word after a write reaches one of its fields. -/
def fieldWrite (locked : Bool) (v old : Nat) (f : FieldDef) : Nat :=
  let x := bits v f.lo f.w
  let o := bits old f.lo f.w
  match f.acc with
  | .ro => old
  | .wo => old
  | .rw => setBits old f.lo f.w x
  | .rwl => if locked then old else setBits old f.lo f.w x
  | .w1c => setBits old f.lo f.w (o - (o &&& x))
  | .w1s => setBits old f.lo f.w (o ||| x)

/-- A register's word after a write. -/
def wordWrite (locked : Bool) (v old : Nat) (fs : List FieldDef) : Nat := fs.foldl (fieldWrite locked v) old

/-- Whether a write differs from the present value of a field that a test picks. -/
def differs (pick : Access → Bool) (v now : Nat) (fs : List FieldDef) : Bool :=
  fs.any fun f => pick f.acc && bits v f.lo f.w != bits now f.lo f.w

/-- A MOD_ERR bit set by a write, named in MOD_LASTBAD. -/
def State.badWrite (s : State) (f : Field) (via : Via) (off : Nat) : State :=
  let s := (s.raise f none).put R.MOD_LASTBAD_OFFSET off
  match via with
  | .host q => (s.put R.MOD_LASTBAD_PORT (q / 256)).put R.MOD_LASTBAD_STEWARD 0
  | .steward => (s.put R.MOD_LASTBAD_PORT 0).put R.MOD_LASTBAD_STEWARD 1

/-! ## What a write sets going -/

/-- The lookup of MEM_LOOKUP_VA (07 Table 7.17). A page of a peer's export has no lent frame: the low bits of its FRAME are not
given. -/
def State.lookupPage (s : State) (v : Nat) : State :=
  let va := bits v 0 56
  let pk := pageKey (if v.testBit 62 then spModule else bits v 56 6) (va / pageBytes)
  let hit : Option (Nat × Page) := if v.testBit 62 then (s.page pk).map fun p => (pk, p) else s.pageOf (bits v 56 6) va
  match hit with
  | none => (s.setReg R.MEM_LOOKUP_PTE 0).setReg R.MEM_LOOKUP_AUX 0
  | some (k, p) =>
    let (free, s') := s.takeFree
    let frame := match p.st with
      | 4 => p.frame / 2 ^ 20 * 2 ^ 19 + p.frame % 2 ^ 19
      | 5 => p.frame / 2 ^ 35 * 2 ^ 19 + free % 2 ^ 19
      | _ => p.frame
    let s := if p.st = 5 then s' else s
    let moving := s.vm.moves.any fun m => m.2.page == k && m.2.st == .running
    let flag (b : Bool) (n : Nat) : Nat := if b then 2 ^ n else 0
    let w := 1 + flag (p.writable || (!v.testBit 62 && p.writer == some (bits v 56 6))) 1 + p.st * 4 + flag (k / 2 ^ 35 == spModule) 5 + p.pin * 2 ^ 6 + flag p.held 8 +
      flag (p.poison != 0) 9 + flag moving 10 + flag p.image 11 + p.hint % 4 * 2 ^ 12 + frame % 2 ^ 39 * 2 ^ 16
    (s.setReg R.MEM_LOOKUP_PTE w).setReg R.MEM_LOOKUP_AUX (p.oasis % 2 ^ 32 + s.pageHeat p % 2 ^ 16 * 2 ^ 32)

/-- A write of FAB_RT_ROW with ROUTE_HOST 1: the row that FAB_RT_SEL selects (16 R427). -/
def State.rowWrite (s : State) (v : Nat) : State :=
  if s.get R.FAB_CTL_ROUTE_HOST = 0 ∨ 17 ≤ s.fa.rtSel / 2 ^ 20 then s
  else
    let r : RtRow := ⟨bits v 0 4, v.testBit 4, bits v 5 4, bits v 16 16⟩
    ({ s with fa := { s.fa with rows := tset s.fa.rows s.fa.rtSel r } } : State).resendWaiting

/-- A write of SEC_FW_CTL (20 R506). -/
def State.fwOp (s : State) (v : Nat) : State :=
  match bits v 0 2 with
  | 1 => s.fwStart (bits v 32 32)
  | 2 => s.fwConfirm
  | 3 => s.fwAdvance
  | _ => s

/-- ERR_LOG_CTL.CLEAR (22 R550). -/
def State.clearLog (s : State) : State :=
  let s := (List.range 64).foldl (fun (s : State) i => s.put (R.ERR_LOG_HDR_VALID i) 0) s
  (s.put R.ERR_LOG_CTL_CLEAR 0).setReg R.ERR_LOG_OLD (s.reg R.ERR_LOG_STS).toNat

/-- What the write of a register sets going beyond its fields: the register by the offset of its first copy, the copy's number,
its word before and the value written. -/
def State.afterWrite (s : State) (via : Via) (base n old v : Nat) : State :=
  if base = R.SCH_REBIND then s.startRebind via v
  else if base = R.SCH_TEN_CTL 0 then (s.drainTenancy n).publish n
  else if base = R.SCH_TEN_RUNLIST 0 then s.publish n
  else if base = R.SCH_TEN_LIMITS 0 then if bits old 16 25 = bits v 16 25 then s else s.sendCredits n
  else if base = R.MEM_LOOKUP_VA then s.lookupPage v
  else if base = R.HST_IMG_CTL then s.imgOp (bits v 0 2) (bits v 2 2) (bits v 4 6)
  else if base = R.FAB_LEND then s.recallFrames
  else if base = R.FAB_RT_SEL then { s with fa := { s.fa with rtSel := bits v 0 25 } }
  else if base = R.FAB_RT_ROW then s.rowWrite v
  else if base = R.PWR_CTL then s.sleepWrite (bits old 1 1)
  else if base = R.PWR_ERR then
    if v.testBit 6 then (s.put (R.PWR_FD_STEP_STEP_PEAK 0) 0).put (R.PWR_FD_STEP_STEP_PEAK 1) 0 else s
  else if base = R.PWR_DOM_CTL then s.domWrite (bits old 0 50)
  else if base = R.SEC_QUOTE then if v.testBit 0 then s.quoteGo via else s
  else if base = R.SEC_KS_CTL then s.ksStart (bits v 0 2) (bits v 2 4)
  else if base = R.SEC_FW_CTL then s.fwOp v
  else if base = R.ERR_LOG_CTL then if v.testBit 0 then s.clearLog else s
  else s

/-! ## The arbiter -/

/-- A write applied to a register: its fields, the errors of R537, an enable or a clear of EN (R531, R536), what it sets going. -/
def State.takeWrite (s : State) (via : Via) (d : RegDef) (n off v : Nat) : State :=
  let ctl := (ctlAt d.blk n).getD off
  let isCtl := ctlAt d.blk n == some off
  let locked := (ctlAt d.blk n).isSome && s.get (enOf ctl) == 1
  let old := (s.reg off).toNat
  let seen := s.view off
  let new := wordWrite locked v old d.fields
  let rising := isCtl && !locked && v.testBit 0
  let falling := isCtl && locked && !v.testBit 0
  let s := s.setReg off (if rising then setBits new 0 1 0 else new)
  let s := if locked && differs (· == .rwl) v old d.fields then s.badWrite R.MOD_ERR_LOCKED_WRITE via off else s
  let s := if differs (· == .ro) v seen d.fields then s.badWrite R.MOD_ERR_RO_WRITE via off else s
  let s := if falling then s.stopped d.blk n else s
  let s := if rising then
      ({ s with checks := tset s.checks ctl ⟨via, s.time (viaPort via), []⟩ } : State).put (chkOf d.blk ctl) 1
    else s
  s.afterWrite via d.base n old v

/-- A register write taken by the arbiter: at an unassigned offset (R524), to a gated unit (R538), held behind a check (R532), or
applied. -/
def State.regWrite (s : State) (via : Via) (off v : Nat) : State :=
  match findReg off with
  | none => s.badWrite R.MOD_ERR_UNASSIGNED via off
  | some (d, ix) =>
    let n := copyNumber d ix
    if !s.regPowered d ix then s
    else match ctlAt d.blk n with
      | none => s.takeWrite via d n off v
      | some ctl =>
        match tfind s.checks ctl with
        | some run => { s with checks := tset s.checks ctl { run with held := run.held ++ [(via, off, v)] } }
        | none => s.takeWrite via d n off v

/-- An access a host may not make (15 R383): NAK Remote Access Error. -/
def State.refuseAccess (s : State) (q : Nat) : State :=
  ({ s with ho := { s.ho with out := s.ho.out ++ [.nak q 1] } } : State).raise (R.HST_ERR_ACCESS (q / 256)) (s.qpTen q)

/-- Whether a queue pair reaches the window: a connected manager pair (R525). -/
def State.manager (s : State) (q : Nat) : Bool :=
  s.get (qpReg R.HST_QP_STATE q) == 2 && s.get (qpReg R.HST_QP_ROLE q) == 1

/-- A row that writes one register. -/
def State.writeRow (s : State) (via : Via) (off v : Nat) : Host.Outcome State Fault Refusal :=
  match via with
  | .steward => .next (s.regWrite via off v)
  | .host q => if 1024 ≤ q then .fault .noSuchUnit else if s.manager q then .next (s.regWrite via off v) else .next (s.refuseAccess q)

/-- How many copies a block has (00 Table 0.4). -/
def copyCount (b : Blk) : Nat :=
  match b with
  | .ham => 8 | .wel => 128 | .eng => 104 | .scn => 16 | .idx => 64 | .ten => 64 | .hst => 4 | .tab => 32 | .oas => 2
  | .mod | .pwr | .sec | .err | .img | .fab | .txt | .grm | .cel | .mem | .sch | .emb | .twn => 1

/-- A row that sets, or clears, a unit's EN with the other fields of the write as given. -/
def State.enRow (s : State) (b : Blk) (n : Nat) (on : Nat) (via : Via) (v : Nat) : Host.Outcome State Fault Refusal :=
  if copyCount b ≤ n then .fault .noSuchUnit
  else match ctlAt b n with
    | none => .fault .noSuchUnit
    | some ctl => s.writeRow via ctl (setBits v 0 1 on)

/-! ## Enables and their end -/

/-- REGISTER_WRITE (R527). -/
def execRegisterWrite (via : Via) (off v : Nat) (s : State) : Host.Outcome State Fault Refusal := s.writeRow via off v
/-- HAM_ENABLE (03 R83). -/
def execHamEnable (via : Via) (n v : Nat) (s : State) : Host.Outcome State Fault Refusal := s.enRow .ham n 1 via v
/-- HAM_DISABLE (03 R57): as a REBIND of every core. -/
def execHamDisable (via : Via) (n v : Nat) (s : State) : Host.Outcome State Fault Refusal := s.enRow .ham n 0 via v
/-- WEL_ENABLE (04 R108). -/
def execWelEnable (via : Via) (n v : Nat) (s : State) : Host.Outcome State Fault Refusal := s.enRow .wel n 1 via v
/-- ENG_ENABLE (05 R136). -/
def execEngEnable (via : Via) (n v : Nat) (s : State) : Host.Outcome State Fault Refusal := s.enRow .eng n 1 via v
/-- MEM_ENABLE (07 R207). -/
def execMemEnable (via : Via) (v : Nat) (s : State) : Host.Outcome State Fault Refusal := s.enRow .mem 0 1 via v
/-- CEL_ENABLE (07 R208). -/
def execCelEnable (via : Via) (v : Nat) (s : State) : Host.Outcome State Fault Refusal := s.enRow .cel 0 1 via v
/-- SCN_ENABLE (08 R243). -/
def execScnEnable (via : Via) (n v : Nat) (s : State) : Host.Outcome State Fault Refusal := s.enRow .scn n 1 via v
/-- SCN_IDX_ENABLE (08 R244). -/
def execScnIdxEnable (via : Via) (n v : Nat) (s : State) : Host.Outcome State Fault Refusal := s.enRow .idx n 1 via v
/-- SCN_IDX_DISABLE (08 R244). -/
def execScnIdxDisable (via : Via) (n v : Nat) (s : State) : Host.Outcome State Fault Refusal := s.enRow .idx n 0 via v
/-- TXT_ENABLE (11 R295). -/
def execTxtEnable (via : Via) (v : Nat) (s : State) : Host.Outcome State Fault Refusal := s.enRow .txt 0 1 via v
/-- TXT_GRM_ENABLE (12 R319). -/
def execTxtGrmEnable (via : Via) (v : Nat) (s : State) : Host.Outcome State Fault Refusal := s.enRow .grm 0 1 via v
/-- SCH_ENABLE (14 R377). -/
def execSchEnable (via : Via) (v : Nat) (s : State) : Host.Outcome State Fault Refusal := s.enRow .sch 0 1 via v
/-- TENANCY_ENABLE (14 R352, R377). -/
def execTenancyEnable (via : Via) (n v : Nat) (s : State) : Host.Outcome State Fault Refusal := s.enRow .ten n 1 via v
/-- TENANCY_DISABLE (14 R352). -/
def execTenancyDisable (via : Via) (n v : Nat) (s : State) : Host.Outcome State Fault Refusal := s.enRow .ten n 0 via v
/-- HST_ENABLE (15 R407). -/
def execHstEnable (via : Via) (n v : Nat) (s : State) : Host.Outcome State Fault Refusal := s.enRow .hst n 1 via v
/-- FAB_ENABLE (16 R443). -/
def execFabEnable (via : Via) (v : Nat) (s : State) : Host.Outcome State Fault Refusal := s.enRow .fab 0 1 via v
/-- EMB_ENABLE (17 R458). -/
def execEmbEnable (via : Via) (v : Nat) (s : State) : Host.Outcome State Fault Refusal := s.enRow .emb 0 1 via v
/-- EMB_TAB_ENABLE (17 R458). -/
def execEmbTabEnable (via : Via) (n v : Nat) (s : State) : Host.Outcome State Fault Refusal := s.enRow .tab n 1 via v
/-- TWN_ENABLE (18 R483). -/
def execTwnEnable (via : Via) (v : Nat) (s : State) : Host.Outcome State Fault Refusal := s.enRow .twn 0 1 via v
/-- PWR_ENABLE (19 R501). -/
def execPwrEnable (via : Via) (v : Nat) (s : State) : Host.Outcome State Fault Refusal := s.enRow .pwr 0 1 via v
/-- SEC_ENABLE (20 R522). -/
def execSecEnable (via : Via) (v : Nat) (s : State) : Host.Outcome State Fault Refusal := s.enRow .sec 0 1 via v
/-- OAS_ENABLE (R540). -/
def execOasEnable (via : Via) (n v : Nat) (s : State) : Host.Outcome State Fault Refusal := s.enRow .oas n 1 via v

/-- UNIT_DISABLE (R536): EN 0 written to the CTL register at an offset. -/
def execUnitDisable (via : Via) (ctl v : Nat) (s : State) : Host.Outcome State Fault Refusal :=
  match unitAt ctl with
  | none => .fault .noSuchUnit
  | some (b, n) => s.enRow b n 0 via v

/-- CONSISTENCY_CHECK_END (R532 to R534): the check of the unit whose CTL stands at an offset ends, then the writes held are
taken; a unit gated meanwhile has none. -/
def execConsistencyCheckEnd (ctl : Nat) (s : State) : Host.Outcome State Fault Refusal :=
  match unitAt ctl with
  | none => .fault .noSuchUnit
  | some (b, n) =>
    match tfind s.checks ctl with
    | none => .next s
    | some run =>
      let s : State := { s with checks := tdel s.checks ctl }
      let s := if s.unitPowered b n then s.endCheck b n else s
      .next (run.held.foldl (fun (s : State) w => s.regWrite w.1 w.2.1 w.2.2) s)

/-! ## Registers with a row of their own -/

/-- SCH_REBIND (14 R353). -/
def execSchRebind (via : Via) (v : Nat) (s : State) : Host.Outcome State Fault Refusal := s.writeRow via R.SCH_REBIND v

/-- TENANCY_DRAIN_WRITE (14 Table 14.2): DRAIN set or cleared, the other fields at their present values. -/
def execTenancyDrainWrite (via : Via) (ten drain : Nat) (s : State) : Host.Outcome State Fault Refusal :=
  if 64 ≤ ten then .fault .noSuchUnit
  else s.writeRow via (R.SCH_TEN_CTL ten) (setBits (s.view (R.SCH_TEN_CTL ten)) 1 1 drain)

/-- KV_PAGES_WRITE (16 R438): KV_PAGES changed, the other field at its present value. -/
def execKvPagesWrite (via : Via) (ten pages : Nat) (s : State) : Host.Outcome State Fault Refusal :=
  if 64 ≤ ten then .fault .noSuchUnit
  else s.writeRow via (R.SCH_TEN_LIMITS ten) (setBits (s.view (R.SCH_TEN_LIMITS ten)) 16 25 pages)

/-- MEM_LOOKUP_VA (07 Table 7.17). -/
def execMemLookupVa (via : Via) (v : Nat) (s : State) : Host.Outcome State Fault Refusal := s.writeRow via R.MEM_LOOKUP_VA v
/-- FAB_RT_ROW_WRITE (16 R427). -/
def execFabRtRowWrite (via : Via) (v : Nat) (s : State) : Host.Outcome State Fault Refusal := s.writeRow via R.FAB_RT_ROW v

/-- FAB_LEND_WRITE (16 R434, R435): a new OFFER. -/
def execFabLendWrite (via : Via) (offer : Nat) (s : State) : Host.Outcome State Fault Refusal :=
  s.writeRow via R.FAB_LEND (setBits (s.view R.FAB_LEND) 0 20 offer)

/-- FAB_PORT_RETRY (16 R411). -/
def execFabPortRetry (via : Via) (port : Nat) (s : State) : Host.Outcome State Fault Refusal :=
  if 16 ≤ port then .fault .noSuchUnit else s.writeRow via (R.FAB_PORT_CTL port) 1

/-- HST_IMG_BEGIN, HST_IMG_CHUNK and HST_IMG_END (15 R406). -/
def execHstImgBegin (via : Via) (kind target : Nat) (s : State) : Host.Outcome State Fault Refusal :=
  s.writeRow via R.HST_IMG_CTL (1 + kind % 4 * 4 + target % 64 * 16)
def execHstImgChunk (via : Via) (s : State) : Host.Outcome State Fault Refusal := s.writeRow via R.HST_IMG_CTL 2
def execHstImgEnd (via : Via) (s : State) : Host.Outcome State Fault Refusal := s.writeRow via R.HST_IMG_CTL 3

/-- PWR_DOM_CTL_WRITE (19 R494). -/
def execPwrDomCtlWrite (via : Via) (v : Nat) (s : State) : Host.Outcome State Fault Refusal := s.writeRow via R.PWR_DOM_CTL v

/-- PWR_SLEEP_WRITE (19 R495): SLEEP written, the other fields at their present values. -/
def execPwrSleepWrite (via : Via) (sleep : Nat) (s : State) : Host.Outcome State Fault Refusal :=
  s.writeRow via R.PWR_CTL (setBits (s.view R.PWR_CTL) 1 1 sleep)

/-- FW_START, FW_CONFIRM and FW_ADVANCE (20 R506). -/
def execFwStart (via : Via) (bytes : Nat) (s : State) : Host.Outcome State Fault Refusal :=
  s.writeRow via R.SEC_FW_CTL (1 + bytes % 2 ^ 32 * 2 ^ 32)
def execFwConfirm (via : Via) (s : State) : Host.Outcome State Fault Refusal := s.writeRow via R.SEC_FW_CTL 2
def execFwAdvance (via : Via) (s : State) : Host.Outcome State Fault Refusal := s.writeRow via R.SEC_FW_CTL 3

/-- SEC_QUOTE_GO (20 R517). -/
def execSecQuoteGo (via : Via) (s : State) : Host.Outcome State Fault Refusal := s.writeRow via R.SEC_QUOTE 1

/-- KS_INSTALL_SM4, KS_INSTALL_SIGNER and KS_REVOKE (20 R518). -/
def execKsInstallSm4 (via : Via) (slot : Nat) (s : State) : Host.Outcome State Fault Refusal :=
  s.writeRow via R.SEC_KS_CTL (1 + slot % 16 * 4)
def execKsInstallSigner (via : Via) (slot : Nat) (s : State) : Host.Outcome State Fault Refusal :=
  s.writeRow via R.SEC_KS_CTL (2 + slot % 16 * 4)
def execKsRevoke (via : Via) (slot : Nat) (s : State) : Host.Outcome State Fault Refusal :=
  s.writeRow via R.SEC_KS_CTL (3 + slot % 16 * 4)

/-- ERR_LOG_CLEAR (22 R550). -/
def execErrLogClear (via : Via) (s : State) : Host.Outcome State Fault Refusal := s.writeRow via R.ERR_LOG_CTL 1

/-! ## The end of a re-bind (14 R353 steps 3 to 5) -/

/-- A unit's EN cleared, its TEN field set and its EN set again with the check that runs: the state, and the check's code. -/
def State.recheck (s : State) (b : Blk) (n : Nat) (ten : Field) (dest : Nat) : State × Nat :=
  let ctl := (ctlAt b n).getD 0
  let s := (((s.put (enOf ctl) 0).put ten dest).endCheck b n)
  (s, s.get (chkOf b ctl))

/-- A result noted: the code of the first check that fails. -/
def firstCode (p : State × Nat) (f : State → State × Nat) : State × Nat :=
  let r := f p.1
  (r.1, if p.2 = 0 then r.2 else p.2)

/-- An engine, a scan unit, a hamlet and a well cleared as Table 14.1 states, its bind epoch raised, and bound anew. -/
def State.rebindEngine (s : State) (dest n : Nat) : State × Nat :=
  ((s.setTileQueue n []).endFill n |>.raiseEpoch 1 n).recheck .eng n (R.ENG_CTL_TEN n) dest
def State.rebindScan (s : State) (dest n : Nat) : State × Nat := (s.raiseEpoch 2 n).recheck .scn n (R.SCN_CTL_TEN n) dest
def State.rebindHamlet (s : State) (dest h : Nat) : State × Nat :=
  ((upto (32 * h) 32).foldl (fun (s : State) c => s.raiseEpoch clsCore c) s).recheck .ham h (R.HAM_CTL_TEN h) dest
def State.rebindWell (s : State) (dest n : Nat) : State × Nat :=
  let r := (s.raiseEpoch 0x0B n).recheck .wel n (R.WEL_CTL_TEN n) dest
  let s := r.1.setWell n { r.1.well n with returned := [] }
  (s.setReg (R.WEL_NEXT n) (s.reg (R.WEL_LIMIT n)).toNat, r.2)

/-- The units that a re-bind names bound to the target. -/
def State.rebindAll (s : State) (r : Rebind) : State × Nat :=
  let engs := (List.range 104).filter fun n => s.rebindUnits r 1 n
  let scns := (List.range 16).filter fun n => s.rebindUnits r 2 n
  let p := engs.foldl (fun p n => firstCode p fun s => s.rebindEngine r.dest n) (s, 0)
  let p := scns.foldl (fun p n => firstCode p fun s => s.rebindScan r.dest n) p
  let p := r.hamlets.foldl (fun p n => firstCode p fun s => s.rebindHamlet r.dest n) p
  r.wells.foldl (fun p n => firstCode p fun s => s.rebindWell r.dest n) p

/-- A field's amount moved from one register to another. -/
def State.moveAmount (s : State) (f : Nat → Field) (frm dest n : Nat) : State :=
  let s := s.put (f frm) (s.get (f frm) - n)
  s.put (f dest) (s.get (f dest) + n)

/-- What a re-bind of a queue pair or of a quota changes. -/
def State.rebindAmounts (s : State) (r : Rebind) : State :=
  let a := r.amounts
  match r.kind with
  | 6 => s.put (qpReg R.HST_QP_TEN r.qp) r.dest
  | 7 => ((s.moveAmount R.MEM_QUOTA_OASIS r.frm r.dest a.1).moveAmount R.MEM_QUOTA_GRANARY r.frm r.dest a.2.1).moveAmount
      R.MEM_QUOTA_CELLAR r.frm r.dest a.2.2.1
  | 8 => s.moveAmount R.MEM_QUOTA_POOL_POOL r.frm r.dest a.2.2.2
  | _ => s

/-- REBIND_COMPLETE: nothing runs any more on what the re-bind names. -/
def execRebindComplete (s : State) : Host.Outcome State Fault Refusal :=
  match s.sc.rebind with
  | none => .next s
  | some r =>
    if !s.rebindQuiet r then .next s
    else
      let p := s.rebindAll r
      let s : State := { p.1.rebindAmounts r with sc := { p.1.sc with rebind := none } }
      .next (s.rebindDone r p.2)

end Sys2Proof.Machine
end

