-- ==== Sys2Proof/Machine/Transport.lean ====
section
/-!
DEFINITION. The RoCEv2 transport of the host ports (15 R378 to R384, R398 to R403): connections, RDMA into tenancies, the window and
the stage region, acknowledgements, RNR retries and the switch to rings, the loss of a queue pair, congestion.
-/
namespace Sys2Proof.Machine

/-! ## Keys and regions (R383) -/

/-- Whether an R_KEY holds a port's KEY_SALT. -/
def State.keyOk (s : State) (q rkey : Nat) : Bool := rkey / 2 ^ 8 == s.get (R.HST_KEY_KEY_SALT (q / 256))

/-- An RDMA access that asks more than the module serves (R380). -/
def State.unsupported (s : State) (q : Nat) : State := (s.hostOut (.nak q 0)).raise (R.HST_ERR_UNSUPPORTED (q / 256)) (s.qpTen q)

/-! ## The window (21 R525, R526) -/

/-- The size of the window, and of the stage region. -/
def windowBytes : Nat := 2 ^ 26
def stageBytes : Nat := 2 ^ 30

/-- Whether an access to the window is aligned and short enough. -/
def cwAligned (off len : Nat) : Bool := off % 8 == 0 && len % 8 == 0 && decide (len ≤ 4096)

/-- An access that is not (R525): the write is named in MOD_LASTBAD. -/
def State.cwMisaligned (s : State) (q off : Nat) (write : Bool) : State :=
  let s := s.refuseAccess q
  if write then s.badWrite R.MOD_ERR_MISALIGNED (.host q) off else s.raise R.MOD_ERR_MISALIGNED none

/-- Words written one at a time from an offset. -/
def State.cwWords (s : State) (q : Nat) : Nat → List Nat → State
  | _, [] => s
  | off, v :: vs => (s.regWrite (.host q) off v).cwWords q (off + 8) vs

/-- An RDMA WRITE to the window. -/
def State.cwWrite (s : State) (q off : Nat) (data : List Byte) : State :=
  if !s.manager q || decide (windowBytes < off + data.length) then s.refuseAccess q
  else if !cwAligned off data.length then s.cwMisaligned q off true
  else (s.cwWords q off (wordsOf (data.length / 8) data)).hostOut (.ack q)

/-- An RDMA READ of the window. -/
def State.cwRead (s : State) (q off len : Nat) : State :=
  if !s.manager q || decide (windowBytes < off + len) then s.refuseAccess q
  else if !cwAligned off len then s.cwMisaligned q off false
  else s.hostOut (.readData q (bytesOf ((List.range (len / 8)).map fun i => s.view (off + 8 * i))))

/-! ## The stage region -/

def State.stageWrite (s : State) (q va : Nat) (data : List Byte) : State :=
  if !s.manager q || decide (stageBytes < va + data.length) then s.refuseAccess q
  else (s.writeRun (key spStage va) data).hostOut (.ack q)

def State.stageRead (s : State) (q va len : Nat) : State :=
  if !s.manager q || decide (stageBytes < va + len) then s.refuseAccess q
  else s.hostOut (.readData q (s.run (key spStage va) len))

/-! ## Tenancies' ranges (R384) -/

/-- A host's access that waits, or no longer does. -/
def State.holdOp (s : State) (o : HostOp) : State := if s.ho.held.contains o then s else { s with ho := { s.ho with held := s.ho.held ++ [o] } }
def State.dropHeld (s : State) (o : HostOp) : State := { s with ho := { s.ho with held := s.ho.held.erase o } }

/-- Whether a range lies in the region of a pair's tenancy. -/
def State.regionOk (s : State) (q ten va len : Nat) : Bool :=
  s.requestPair q && s.get (qpReg R.HST_QP_TEN q) == ten && decide (va + len ≤ 2 ^ 56)

/-- A host's access to a tenancy's range: refused, held while a page it cannot reach is resolved or rebuilt or MEM_REFCLK is absent
(23 R556), or done. The command is given again for the access held. -/
def State.tenAccess (s : State) (o : HostOp) (ten : Nat) (done : State → State) : State :=
  if !s.regionOk o.q ten o.va o.len then s.refuseAccess o.q
  else
    let rng := [(o.va, o.len)]
    let ps := if o.read then s.poolParts .unit ten rng else []
    if s.pw.absent.contains 5 then s.holdOp o
    else match s.access .unit ten (if o.read then rng else []) (if o.read then [] else rng) with
    | .prot => (s.dropHeld o).refuseAccess o.q
    | .fault ps => if s.ho.held.contains o then s else (s.holdOp o).awaitPages ps
    | .poison _ => s.holdOp o
    | .ok =>
      if s.partsDenied ps then ((s.useParts ps).dropHeld o).refuseAccess o.q
      else if !s.partsCome ps then (s.holdOp o).askParts ten ps
      else done (((s.useParts ps).dropHeld o).accessHeat (s.granules ten rng) (s.homeLines ten rng))

/-- An RDMA WRITE into a tenancy's range: one commit, then the acknowledgement. -/
def State.tenWrite (s : State) (o : HostOp) (ten : Nat) : State :=
  s.tenAccess o ten fun s => (s.commitPeer (s.spread ten o.va o.data)).hostOut (.ack o.q)

/-- An RDMA READ of a tenancy's range: committed data; at most 16 at a time on a pair (R380). -/
def State.tenRead (s : State) (o : HostOp) (ten : Nat) : State :=
  if !s.ho.held.contains o && decide (16 ≤ s.ho.held.countP fun h => h.q == o.q && h.read) then s.unsupported o.q
  else s.tenAccess o ten fun s => s.hostOut (.readData o.q (s.vrun ten o.va o.len))

/-- RDMA_WRITE (R383, R384): the last packet of a WRITE has arrived. -/
def execRdmaWrite (qp rkey va : Nat) (data : List Byte) (s : State) : Host.Outcome State Fault Refusal :=
  if 1024 ≤ qp then .fault .noSuchUnit
  else if !s.connected qp then .next s
  else
    let region := rkey % 2 ^ 8
    if !s.keyOk qp rkey then .next (s.refuseAccess qp)
    else if region = 0x80 then .next (s.cwWrite qp va data)
    else if region = 0x81 then .next (s.stageWrite qp va data)
    else if region < 64 then .next (s.tenWrite ⟨qp, rkey, va, data.length, data, false⟩ region)
    else .next (s.refuseAccess qp)

/-- RDMA_READ_REQUEST (R383, R384). -/
def execRdmaReadRequest (qp rkey va len : Nat) (s : State) : Host.Outcome State Fault Refusal :=
  if 1024 ≤ qp then .fault .noSuchUnit
  else if !s.connected qp then .next s
  else
    let region := rkey % 2 ^ 8
    if !s.keyOk qp rkey then .next (s.refuseAccess qp)
    else if region = 0x80 then .next (s.cwRead qp va len)
    else if region = 0x81 then .next (s.stageRead qp va len)
    else if region < 64 then .next (s.tenRead ⟨qp, rkey, va, len, [], true⟩ region)
    else .next (s.refuseAccess qp)

/-- CW_RDMA_WRITE (21 R526): a WRITE of region 0x80. -/
def execCwRdmaWrite (qp rkey off : Nat) (data : List Byte) (s : State) : Host.Outcome State Fault Refusal :=
  if 1024 ≤ qp then .fault .noSuchUnit
  else if !s.connected qp || rkey % 2 ^ 8 != 0x80 then .next s
  else if !s.keyOk qp rkey then .next (s.refuseAccess qp)
  else .next (s.cwWrite qp off data)

/-! ## Acknowledgements (R380) -/

/-- The stamps due on a pair whose messages leave now (R371, R398). -/
def State.stampDue (s : State) (q : Nat) : State :=
  ((s.qpOf q).sent.filter (·.due)).foldl (fun (s : State) m => s.stampMsg q m.seq) s

/-- Everything unacknowledged on a pair sent again. -/
def State.resend (s : State) (q : Nat) : State :=
  let s := s.setQp q { s.qpOf q with sentAt := s.time (q / 256) }
  if s.sendHeld q then s else s.stampDue q

/-- Messages below a number acknowledged. -/
def State.ackBelow (s : State) (q seq : Nat) : State :=
  let p := s.qpOf q
  (s.setQp q { p with sent := p.sent.filter fun m => decide (seq ≤ m.seq) }).pruneTails

/-- ROCE_ACKNOWLEDGE: every message up to one acknowledged, or a NAK of a sequence error at one, from which all is sent again. -/
def execRoceAcknowledge (qp upto : Nat) (nak : Bool) (s : State) : Host.Outcome State Fault Refusal :=
  if 1024 ≤ qp then .fault .noSuchUnit
  else if !s.connected qp || decide ((s.qpOf qp).next ≤ upto) then .next s
  else if nak then .next ((s.ackBelow qp upto).resend qp)
  else
    let s := s.setQp qp { s.qpOf qp with retries := 0, rnr := 0, rnrAt := none, exhausted := false }
    .next (s.ackBelow qp (upto + 1))

/-! ## The loss of a queue pair (R401) -/

/-- The rows of a pair's batches that have a ring block go to their rings, with what they have sent and not seen acknowledged. -/
def State.toRing (s : State) (o i : Nat) (es : List (List Byte)) : State :=
  (s.modRowOf o i fun r => { r with onRing := true, records := r.records ++ es }).flushRow o i

/-- Whether row i of an admission order has a ring block. -/
def State.hasRing (s : State) (o i : Nat) : Bool :=
  match s.batchByOrder o with
  | some b => match b.rows[i]? with
    | some r => r.req.ringBlk.isSome
    | none => false
  | none => false

/-- The ring records of an entry in a message: a DONE entry is made again as it is written. -/
def entryRecord (kind : Nat) (e : List Byte) : List Byte := if kind = 0x84 then [] else e

/-- The entries of row i in messages of an admission order, in order. -/
def rowEntries (ms : List HostMsg) (o i : Nat) : List (List Byte) :=
  (ms.filter fun m => m.order == o).flatMap fun m => (m.entries.filter fun e => e.1 == i).map fun e => entryRecord m.kind e.2

/-- The deliveries of a message to the rows that a test picks taken back: figures and TOKENS_SENT. -/
def State.undeliver (s : State) (q : Nat) (pick : Nat → Bool) (m : HostMsg) : State :=
  let us := m.undo.filter fun u => pick u.row
  let s := us.foldl (fun (s : State) u => s.unstampRow m.order u) s
  let n := lsum ((us.map (·.row)).map fun i => lsum ((m.entries.filter fun e => e.1 == i).map fun e => entryToks e.2))
  s.setReg (R.HST_CNT2 (q / 256)) ((s.get (R.HST_CNT2_TOKENS_SENT (q / 256)) + 2 ^ 64 - n) % 2 ^ 64)

/-- The rows of a batch that are delivered by messages and have a ring block. -/
def ringable (b : Batch) : List Nat := (b.numbered.filter fun p => !p.1.onRing && p.1.req.ringBlk.isSome).map (·.2)

/-- A pair leaves the connected state for another (0 free, 3 error). -/
def State.loseQp (s : State) (q dest : Nat) : State :=
  let was := s.connected q
  let ten := s.get (qpReg R.HST_QP_TEN q)
  let manager := s.get (qpReg R.HST_QP_ROLE q) == 1
  let msgs := (s.qpOf q).sent
  let live := s.sv.batches.filter fun p => p.2.qp == q && !p.2.noQp
  let reg := (qpReg R.HST_QP_STATE q).reg
  let s := if dest = 0 then s.resetReg reg else s.put (qpReg R.HST_QP_STATE q) dest
  let s : State := { s with ho := { s.ho with
    qps := tdel s.ho.qps q, hellos := s.ho.hellos.filter (· != q), held := s.ho.held.filter fun h => h.q != q } }
  if !was then s
  else
    let mine := live.map (·.2) ++ s.sv.tails.filter fun b => b.qp == q && !b.noQp
    let s := mine.foldl (fun (s : State) b =>
      (msgs.filter fun m => m.order == b.order).reverse.foldl (fun (s : State) m => s.undeliver q (ringable b).contains m) s) s
    let s := mine.foldl (fun (s : State) b => (ringable b).foldl (fun (s : State) i => s.toRing b.order i (rowEntries msgs b.order i)) s) s
    let s := live.foldl (fun (s : State) p => s.cancelNow p.1 (maskOf p.2.liveRows)) s
    let s := s.pruneTails
    if live.isEmpty then s
    else
      let t := if manager then none else some ten
      let (s, seq) := s.raiseSeq (R.HST_ERR_QP_LOST (q / 256)) t 0 noTicket true
      s.sendEvent 0x05 0 t (s.time (q / 256)) [q, 0, 0, seq.getD (2 ^ 64 - 1)]

/-- QP_LOST (R401): a pair leaves the connected state, into error or free; one in another state becomes free. -/
def execQpLost (qp : Nat) (err : Bool) (s : State) : Host.Outcome State Fault Refusal :=
  if 1024 ≤ qp then .fault .noSuchUnit
  else if s.get (qpReg R.HST_QP_STATE qp) = 0 then .next s
  else .next (s.loseQp qp (if err && s.connected qp then 3 else 0))

/-- ROCE_ACK_TIMEOUT: 131 µs without an acknowledgement; after seven retries the pair is lost. -/
def execRoceAckTimeout (qp : Nat) (s : State) : Host.Outcome State Fault Refusal :=
  if 1024 ≤ qp then .fault .noSuchUnit
  else
    let p := s.qpOf qp
    if !s.connected qp || p.sent.isEmpty || s.sendHeld qp || decide (s.time (qp / 256) < p.sentAt + 131000) then .next s
    else if 7 ≤ p.retries then .next (s.loseQp qp 3)
    else .next ((s.setQp qp { p with retries := p.retries + 1 }).resend qp)

/-! ## RNR (R398, R400, R403) -/

/-- A message's words for the entries it still carries. -/
def remade (m : HostMsg) (es : List (Nat × List Byte)) : List Nat :=
  let h := nw m.words 0
  entriesMsg (bits h 0 8) m.kind (nw m.words 1) (bits (nw m.words 2) 0 10) (if m.kind = 0x83 then [nw m.words 3] else []) es

/-- The rows of a refused TOKENS message that switch to their rings, with their entries of it and of the messages after it. -/
def State.switchRings (s : State) (q : Nat) (m : HostMsg) : State :=
  let p := s.qpOf q
  let later := p.sent.filter fun x => decide (m.seq ≤ x.seq)
  let rows := ((m.entries.map (·.1)).filter fun i => s.hasRing m.order i).foldl addNew []
  if rows.isEmpty then s
  else
    let keep (x : HostMsg) : HostMsg :=
      let es := x.entries.filter fun e => !rows.contains e.1
      { x with entries := es, words := remade x es, undo := x.undo.filter fun u => !rows.contains u.row }
    let cut (x : HostMsg) : Option HostMsg :=
      if x.order ≠ m.order ∨ x.seq < m.seq ∨ !(x.entries.any fun e => rows.contains e.1) then some x
      else if (keep x).entries.isEmpty then none else some (keep x)
    let s := s.setQp q { p with sent := p.sent.filterMap cut }
    let s := s.raise (R.HST_ERR_RNR_FALLBACK (q / 256)) (s.qpTen q)
    rows.foldl (fun (s : State) i => s.toRing m.order i (rowEntries later m.order i)) s

/-- RNR_NAK (R398): the receiver had no room for a message; those before it are acknowledged. -/
def execRnrNak (qp seq : Nat) (s : State) : Host.Outcome State Fault Refusal :=
  if 1024 ≤ qp then .fault .noSuchUnit
  else match (s.qpOf qp).sent.find? fun m => m.seq == seq with
    | none => .next s
    | some m =>
      if !s.connected qp then .next s
      else
        let s := s.ackBelow qp seq
        let s := if m.kind = 0x83 then
            let later := (s.qpOf qp).sent.filter fun x => x.order == m.order && x.kind == 0x83
            let s := later.reverse.foldl (fun (s : State) x => s.undeliver qp (fun _ => true) x) s
            let p := s.qpOf qp
            (s.setQp qp { p with sent := p.sent.map fun x =>
              if x.order = m.order ∧ x.kind = 0x83 then { x with undo := [], due := x.due || !x.undo.isEmpty } else x }).switchRings qp m
          else s
        let p := s.qpOf qp
        if p.sent.any fun x => x.seq == seq then .next (s.setQp qp { p with rnr := min 8 (p.rnr + 1), rnrAt := some (s.time (qp / 256)) })
        else .next (s.resend qp)

/-- RNR_TIMER_EXPIRY (R380): 10 µs after the refusal the message is sent again. -/
def execRnrTimerExpiry (qp : Nat) (s : State) : Host.Outcome State Fault Refusal :=
  if 1024 ≤ qp then .fault .noSuchUnit
  else match (s.qpOf qp).rnrAt with
    | some t =>
      if t + 10000 ≤ s.time (qp / 256) then .next ((s.setQp qp { s.qpOf qp with rnrAt := none }).resend qp) else .next s
    | none => .next s

/-- RNR_RETRY_EXHAUSTED (R403): a TOKENS message refused after seven retries. -/
def execRnrRetryExhausted (qp : Nat) (s : State) : Host.Outcome State Fault Refusal :=
  if 1024 ≤ qp then .fault .noSuchUnit
  else
    let p := s.qpOf qp
    match p.sent with
    | [] => .next s
    | m :: _ =>
      if m.kind = 0x83 ∧ 8 ≤ p.rnr ∧ p.exhausted = false then
        .next ((s.setQp qp { p with exhausted := true }).raise (R.HST_ERR_RNR_EXHAUSTED (qp / 256)) (s.qpTen qp))
      else .next s

/-! ## Rings' consumer words (R399) -/

/-- RING_CONS_POLL: 2 µs after the last read, while the ring of row i of a batch, named by its admission order, stays full. -/
def execRingConsPoll (order row : Nat) (s : State) : Host.Outcome State Fault Refusal :=
  match s.batchByOrder order with
  | none => .next s
  | some b =>
    match b.rows[row]? with
    | none => .next s
    | some r =>
      match r.consAsked, r.req.ringBlk with
      | some t, some k =>
        let now := s.time (b.qp / 256)
        if r.records.isEmpty ∨ now < t + 2000 then .next s
        else .next ((s.askCons b.qp order row k).modRowOf order row fun r => { r with consAsked := some now })
      | _, _ => .next s

/-- RDMA_READ_RESPONSE: the consumer word read; what waits is written as far as there is room. -/
def execRdmaReadResponse (order row value : Nat) (s : State) : Host.Outcome State Fault Refusal :=
  let s := s.consRead order row
  match s.batchByOrder order with
  | none => .next s
  | some b =>
    match b.rows[row]? with
    | none => .next s
    | some r =>
      if r.consAsked.isNone then .next s
      else
        let s := (s.modRowOf order row fun r => { r with cons := value % 2 ^ 64 }).flushRow order row
        .next (s.modRowOf order row fun r => if r.records.isEmpty then { r with consAsked := none } else r)

/-! ## Connections (R381) -/

/-- The lowest free queue pair of a port, with no batch left from an earlier connection. -/
def State.freeQp (s : State) (port : Nat) : Option Nat :=
  ((List.range 256).map (256 * port + ·)).find? fun q => s.get (qpReg R.HST_QP_STATE q) == 0 &&
    !(s.sv.batches.any fun p => p.2.qp == q) && !(s.sv.tails.any fun b => b.qp == q)

/-- CM_REQ: a connection asked for by a remote queue pair, with its private data. -/
def execCmReq (port remote priv : Nat) (s : State) : Host.Outcome State Fault Refusal :=
  if 4 ≤ port then .fault .noSuchUnit
  else if s.get (R.HST_CTL_EN port) = 0 then .next s
  else
    let role := bits priv 8 1
    let ten := bits priv 9 6
    let ok : Bool := bits priv 0 8 == 1 &&
      (if role = 0 then !s.closing ten && s.tenPort ten == port else s.get (R.HST_CTL_MANAGE port) == 1)
    match (if ok then s.freeQp port else none) with
    | none => .next (s.hostOut (.cm port 1))
    | some q =>
      let s := ((s.put (qpReg R.HST_QP_STATE q) 1).put (qpReg R.HST_QP_ROLE q) role).put (qpReg R.HST_QP_TEN q) (if role = 0 then ten else 0)
      let s := (s.put (qpReg R.HST_QP_REMOTE_QPN q) remote).setQp q {}
      .next (s.hostOut (.cm port 0))

/-- CM_RTU: a connecting pair is connected. -/
def execCmRtu (qp : Nat) (s : State) : Host.Outcome State Fault Refusal :=
  if 1024 ≤ qp then .fault .noSuchUnit
  else if s.get (qpReg R.HST_QP_STATE qp) = 1 then .next (s.put (qpReg R.HST_QP_STATE qp) 2) else .next s

/-! ## Loss and congestion (R378, R379, R382) -/

/-- HOST_FRAME_DROP: a frame dropped and counted; a packet outside the subset is answered on its pair. -/
def execHostFrameDrop (port : Nat) (why : HostDrop) (s : State) : Host.Outcome State Fault Refusal :=
  if 4 ≤ port then .fault .noSuchUnit
  else match why with
    | .oversize => .next (s.raise (R.HST_ERR_OVERSIZE port) none)
    | .fec => .next (s.raise (R.HST_ERR_FEC_UNCORR port) none)
    | .fcs => .next (s.raise (R.HST_ERR_FEC_UNCORR port) none)
    | .unsupported q =>
      let mine := decide (q / 256 = port) && s.connected q
      let s := s.raise (R.HST_ERR_UNSUPPORTED port) (if mine then s.qpTen q else none)
      .next (if mine then s.hostOut (.nak q 0) else s)

/-- ECN_MARKED_RECEIVE: a CNP returned, at most one per pair per 50 µs. -/
def execEcnMarkedReceive (qp : Nat) (s : State) : Host.Outcome State Fault Refusal :=
  if 1024 ≤ qp then .fault .noSuchUnit
  else if !s.connected qp then .next s
  else
    let p := s.qpOf qp
    let now := s.time (qp / 256)
    let early : Bool := match p.cnpSent with
      | some t => decide (now < t + 50000)
      | none => false
    if early then .next s else .next ((s.setQp qp { p with cnpSent := some now }).hostOut (.cnp qp))

/-- CNP_RECEIVE: the send rate halves, to 1 Gb/s at least. -/
def execCnpReceive (qp : Nat) (s : State) : Host.Outcome State Fault Refusal :=
  if 1024 ≤ qp then .fault .noSuchUnit
  else if !s.connected qp then .next s
  else
    let p := s.qpOf qp
    .next (s.setQp qp { p with rate := max 1000000 (p.rate / 2), cnpAt := s.time (qp / 256) })

/-- RATE_RECOVERY: 55 µs without a CNP raise the rate by 5 Gb/s, to the line rate at most. -/
def execRateRecovery (qp : Nat) (s : State) : Host.Outcome State Fault Refusal :=
  if 1024 ≤ qp then .fault .noSuchUnit
  else
    let p := s.qpOf qp
    let now := s.time (qp / 256)
    if !s.connected qp || decide (now < p.cnpAt + 55000) || decide (200000000 ≤ p.rate) then .next s
    else .next (s.setQp qp { p with rate := min 200000000 (p.rate + 5000000), cnpAt := now })

/-- A port's pause over: the messages that waited leave. -/
def State.unpause (s : State) (port : Nat) : State :=
  let s : State := { s with ho := { s.ho with paused := tdel s.ho.paused port } }
  ((s.ho.qps.map (·.1)).filter fun q => q / 256 == port && (s.qpOf q).rnrAt.isNone).foldl State.stampDue s

/-- PFC_PAUSE_RECEIVE: with PFC_EN, a pause of the port's priority for some ns; 0 ends it. -/
def execPfcPauseReceive (port prio ns : Nat) (s : State) : Host.Outcome State Fault Refusal :=
  if 4 ≤ port then .fault .noSuchUnit
  else if s.get (R.HST_CTL_PFC_EN port) = 0 ∨ s.get (R.HST_CTL_PFC_PRIO port) ≠ prio then .next s
  else if ns = 0 then .next (s.unpause port)
  else .next { s with ho := { s.ho with paused := tset s.ho.paused port (s.time port + ns) } }

/-- PFC_PAUSE_EXPIRY. -/
def execPfcPauseExpiry (port : Nat) (s : State) : Host.Outcome State Fault Refusal :=
  if 4 ≤ port then .fault .noSuchUnit
  else match tfind s.ho.paused port with
    | some t => if t ≤ s.time port then .next (s.unpause port) else .next s
    | none => .next s

end Sys2Proof.Machine
end

