-- ==== Sys2Proof/Machine/Side.lean ====
section
/-!
DEFINITION. The sideband (24 R569 to R574): reset, straps, the I3C target, boundary scan; and the stages of bring-up (25).
-/
namespace Sys2Proof.Machine

/-! ## Pins (R569) -/

/-- RST_N_ASSERT (R569, 25 R576, R578): every domain but 48 and 49 in reset, bring-up at stage 1 again; a controlled shutdown is
not interrupted. -/
def execRstNAssert (s : State) : Host.Outcome State Fault Refusal :=
  if s.pw.rstLow then .next s
  else if s.get R.PWR_STS_SHUTDOWN = 1 ∨ s.pw.asleep then .next { s with pw := { s.pw with rstLow := true } }
  else
    let s : State := { s.resetDies with pw := { s.pw with rstLow := true, queue := [] } }
    .next (s.gatePending.startBringUp (if s.get R.SEC_STS_STAGE = 1 then 1 else 0))

/-- RST_N_RELEASE (02 R40, R569): the meters start from zero. What the TAP drives ends with the reset (R573). -/
def execRstNRelease (s : State) : Host.Outcome State Fault Refusal :=
  if !s.pw.rstLow then .next s
  else .next { s with
    pw := { s.pw with rstLow := false }, pt := { s.pt with meters := [] }
    sb := { s.sb with tap := if 3 ≤ s.sb.tap then 0 else s.sb.tap } }

/-- VDDIO_SB_RISE (R569): the first rise reads the straps, 2 * SB_ADDR1 + SB_ADDR0. -/
def execVddioSbRise (strap : Nat) (s : State) : Host.Outcome State Fault Refusal :=
  if s.sb.vddio then .next s
  else .next { s with sb := { s.sb with vddio := true, strap := strap % 4, dyn := none, sample := none } }

/-! ## The I3C target (R570 to R572) -/

/-- The static address. -/
def State.staticAddr (s : State) : Nat := 0x50 + s.sb.strap

/-- Whether the target answers: VDDIO_SB and the input are present. -/
def State.sideUp (s : State) : Bool := s.sb.vddio && s.pw.charged

/-- Whether a transfer at an address is for this target: at the dynamic address, or at the static one before it is assigned. -/
def State.addressed (s : State) (addr : Nat) : Bool := s.sideUp && addr == s.sb.dyn.getD s.staticAddr

/-- A transfer's answer on the bus. -/
def State.ackWith (s : State) (reply : List Nat) : State := { s with sb := { s.sb with acked := true, reply := reply } }
def State.nack (s : State) : State := { s with sb := { s.sb with acked := false, reply := [] } }

/-- Whether the island's limited view holds: RST_N low, or the steward not running. -/
def State.limited (s : State) : Bool := s.pw.rstLow || s.get R.SEC_STS_STAGE != 1

/-- The block of Table 21.1 that an offset lies in, of the four that I3C reaches: MOD 0, PWR 1, SEC 2, ERR 3. -/
def sideBlock (off : Nat) : Nat := off / 2 ^ 20

/-- A register as I3C reads it (R572). -/
def State.sideView (s : State) (off : Nat) : Nat :=
  if 4 ≤ sideBlock off then 0
  else if !s.limited || decide (2 ≤ sideBlock off) then s.view off
  else if off = R.PWR_CTL then s.view off &&& 2
  else 0

/-- A register as I3C writes it (R572). -/
def State.sideWrite (s : State) (off v : Nat) : State :=
  if 4 ≤ sideBlock off then s
  else if !s.limited || decide (2 ≤ sideBlock off) then s.regWrite .steward off v
  else if off = R.PWR_CTL then s.regWrite .steward off (setBits (s.view off) 1 1 (bits v 1 1))
  else s

/-- A private transfer: acknowledged when it is for this target and its form is right. -/
def State.sideRow (s : State) (addr : Nat) (ok : Bool) (act : State → State) : Host.Outcome State Fault Refusal :=
  if s.addressed addr && ok then .next (act s) else .next s.nack

/-- I3C_READ (R571): OP READ samples the register. -/
def execI3cRead (addr off : Nat) (s : State) : Host.Outcome State Fault Refusal :=
  s.sideRow addr (off % 8 == 0) fun s =>
    (({ s with sb := { s.sb with sample := some (s.sideView off) } } : State)).ackWith []

/-- I3C_WRITE (R571, R572). -/
def execI3cWrite (addr off v : Nat) (s : State) : Host.Outcome State Fault Refusal :=
  s.sideRow addr (off % 8 == 0) fun s => (s.sideWrite off (v % 2 ^ 64)).ackWith []

/-- I3C_PRIVATE_READ (R571): the register sampled, all ones before the first READ. -/
def execI3cPrivateRead (addr : Nat) (s : State) : Host.Outcome State Fault Refusal :=
  s.sideRow addr true fun s => s.ackWith ((leBytes 8 (s.sb.sample.getD (2 ^ 64 - 1))).map (·.toNat))

/-- The bytes of the recovery buffer. -/
def recoveryBytes : Nat := 67108864

/-- RECOV_DATA (R571, R572): 1 to 256 bytes, taken only while boot has failed. -/
def execRecovData (addr : Nat) (data : List Byte) (s : State) : Host.Outcome State Fault Refusal :=
  let n := s.se.recovery
  let ok := decide (0 < data.length) && decide (data.length ≤ 256) && decide (n + data.length ≤ recoveryBytes) && s.get R.SEC_STS_STAGE == 2
  s.sideRow addr ok fun s =>
    let s := s.writeRun (key spRecovery n) data
    (({ s with se := { s.se with recovery := n + data.length } } : State)).ackWith []

/-- The recovery of R572: the buffer checked, programmed into slot A and named ACTIVE, and the boot chain run again. The buffer is
then empty. -/
def State.recover (s : State) : State :=
  let bs := s.run (key spRecovery 0) s.se.recovery
  let s : State := { s.clearRun (key spRecovery 0) recoveryBytes with se := { s.se with recovery := 0 } }
  match s.firmware bs with
  | .error _ => s.raise R.SEC_ERR_BOOT_SLOT_FAIL none
  | .ok _ =>
    if !s.nvOk then s.raise R.SEC_ERR_BOOT_SLOT_FAIL none
    else
      let s := (s.clearRun (slotAt 0) slotBytes).writeRun (slotAt 0) bs
      ((s.writeBoot { s.bootCtl with active := 0 }).put R.SEC_STS_STAGE 0).bootRun

/-- RECOV_END (R572). -/
def execRecovEnd (addr : Nat) (s : State) : Host.Outcome State Fault Refusal :=
  s.sideRow addr (s.get R.SEC_STS_STAGE == 2) fun s => s.recover.ackWith []

/-- A dynamic address taken. -/
def State.setDyn (s : State) (a : Option Nat) : State := (({ s with sb := { s.sb with dyn := a, sample := none } } : State)).ackWith []

/-- ENTDAA (R570): the target without a dynamic address takes the one given. -/
def execEntdaa (dyn : Nat) (s : State) : Host.Outcome State Fault Refusal :=
  if s.sideUp && s.sb.dyn.isNone then .next (s.setDyn (some (dyn % 128))) else .next s.nack

/-- SETDASA (R570): the target at a static address. -/
def execSetdasa (static dyn : Nat) (s : State) : Host.Outcome State Fault Refusal :=
  if s.sideUp && s.sb.dyn.isNone && static == s.staticAddr then .next (s.setDyn (some (dyn % 128))) else .next s.nack

/-- RSTDAA (R570). -/
def execRstdaa (s : State) : Host.Outcome State Fault Refusal := if s.sideUp then .next (s.setDyn none) else .next s.nack

/-- SETNEWDA (R570). -/
def execSetnewda (addr dyn : Nat) (s : State) : Host.Outcome State Fault Refusal :=
  if s.sideUp && s.sb.dyn == some addr then .next (s.setDyn (some (dyn % 128))) else .next s.nack

/-- A common command that reads, at the dynamic address. -/
def State.getRow (s : State) (addr : Nat) (reply : List Nat) : Host.Outcome State Fault Refusal :=
  if s.sideUp && s.sb.dyn == some addr then .next (s.ackWith reply) else .next s.nack

/-- The provisioned ID's bytes, most significant first. -/
def State.pid (s : State) : List Nat :=
  (beBytes 6 (0x1A6B * 2 ^ 33 + 0x4800 * 2 ^ 16 + s.sb.strap * 2 ^ 14)).map (·.toNat)

/-- GETPID, GETBCR, GETDCR, GETMWL and GETMRL (R570). -/
def execGetpid (addr : Nat) (s : State) : Host.Outcome State Fault Refusal := s.getRow addr s.pid
def execGetbcr (addr : Nat) (s : State) : Host.Outcome State Fault Refusal := s.getRow addr [0x00]
def execGetdcr (addr : Nat) (s : State) : Host.Outcome State Fault Refusal := s.getRow addr [0x00]
def execGetmwl (addr : Nat) (s : State) : Host.Outcome State Fault Refusal := s.getRow addr [0x01, 0x05]
def execGetmrl (addr : Nat) (s : State) : Host.Outcome State Fault Refusal := s.getRow addr [0x00, 0x08]

/-- GETSTATUS (R570): two bytes whose contents the manual does not give. -/
def execGetstatus (addr : Nat) (s : State) : Host.Outcome State Fault Refusal :=
  let (v, s) := s.takeFree
  s.getRow addr [v % 256, v / 256 % 256]

/-! ## Boundary scan (R573, R574) -/

/-- The TAP's instruction in force, and what the register it selects captures. -/
def State.setTap (s : State) (op dr : Nat) : State := { s with sb := { s.sb with tap := op, dr := dr } }

/-- The IDCODE. -/
def State.idcode (s : State) : Nat := s.get R.MOD_ID_STEPPING % 16 * 2 ^ 28 + 0x4800 * 2 ^ 12 + 0x6D2 * 2 + 1

/-- BYPASS. -/
def execBypass (s : State) : Host.Outcome State Fault Refusal := .next (s.setTap 0 0)
/-- IDCODE (R574). -/
def execIdcode (s : State) : Host.Outcome State Fault Refusal := .next (s.setTap 1 s.idcode)
/-- SAMPLE_PRELOAD (R573): what is sampled at the pins and then shifted in is the operand. -/
def execSamplePreload (cells : List Bool) (s : State) : Host.Outcome State Fault Refusal :=
  .next ({ s.setTap 2 0 with sb := { s.sb with tap := 2, dr := 0, boundary := cells } } : State)
/-- EXTEST, CLAMP and HIGHZ (R573): in force only while RST_N is low, else as BYPASS. -/
def execExtest (s : State) : Host.Outcome State Fault Refusal := .next (s.setTap (if s.pw.rstLow then 3 else 0) 0)
def execClamp (s : State) : Host.Outcome State Fault Refusal := .next (s.setTap (if s.pw.rstLow then 4 else 0) 0)
def execHighz (s : State) : Host.Outcome State Fault Refusal := .next (s.setTap (if s.pw.rstLow then 5 else 0) 0)

/-! ## Bring-up (25 R575 to R584) -/

/-- A stage ends (R576). -/
def State.stageEnds (s : State) (next : Nat) : State := (s.put R.ERR_BRING_STAGE next).setReg R.ERR_BRING_T (s.time 0)

/-- Bring-up halts on a bit (R577). -/
def State.halts (s : State) (block : Nat) (f : Field) : State :=
  let s := s.raise f none
  ((s.put R.ERR_BRING_HALTED 1).put R.ERR_BRING_BLOCK block).put R.ERR_BRING_BIT f.lo

/-- Stage 2 (R579): the epoch above the boot control block's. -/
def State.stageEpoch (s : State) (written : Bool) : State :=
  if !s.nvOk then s
  else if !written then s.halts 2 R.SEC_ERR_BFW_FAIL
  else
    let e := (s.bootCtl.epoch + 1) % 2 ^ 32
    ((s.writeBoot { s.bootCtl with epoch := e }).evenStore.put R.TWN_EPOCH_EPOCH e).stageEnds 3

/-- A channel group that failed training (07 R193). -/
def State.groupFails (s : State) (g : Nat × Nat) : State :=
  if g.1 < 16 ∧ g.2 < 8 then s.retireGroup g.1 g.2 else s

/-- A row of the retirement list after stage 3's repair. -/
def State.rowRepaired (s : State) (p : (Nat × Nat) × Bool) : State :=
  if p.2 then { s with vm := { s.vm with retireList := s.vm.retireList.erase p.1 } }
  else
    let f := p.1.1
    let s := s.raiseAt R.MEM_ERR_PPR_FAIL none f noTicket
    let s := if s.vm.retired.contains f || s.groupGone f then s else s.bump (R.MEM_STACK_FRAMES_RETIRED (f / 32768)) 1
    { s with vm := { s.vm with retired := addNew s.vm.retired f } }

/-- Stage 3 (R580). -/
def State.stageGranary (s : State) (r : StageRes) : State :=
  let s := r.groups.foldl State.groupFails s
  if (List.range 16).all fun n => s.get (R.MEM_STACK_GROUPS_RETIRED n) == 255 then s.halts 9 R.MEM_ERR_GROUP_RETIRED
  else
    let rows := s.vm.retireList.zipIdx.map fun p => (p.1, (r.repaired[p.2]?).getD false)
    (rows.foldl State.rowRepaired s).stageEnds 4

/-- Stage 4 (R581). -/
def State.stageCellar (s : State) (r : StageRes) : State :=
  let s := r.channels.foldl State.channelFail s
  if s.get R.CEL_STS_CH_FAIL = 2 ^ 32 - 1 then s.halts 8 R.CEL_ERR_CHANNEL_FAIL
  else
    let n := s.nv.regions
    let s := ((s.put R.CEL_STORE_STORE n.1).put R.CEL_SPILL_SPILL n.2).endCheck .cel 0
    if s.get R.CEL_CTL_EN = 1 then s.stageEnds 5 else s

/-- A lane disabled under its fault bit. -/
def State.laneFails (s : State) (f err : Field) : State := (s.put f 0).raise err none

/-- Stage 5 (R582). -/
def State.stageTest (s : State) (r : StageRes) : State :=
  let s := (r.engines.filter fun e => decide (e.1 < 104) && decide (e.2 < 7)).foldl
    (fun (s : State) e => (s.raise ⟨R.ENG_ERR e.1, e.2, 1⟩ none).retireEngine e.1) s
  let s := (r.scans.filter fun e => decide (e.1 < 16) && decide (e.2 < 5)).foldl (fun (s : State) e => s.raise ⟨R.SCN_ERR e.1, e.2, 1⟩ none) s
  let s := (r.tokLanes.filter (decide <| · < 16)).foldl (fun (s : State) l => s.laneFails ⟨R.TXT_CTL, 16 + l, 1⟩ R.TXT_ERR_LANE_FAULT) s
  let s := (r.detLanes.filter (decide <| · < 16)).foldl (fun (s : State) l => s.laneFails ⟨R.TXT_CTL, 32 + l, 1⟩ R.TXT_ERR_LANE_FAULT) s
  let s := (r.maskLanes.filter (decide <| · < 32)).foldl (fun (s : State) l => s.laneFails ⟨R.TXT_GRM_CTL, 32 + l, 1⟩ R.TXT_GRM_ERR_LANE_FAULT) s
  s.stageEnds 6

/-- Stage 6 (R583). -/
def State.stagePorts (s : State) : State :=
  let s := (List.range 4).foldl (fun (s : State) n => ((s.resetReg (R.HST_CTL n)).put (R.HST_CTL_MANAGE n) 1).endCheck .hst n) s
  if (List.range 4).all fun n => s.get (R.HST_CTL_EN n) == 1 then s.stageEnds 7 else s

/-- An image of the store region checked and placed; a refused one is trimmed, unless NV_OK is 0 (R578, R584). -/
def State.stageImage (s : State) (i : Nat) : State :=
  match tfind s.nv.images i with
  | none => s
  | some (n, c) =>
    match s.loadImage i (s.run (key (spImage i) 0) n) c true with
    | .ok s => s
    | .error _ =>
      let s := s.raise R.SEC_ERR_IMG_REFUSED none
      if s.nvOk then { s.clearRun (key (spImage i) 0) (2 ^ 56) with nv := { s.nv with images := tdel s.nv.images i } } else s

/-- Stage 7 (R584). -/
def State.stageImages (s : State) (r : StageRes) : State :=
  let s := ((s.put R.MEM_RESV_OASIS r.reserve.1).put R.MEM_RESV_GRANARY r.reserve.2).endCheck .mem 0
  if s.get R.MEM_CTL_EN = 0 then s
  else (((tkeys s.nv.images).foldl State.stageImage s).put R.ERR_BRING_DONE 1).stageEnds 7

/-- BRING_UP_STAGE_END (Table 25.1): the stage in progress ends, and the next begins; or it halts; or it has not ended. -/
def execBringUpStageEnd (r : StageRes) (s : State) : Host.Outcome State Fault Refusal :=
  if s.get R.ERR_BRING_DONE = 1 ∨ s.get R.ERR_BRING_HALTED = 1 ∨ s.pw.asleep ∨ s.get R.PWR_STS_SHUTDOWN = 1 then .next s
  else match s.get R.ERR_BRING_STAGE with
    | 0 =>
      if s.get R.SEC_STS_STAGE = 1 then
        let s : State := { s with pw := { s.pw with pwrgd := true } }
        .next ((s.put R.PWR_DOM_STS_POWERED allDomains).stageEnds 1)
      else if s.get R.SEC_STS_STAGE = 2 then .next (s.halts 2 R.SEC_ERR_BOOT_SLOT_FAIL)
      else .next s
    | 1 => if s.pw.rstLow ∨ s.pw.pwrgd = false ∨ !s.nvOk then .next s else .next (s.stageEnds 2)
    | 2 => .next (s.stageEpoch r.written)
    | 3 => .next (s.stageGranary r)
    | 4 => .next (s.stageCellar r)
    | 5 => .next (s.stageTest r)
    | 6 => .next s.stagePorts
    | _ => .next (s.stageImages r)

end Sys2Proof.Machine
end

