-- ==== Sys2Proof/Machine/Commit.lean ====
section
/-!
DEFINITION. The commit arbiter (02 R14 to R22, R27, 03 R54, 04 R91 to R98, R104, R105, R588): whether a Ready command,
turn or move is granted, and what its commit makes visible at one instant.
-/
namespace Sys2Proof.Machine

/-! ## Effects -/

/-- The writes of an effect, each at the key of the page that holds it as the commit finds the mapping. -/
def State.effWrites (s : State) (k : Nat) (bs : List Byte) : List (Nat × List Byte) :=
  if k / 2 ^ 56 < 64 then s.spread (k / 2 ^ 56) (k % 2 ^ 56) bs else [(k, bs)]

/-- A fill's bytes: its 64-bit pattern repeated. -/
def patternBytes (len pattern : Nat) : List Byte := (List.replicate (ceilDiv len 8) (leBytes 8 pattern)).flatten.take len

/-- The writes that a list of effects makes. -/
def State.allWrites (s : State) (es : List Effect) : List (Nat × List Byte) :=
  es.flatMap fun e => match e with
    | .write k bs => s.effWrites k bs
    | .fill k n p => s.effWrites k (patternBytes n p)
    | _ => []

/-- The granules of a list of writes. -/
def granulesOf (ws : List (Nat × List Byte)) : List Nat := (ws.flatMap fun w => granulesIn w.1 w.2.length).foldl addNew []

/-- The writes of a commit made: the boot flash has no homes to copy back to. -/
def State.putAll (s : State) (ws : List (Nat × List Byte)) : State :=
  ((ws.filter fun w => w.1 / 2 ^ 56 == spFlash).foldl (fun (s : State) w => s.writeRun w.1 w.2) s).commitWrites
    (ws.filter fun w => w.1 / 2 ^ 56 != spFlash)

/-- A well refilled (R106). -/
def State.refill (s : State) (n base limit step : Nat) : State :=
  let s := (s.setReg (R.WEL_BASE n) base).setReg (R.WEL_LIMIT n) limit
  let s := (s.put (R.WEL_STEP_STEP n) step).setReg (R.WEL_NEXT n) base
  s.setReg (R.WEL_CNT n) 0

/-- An effect other than a write, made at the commit point. -/
def State.applyEff (s : State) (e : Effect) : State :=
  match e with
  | .wellFill n base limit step => s.refill n base limit step
  | .stream n v => { s with tx := { s.tx with streams := match v with
      | some x => tset s.tx.streams n x
      | none => tdel s.tx.streams n } }
  | .count reg lo w n => s.bump ⟨reg, lo, w⟩ n
  | .embSwap table addr d => s.installDesc table addr d
  | .send _ _ | .msg _ _ => s.sendEff e
  | .write _ _ | .fill _ _ _ | .work _ _ _ _ | .late => s

/-! ## What a command comes to at its commit point -/

/-- Whether a command is the receiver of a halo whose sender is void (06 R147). -/
def State.haloVoid (s : State) (t : Nat) (c : Cmd) : Bool :=
  c.isPass && (passBody c.seen).haloRecv != 0 && ((s.before t).any fun a => a.st == .void)

/-- A refusal at the commit point, by a dependency or a sender found void then (R91, 06 R147). An Irrevocable command has made its effect. -/
def State.voidDep (s : State) (t : Nat) (c : Cmd) (d : Done) : Done :=
  if c.st != .irrevocable && d.status == stDone && ((dDeps c.words).any s.isVoid || s.haloVoid t c) then ⟨stDepVoid, [], []⟩ else d

/-- A `well.fill` that finds values returned at its commit (R106). -/
def State.fillBusy (s : State) (c : Cmd) (d : Done) : Bool :=
  dClass c.words == 0x0B && d.status == stDone && !(s.well (bits (c.body 0) 0 7)).returned.isEmpty

/-- What a command has made ready, as the state at the commit point has it (R91, R106, R588, 17 R456). -/
def State.doneNow (s : State) (t : Nat) (c : Cmd) (d : Done) : Done :=
  let d := s.voidDep t c d
  if s.fillBusy c d then ⟨stWellBusy, [], []⟩
  else if d.status = stDone ∧ dClass c.words = 0x06 ∧ dOp c.words = 0x03 then
    { d with res := swapRes (s.get (R.EMB_TAB_STS_VERSION (bits (c.body 0) 0 5))) }
  else if d.status ≠ stDepVoid ∧ dClass c.words = 0x05 ∧ 0x10 ≤ dOp c.words then s.grmDone c d else d

/-- The writes that a class's own commit makes of itself and that are clashes: the directory entries of a `scan.fold`; the
entries appended to a side list are exempt (02 R22). -/
def State.lateGranules (s : State) (c : Cmd) : List Nat :=
  if dClass c.words = 0x02 ∧ dOp c.words = 0x06 then
    let x := bits (c.body 1) 0 6
    let h := s.idx x
    ((s.folds c).flatMap fun u =>
      granulesIn (key (s.idxTen x (h.dir + 32 * u.1)) (h.dir + 32 * u.1)) 32).foldl addNew []
  else []

/-- The effect that the class of a command decides at the commit point: the state, the status, the results, the granules. -/
def State.lateCommit (s : State) (t : Nat) (c : Cmd) (d : Done) : State × Nat × List Nat × List Nat :=
  match dClass c.words with
  | 0x04 =>
    let r := s.driftCommit t c
    (r.1, r.2.1, r.2.2, [])
  | 0x02 =>
    let gs := s.lateGranules c
    let r := s.scanCommit t c
    (r.1, r.2.1, r.2.2, if r.2.1 = stDone then gs else [])
  | 0x05 =>
    let r := s.grmCommit c s.x.serial
    (r.1, stDone, r.2, [])
  | _ => (s, d.status, d.res, [])

/-- The effects of a command made at the commit point: the state, the status, the results and the granules written. -/
def State.effects (s : State) (t : Nat) (c : Cmd) (d : Done) : State × Nat × List Nat × List Nat :=
  if d.effs.contains .late then s.lateCommit t c d
  else
    let ws := s.allWrites d.effs
    let s := s.putAll ws
    (d.effs.foldl State.applyEff s, d.status, d.res, granulesOf (ws.filter fun w => w.1 / 2 ^ 56 != spFlash))

/-! ## The record (R93, R94) -/

/-- The first word of a completion record (Table 4.4). -/
def recordWord (status attempts lastKill tag : Nat) : Nat :=
  1 + status * 2 ^ 8 + attempts * 2 ^ 16 + lastKill * 2 ^ 24 + tag * 2 ^ 32

/-- The address of a command's slot in its queue's completion ring. -/
def Queue.slot (q : Queue) (seq : Nat) : Nat := q.ringBase + seq % q.ringSize * 64

/-- A completion record's eight words. -/
def recordWords (w0 t serial lease : Nat) (res : List Nat) : List Nat :=
  [w0, t, serial, lease] ++ (List.range 4).map fun i => nth res i 0

/-- A record as the writes that put it into its slot. -/
def State.recordWrites (s : State) (q : Queue) (t : Nat) (ws : List Nat) : List (Nat × List Byte) :=
  s.spread q.ten (q.slot (seqOf t)) (bytesOf ws)

/-! ## Commands -/

/-- Whether a lease of a drawer is fenced (R18, R105). -/
def State.hasFenced (s : State) (mine : Drawer → Bool) : Bool := s.x.wells.any fun p => p.2.fenced.any fun l => mine l.drawer

/-- The attempt that drew a fenced lease, presented for commit by its lost unit: refused, and the entry freed (R105). -/
def State.lateAttempt (s : State) (mine : Drawer → Bool) (ten ticket : Nat) : State :=
  s.x.wells.foldl (fun (s : State) p =>
    if p.2.fenced.any fun l => mine l.drawer then
      (s.setWell p.1 { s.well p.1 with fenced := (s.well p.1).fenced.filter fun l => !mine l.drawer }).raiseAt
        (R.WEL_ERR_LATE_COMMIT p.1) (some ten) p.1 ticket
    else s) s

/-- Whether a `well.fill` finds a lease of its well live (R106): it is not granted. -/
def State.fillWaits (s : State) (c : Cmd) : Bool :=
  dClass c.words == 0x0B && (c.done.any fun d => d.status == stDone) && !(s.well (bits (c.body 0) 0 7)).live.isEmpty

/-- Whether the commit dependencies of a command are over: its words (R90), and the command before it in its queue (R92); a `well.fill`
also waits for the leases of its well, a `drift.unmap` for what holds a page of its range (07 R174). -/
def State.commitReady (s : State) (t : Nat) (c : Cmd) : Bool :=
  (c.depBad || (dDeps c.words).all s.isOver) && (seqOf t == 0 || s.isOver (t - 1)) && !s.fillWaits c && !s.unmapWaits c

/-- Whether a command's state lets it commit: Ready outside a controlled shutdown and under a current epoch, or
Irrevocable with its effect complete (R18, R35, 19 R491). -/
def State.commitState (s : State) (c : Cmd) : Bool :=
  match c.st with
  | .ready => s.get R.PWR_STS_SHUTDOWN == 0 && c.epoch == s.epochOf (dClass c.words) c.unit
  | .irrevocable => c.nkDone
  | _ => false

/-- The holds on pages for the rerun that has committed end (02 R30). -/
def State.unhold (s : State) (who : Drawer) : State :=
  { s with vm := { s.vm with pages := tmap (fun _ (p : Page) =>
    if p.holdFor.contains who then { p with holdFor := p.holdFor.erase who, held := p.held && p.holdFor.length != 1 } else p) s.vm.pages } }

/-- A command's own operations at peers are over. -/
def State.endOps (s : State) (t : Nat) : State := { s with fa := { s.fa with ops := tfilter (fun _ o => o.ticket != t) s.fa.ops } }

/-- The commit of a command (R19, R20, R22, R30, R31, R93, R95, R104). -/
def State.commitCmd (s : State) (t : Nat) (c : Cmd) (q : Queue) (d : Done) : State :=
  let s := { s with x := { s.x with serial := s.x.serial + 1 } }
  let d := s.doneNow t c d
  let (s, status, res, gs) := s.effects t c d
  let w0 := recordWord status c.attempts c.lastKill (dTag c.words)
  let lease := match c.lease with
    | some l => l.2
    | none => 2 ^ 64 - 1
  let rs := s.recordWrites q t (recordWords w0 t s.x.serial lease res)
  let s := s.putAll rs
  let s := s.setCmd t { c with
    st := .committed, record := w0, done := none, reads := [], far := [], tiles := 0, await := [], sheltered := false,
    kills := 0, transKills := 0 }
  let s := ((s.consumeLeases (Drawer.isCmd t)).endOps t).unhold (.cmd t)
  let s : State := { s with em := { s.em with released := s.em.released.erase t } }
  let s := s.clash (.cmd t) ((gs ++ granulesOf rs).foldl addNew [])
  let s := if dClass c.words = 0x0B ∧ status = stWellBusy then s.raiseAt (R.WEL_ERR_BUSY_FILL (bits (c.body 0) 0 7)) (some c.ten) (bits (c.body 0) 0 7) t else s
  let s := if 1 ≤ status ∧ status < 0x40 then (s.logKind 10 (dClass c.words) 1 status (some c.ten) (dTag c.words) t false).1 else s
  (s.overrun (.cmd t) c.sheltered).settleLeaving c.ten

/-- The store pages that a `cel.trim` is to write and that have left their images since it ran: it faults again (07 R161, R183). -/
def State.trimAway (s : State) (c : Cmd) : List Nat :=
  if dClass c.words = 0x08 ∧ dOp c.words = 0x03 ∧ c.st = .ready then c.pages.filter fun pk => (s.page pk).any fun p => p.st != 3 else []

/-- The grant of a command: not before its record's page can be written, which is resolved as for any write while the command
waits in Ready (R94); accesses wait while MEM_REFCLK is absent (23 R556). -/
def State.grantCmd (s : State) (t : Nat) (c : Cmd) (q : Queue) : State :=
  match c.done with
  | none => s
  | some d =>
    if !(s.commitState c && s.commitReady t c) || s.pw.absent.contains 5 then s
    else if s.grmStale c d then s.setCmd t { c with st := .running, done := none, reads := [], far := [] }
    else if s.trimAway c ≠ [] then s.accStop t c (.fault (s.trimAway c))
    else match s.access .unit q.ten [] [(q.slot (seqOf t), 64)] with
      | .fault ps => if ps.all s.vm.awaited.contains then s else s.awaitPages ps
      | _ => s.commitCmd t c q d

/-- Whether a command is presented late: what stands under its ticket waits for no grant, and a lost unit drew a lease for an
earlier attempt. -/
def Cmd.waits (c : Cmd) : Bool := c.st == .ready || c.st == .irrevocable

/-! ## Turns -/

/-- Whether a drawer is one turn of a core. -/
def Drawer.isTurn (c n : Nat) : Drawer → Bool
  | .turn c' n' => c == c' && n == n'
  | _ => false

/-- The commands that a turn issued enter Issued (03 R75). -/
def State.issueAll (s : State) (c ten : Nat) (is : List PendIssue) : State :=
  is.foldl (fun (s : State) i =>
    s.setCmd (ticket i.queue i.seq) { ten := ten, core := c, words := i.words, depBad := i.depBad }) s

/-- The aborts of a turn take effect (03 R78, 04 R97). -/
def State.abortAll (s : State) (as : List (Nat × Nat)) : State :=
  as.foldl (fun (s : State) a =>
    (tkeys s.x.cmds).foldl (fun (s : State) t => if a.1 ≤ t ∧ t ≤ a.2 then s.killCmd t .streamAbort else s) s) s

/-- An arrival at a barrier of the core's tenancy (03 R72). -/
def State.arrive (s : State) (ham num c : Nat) : State :=
  let key := barKey (s.core c).ten ham num
  match tfind s.x.bars key with
  | some b => { s with x := { s.x with bars := tset s.x.bars key { b with arrived := addNew b.arrived c } } }
  | none => s

/-- A core as the commit of its oldest turn leaves it: the turn's register write, one more committed turn, its mark cleared; halted
where the turn ended in sync.halt or in an exception (R72, R80). -/
def Core.afterTurn (k : Core) (tn : Turn) (rest : List Turn) : Core :=
  let k := { k with arg := tn.arg.getD k.arg, turnsDone := k.turnsDone + 1, turns := rest, marks := tdel k.marks tn.num }
  match tn.fin with
  | .halt => { k with mode := .syncHalted }
  | .exception code pc => { k with mode := .excHalted, exc := code, excPc := pc }
  | _ => k

/-- What a core's halt by an exception reports (R81): HAM_ERR.EXC, a kind-2 entry, a CORE_HALT event (22 R546, R551). -/
def State.reportHalt (s : State) (c code pc : Nat) : State :=
  let ten := (s.core c).ten
  let s := s.put (R.HAM_ERR_EXC (c / 32)) 1
  let (s, seq) := s.logKind 16 (c / 32) 2 code (some ten) (coreId c) pc true
  s.sendEvent 0x02 code (some ten) (s.time (s.get R.ERR_CTL_REF_PORT)) [coreId c, pc, 0, seq]

/-- The stores of a turn as runs of bytes at their keys. -/
def Turn.writes (tn : Turn) : List (Nat × List Byte) := tn.stores.map fun p => (p.1, [p.2])

/-- The commit of a core's oldest turn (03 R51, R54, R72, R75, R78, R80). -/
def State.commitTurn (s : State) (c : Nat) (tn : Turn) (rest : List Turn) : State :=
  let k := s.core c
  let s := { s with x := { s.x with serial := s.x.serial + 1 } }
  let s := s.putAll tn.writes
  let s := s.setCore c (k.afterTurn tn rest)
  let s := (s.issueAll c k.ten tn.issues).noteContention.consumeLeases (Drawer.isTurn c tn.num)
  let s := s.unhold (.turn c tn.num)
  let s := match tn.fin with
    | .barrier h n => s.arrive h n c
    | .exception code pc => s.reportHalt c code pc
    | _ => s
  let s := s.clash (.turn c) (granulesOf tn.writes)
  let s := s.abortAll tn.aborts
  let s := s.overrun (.turn c) (k.shelters tn.num)
  if k.ending then (s.endTask c .rebind).startTasks (s.get (R.HAM_CTL_TEN (c / 32))) else s

/-- Whether a core's oldest turn may be granted: it has ended, its core is in service under a current epoch, no lease of it is fenced, and its stores can be made (23 R556). -/
def State.turnReady (s : State) (c : Nat) (tn : Turn) : Bool :=
  let k := s.core c
  tn.fin != .open_ && !k.down && k.epoch == s.epochOf clsCore c && s.get R.PWR_STS_SHUTDOWN == 0 &&
    !s.hasFenced (Drawer.isTurn c tn.num) && (tn.stores.isEmpty || !s.pw.absent.contains 5)

/-! ## The grant -/

/-- COMMIT_GRANT (R18 to R22): the arbiter grants a Ready command, the oldest ended turn of a core, or a Ready move. What is not
to be granted waits; an attempt of a lost unit is refused (R105). -/
def execCommitGrant (r : Ref) (s : State) : Host.Outcome State Fault Refusal :=
  match r with
  | .cmd t =>
    match s.cmd t, s.queue (qOf t) with
    | some c, some q =>
      if !c.waits && s.hasFenced (Drawer.isCmd t) then .next (s.lateAttempt (Drawer.isCmd t) c.ten t) else .next (s.grantCmd t c q)
    | _, _ => .next s
  | .turn c =>
    if 256 ≤ c then .fault .noSuchUnit
    else match (s.core c).turns with
      | tn :: rest => if s.turnReady c tn then .next (s.commitTurn c tn rest) else .next (s.lateAttempt (Drawer.isTurnFrom c 0) (s.core c).ten noTicket)
      | [] => .next (s.lateAttempt (Drawer.isTurnFrom c 0) (s.core c).ten noTicket)
  | .move id =>
    match tfind s.vm.moves id with
    | some m =>
      if m.st = .ready ∧ s.get R.PWR_STS_SHUTDOWN = 0 ∧ !s.nkHolds m.page then
        .next ({ s with x := { s.x with serial := s.x.serial + 1 } }.commitMove id m)
      else .next s
    | none => .next s

end Sys2Proof.Machine
end

