-- ==== Sys2Proof/Machine/Dispatch.lean ====
section
/-!
DEFINITION. The meaning of every command, one arm each, as a direct call of its definition.
-/
namespace Sys2Proof.Machine

def exec (i : Instr) (s : State) : Host.Outcome State Fault Refusal :=
  match i with
  | .intRegOp c => Sys2Proof.Machine.execIntRegOp c s
  | .intAddi c => Sys2Proof.Machine.execIntAddi c s
  | .intAndi c => Sys2Proof.Machine.execIntAndi c s
  | .intOri c => Sys2Proof.Machine.execIntOri c s
  | .intXori c => Sys2Proof.Machine.execIntXori c s
  | .intSlti c => Sys2Proof.Machine.execIntSlti c s
  | .intSltui c => Sys2Proof.Machine.execIntSltui c s
  | .intHi c => Sys2Proof.Machine.execIntHi c s
  | .intShli c => Sys2Proof.Machine.execIntShli c s
  | .intShri c => Sys2Proof.Machine.execIntShri c s
  | .intSrai c => Sys2Proof.Machine.execIntSrai c s
  | .movL c => Sys2Proof.Machine.execMovL c s
  | .memLd c dram => Sys2Proof.Machine.execMemLd c dram s
  | .memSt c => Sys2Proof.Machine.execMemSt c s
  | .memVld c dram => Sys2Proof.Machine.execMemVld c dram s
  | .memVst c => Sys2Proof.Machine.execMemVst c s
  | .memTouch c => Sys2Proof.Machine.execMemTouch c s
  | .brCompare c => Sys2Proof.Machine.execBrCompare c s
  | .brCall c => Sys2Proof.Machine.execBrCall c s
  | .brJr c => Sys2Proof.Machine.execBrJr c s
  | .vecOp c => Sys2Proof.Machine.execVecOp c s
  | .vecCvt c => Sys2Proof.Machine.execVecCvt c s
  | .vecRed c => Sys2Proof.Machine.execVecRed c s
  | .vecPerm c => Sys2Proof.Machine.execVecPerm c s
  | .vecCmp c => Sys2Proof.Machine.execVecCmp c s
  | .vecMsk c => Sys2Proof.Machine.execVecMsk c s
  | .illegalInstruction c => Sys2Proof.Machine.execIllegalInstruction c s
  | .cmdIssue c => Sys2Proof.Machine.execCmdIssue c s
  | .cmdIssueStallEnd c => Sys2Proof.Machine.execCmdIssueStallEnd c s
  | .cmdWait c => Sys2Proof.Machine.execCmdWait c s
  | .cmdWaitReturn c => Sys2Proof.Machine.execCmdWaitReturn c s
  | .cmdWaitall c => Sys2Proof.Machine.execCmdWaitall c s
  | .cmdAbort c => Sys2Proof.Machine.execCmdAbort c s
  | .wellDraw c => Sys2Proof.Machine.execWellDraw c s
  | .wellDrawRetry r => Sys2Proof.Machine.execWellDrawRetry r s
  | .syncBar c => Sys2Proof.Machine.execSyncBar c s
  | .barrierRelease ham num => Sys2Proof.Machine.execBarrierRelease ham num s
  | .syncCommit c => Sys2Proof.Machine.execSyncCommit c s
  | .syncHalt c => Sys2Proof.Machine.execSyncHalt c s
  | .sysRd c => Sys2Proof.Machine.execSysRd c s
  | .sysWr c => Sys2Proof.Machine.execSysWr c s
  | .sysBreak c => Sys2Proof.Machine.execSysBreak c s
  | .turnStallEnd c => Sys2Proof.Machine.execTurnStallEnd c s
  | .commandLeaveIssued t unit => Sys2Proof.Machine.execCommandLeaveIssued t unit s
  | .commandReady r => Sys2Proof.Machine.execCommandReady r s
  | .commitGrant r => Sys2Proof.Machine.execCommitGrant r s
  | .commandKill r cause => Sys2Proof.Machine.execCommandKill r cause s
  | .killComplete r => Sys2Proof.Machine.execKillComplete r s
  | .commandRerun r => Sys2Proof.Machine.execCommandRerun r s
  | .nkStartPoint t => Sys2Proof.Machine.execNkStartPoint t s
  | .arrayProgramDone t => Sys2Proof.Machine.execArrayProgramDone t s
  | .shadowCopybackDone granule => Sys2Proof.Machine.execShadowCopybackDone granule s
  | .portDeadline port value => Sys2Proof.Machine.execPortDeadline port value s
  | .pcsLockLost port => Sys2Proof.Machine.execPcsLockLost port s
  | .pcsLockGained port => Sys2Proof.Machine.execPcsLockGained port s
  | .queueJoin t => Sys2Proof.Machine.execQueueJoin t s
  | .cartCopy t => Sys2Proof.Machine.execCartCopy t s
  | .cartGather t => Sys2Proof.Machine.execCartGather t s
  | .cartScatter t => Sys2Proof.Machine.execCartScatter t s
  | .cartFill t => Sys2Proof.Machine.execCartFill t s
  | .cartStride t => Sys2Proof.Machine.execCartStride t s
  | .wellFill t => Sys2Proof.Machine.execWellFill t s
  | .engPass t => Sys2Proof.Machine.execEngPass t s
  | .accTileWaitEnd t => Sys2Proof.Machine.execAccTileWaitEnd t s
  | .engEw t => Sys2Proof.Machine.execEngEw t s
  | .idleFillStart e => Sys2Proof.Machine.execIdleFillStart e s
  | .idleFillTaper e => Sys2Proof.Machine.execIdleFillTaper e s
  | .idleFillStop e => Sys2Proof.Machine.execIdleFillStop e s
  | .driftMap t => Sys2Proof.Machine.execDriftMap t s
  | .driftUnmap t => Sys2Proof.Machine.execDriftUnmap t s
  | .driftPin t => Sys2Proof.Machine.execDriftPin t s
  | .driftUnpin t => Sys2Proof.Machine.execDriftUnpin t s
  | .driftHint t => Sys2Proof.Machine.execDriftHint t s
  | .driftSettle t => Sys2Proof.Machine.execDriftSettle t s
  | .driftMove page granule toSt toFrame why => Sys2Proof.Machine.execDriftMove page granule toSt toFrame why s
  | .eraAdvance => Sys2Proof.Machine.execEraAdvance s
  | .faultResolvedRerun r => Sys2Proof.Machine.execFaultResolvedRerun r s
  | .pageHoldExpiry page => Sys2Proof.Machine.execPageHoldExpiry page s
  | .frameRetire stk frame row repaired => Sys2Proof.Machine.execFrameRetire stk frame row repaired s
  | .channelGroupRetire stk grp channel => Sys2Proof.Machine.execChannelGroupRetire stk grp channel s
  | .granulePoison granule r => Sys2Proof.Machine.execGranulePoison granule r s
  | .poisonRebuild granule => Sys2Proof.Machine.execPoisonRebuild granule s
  | .cellarMediaEvent e => Sys2Proof.Machine.execCellarMediaEvent e s
  | .cellarChannelFail ch => Sys2Proof.Machine.execCellarChannelFail ch s
  | .celGather t => Sys2Proof.Machine.execCelGather t s
  | .celProg t => Sys2Proof.Machine.execCelProg t s
  | .celTrim t => Sys2Proof.Machine.execCelTrim t s
  | .scanProbe t => Sys2Proof.Machine.execScanProbe t s
  | .scanRescore t => Sys2Proof.Machine.execScanRescore t s
  | .scanSnap t => Sys2Proof.Machine.execScanSnap t s
  | .scanInsert t => Sys2Proof.Machine.execScanInsert t s
  | .scanDelete t => Sys2Proof.Machine.execScanDelete t s
  | .scanFold t => Sys2Proof.Machine.execScanFold t s
  | .scanGather t => Sys2Proof.Machine.execScanGather t s
  | .txtTok t => Sys2Proof.Machine.execTxtTok t s
  | .txtOpen t => Sys2Proof.Machine.execTxtOpen t s
  | .txtFeed t => Sys2Proof.Machine.execTxtFeed t s
  | .txtClose t => Sys2Proof.Machine.execTxtClose t s
  | .grmLoad t => Sys2Proof.Machine.execGrmLoad t s
  | .grmUnload t => Sys2Proof.Machine.execGrmUnload t s
  | .grmOpen t => Sys2Proof.Machine.execGrmOpen t s
  | .grmStep t => Sys2Proof.Machine.execGrmStep t s
  | .grmPath t => Sys2Proof.Machine.execGrmPath t s
  | .grmPeek t => Sys2Proof.Machine.execGrmPeek t s
  | .embGather t => Sys2Proof.Machine.execEmbGather t s
  | .embAdd t => Sys2Proof.Machine.execEmbAdd t s
  | .embSwap t => Sys2Proof.Machine.execEmbSwap t s
  | .netEmit t => Sys2Proof.Machine.execNetEmit t s
  | .fabRead t => Sys2Proof.Machine.execFabRead t s
  | .fabWrite t => Sys2Proof.Machine.execFabWrite t s
  | .fabAtomic t => Sys2Proof.Machine.execFabAtomic t s
  | .secBfw t => Sys2Proof.Machine.execSecBfw t s
  | .secQuoteCmd t => Sys2Proof.Machine.execSecQuoteCmd t s
  | .promptPack batch row rank gather arrived => Sys2Proof.Machine.execPromptPack batch row rank gather arrived s
  | .spliceMaskSend batch row plan => Sys2Proof.Machine.execSpliceMaskSend batch row plan s
  | .spliceAgree home batch row ten stages masks => Sys2Proof.Machine.execSpliceAgree home batch row ten stages masks s
  | .spliceBuild passage tokens place data => Sys2Proof.Machine.execSpliceBuild passage tokens place data s
  | .stepFeedSend batch grms => Sys2Proof.Machine.execStepFeedSend batch grms s
  | .draftPropose batch row draft => Sys2Proof.Machine.execDraftPropose batch row draft s
  | .sampleDecide batch row step => Sys2Proof.Machine.execSampleDecide batch row step s
  | .stepCommit batch recs => Sys2Proof.Machine.execStepCommit batch recs s
  | .batch qp ahead msg => Sys2Proof.Machine.execBatch qp ahead msg s
  | .cancel qp msg => Sys2Proof.Machine.execCancel qp msg s
  | .statusQuery qp msg => Sys2Proof.Machine.execStatusQuery qp msg s
  | .hello qp msg => Sys2Proof.Machine.execHello qp msg s
  | .sliceEnd rota => Sys2Proof.Machine.execSliceEnd rota s
  | .earlySliceEnd rota => Sys2Proof.Machine.execEarlySliceEnd rota s
  | .rotaIdleResume rota => Sys2Proof.Machine.execRotaIdleResume rota s
  | .schRebind via v => Sys2Proof.Machine.execSchRebind via v s
  | .rebindComplete => Sys2Proof.Machine.execRebindComplete s
  | .tenancyEnable via n v => Sys2Proof.Machine.execTenancyEnable via n v s
  | .tenancyDrainWrite via ten drain => Sys2Proof.Machine.execTenancyDrainWrite via ten drain s
  | .tenancyDisable via n v => Sys2Proof.Machine.execTenancyDisable via n v s
  | .tenancyFree ten => Sys2Proof.Machine.execTenancyFree ten s
  | .kvPagesWrite via ten pages => Sys2Proof.Machine.execKvPagesWrite via ten pages s
  | .rdmaWrite qp rkey va data => Sys2Proof.Machine.execRdmaWrite qp rkey va data s
  | .rdmaReadRequest qp rkey va len => Sys2Proof.Machine.execRdmaReadRequest qp rkey va len s
  | .cwRdmaWrite qp rkey off data => Sys2Proof.Machine.execCwRdmaWrite qp rkey off data s
  | .roceAcknowledge qp upto nak => Sys2Proof.Machine.execRoceAcknowledge qp upto nak s
  | .roceAckTimeout qp => Sys2Proof.Machine.execRoceAckTimeout qp s
  | .cnpReceive qp => Sys2Proof.Machine.execCnpReceive qp s
  | .ecnMarkedReceive qp => Sys2Proof.Machine.execEcnMarkedReceive qp s
  | .rateRecovery qp => Sys2Proof.Machine.execRateRecovery qp s
  | .pfcPauseReceive port prio ns => Sys2Proof.Machine.execPfcPauseReceive port prio ns s
  | .hostFrameDrop port why => Sys2Proof.Machine.execHostFrameDrop port why s
  | .cmReq port remote priv => Sys2Proof.Machine.execCmReq port remote priv s
  | .qpLost qp err => Sys2Proof.Machine.execQpLost qp err s
  | .rnrNak qp seq => Sys2Proof.Machine.execRnrNak qp seq s
  | .rnrRetryExhausted qp => Sys2Proof.Machine.execRnrRetryExhausted qp s
  | .ringConsPoll order row => Sys2Proof.Machine.execRingConsPoll order row s
  | .hstImgBegin via kind target => Sys2Proof.Machine.execHstImgBegin via kind target s
  | .hstImgChunk via => Sys2Proof.Machine.execHstImgChunk via s
  | .hstImgEnd via => Sys2Proof.Machine.execHstImgEnd via s
  | .imageCheckDone content => Sys2Proof.Machine.execImageCheckDone content s
  | .linkHello port car => Sys2Proof.Machine.execLinkHello port car s
  | .linkAck port car => Sys2Proof.Machine.execLinkAck port car s
  | .topo port car ident => Sys2Proof.Machine.execTopo port car ident s
  | .credit port car => Sys2Proof.Machine.execCredit port car s
  | .twinOffer port car epoch => Sys2Proof.Machine.execTwinOffer port car epoch s
  | .subst port car => Sys2Proof.Machine.execSubst port car s
  | .substAck port car => Sys2Proof.Machine.execSubstAck port car s
  | .write port car last => Sys2Proof.Machine.execWrite port car last s
  | .writeCommit port car => Sys2Proof.Machine.execWriteCommit port car s
  | .writeDiscard port car => Sys2Proof.Machine.execWriteDiscard port car s
  | .writeAck port car => Sys2Proof.Machine.execWriteAck port car s
  | .readReq port car => Sys2Proof.Machine.execReadReq port car s
  | .readResp port car => Sys2Proof.Machine.execReadResp port car s
  | .atomic port car => Sys2Proof.Machine.execAtomic port car s
  | .atomicResp port car => Sys2Proof.Machine.execAtomicResp port car s
  | .emb port car => Sys2Proof.Machine.execEmb port car s
  | .mirAdmit port car => Sys2Proof.Machine.execMirAdmit port car s
  | .mirKv port car => Sys2Proof.Machine.execMirKv port car s
  | .mirStep port car => Sys2Proof.Machine.execMirStep port car s
  | .mirCancel port car => Sys2Proof.Machine.execMirCancel port car s
  | .mirEnd port car => Sys2Proof.Machine.execMirEnd port car s
  | .mirAck port car => Sys2Proof.Machine.execMirAck port car s
  | .twinBeat port car => Sys2Proof.Machine.execTwinBeat port car s
  | .caravanForward port car => Sys2Proof.Machine.execCaravanForward port car s
  | .poolFrameRequest borrower frame => Sys2Proof.Machine.execPoolFrameRequest borrower frame s
  | .linkHelloTimer port => Sys2Proof.Machine.execLinkHelloTimer port s
  | .neighbourTimeout port => Sys2Proof.Machine.execNeighbourTimeout port s
  | .linkSignalLoss port => Sys2Proof.Machine.execLinkSignalLoss port s
  | .topoRefreshTimer => Sys2Proof.Machine.execTopoRefreshTimer s
  | .linkRetransmitTimer port => Sys2Proof.Machine.execLinkRetransmitTimer port s
  | .injectWindowGrow dst => Sys2Proof.Machine.execInjectWindowGrow dst s
  | .alienTimeout port => Sys2Proof.Machine.execAlienTimeout port s
  | .laneFail port lane => Sys2Proof.Machine.execLaneFail port lane s
  | .laneRetrainDone port lanes => Sys2Proof.Machine.execLaneRetrainDone port lanes s
  | .routeRecomputeDone => Sys2Proof.Machine.execRouteRecomputeDone s
  | .twinBeatTimer port => Sys2Proof.Machine.execTwinBeatTimer port s
  | .ackWaitExpiry => Sys2Proof.Machine.execAckWaitExpiry s
  | .confirmWaitExpiry pipe => Sys2Proof.Machine.execConfirmWaitExpiry pipe s
  | .resyncBatchProtect => Sys2Proof.Machine.execResyncBatchProtect s
  | .unitErrorReport err => Sys2Proof.Machine.execUnitErrorReport err s
  | .unitWaitExpiry t => Sys2Proof.Machine.execUnitWaitExpiry t s
  | .inputLowFall v => Sys2Proof.Machine.execInputLowFall v s
  | .inputLowRise v => Sys2Proof.Machine.execInputLowRise v s
  | .nvCutoff v => Sys2Proof.Machine.execNvCutoff v s
  | .nvRestore v => Sys2Proof.Machine.execNvRestore v s
  | .undervoltageShutdown v => Sys2Proof.Machine.execUndervoltageShutdown v s
  | .inputHighRise v => Sys2Proof.Machine.execInputHighRise v s
  | .inputHighFall v => Sys2Proof.Machine.execInputHighFall v s
  | .overvoltageShutdown v => Sys2Proof.Machine.execOvervoltageShutdown v s
  | .shutdownFieldGate => Sys2Proof.Machine.execShutdownFieldGate s
  | .shutdownGateDieGate => Sys2Proof.Machine.execShutdownGateDieGate s
  | .shutdownRestart fd0 fd1 gate hbm => Sys2Proof.Machine.execShutdownRestart fd0 fd1 gate hbm s
  | .pwrDomCtlWrite via v => Sys2Proof.Machine.execPwrDomCtlWrite via v s
  | .domainGateDone dom => Sys2Proof.Machine.execDomainGateDone dom s
  | .domainPowerUpDone dom => Sys2Proof.Machine.execDomainPowerUpDone dom s
  | .pwrSleepWrite via sleep => Sys2Proof.Machine.execPwrSleepWrite via sleep s
  | .pacerWindow die count => Sys2Proof.Machine.execPacerWindow die count s
  | .powerAverageWindow watts => Sys2Proof.Machine.execPowerAverageWindow watts s
  | .vcoreStep die => Sys2Proof.Machine.execVcoreStep die s
  | .tjHighCrossing die tj => Sys2Proof.Machine.execTjHighCrossing die tj s
  | .tjOver die tj => Sys2Proof.Machine.execTjOver die tj s
  | .thermalShutdown sensor temp => Sys2Proof.Machine.execThermalShutdown sensor temp s
  | .hbmHot stk temp => Sys2Proof.Machine.execHbmHot stk temp s
  | .currentStepWindow die amps => Sys2Proof.Machine.execCurrentStepWindow die amps s
  | .hostRefclkLoss => Sys2Proof.Machine.execHostRefclkLoss s
  | .fabRefclkLoss q => Sys2Proof.Machine.execFabRefclkLoss q s
  | .memRefclkLoss long => Sys2Proof.Machine.execMemRefclkLoss long s
  | .romBoot => Sys2Proof.Machine.execRomBoot s
  | .romTryClear written => Sys2Proof.Machine.execRomTryClear written s
  | .fwStart via bytes => Sys2Proof.Machine.execFwStart via bytes s
  | .fwConfirm via => Sys2Proof.Machine.execFwConfirm via s
  | .fwAdvance via => Sys2Proof.Machine.execFwAdvance via s
  | .secQuoteGo via => Sys2Proof.Machine.execSecQuoteGo via s
  | .ksInstallSm4 via slot => Sys2Proof.Machine.execKsInstallSm4 via slot s
  | .ksInstallSigner via slot => Sys2Proof.Machine.execKsInstallSigner via slot s
  | .ksRevoke via slot => Sys2Proof.Machine.execKsRevoke via slot s
  | .ksWriteDone written => Sys2Proof.Machine.execKsWriteDone written s
  | .registerWrite via off v => Sys2Proof.Machine.execRegisterWrite via off v s
  | .hamEnable via n v => Sys2Proof.Machine.execHamEnable via n v s
  | .hamDisable via n v => Sys2Proof.Machine.execHamDisable via n v s
  | .welEnable via n v => Sys2Proof.Machine.execWelEnable via n v s
  | .engEnable via n v => Sys2Proof.Machine.execEngEnable via n v s
  | .memEnable via v => Sys2Proof.Machine.execMemEnable via v s
  | .memLookupVa via v => Sys2Proof.Machine.execMemLookupVa via v s
  | .celEnable via v => Sys2Proof.Machine.execCelEnable via v s
  | .scnEnable via n v => Sys2Proof.Machine.execScnEnable via n v s
  | .scnIdxEnable via n v => Sys2Proof.Machine.execScnIdxEnable via n v s
  | .scnIdxDisable via n v => Sys2Proof.Machine.execScnIdxDisable via n v s
  | .txtEnable via v => Sys2Proof.Machine.execTxtEnable via v s
  | .txtGrmEnable via v => Sys2Proof.Machine.execTxtGrmEnable via v s
  | .schEnable via v => Sys2Proof.Machine.execSchEnable via v s
  | .hstEnable via n v => Sys2Proof.Machine.execHstEnable via n v s
  | .fabEnable via v => Sys2Proof.Machine.execFabEnable via v s
  | .fabRtRowWrite via v => Sys2Proof.Machine.execFabRtRowWrite via v s
  | .fabLendWrite via offer => Sys2Proof.Machine.execFabLendWrite via offer s
  | .fabPortRetry via port => Sys2Proof.Machine.execFabPortRetry via port s
  | .embEnable via v => Sys2Proof.Machine.execEmbEnable via v s
  | .embTabEnable via n v => Sys2Proof.Machine.execEmbTabEnable via n v s
  | .twnEnable via v => Sys2Proof.Machine.execTwnEnable via v s
  | .pwrEnable via v => Sys2Proof.Machine.execPwrEnable via v s
  | .secEnable via v => Sys2Proof.Machine.execSecEnable via v s
  | .oasEnable via n v => Sys2Proof.Machine.execOasEnable via n v s
  | .consistencyCheckEnd ctl => Sys2Proof.Machine.execConsistencyCheckEnd ctl s
  | .unitDisable via ctl v => Sys2Proof.Machine.execUnitDisable via ctl v s
  | .errLogClear via => Sys2Proof.Machine.execErrLogClear via s
  | .i3cRead addr off => Sys2Proof.Machine.execI3cRead addr off s
  | .i3cWrite addr off v => Sys2Proof.Machine.execI3cWrite addr off v s
  | .i3cPrivateRead addr => Sys2Proof.Machine.execI3cPrivateRead addr s
  | .recovData addr data => Sys2Proof.Machine.execRecovData addr data s
  | .recovEnd addr => Sys2Proof.Machine.execRecovEnd addr s
  | .entdaa dyn => Sys2Proof.Machine.execEntdaa dyn s
  | .setdasa static dyn => Sys2Proof.Machine.execSetdasa static dyn s
  | .rstdaa => Sys2Proof.Machine.execRstdaa s
  | .setnewda addr dyn => Sys2Proof.Machine.execSetnewda addr dyn s
  | .getpid addr => Sys2Proof.Machine.execGetpid addr s
  | .getbcr addr => Sys2Proof.Machine.execGetbcr addr s
  | .getdcr addr => Sys2Proof.Machine.execGetdcr addr s
  | .getstatus addr => Sys2Proof.Machine.execGetstatus addr s
  | .getmwl addr => Sys2Proof.Machine.execGetmwl addr s
  | .getmrl addr => Sys2Proof.Machine.execGetmrl addr s
  | .bypass => Sys2Proof.Machine.execBypass s
  | .idcode => Sys2Proof.Machine.execIdcode s
  | .samplePreload cells => Sys2Proof.Machine.execSamplePreload cells s
  | .extest => Sys2Proof.Machine.execExtest s
  | .clamp => Sys2Proof.Machine.execClamp s
  | .highz => Sys2Proof.Machine.execHighz s
  | .rstNAssert => Sys2Proof.Machine.execRstNAssert s
  | .rstNRelease => Sys2Proof.Machine.execRstNRelease s
  | .vddioSbRise strap => Sys2Proof.Machine.execVddioSbRise strap s
  | .hotInsertPrecharge v => Sys2Proof.Machine.execHotInsertPrecharge v s
  | .bringUpStageEnd r => Sys2Proof.Machine.execBringUpStageEnd r s
  | .programBind ten port m => Sys2Proof.Machine.execProgramBind ten port m s
  | .variantLoad v base size => Sys2Proof.Machine.execVariantLoad v base size s
  | .variantRemoval v => Sys2Proof.Machine.execVariantRemoval v s
  | .fabricFrameDrop port crc => Sys2Proof.Machine.execFabricFrameDrop port crc s
  | .rdmaReadResponse order row value => Sys2Proof.Machine.execRdmaReadResponse order row value s
  | .cmRtu qp => Sys2Proof.Machine.execCmRtu qp s
  | .rnrTimerExpiry qp => Sys2Proof.Machine.execRnrTimerExpiry qp s
  | .pfcPauseExpiry port => Sys2Proof.Machine.execPfcPauseExpiry port s
  | .refclkReturn clock => Sys2Proof.Machine.execRefclkReturn clock s
  | .poolFrameRecall frame toSt toFrame => Sys2Proof.Machine.execPoolFrameRecall frame toSt toFrame s
  | .poolFrameReturn borrower frame => Sys2Proof.Machine.execPoolFrameReturn borrower frame s
  | .railsFail => Sys2Proof.Machine.execRailsFail s

end Sys2Proof.Machine
end

