-- ==== Sys2Proof/Safety.lean ====
section
/-!
DEFINITION. What counts as a safe run: every step answers a next state.
-/
namespace Sys2Proof

/-- Whether an outcome is a next state. -/
def isNext : Host.Outcome Machine.State Machine.Fault Machine.Refusal → Bool
  | .next _ => true
  | .fault _ => false
  | .refused _ => false

/-- Whether n steps from a state all answer a next state. -/
def safeFor : Nat → Machine.State → Bool
  | 0, _ => true
  | n + 1, s =>
    match Machine.step s with
    | .next s' => safeFor n s'
    | .fault _ => false
    | .refused _ => false

end Sys2Proof
end

