-- ==== Sys2Proof/WellFormed.lean ====
section
/-!
DEFINITION. Which commands are well formed: those whose operands name units, ports, tenancies and pairs that the module has
(00 Table 0.4, 01 Table 1.1). One arm for each constructor.
-/
namespace Sys2Proof

/-- A core: 32 of each of 8 hamlets. -/
def coreOk (c : Nat) : Bool := decide (c < 256)

/-- A queue pair: 256 of each of 4 host ports. -/
def qpOk (q : Nat) : Bool := decide (q < 1024)

/-- A writer of registers. -/
def viaOk : Via → Bool
  | .host q => qpOk q
  | .steward => true

/-- A turn's core, a ticket, or a move. -/
def refOk : Ref → Bool
  | .turn c => coreOk c
  | .cmd t => decide (t < 2 ^ 64)
  | .move _ => true

/-- A rota: 0 to 15, or 64 + t for tenancy t of its own. -/
def rotaOk (r : Nat) : Bool := decide (r < 16) || (decide (64 ≤ r) && decide (r < 128))

/-- A sensor. -/
def sensorOk : Sensor → Bool
  | .field d => decide (d < 2)
  | .gate => true
  | .stack n => decide (n < 16)

/-- A unit's error: the unit exists and the bit is one of its ERR register's. -/
def unitErrOk : UnitErr → Bool
  | .engine n bit => decide (n < 104) && decide (bit ≤ 6)
  | .scan n bit => decide (n < 16) && decide (bit ≤ 4)
  | .core c bit _ => coreOk c && decide (1 ≤ bit) && decide (bit ≤ 6)
  | .text bit lane _ => decide (bit ≤ 4) && decide (lane < 32)
  | .grammar bit lane _ => decide (bit ≤ 2) && decide (lane < 32)
  | .oasis die bit _ _ => decide (die < 2) && decide (bit ≤ 1)
  | .rowCache bit _ => decide (bit = 1) || decide (bit = 2)

/-- The offset of a unit's CTL register. -/
def ctlOk (ctl : Nat) : Bool := (Machine.unitAt ctl).isSome

/-- Whether a command is well formed. -/
def Instr.wf : Instr → Bool
  | .intRegOp c => coreOk c
  | .intAddi c => coreOk c
  | .intAndi c => coreOk c
  | .intOri c => coreOk c
  | .intXori c => coreOk c
  | .intSlti c => coreOk c
  | .intSltui c => coreOk c
  | .intHi c => coreOk c
  | .intShli c => coreOk c
  | .intShri c => coreOk c
  | .intSrai c => coreOk c
  | .movL c => coreOk c
  | .memLd c _ => coreOk c
  | .memSt c => coreOk c
  | .memVld c _ => coreOk c
  | .memVst c => coreOk c
  | .memTouch c => coreOk c
  | .brCompare c => coreOk c
  | .brCall c => coreOk c
  | .brJr c => coreOk c
  | .vecOp c => coreOk c
  | .vecCvt c => coreOk c
  | .vecRed c => coreOk c
  | .vecPerm c => coreOk c
  | .vecCmp c => coreOk c
  | .vecMsk c => coreOk c
  | .illegalInstruction c => coreOk c
  | .cmdIssue c => coreOk c
  | .cmdIssueStallEnd c => coreOk c
  | .cmdWait c => coreOk c
  | .cmdWaitReturn c => coreOk c
  | .cmdWaitall c => coreOk c
  | .cmdAbort c => coreOk c
  | .wellDraw c => coreOk c
  | .wellDrawRetry r => refOk r
  | .syncBar c => coreOk c
  | .barrierRelease ham num => decide (ham < 8) && decide (num < 16)
  | .syncCommit c => coreOk c
  | .syncHalt c => coreOk c
  | .sysRd c => coreOk c
  | .sysWr c => coreOk c
  | .sysBreak c => coreOk c
  | .turnStallEnd c => coreOk c
  | .commandLeaveIssued t _ => decide (t < 2 ^ 64)
  | .commandReady r => refOk r.of && r.corrected.all fun e => decide (e.1 < 2 ^ 56)
  | .commitGrant r => refOk r
  | .commandKill r _ => refOk r
  | .killComplete r => refOk r
  | .commandRerun r => refOk r
  | .nkStartPoint t => decide (t < 2 ^ 64)
  | .arrayProgramDone t => decide (t < 2 ^ 64)
  | .shadowCopybackDone _ => true
  | .portDeadline port _ => decide (port < 20)
  | .pcsLockLost port => decide (port < 20)
  | .pcsLockGained port => decide (port < 20)
  | .queueJoin t => decide (t < 2 ^ 64)
  | .cartCopy t => decide (t < 2 ^ 64)
  | .cartGather t => decide (t < 2 ^ 64)
  | .cartScatter t => decide (t < 2 ^ 64)
  | .cartFill t => decide (t < 2 ^ 64)
  | .cartStride t => decide (t < 2 ^ 64)
  | .wellFill t => decide (t < 2 ^ 64)
  | .engPass t => decide (t.of < 2 ^ 64) && t.corrected.all fun e => decide (e.1 < 2 ^ 56)
  | .accTileWaitEnd t => decide (t.of < 2 ^ 64) && t.corrected.all fun e => decide (e.1 < 2 ^ 56)
  | .engEw t => decide (t < 2 ^ 64)
  | .idleFillStart e => decide (e < 104)
  | .idleFillTaper e => decide (e < 104)
  | .idleFillStop e => decide (e < 104)
  | .driftMap t => decide (t < 2 ^ 64)
  | .driftUnmap t => decide (t < 2 ^ 64)
  | .driftPin t => decide (t < 2 ^ 64)
  | .driftUnpin t => decide (t < 2 ^ 64)
  | .driftHint t => decide (t < 2 ^ 64)
  | .driftSettle t => decide (t < 2 ^ 64)
  | .driftMove _ _ _ _ _ => true
  | .eraAdvance => true
  | .faultResolvedRerun r => refOk r
  | .pageHoldExpiry _ => true
  | .frameRetire stk frame _ _ => decide (stk < 16) && decide (frame < 32768)
  | .channelGroupRetire stk grp channel => decide (stk < 16) && decide (grp < 8) && decide (channel.getD 0 < 4)
  | .granulePoison _ r => refOk r
  | .poisonRebuild _ => true
  | .cellarMediaEvent _ => true
  | .cellarChannelFail ch => decide (ch < 32)
  | .celGather t => decide (t < 2 ^ 64)
  | .celProg t => decide (t < 2 ^ 64)
  | .celTrim t => decide (t < 2 ^ 64)
  | .scanProbe t => decide (t < 2 ^ 64)
  | .scanRescore t => decide (t < 2 ^ 64)
  | .scanSnap t => decide (t < 2 ^ 64)
  | .scanInsert t => decide (t < 2 ^ 64)
  | .scanDelete t => decide (t < 2 ^ 64)
  | .scanFold t => decide (t < 2 ^ 64)
  | .scanGather t => decide (t < 2 ^ 64)
  | .txtTok t => decide (t < 2 ^ 64)
  | .txtOpen t => decide (t < 2 ^ 64)
  | .txtFeed t => decide (t < 2 ^ 64)
  | .txtClose t => decide (t < 2 ^ 64)
  | .grmLoad t => decide (t < 2 ^ 64)
  | .grmUnload t => decide (t < 2 ^ 64)
  | .grmOpen t => decide (t < 2 ^ 64)
  | .grmStep t => decide (t < 2 ^ 64)
  | .grmPath t => decide (t < 2 ^ 64)
  | .grmPeek t => decide (t < 2 ^ 64)
  | .embGather t => decide (t < 2 ^ 64)
  | .embAdd t => decide (t < 2 ^ 64)
  | .embSwap t => decide (t < 2 ^ 64)
  | .netEmit t => decide (t < 2 ^ 64)
  | .fabRead t => decide (t < 2 ^ 64)
  | .fabWrite t => decide (t < 2 ^ 64)
  | .fabAtomic t => decide (t < 2 ^ 64)
  | .secBfw t => decide (t < 2 ^ 64)
  | .secQuoteCmd t => decide (t < 2 ^ 64)
  | .promptPack _ row _ _ _ => decide (row < 64)
  | .spliceMaskSend _ row plan => decide (row < 64) && decide (plan.ten < 64)
  | .spliceAgree _ _ row ten _ _ => decide (row < 64) && decide (ten < 64)
  | .spliceBuild _ _ _ _ => true
  | .stepFeedSend _ _ => true
  | .draftPropose _ row _ => decide (row < 64)
  | .sampleDecide _ row _ => decide (row < 64)
  | .stepCommit _ _ => true
  | .batch qp _ _ => qpOk qp
  | .cancel qp _ => qpOk qp
  | .statusQuery qp _ => qpOk qp
  | .hello qp _ => qpOk qp
  | .sliceEnd rota => rotaOk rota
  | .earlySliceEnd rota => decide (rota < 16)
  | .rotaIdleResume rota => rotaOk rota
  | .schRebind via _ => viaOk via
  | .rebindComplete => true
  | .tenancyEnable via n _ => viaOk via && decide (n < 64)
  | .tenancyDrainWrite via ten _ => viaOk via && decide (ten < 64)
  | .tenancyDisable via n _ => viaOk via && decide (n < 64)
  | .tenancyFree ten => decide (ten < 64)
  | .kvPagesWrite via ten _ => viaOk via && decide (ten < 64)
  | .rdmaWrite qp _ _ _ => qpOk qp
  | .rdmaReadRequest qp _ _ _ => qpOk qp
  | .cwRdmaWrite qp _ _ _ => qpOk qp
  | .roceAcknowledge qp _ _ => qpOk qp
  | .roceAckTimeout qp => qpOk qp
  | .cnpReceive qp => qpOk qp
  | .ecnMarkedReceive qp => qpOk qp
  | .rateRecovery qp => qpOk qp
  | .pfcPauseReceive port prio _ => decide (port < 4) && decide (prio < 8)
  | .hostFrameDrop port _ => decide (port < 4)
  | .cmReq port _ _ => decide (port < 4)
  | .qpLost qp _ => qpOk qp
  | .rnrNak qp _ => qpOk qp
  | .rnrRetryExhausted qp => qpOk qp
  | .ringConsPoll _ _ => true
  | .hstImgBegin via _ _ => viaOk via
  | .hstImgChunk via => viaOk via
  | .hstImgEnd via => viaOk via
  | .imageCheckDone _ => true
  | .linkHello port _ => decide (port ≤ 16)
  | .linkAck port _ => decide (port ≤ 16)
  | .topo port _ _ => decide (port ≤ 16)
  | .credit port _ => decide (port ≤ 16)
  | .twinOffer port _ _ => decide (port ≤ 16)
  | .subst port _ => decide (port ≤ 16)
  | .substAck port _ => decide (port ≤ 16)
  | .write port _ _ => decide (port ≤ 16)
  | .writeCommit port _ => decide (port ≤ 16)
  | .writeDiscard port _ => decide (port ≤ 16)
  | .writeAck port _ => decide (port ≤ 16)
  | .readReq port _ => decide (port ≤ 16)
  | .readResp port _ => decide (port ≤ 16)
  | .atomic port _ => decide (port ≤ 16)
  | .atomicResp port _ => decide (port ≤ 16)
  | .emb port _ => decide (port ≤ 16)
  | .mirAdmit port _ => decide (port ≤ 16)
  | .mirKv port _ => decide (port ≤ 16)
  | .mirStep port _ => decide (port ≤ 16)
  | .mirCancel port _ => decide (port ≤ 16)
  | .mirEnd port _ => decide (port ≤ 16)
  | .mirAck port _ => decide (port ≤ 16)
  | .twinBeat port _ => decide (port ≤ 16)
  | .caravanForward port _ => decide (port < 16)
  | .poolFrameRequest _ _ => true
  | .linkHelloTimer port => decide (port < 16)
  | .neighbourTimeout port => decide (port < 16)
  | .linkSignalLoss port => decide (port < 16)
  | .topoRefreshTimer => true
  | .linkRetransmitTimer port => decide (port < 16)
  | .injectWindowGrow _ => true
  | .alienTimeout port => decide (port < 16)
  | .laneFail port lane => decide (port < 16) && decide (lane < 4)
  | .laneRetrainDone port _ => decide (port < 16)
  | .routeRecomputeDone => true
  | .twinBeatTimer port => decide (port < 16)
  | .ackWaitExpiry => true
  | .confirmWaitExpiry _ => true
  | .resyncBatchProtect => true
  | .unitErrorReport err => unitErrOk err
  | .unitWaitExpiry t => decide (t < 2 ^ 64)
  | .inputLowFall _ => true
  | .inputLowRise _ => true
  | .nvCutoff _ => true
  | .nvRestore _ => true
  | .undervoltageShutdown _ => true
  | .inputHighRise _ => true
  | .inputHighFall _ => true
  | .overvoltageShutdown _ => true
  | .shutdownFieldGate => true
  | .shutdownGateDieGate => true
  | .shutdownRestart _ _ _ _ => true
  | .pwrDomCtlWrite via _ => viaOk via
  | .domainGateDone dom => decide (dom < 50)
  | .domainPowerUpDone dom => decide (dom < 50)
  | .pwrSleepWrite via _ => viaOk via
  | .pacerWindow die _ => decide (die < 2)
  | .powerAverageWindow _ => true
  | .vcoreStep die => decide (die < 2)
  | .tjHighCrossing die _ => decide (die < 2)
  | .tjOver die _ => decide (die < 2)
  | .thermalShutdown sensor _ => sensorOk sensor
  | .hbmHot stk _ => decide (stk < 16)
  | .currentStepWindow die _ => decide (die < 2)
  | .hostRefclkLoss => true
  | .fabRefclkLoss q => decide (q < 4)
  | .memRefclkLoss _ => true
  | .romBoot => true
  | .romTryClear _ => true
  | .fwStart via _ => viaOk via
  | .fwConfirm via => viaOk via
  | .fwAdvance via => viaOk via
  | .secQuoteGo via => viaOk via
  | .ksInstallSm4 via _ => viaOk via
  | .ksInstallSigner via _ => viaOk via
  | .ksRevoke via _ => viaOk via
  | .ksWriteDone _ => true
  | .registerWrite via _ _ => viaOk via
  | .hamEnable via n _ => viaOk via && decide (n < 8)
  | .hamDisable via n _ => viaOk via && decide (n < 8)
  | .welEnable via n _ => viaOk via && decide (n < 128)
  | .engEnable via n _ => viaOk via && decide (n < 104)
  | .memEnable via _ => viaOk via
  | .memLookupVa via _ => viaOk via
  | .celEnable via _ => viaOk via
  | .scnEnable via n _ => viaOk via && decide (n < 16)
  | .scnIdxEnable via n _ => viaOk via && decide (n < 64)
  | .scnIdxDisable via n _ => viaOk via && decide (n < 64)
  | .txtEnable via _ => viaOk via
  | .txtGrmEnable via _ => viaOk via
  | .schEnable via _ => viaOk via
  | .hstEnable via n _ => viaOk via && decide (n < 4)
  | .fabEnable via _ => viaOk via
  | .fabRtRowWrite via _ => viaOk via
  | .fabLendWrite via _ => viaOk via
  | .fabPortRetry via port => viaOk via && decide (port < 16)
  | .embEnable via _ => viaOk via
  | .embTabEnable via n _ => viaOk via && decide (n < 32)
  | .twnEnable via _ => viaOk via
  | .pwrEnable via _ => viaOk via
  | .secEnable via _ => viaOk via
  | .oasEnable via n _ => viaOk via && decide (n < 2)
  | .consistencyCheckEnd ctl => ctlOk ctl
  | .unitDisable via ctl _ => viaOk via && ctlOk ctl
  | .errLogClear via => viaOk via
  | .i3cRead _ _ => true
  | .i3cWrite _ _ _ => true
  | .i3cPrivateRead _ => true
  | .recovData _ _ => true
  | .recovEnd _ => true
  | .entdaa _ => true
  | .setdasa _ _ => true
  | .rstdaa => true
  | .setnewda _ _ => true
  | .getpid _ => true
  | .getbcr _ => true
  | .getdcr _ => true
  | .getstatus _ => true
  | .getmwl _ => true
  | .getmrl _ => true
  | .bypass => true
  | .idcode => true
  | .samplePreload _ => true
  | .extest => true
  | .clamp => true
  | .highz => true
  | .rstNAssert => true
  | .rstNRelease => true
  | .vddioSbRise strap => decide (strap < 4)
  | .hotInsertPrecharge _ => true
  | .bringUpStageEnd _ => true
  | .programBind ten port _ => decide (ten < 64) && decide (port < 4)
  | .variantLoad v _ _ => decide (1 ≤ v) && decide (v ≤ 256)
  | .variantRemoval _ => true
  | .fabricFrameDrop port _ => decide (port < 16)
  | .rdmaReadResponse _ _ _ => true
  | .cmRtu qp => qpOk qp
  | .rnrTimerExpiry qp => qpOk qp
  | .pfcPauseExpiry port => decide (port < 4)
  | .refclkReturn clock => decide (clock < 6)
  | .poolFrameRecall _ _ _ => true
  | .poolFrameReturn _ _ => true
  | .railsFail => true

end Sys2Proof
end

