-- ==== Sys2Proof/Certificates/Slice0/Obligations.lean ====
section
/-!
DEFINITION. The statements for the provers, family by family, from the spec's rules. A completion clause has the shape: for every
state and operands that meet the clause's conditions, exec answers the next state that the clause gives; where that state is
written as an update of the state before, everything the update does not name is unchanged.
-/
open Sys2Proof Sys2Proof.Machine

namespace Sys2Proof.Claims

/-- What exec answers. -/
abbrev Ans := Host.Outcome State Fault Refusal

/-- Core c can execute op as its next instruction: it is a core, it can step, its fetch gives op, and its turn has room (03 R53). -/
def runs (s : State) (c : Nat) (op : CoreOp) : Bool :=
  decide (c < 256) && s.canStep c && (s.core c).fetch == some op &&
    (match (s.core c).turn with
     | some t => decide (t.retired < retireMax)
     | none => false)

/-- A core with its program counter set and one more instruction retired in its turn (03 R53). -/
def wentOn (k : Core) (pc : Word) : Core := ({ k with pc := pc }).onTurn fun t => { t with retired := t.retired + 1 }

/-- A core that has gone on to the next word. -/
def stepped (k : Core) : Core := wentOn k (k.pc + 1)

/-- The Running command of a ticket, of a class and operation, that has not yet made itself ready (02 R14, 04 R84) and waits for no peer's
answer (02 R23). -/
def atWork (s : State) (t cls op : Nat) (c : Cmd) : Prop :=
  s.cmd t = some c ∧ c.st = .running ∧ c.done = none ∧ dClass c.words = cls ∧ dOp c.words = op ∧ s.fetching t = false

/-- What a command reads of ranges includes no shared pool page that its peer has yet to send (02 R23). -/
def near (s : State) (a : Accessor) (c : Cmd) (rds : List (Nat × Nat)) : Prop := s.toFetch c a [] rds = []

/-- The command made ready with a refusal's status, no result and no effect, and nothing else changed (04 R88). -/
def refusal (s : State) (t : Nat) (c : Cmd) (status : Nat) : Ans := .next (s.setCmd t { c with done := some ⟨status, [], []⟩ })

/-- A command's accesses all reach, and the memory clock is present (07 Table 7.3, 23 R556). -/
def reach (s : State) (a : Accessor) (c : Cmd) (rds wrs : List (Nat × Nat)) : Prop :=
  s.pw.absent.contains 5 = false ∧ s.access a c.ten rds wrs = .ok ∧ near s a c rds

/-- The command has made itself ready with a status, results and deferred effects: no byte of memory, no register but the counters of
work done, no core and no other command changes before its commit (02 R14, R17). -/
def made (s : State) (t : Nat) (c : Cmd) (d : Done) (x : Ans) : Prop :=
  ∃ (u : State) (m : Cmd), x = .next u ∧ u.cmd t = some m ∧
    m = { c with reads := m.reads, far := m.far, pages := m.pages, done := some d.deferred } ∧ u.mem = s.mem ∧
    u.cw = (s.countWork d.effs).cw ∧ u.x.cores = s.x.cores ∧ u.x.serial = s.x.serial ∧ (∀ t', t' ≠ t → u.cmd t' = s.cmd t')

/-- The command made ready with a refusal's status that it decided from what it read: no effect, and its reads count (02 R17, R22). -/
def refusedRead (s : State) (t : Nat) (c : Cmd) (status : Nat) (x : Ans) : Prop := made s t c ⟨status, [], []⟩ x

/-- Who may write a register: the steward, or a host on a connected manager pair (21 R525, R530). -/
def mayWrite (s : State) (via : Via) : Prop := via = .steward ∨ ∃ q, via = .host q ∧ q < 1024 ∧ s.manager q = true

/-- A caravan of a TYPE that the module takes now: on port 16 one of those it has yet to take; on a wire port one of VER 1, for this module and no
group, the next that the link expects; in either case not taken before, and the next of its order (16 R410, R414, R416, R417). -/
def lands (s : State) (port kind : Nat) (c : Car) : Prop :=
  c.kind = kind ∧ s.pw.absent.contains 5 = false ∧ s.psTaken c = false ∧
    (inOrder c = true → c.oseq = (tget s.fa.oseqIn (ordKey c) 0 + 1) % 2 ^ 32) ∧
    ((port = 16 ∧ s.fa.selfIn.contains c = true) ∨
      (port < 16 ∧ c.ver = 1 ∧ s.portInUse port = true ∧ s.get (R.FAB_PORT_STS_ALIEN port) ≠ 1 ∧ isGroup c.dst = false ∧ s.forMe c = true ∧
        (kind = 2 ∨ c.lseq = tget s.fa.rx port 0)))

/-- The link after a caravan's arrival: its acknowledgement applied, its LSEQ counted (16 R416). -/
def linked (s : State) (port : Nat) (c : Car) : State := if port = 16 then s else (s.linkTake port c).1

/-- The caravan taken: its numbers recorded, and it waits no longer (16 R414, R417). -/
def landed (c : Car) (u : State) : Ans :=
  let s := (u.takePs c).takeOs c
  .next { s with fa := { s.fa with selfIn := s.fa.selfIn.erase c } }

/-- The caravan waits at the module to be taken. -/
def waits (c : Car) (u : State) : Ans := .next (if u.fa.selfIn.contains c then u else u.selfTake c)

end Sys2Proof.Claims

open Sys2Proof.Claims

/-! ## The block -/

/-- A step takes the command at the front of the queue and runs exec on it with the queue's rest. -/
def Obligations.StepRunsFrontCommand : Prop :=
  ∀ (c : Instr) (rest : List Instr) (s : State), step { s with pending := c :: rest } = exec c { s with pending := rest }

/-- With no command waiting, the meter of every port that counts now (02 R41, 19 R494, 23 R555) counts one nanosecond, modulo 2^64, the others
stand, and nothing but meters changes; while RST_N is low nothing changes at all (02 R40; the model's choice, log entry 21). -/
def Obligations.EmptyQueueCountsPortTime : Prop :=
  ∀ s : State, s.pending = [] → ∃ t : State, step s = .next t ∧ { t with pt := s.pt } = s ∧
    (s.pw.rstLow = true → t = s) ∧
    (s.pw.rstLow = false → ∀ p, p < 20 →
      (s.counts p = true → t.time p = (s.time p + 1) % 2 ^ 64) ∧
      (s.counts p = false → t.time p = s.time p))

/-- A command whose operands name units the module has never faults and is never refused: exec answers a next state. -/
def Obligations.WellFormedCommandsAnswerNext : Prop :=
  ∀ (i : Instr) (s : State), i.wf = true → isNext (exec i s) = true

/-- The state after reset: registers that Tables 3.14, 7.20, 15.3 and 21.3 give a value read it, no command waits, no command, queue,
page, batch or task exists, memory lists nothing, and its memory is in canonical form; and no core has more than two turns outstanding. -/
def Obligations.ResetStateHolds : Prop :=
  (State.reset.pending = [] ∧ State.reset.mem = [] ∧ memWf State.reset.mem = true ∧
     State.reset.x.cmds = [] ∧ State.reset.x.queues = [] ∧ State.reset.vm.pages = [] ∧ State.reset.sv.batches = [] ∧
     (∀ c, (State.reset.core c).mode = .idle) ∧ State.reset.x.serial = 0 ∧ (∀ p, State.reset.time p = 0) ∧
     State.reset.reg (R.HAM_ISA 0) = 0x48000200) ∧
  (∀ d, (State.reset.core d).turns.length ≤ 2)

/-! ## Core instructions that compute (03 R60 to R71) -/

/-- The immediate instructions of Table 3.3 and mov.l: the register d takes the value, the core goes on past the instruction's words, and
nothing else of the state changes; mem.touch only goes on: no access, no heat, no exception. -/
def Obligations.ImmediateInstructionsWriteTheirResult : Prop :=
  (∀ (s : State) (c : Nat) (d a : Reg) (i : BitVec 16),
     let k := s.core c
     let next (x : Word) : Ans := .next (s.setCore c (stepped (k.wr d x)))
     (runs s c (.imm .addi d a i) = true → exec (.intAddi c) s = next (k.rd a + i.signExtend 64)) ∧
     (runs s c (.imm .andi d a i) = true → exec (.intAndi c) s = next (k.rd a &&& i.zeroExtend 64)) ∧
     (runs s c (.imm .ori d a i) = true → exec (.intOri c) s = next (k.rd a ||| i.zeroExtend 64)) ∧
     (runs s c (.imm .xori d a i) = true → exec (.intXori c) s = next (k.rd a ^^^ i.zeroExtend 64)) ∧
     (runs s c (.imm .slti d a i) = true →
       exec (.intSlti c) s = next (if (k.rd a).toInt < i.toInt then 1 else 0)) ∧
     (runs s c (.imm .sltui d a i) = true →
       exec (.intSltui c) s = next (if (k.rd a).toNat < i.toNat then 1 else 0)) ∧
     (runs s c (.imm .hi d a i) = true →
       exec (.intHi c) s = next ((k.rd a &&& 0x0000FFFFFFFFFFFF) ||| (i.zeroExtend 64 <<< 48))) ∧
     (runs s c (.imm .shli d a i) = true → exec (.intShli c) s = next (k.rd a <<< (i.toNat % 64))) ∧
     (runs s c (.imm .shri d a i) = true → exec (.intShri c) s = next (k.rd a >>> (i.toNat % 64))) ∧
     (runs s c (.imm .srai d a i) = true → exec (.intSrai c) s = next ((k.rd a).sshiftRight (i.toNat % 64)))) ∧
  (∀ (s : State) (c : Nat) (d : Reg) (i : BitVec 48), runs s c (.movl d i) = true →
     exec (.movL c) s = .next (s.setCore c (wentOn ((s.core c).wr d (i.signExtend 64)) ((s.core c).pc + 2)))) ∧
  (∀ (s : State) (c : Nat) (b : Reg) (sp : Space) (off : BitVec 14), runs s c (.touch b sp off) = true →
     exec (.memTouch c) s = .next (s.setCore c (stepped (s.core c))))

/-- Integer arithmetic on registers: each minor of Table 3.4 writes its result to d with no exception; it wraps modulo 2^64; division
by zero and the division of -2^63 by -1 give what R61 says; and the remaining minors by value: logic, shifts by b[5:0], high products, truncated
division, minima, comparisons. -/
def Obligations.IntegerArithmeticWrapsWithoutException : Prop :=
  ((∀ (s : State) (c : Nat) (f : IntFn) (d a b : Reg), runs s c (.int f d a b) = true →
     exec (.intRegOp c) s = .next (s.setCore c (stepped ((s.core c).wr d (intFn f ((s.core c).rd a) ((s.core c).rd b)))))) ∧
   (∀ a b : Word,
     (intFn .add a b).toNat = (a.toNat + b.toNat) % 2 ^ 64 ∧
     (intFn .sub a b).toNat = (a.toNat + 2 ^ 64 - b.toNat) % 2 ^ 64 ∧
     (intFn .mul a b).toNat = a.toNat * b.toNat % 2 ^ 64) ∧
   (∀ a : Word,
     intFn .div a 0 = BitVec.allOnes 64 ∧ intFn .divu a 0 = BitVec.allOnes 64 ∧ intFn .rem a 0 = a ∧ intFn .remu a 0 = a) ∧
   intFn .div (BitVec.ofInt 64 (-2 ^ 63)) (BitVec.allOnes 64) = BitVec.ofInt 64 (-2 ^ 63) ∧
   intFn .rem (BitVec.ofInt 64 (-2 ^ 63)) (BitVec.allOnes 64) = 0) ∧
  (∀ a b : Word,
     intFn .and a b = a &&& b ∧ intFn .or a b = a ||| b ∧ intFn .xor a b = a ^^^ b ∧
     intFn .shl a b = a <<< (b.toNat % 64) ∧ intFn .shr a b = a >>> (b.toNat % 64) ∧
     intFn .sra a b = a.sshiftRight (b.toNat % 64) ∧
     (intFn .mulhu a b).toNat = a.toNat * b.toNat / 2 ^ 64 ∧
     (intFn .mulh a b).toInt = a.toInt * b.toInt / 2 ^ 64 ∧
     (b ≠ 0 → (intFn .divu a b).toNat = a.toNat / b.toNat ∧ (intFn .remu a b).toNat = a.toNat % b.toNat) ∧
     (b ≠ 0 → ¬ (a.toInt = -2 ^ 63 ∧ b.toInt = -1) →
       (intFn .div a b).toInt = a.toInt.tdiv b.toInt ∧ (intFn .rem a b).toInt = a.toInt.tmod b.toInt) ∧
     (intFn .min a b).toInt = min a.toInt b.toInt ∧ (intFn .max a b).toInt = max a.toInt b.toInt ∧
     intFn .slt a b = (if a.toInt < b.toInt then 1 else 0) ∧ intFn .sltu a b = (if a.toNat < b.toNat then 1 else 0))

/-- Branches, calls and jumps: where the program counter goes, what register takes the return word index, and a fetch outside the store. -/
def Obligations.BranchesGoWhereTheyName : Prop :=
  ∀ (s : State) (c : Nat),
    let k := s.core c
    (∀ (f : BrFn) (a b : Reg) (off : BitVec 16), runs s c (.br f a b off) = true →
      exec (.brCompare c) s = .next (s.setCore c (wentOn k
        (if (match f with
             | .eq => decide (k.rd a = k.rd b)
             | .ne => decide (k.rd a ≠ k.rd b)
             | .lt => decide ((k.rd a).toInt < (k.rd b).toInt)
             | .ge => decide ((k.rd b).toInt ≤ (k.rd a).toInt)
             | .ltu => decide ((k.rd a).toNat < (k.rd b).toNat)
             | .geu => decide ((k.rd b).toNat ≤ (k.rd a).toNat)) = true
         then k.pc + off.signExtend 64 else k.pc + 1)))) ∧
    (∀ off : BitVec 26, runs s c (.call off) = true →
      exec (.brCall c) s = .next (s.setCore c (wentOn (k.wr 31 (k.pc + 1)) (k.pc + off.signExtend 64)))) ∧
    (∀ d a : Reg, runs s c (.jr d a) = true →
      exec (.brJr c) s = .next (s.setCore c (wentOn (k.wr d (k.pc + 1)) (k.rd a)))) ∧
    (c < 256 → s.canStep c = true → 16384 ≤ k.pc.toNat →
      exec (.brCompare c) s = .next (s.exception c .fetchRange) ∧ exec (.brCall c) s = .next (s.exception c .fetchRange) ∧
        exec (.brJr c) s = .next (s.exception c .fetchRange))

/-- The vector instructions, element by element: where the mask bit is 1 an element of the destination takes the value of R66 to R71, where
it is 0 it stands; a reduction leaves element 0 and zeros; an extract and a population count go to a general register, and comparisons and
mask logic to a mask register. Nothing else changes. -/
def Obligations.VectorInstructionsWriteTheirResult : Prop :=
  ∀ (s : State) (c : Nat) (t : ETy) (m : BitVec 3) (vd va vb : Reg),
    let k := s.core c
    let n := eCount t
    let w := eWidth t
    let next (x : Core) : Ans := .next (s.setCore c (stepped x))
    let on (i : Nat) : Bool := (k.mrd m).getLsbD i
    let a (i : Nat) : Nat := elem t (k.vrd va) i
    let b (i : Nat) : Nat := elem t (k.vrd vb) i
    let d (i : Nat) : Nat := elem t (k.vrd vd) i
    let sgn (x : Nat) : Int := signed w x
    let sat (x : Int) : Nat := unsigned w (max (-2 ^ (w - 1)) (min x (2 ^ (w - 1) - 1)))
    -- the vector register vd takes elements of a type where the mask is set and keeps the others
    let gives (x : Ans) (ty : ETy) (f : Nat → Nat) : Prop := ∃ v : Vec, x = next (k.vwr vd v) ∧
      ∀ i, i < eCount ty → elem ty v i = if on i then f i % 2 ^ eWidth ty else elem ty (k.vrd vd) i
    let masks (x : Ans) (md : BitVec 3) (f : Nat → Bool) : Prop := ∃ v : Word, x = next (k.mwr md v) ∧
      ∀ i, i < 64 → v.getLsbD i = (decide (i < n) && f i)
    (∀ f, runs s c (.vop f t m vd va vb) = true →
      (eFmt t = none → f ≠ .exp2 → f ≠ .recip → gives (exec (.vecOp c) s) t fun i => match f with
        | .add => a i + b i
        | .sub => a i + 2 ^ w - b i
        | .mul => a i * b i
        | .fma => a i * b i + d i
        | .min => if sgn (a i) ≤ sgn (b i) then a i else b i
        | .max => if sgn (a i) ≤ sgn (b i) then b i else a i
        | .and => a i &&& b i
        | .or => a i ||| b i
        | .xor => a i ^^^ b i
        | .shl => a i * 2 ^ (b i % w)
        | .shr => a i / 2 ^ (b i % w)
        | .sra => unsigned w (sgn (a i) / 2 ^ (b i % w))
        | .adds => sat (sgn (a i) + sgn (b i))
        | .subs => sat (sgn (a i) - sgn (b i))
        | .exp2 | .recip => 0) ∧
      (∀ e, eFmt t = some e → gives (exec (.vecOp c) s) t fun i =>
        let x := decodeF e (a i)
        let y := decodeF e (b i)
        match f with
        | .add => roundF e false (fadd x y)
        | .sub => roundF e false (fadd x (fneg y))
        | .mul => roundF e false (fmul x y)
        | .fma => roundF e false (fadd (fmul x y) (decodeF e (d i)))
        | .min => roundF e false (fmin x y)
        | .max => roundF e false (fmax x y)
        | _ => vopFloat f e (a i) (b i) (d i))) ∧
    (∀ ty, runs s c (.vcvt t ty m vd va) = true → gives (exec (.vecCvt c) s) ty fun i => if i < n then cvtElem t ty (a i) else 0) ∧
    (∀ f, runs s c (.vred f t m vd va) = true →
      ∃ v : Vec, exec (.vecRed c) s = next (k.vwr vd v) ∧ (∀ i, 1 ≤ i → i < n → elem t v i = 0) ∧
        (eFmt t = none → f = .sum → elem t v 0 = lsum ((List.range n).map fun i => if on i then a i else 0) % 2 ^ w) ∧
        (eFmt t = none → f = .min → (∃ i, i < n ∧ on i = true) →
          (∃ i, i < n ∧ on i = true ∧ elem t v 0 = a i) ∧ ∀ i, i < n → on i = true → sgn (elem t v 0) ≤ sgn (a i)) ∧
        (eFmt t = none → f = .max → (∃ i, i < n ∧ on i = true) →
          (∃ i, i < n ∧ on i = true ∧ elem t v 0 = a i) ∧ ∀ i, i < n → on i = true → sgn (a i) ≤ sgn (elem t v 0)) ∧
        (eFmt t ≠ none → v = vecRed f t (k.mrd m) (k.vrd va))) ∧
    (∀ f, runs s c (.vperm f t m vd va vb) = true →
      let x := exec (.vecPerm c) s
      (f = .bcast → gives x t fun _ => (k.rd va).toNat) ∧
      (f = .insert → gives x t fun i => if i = (k.rd va).toNat % n then (k.rd vb).toNat else d i) ∧
      (f = .move → gives x t a) ∧
      (f = .shuffle → gives x t fun i => elem t (k.vrd va) (b i % n)) ∧
      (f = .compress → ∃ v : Vec, x = next (k.vwr vd v) ∧
        ∀ i, i < n → elem t v i = nth (((List.range n).filter on).map a) i 0) ∧
      (f = .extract → x = next (k.wr vd (let y := elem t (k.vrd va) ((k.rd vb).toNat % n)
        if eFmt t = none then BitVec.ofInt 64 (sgn y) else BitVec.ofNat 64 y)))) ∧
    (∀ f (md : BitVec 3), runs s c (.vcmp f t m md va vb) = true → masks (exec (.vecCmp c) s) md fun i =>
      if on i then match eFmt t with
        | none => (match f with
          | .eq => decide (a i = b i)
          | .ne => decide (a i ≠ b i)
          | .lt => decide (sgn (a i) < sgn (b i))
          | .le => decide (sgn (a i) ≤ sgn (b i))
          | .gt => decide (sgn (b i) < sgn (a i))
          | .ge => decide (sgn (b i) ≤ sgn (a i)))
        | some e => if (decodeF e (a i)).isNan || (decodeF e (b i)).isNan then decide (f = .ne) else cmpElem f t (a i) (b i)
      else (k.mrd md).getLsbD i) ∧
    (∀ f (ma mb : BitVec 3), runs s c (.vmsk f t vd ma mb) = true →
      let x (i : Nat) : Bool := (k.mrd ma).getLsbD i
      let y (i : Nat) : Bool := (k.mrd mb).getLsbD i
      let md := vd.extractLsb' 0 3
      (f = .and → masks (exec (.vecMsk c) s) md fun i => x i && y i) ∧
      (f = .or → masks (exec (.vecMsk c) s) md fun i => x i || y i) ∧
      (f = .xor → masks (exec (.vecMsk c) s) md fun i => x i != y i) ∧
      (f = .andn → masks (exec (.vecMsk c) s) md fun i => x i && !y i) ∧
      (f = .popc → exec (.vecMsk c) s = next (k.wr vd (BitVec.ofNat 64 ((List.range n).countP x)))))

/-- Where the mask bit of an element is 0, the element of a vec.op keeps its previous value, whichever the operation and the type. -/
def Obligations.MaskedOffElementsKeepTheirValue : Prop :=
  ∀ (f : VopFn) (t : ETy) (m : Word) (old a b : Vec) (i : Nat), i < eCount t → m.toNat.testBit i = false →
    elem t (vecOp f t m old a b) i = elem t old i

/-- Registers that are wired: g0 reads zero and m0 all ones after any write, a write to them changes nothing, and a write to any other
register is what it then reads while the others stand. -/
def Obligations.WiredRegistersDiscardWrites : Prop :=
  ∀ (k : Core) (d r : Reg) (m n : BitVec 3) (x : Word),
    (k.wr d x).rd 0 = 0 ∧ k.wr 0 x = k ∧ (d ≠ 0 → (k.wr d x).rd d = x) ∧ (r ≠ d → (k.wr d x).rd r = k.rd r) ∧
    (k.mwr m x).mrd 0 = BitVec.allOnes 64 ∧ k.mwr 0 x = k ∧ (m ≠ 0 → (k.mwr m x).mrd m = x) ∧
    (n ≠ m → (k.mwr m x).mrd n = k.mrd n)

/-- Every core instruction the encoding admits is decoded from its own words: no operand bit is dropped. -/
def Obligations.CoreEncodingRoundTrips : Prop :=
  ∀ op : CoreOp, op.wf = true → decodeCore (encodeCore op).1 (encodeCore op).2 = op

/-! ## Memory instructions (03 R63 to R65) -/

/-- Scratch accesses: aligned and in range, a load writes its register from the core's scratch and a store writes its bytes there;
misaligned or beyond the bank, the instruction raises the exception. -/
def Obligations.ScratchAccessesLoadAndStore : Prop :=
  ∀ (s : State) (c corr : Nat) (parity : Bool) (r b : Reg) (off : BitVec 14),
    let k := s.core c
    let addr (size : Nat) : Nat := (memAddr (k.rd b) off size).toNat
    let fits (size : Nat) : Prop := addr size % size = 0 ∧ addr size + size ≤ 0x40000
    let roomy (size : Nat) : Prop := match k.turn with
      | some t => (tfind t.kept (addr size / 64)).isSome = true ∨ t.kept.length < 512
      | none => False
    let stored (size : Nat) (bs : List Byte) : Ans :=
      .next ((s.scratchWrite c (addr size) bs).setCore c (stepped ((s.scratchWrite c (addr size) bs).core c)))
    let bad (size : Nat) (x : Ans) : Prop :=
      (addr size % size ≠ 0 → x = .next (s.exception c .misaligned)) ∧
      (addr size % size = 0 → 0x40000 < addr size + size → x = .next (s.exception c .scratchRange))
    (∀ f : LdFn, runs s c (.ld f r b .scratch off) = true →
      (fits f.size → exec (.memLd c ⟨corr, parity⟩) s =
        .next (s.setCore c (stepped (k.wr r (f.extend (s.scratch c (addr f.size) f.size)))))) ∧
      bad f.size (exec (.memLd c ⟨corr, parity⟩) s)) ∧
    (∀ f : StFn, runs s c (.st f r b .scratch off) = true →
      (fits f.size → roomy f.size → exec (.memSt c) s = stored f.size (leBytes f.size (k.rd r).toNat)) ∧
      bad f.size (exec (.memSt c) s)) ∧
    (runs s c (.vld r b .scratch off) = true →
      (fits 64 → exec (.memVld c ⟨corr, parity⟩) s =
        .next (s.setCore c (stepped (k.vwr r (BitVec.ofNat 512 (ofLe (s.scratch c (addr 64) 64))))))) ∧
      bad 64 (exec (.memVld c ⟨corr, parity⟩) s)) ∧
    (runs s c (.vst r b .scratch off) = true →
      (fits 64 → roomy 64 → exec (.memVst c) s = stored 64 (leBytes 64 (k.vrd r).toNat)) ∧
      bad 64 (exec (.memVst c) s))

/-- A scratch store changes the bytes it stores to and no other byte of memory, in any state whose memory is in canonical form, and
memory stays in that form; commands, pages, registers of the window and the other cores stand. -/
def Obligations.ScratchStoreChangesOnlyItsBytes : Prop :=
  ∀ (s : State) (c : Nat) (f : StFn) (r b : Reg) (off : BitVec 14) (tn : Turn),
    let k := s.core c
    let a := (memAddr (k.rd b) off f.size).toNat
    let lo := key (spScratch k.bank) a
    runs s c (.st f r b .scratch off) = true → memWf s.mem = true → k.turn = some tn → tn.kept.length < 512 →
    a % f.size = 0 → a + f.size ≤ 0x40000 →
    ∃ t : State, exec (.memSt c) s = .next t ∧ memWf t.mem = true ∧
      (∀ x, lo ≤ x → x < lo + f.size → t.byte x = BitVec.ofNat 8 ((k.rd r).toNat / 256 ^ (x - lo) % 256)) ∧
      (∀ x, x < lo ∨ lo + f.size ≤ x → t.byte x = s.byte x) ∧
      (∀ d, d ≠ c → t.core d = s.core d) ∧ t.cw = s.cw ∧ t.vm = s.vm ∧ t.x.cmds = s.x.cmds

/-- Accesses to the virtual range: a load whose accesses reach takes its bytes, once a peer has sent those of a shared pool page; a store is
deferred in its turn; an address not mapped raises PROTECTION; a page not at a home the core can reach kills the turn for TRANSLATION
without an exception. -/
def Obligations.VirtualAccessesReachOrKill : Prop :=
  ∀ (s : State) (c corr : Nat) (parity : Bool) (r b : Reg) (off : BitVec 14),
    let k := s.core c
    let addr (size : Nat) : Nat := (memAddr (k.rd b) off size).toNat
    let plain (size : Nat) : Prop := addr size % size = 0 ∧ addr size < cwVa ∧ s.pw.absent.contains 5 = false
    let loaded (size : Nat) (put : Core → List Byte → Core) : Ans :=
      let got := s.coreRead c k.ten (addr size) size
      let s' := got.2.corrected k.ten (addr size) corr parity
      .next (s'.setCore c (stepped (put { s'.core c with pool := none } got.1)))
    -- the parts on shared pool pages that the load has not been sent: the first of them is asked of its peer
    let parts (size : Nat) : List (Nat × Nat) := (s.poolParts .unit k.ten [(addr size, size)]).filter fun p => k.pool != some p
    let asks (p : Nat × Nat) (x : Ans) : Prop :=
      let r := s.askPeer noTicket 8 c k.ten p
      x = .next (r.1.setCore c { k with wait := .pool r.2 })
    let stored (size : Nat) (bs : List Byte) : Ans :=
      let s' := s.coreWrite c k.ten (addr size) bs
      .next (s'.setCore c (stepped (s'.core c)))
    let roomy : Prop := match k.turn with
      | some t => t.lines.length < 1024
      | none => False
    let kills (acc : AccRes) (x : Ans) : Prop :=
      (acc = .prot → x = .next (s.exception c .protection)) ∧
      (∀ ps, acc = .fault ps → x = .next (s.coreFault c .translation ps))
    let rd (size : Nat) : AccRes := s.access .unit k.ten [(addr size, size)] []
    let wr (size : Nat) : AccRes := s.access .unit k.ten [] [(addr size, size)]
    (∀ f : LdFn, runs s c (.ld f r b .virt off) = true → plain f.size →
      (rd f.size = .ok → parts f.size = [] → exec (.memLd c ⟨corr, parity⟩) s = loaded f.size fun x bs => x.wr r (f.extend bs)) ∧
      (∀ p ps, rd f.size = .ok → parts f.size = p :: ps → asks p (exec (.memLd c ⟨corr, parity⟩) s)) ∧
      kills (rd f.size) (exec (.memLd c ⟨corr, parity⟩) s)) ∧
    (∀ f : StFn, runs s c (.st f r b .virt off) = true → plain f.size →
      (wr f.size = .ok → roomy → exec (.memSt c) s = stored f.size (leBytes f.size (k.rd r).toNat)) ∧
      kills (wr f.size) (exec (.memSt c) s)) ∧
    (runs s c (.vld r b .virt off) = true → plain 64 →
      (rd 64 = .ok → parts 64 = [] → exec (.memVld c ⟨corr, parity⟩) s = loaded 64 fun x bs => x.vwr r (BitVec.ofNat 512 (ofLe bs))) ∧
      (∀ p ps, rd 64 = .ok → parts 64 = p :: ps → asks p (exec (.memVld c ⟨corr, parity⟩) s)) ∧
      kills (rd 64) (exec (.memVld c ⟨corr, parity⟩) s)) ∧
    (runs s c (.vst r b .virt off) = true → plain 64 →
      (wr 64 = .ok → roomy → exec (.memVst c) s = stored 64 (leBytes 64 (k.vrd r).toNat)) ∧
      kills (wr 64) (exec (.memVst c) s))

/-! ## Turns (03 R51 to R56, R72) -/

/-- The ends of a turn: sync.commit ends it and the next begins unless two are outstanding; sync.halt ends it for good; sync.bar ends it
and the core waits at the barrier it holds. TURN_STALL_END begins the stalled turn once fewer than two are outstanding. -/
def Obligations.TurnsEndAndBegin : Prop :=
  ∀ (s : State) (c : Nat),
    let k := stepped (s.core c)
    (runs s c .commit = true → exec (.syncCommit c) s = .next (s.setCore c (k.endTurn .plain).startTurn)) ∧
    (runs s c .halt = true → exec (.syncHalt c) s = .next (s.setCore c (k.endTurn .halt))) ∧
    (∀ a : Reg, runs s c (.bar a) = true →
      let n := ((s.core c).rd a).toNat
      ((s.core c).bars.contains (c / 32, n) = true → exec (.syncBar c) s =
        .next (s.setCore c { k.endTurn (.barrier (c / 32) n) with mode := .waiting, wait := .barrier (c / 32) n })) ∧
      ((s.core c).bars.contains (c / 32, n) = false → exec (.syncBar c) s = .next (s.exception c .handle))) ∧
    (c < 256 → (s.core c).wait = .turn → (s.core c).turns.length < 2 →
      exec (.turnStallEnd c) s = .next (s.setCore c (s.core c).startTurn))

/-- At most two turns of a core are outstanding: the bound is kept by every instruction of a core and by TURN_STALL_END. -/
def Obligations.AtMostTwoTurnsOutstanding : Prop :=
  ∀ (s t : State) (i : Instr) (c n : Nat) (p : Bool),
    i ∈ [.intRegOp c, .intAddi c, .intAndi c, .intOri c, .intXori c, .intSlti c, .intSltui c, .intHi c, .intShli c, .intShri c,
      .intSrai c, .movL c, .memLd c ⟨n, p⟩, .memSt c, .memVld c ⟨n, p⟩, .memVst c, .memTouch c, .brCompare c, .brCall c, .brJr c, .vecOp c,
      .vecCvt c, .vecRed c, .vecPerm c, .vecCmp c, .vecMsk c, .illegalInstruction c, .cmdIssue c, .cmdWait c, .cmdWaitall c,
      .cmdAbort c, .wellDraw c, .syncBar c, .syncCommit c, .syncHalt c, .sysRd c, .sysWr c, .sysBreak c, .turnStallEnd c,
      .cmdWaitReturn c, .cmdIssueStallEnd c] →
    (∀ d, (s.core d).turns.length ≤ 2) → exec i s = .next t → ∀ d, (t.core d).turns.length ≤ 2

/-- BARRIER_RELEASE: once as many cores of the hamlet's tenancy have arrived as its barrier's count, the barrier is empty again and each core that waits there
runs; while fewer have arrived nothing changes. -/
def Obligations.BarrierReleasesAllWhenCountArrives : Prop :=
  ∀ (s : State) (ham num : Nat) (b : Bar), ham < 8 → num < 16 →
    let key := barKey (s.get (R.HAM_CTL_TEN ham)) ham num
    tfind s.x.bars key = some b →
    (b.arrived.length < b.count → exec (.barrierRelease ham num) s = .next s) ∧
    (b.count ≤ b.arrived.length → b.arrived.Nodup → ∃ t, exec (.barrierRelease ham num) s = .next t ∧
      tfind t.x.bars key = some { b with arrived := [] } ∧
      (∀ c, c ∈ b.arrived → (s.core c).wait = .barrier ham num → t.core c = ({ s.core c with mode := .running } : Core).startTurn) ∧
      (∀ c, c ∉ b.arrived → t.core c = s.core c) ∧ t.mem = s.mem ∧ t.cw = s.cw ∧ t.x.cmds = s.x.cmds)

/-! ## Command issue, waits and aborts (03 R75 to R78, 04 R85, R97, R98) -/

/-- cmd.issue: the checks of R75 in their order each raise their exception; a queue without room stalls the core; with room, d takes the
ticket of R76, the issue is deferred in the turn, the turn ends and the next begins. CMD_ISSUE_STALL_END does the same once there is
room. No command exists before the turn commits. -/
def Obligations.IssueChecksThenDefers : Prop :=
  ∀ (s : State) (c : Nat) (d a b : Reg) (qu : Queue),
    let k := s.core c
    let q := (k.rd b).toNat
    let at_ := (k.rd a).toNat
    let w0 := ofLe (s.scratch c at_ 8)
    let len := bits w0 8 8
    let seq := tget k.counts q 0
    let words := wordsOf len (s.scratch c at_ (8 * len))
    let bad := (dDeps words).any fun t => !k.issued t
    let done (k : Core) : Ans :=
      let k := { k with wait := .none, counts := tset k.counts q (seq + 1) }
      let k := (k.onTurn fun t => { t with issues := t.issues ++ [⟨q, seq, words, bad⟩] }).wr d (BitVec.ofNat 64 (q * 2 ^ 48 + seq))
      .next (((s.setCore c (stepped k)).setCore c ((stepped k).endTurn .plain).startTurn))
    let ok : Prop := k.handles.contains q = true ∧ at_ % 8 = 0 ∧ at_ + 8 * max 1 len ≤ 0x40000 ∧ w0 % 256 = 1 ∧ 2 ≤ len ∧ len ≤ 64
    (runs s c (.issue d a b) = true →
      (k.handles.contains q = false → exec (.cmdIssue c) s = .next (s.exception c .handle)) ∧
      (k.handles.contains q = true → at_ % 8 ≠ 0 → exec (.cmdIssue c) s = .next (s.exception c .misaligned)) ∧
      (k.handles.contains q = true → at_ % 8 = 0 → 0x40000 < at_ + 8 ∨ 0x40000 < at_ + 8 * len →
        exec (.cmdIssue c) s = .next (s.exception c .scratchRange)) ∧
      (k.handles.contains q = true → at_ % 8 = 0 → at_ + 8 ≤ 0x40000 → at_ + 8 * len ≤ 0x40000 → w0 % 256 ≠ 1 ∨ len < 2 ∨ 64 < len →
        exec (.cmdIssue c) s = .next (s.exception c .descriptor)) ∧
      (ok → s.queue q = some qu → qu.maxOut ≤ s.outstanding q →
        exec (.cmdIssue c) s = .next (s.setCore c { k with wait := .issue })) ∧
      (ok → s.queue q = some qu → s.outstanding q < qu.maxOut → exec (.cmdIssue c) s = done k)) ∧
    (c < 256 → k.wait = .issue → k.fetch = some (.issue d a b) → ok → s.queue q = some qu → s.outstanding q < qu.maxOut →
      ∃ t, exec (.cmdIssueStallEnd c) s = .next t ∧ (t.core c).wait ≠ .issue ∧ tget (t.core c).counts q 0 = seq + 1 ∧
        (d ≠ 0 → (t.core c).rd d = BitVec.ofNat 64 (q * 2 ^ 48 + seq)) ∧ t.x.cmds = s.x.cmds ∧ t.mem = s.mem ∧ t.cw = s.cw)

/-- cmd.wait, cmd.waitall and cmd.abort: a ticket or range that R77 and R97 forbid raises HANDLE; else the turn ends, and a wait begins or
the aborts are deferred. CMD_WAIT_RETURN gives d the record's first word of a committed command, or the count of a range all of whose
commands are over, 0 for an empty one, and the core goes on in a new turn. -/
def Obligations.WaitsEndTheTurnAndReturn : Prop :=
  ∀ (s : State) (c : Nat) (d a b : Reg),
    let k := s.core c
    let f := (k.rd a).toNat
    let l := (k.rd b).toNat
    let badRange : Prop := qOf f ≠ qOf l ∨ k.handles.contains (qOf f) = false ∨ (seqOf f ≤ seqOf l ∧ k.issued l = false)
    let waits (w : Wait) : Ans := .next ((s.setCore c (stepped k)).setCore c { (stepped k).endTurn .plain with mode := .waiting, wait := w })
    let back (r x : Nat) : Ans :=
      .next (s.setCore c ({ k with mode := .running, wait := .none }.wr (BitVec.ofNat 5 r) (BitVec.ofNat 64 x)).startTurn)
    (runs s c (.wait d a) = true →
      (k.issued f = true → exec (.cmdWait c) s = waits (.ticket d.toNat f)) ∧
      (k.issued f = false → exec (.cmdWait c) s = .next (s.exception c .handle))) ∧
    (runs s c (.waitAll d a b) = true →
      (¬ badRange → exec (.cmdWaitall c) s = waits (.range d.toNat f l)) ∧
      (badRange → exec (.cmdWaitall c) s = .next (s.exception c .handle))) ∧
    (runs s c (.abort a b) = true →
      (badRange → exec (.cmdAbort c) s = .next (s.exception c .handle)) ∧
      (¬ badRange →
        let k' := stepped (k.onTurn fun t => { t with aborts := t.aborts ++ [(f, l)] })
        exec (.cmdAbort c) s = .next ((s.setCore c k').setCore c (k'.endTurn .plain).startTurn))) ∧
    (c < 256 → k.mode = .waiting →
      (∀ r t m, k.wait = .ticket r t → s.cmd t = some m → m.st = .committed → exec (.cmdWaitReturn c) s = back r m.record) ∧
      (∀ r f l, k.wait = .range r f l → seqOf l < seqOf f → exec (.cmdWaitReturn c) s = back r 0) ∧
      (∀ r f l, k.wait = .range r f l → seqOf f ≤ seqOf l → ((upto f (l - f + 1)).all s.isOver) = true →
        exec (.cmdWaitReturn c) s = back r (l - f + 1)) ∧
      (∀ r t m, k.wait = .ticket r t → s.cmd t = some m → m.st ≠ .committed → m.st ≠ .void → exec (.cmdWaitReturn c) s = .next s))

/-- cmd.wait on a void ticket returns at once the word of R98, and cmd.waitall counts a void ticket as resolved. -/
def Obligations.VoidTicketReturnsAtOnce : Prop :=
  ∀ (s : State) (c r t : Nat) (m : Cmd), c < 256 → (s.core c).mode = .waiting → s.cmd t = some m → m.st = .void →
    ((s.core c).wait = .ticket r t → exec (.cmdWaitReturn c) s =
      .next (s.setCore c ({ s.core c with mode := .running, wait := .none }.wr (BitVec.ofNat 5 r) 0x0000_0000_0700_0B01).startTurn)) ∧
    s.isOver t = true

/-! ## Wells and core state registers (03 R73, R79, 04 R103) -/

/-- well.draw: a well the task does not hold, or one off or bound elsewhere, raises HANDLE and, the latter, WEL_ERR.FOREIGN; a draw that finds a
value gives it to d, a well exhausted gives all ones, and a draw that must wait leaves the core waiting. WELL_DRAW_RETRY draws again, for a
core and for a command that waits.
A draw takes the smallest returned value, else NEXT and moves NEXT on by STEP, or to LIMIT past 2^64; it waits while 256 leases are
live or a lease is live that neither the drawer nor a dependant of it holds; else the well is exhausted. -/
def Obligations.WellDrawGivesValueOrWaits : Prop :=
  (∀ (s : State) (c : Nat) (d a : Reg) (tn : Turn),
     let k := s.core c
     let n := (k.rd a).toNat
     let took (s : State) (v : Word) : Ans :=
       .next (s.setCore c (stepped (({ s.core c with wait := .none }.onTurn fun t => { t with draws := t.draws + 1 }).wr d v)))
     let drawn (x : Ans) : Prop :=
       k.wells.contains n = true → n < 128 → s.wellMine n k.ten = true → k.turn = some tn → tn.draws < 8 → tn.retired < retireMax →
         (∀ v s', s.draw n (.turn c tn.num) (unitKey clsCore c) k.epoch = .value v s' → x = took s' (BitVec.ofNat 64 v)) ∧
         (s.draw n (.turn c tn.num) (unitKey clsCore c) k.epoch = .exhausted → x = took s (BitVec.allOnes 64)) ∧
         (s.draw n (.turn c tn.num) (unitKey clsCore c) k.epoch = .wait → x = .next (s.setCore c { k with wait := .draw }))
     (runs s c (.draw d a) = true →
       (128 ≤ n ∨ (s.wellMine n k.ten = true ∧ k.wells.contains n = false) → exec (.wellDraw c) s = .next (s.exception c .handle)) ∧
       (n < 128 → s.wellMine n k.ten = false →
         exec (.wellDraw c) s = .next ((s.raiseAt (R.WEL_ERR_FOREIGN n) (some k.ten) n noTicket).exception c .handle)) ∧
       drawn (exec (.wellDraw c) s)) ∧
     (k.wait = .draw → k.fetch = some (.draw d a) → drawn (exec (.wellDrawRetry (.turn c)) s)) ∧
     (∀ t m q, s.cmd t = some m → s.queue (qOf t) = some q → m.st = .issued → m.drawWait = true → s.unitTakes q.cls m.unit m.ten = true →
       s.mayRun m.ten = true → exec (.wellDrawRetry (.cmd t)) s = .next (s.leave t m.unit q { m with drawWait := false }))) ∧
  (∀ (s : State) (n u e : Nat) (dr : Drawer),
     let w := s.well n
     let next := (s.reg (R.WEL_NEXT n)).toNat
     let limit := (s.reg (R.WEL_LIMIT n)).toNat
     let step := s.get (R.WEL_STEP_STEP n)
     (256 ≤ w.live.length → s.draw n dr u e = .wait) ∧
     (w.live.length < 256 → w.returned ≠ [] → ∃ v t, s.draw n dr u e = .value v t ∧ v ∈ w.returned ∧ (∀ x, x ∈ w.returned → v ≤ x) ∧
       (t.well n).returned = w.returned.erase v ∧ (t.well n).live = w.live ++ [⟨v, dr, u, e⟩]) ∧
     (w.live.length < 256 → w.returned = [] → next < limit → n < 128 → ∃ t, s.draw n dr u e = .value next t ∧
       (t.reg (R.WEL_NEXT n)).toNat = (if 2 ^ 64 ≤ next + step then limit else next + step) ∧
       (t.well n).live = w.live ++ [⟨next, dr, u, e⟩] ∧ (t.well n).returned = []) ∧
     (w.live.length < 256 → w.returned = [] → limit ≤ next →
       ((w.live.any fun l => !s.leaseMine dr l) = true → s.draw n dr u e = .wait) ∧
       ((w.live.any fun l => !s.leaseMine dr l) = false → s.draw n dr u e = .exhausted)))

/-- sys.rd loads a core state register of Table 3.9 and sys.wr defers a write of TASK_ARG to its turn's commit; a number that is not
listed raises ILLEGAL, and a write of a read-only register changes nothing. -/
def Obligations.CoreStateRegistersReadAndWrite : Prop :=
  ∀ (s : State) (c : Nat) (d a b : Reg),
    let k := s.core c
    let n := (k.rd a).toNat
    (runs s c (.sysRd d a) = true →
      (∀ x, s.sysReg c n = some x → exec (.sysRd c) s = .next (s.setCore c (stepped (k.wr d x)))) ∧
      (6 ≤ n → exec (.sysRd c) s = .next (s.exception c .illegal))) ∧
    (s.sysReg c 0 = some (BitVec.ofNat 64 (c / 128 + c / 32 % 4 * 2 + c % 32 * 8)) ∧ s.sysReg c 1 = some 0x48000200 ∧
      s.sysReg c 2 = some (BitVec.ofNat 64 k.ten) ∧ s.sysReg c 3 = some (BitVec.ofNat 64 k.epoch) ∧
      s.sysReg c 5 = some (BitVec.ofNat 64 k.turnsDone)) ∧
    (runs s c (.sysWr a b) = true →
      (n = 4 → exec (.sysWr c) s = .next (s.setCore c (stepped (k.onTurn fun t => { t with arg := some (k.rd b) })))) ∧
      (n < 6 → n ≠ 4 → exec (.sysWr c) s = .next (s.setCore c (stepped k))) ∧
      (6 ≤ n → exec (.sysWr c) s = .next (s.exception c .illegal)))

/-- A reserved opcode or the all-zero word raises ILLEGAL and sys.break raises BREAK: the turn ends with the instructions before, and nothing
else changes. Once that turn commits, the core halts with the cause and the word index, HAM_ERR.EXC is set, the older work stands, and no
other core's registers change. -/
def Obligations.ExceptionsHaltTheCore : Prop :=
  ∀ (s : State) (c : Nat),
    let k := s.core c
    let ends (e : Exc) (x : Ans) : Prop := x = .next (s.setCore c (k.endTurn (.exception e.code (k.pc.toNat % 2 ^ 14))))
    (runs s c .illegal = true → ends .illegal (exec (.illegalInstruction c) s)) ∧
    (runs s c .sysBreak = true → ends .brk (exec (.sysBreak c) s)) ∧
    (∀ tn rest code pc, c < 256 → k.turns = tn :: rest → tn.fin = .exception code pc → s.turnReady c tn = true → k.ending = false →
      ∃ t, exec (.commitGrant (.turn c)) s = .next t ∧ (t.core c).mode = .excHalted ∧ (t.core c).exc = code ∧ (t.core c).excPc = pc ∧
        (t.core c).turns = rest ∧ (t.core c).g = k.g ∧ (t.core c).v = k.v ∧ (t.core c).m = k.m ∧ (t.core c).istore = k.istore ∧
        t.get (R.HAM_ERR_EXC (c / 32)) = 1 ∧ t.x.serial = s.x.serial + 1 ∧ (tn.stores = [] → t.mem = s.mem) ∧
        (tn.stores = [] → ∀ d, d ≠ c → t.core d = s.core d))

/-! ## The life of a command (02 R14 to R35, 04 R88 to R107) -/

/-- COMMAND_LEAVE_ISSUED: where a unit that serves the queue takes the tenancy's commands in its slice and the start dependencies hold, a
command that a check of Tables 4.3 and 4.5 refuses runs with that status and no effect, and any other without a draw runs as issued; either
has one attempt more, of 255 at most. Until then it stays Issued. -/
def Obligations.CommandsLeaveIssuedToRun : Prop :=
  ∀ (s : State) (t unit : Nat) (c : Cmd) (q : Queue), s.cmd t = some c → s.queue (qOf t) = some q → c.st = .issued → c.drawWait = false →
    let w := c.words
    let begun : Cmd := { c with
      st := .running, unit := unit, epoch := s.epochOf (dClass w) unit, attempts := min 255 (c.attempts + 1), drawWait := false
      runAt := s.unitStamp }
    let goes : Prop := s.mayServe q c.ten unit = true ∧ s.unitTakes q.cls unit c.ten = true ∧ s.mayRun c.ten = true ∧
      s.startReady t c = true ∧ s.haloUnit t c q unit = true
    let with_ (st : Nat) : Ans := .next (s.setCmd t { begun with patched := w, done := some ⟨st, [], []⟩ }).noteContention
    -- a pass takes its place among those that wait for accumulator tiles as its engine receives it (06 R139)
    let got (u : State) : State :=
      if dClass w = 1 ∧ dOp w = 1 then u.setTileQueue unit ((tget u.en.tileWait unit []).filter (· != t) ++ [t]) else u
    let runs_ (u : State) (lease : Option (Nat × Nat)) (p : List Nat) : Ans := .next ((got u).setCmd t { begun with
      lease := lease, patched := p, snap := u.snapOf c p, fetched := [], barred := u.idxBar c.ten p
      epoch := u.epochOf (dClass w) unit, runAt := u.unitStamp }).noteContention
    let sound : Prop := (dClass w = 0 ∨ dClass w = q.cls) ∧ opExists (dClass w) (dOp w) = true
    let shaped : Prop := dNdep w ≤ 4 ∧ 2 + dNdep w ≤ dLen w ∧ (dWellEn w = true → 2 + dNdep w ≤ dPatch w ∧ dPatch w < dLen w)
    (¬ goes → exec (.commandLeaveIssued t unit) s = .next s) ∧
    (goes → ¬ sound → exec (.commandLeaveIssued t unit) s = with_ 0x04) ∧
    (goes → sound → ¬ shaped → exec (.commandLeaveIssued t unit) s = with_ 0x05) ∧
    (goes → sound → shaped → c.depBad = true → exec (.commandLeaveIssued t unit) s = with_ 0x03) ∧
    (goes → sound → shaped → c.depBad = false → (dDeps w).any s.isVoid = true → exec (.commandLeaveIssued t unit) s = with_ 0x02) ∧
    (goes → sound → shaped → c.depBad = false → (dDeps w).any s.isVoid = false → dWellEn w = false →
      exec (.commandLeaveIssued t unit) s = runs_ s none w) ∧
    (goes → sound → shaped → c.depBad = false → (dDeps w).any s.isVoid = false → dWellEn w = true →
      s.wellMine (dWell w) c.ten = true →
      ∀ v u, s.draw (dWell w) (.cmd t) (unitKey (dClass w) unit) (s.epochOf (dClass w) unit) = .value v u →
        exec (.commandLeaveIssued t unit) s =
          runs_ u (some (dWell w, v)) (lset w (dPatch w) ((nw w (dPatch w) + v) % 2 ^ 64))) ∧
    (goes → sound → shaped → c.depBad = false → (dDeps w).any s.isVoid = false → dWellEn w = true →
      (s.wellMine (dWell w) c.ten = false → exec (.commandLeaveIssued t unit) s =
        .next ((s.raiseAt (R.WEL_ERR_FOREIGN (dWell w)) (some c.ten) (dWell w) t).refuse t unit c 0x05).noteContention) ∧
      (s.wellMine (dWell w) c.ten = true → s.draw (dWell w) (.cmd t) (unitKey (dClass w) unit) (s.epochOf (dClass w) unit) = .exhausted →
        exec (.commandLeaveIssued t unit) s = with_ 0x01) ∧
      (s.wellMine (dWell w) c.ten = true → s.draw (dWell w) (.cmd t) (unitKey (dClass w) unit) (s.epochOf (dClass w) unit) = .wait →
        exec (.commandLeaveIssued t unit) s = .next (s.setCmd t { c with drawWait := true, unit := unit }).noteContention))

/-- COMMAND_READY, NK_START_POINT, ARRAY_PROGRAM_DONE and SHADOW_COPYBACK_DONE: a Running command that has made itself ready is Ready, as
is a Running move, and what the granary corrected of its accesses is counted; a non-killable command that has, under a current epoch,
with its pages still in reach and with the supply that its class asks for, is Irrevocable and what it sends has left; the end of its array
program completes its effect; a copy-back's end changes only that it is under way. -/
def Obligations.CommandsBecomeReadyOrIrrevocable : Prop :=
  ∀ (s : State) (t : Nat) (c : Cmd), s.cmd t = some c →
    (∀ corr, c.st = .running → c.made = true → ∃ u : State, exec (.commandReady ⟨.cmd t, corr⟩) s = .next (u.setCmd t { c with st := .ready }) ∧
      u.x = s.x ∧ u.mem = s.mem ∧ u.vm.pages = s.vm.pages ∧ (c.pages = [] → u.cw = s.cw)) ∧
    (∀ corr, c.st ≠ .running ∨ c.made = false → exec (.commandReady ⟨.cmd t, corr⟩) s = .next s) ∧
    (∀ id m corr, tfind s.vm.moves id = some m → m.st = .running → ∃ u, exec (.commandReady ⟨.move id, corr⟩) s = .next u ∧
      tfind u.vm.moves id = some { m with st := .ready } ∧ u.mem = s.mem ∧ u.x = s.x ∧ u.vm.pages = s.vm.pages ∧
      (m.toSt = 2 → m.granule = none → u.get R.CEL_PROG_BYTES = (s.get R.CEL_PROG_BYTES + 2 ^ 21) % 2 ^ 64)) ∧
    (∀ d, c.st = .running → nonKillable (dClass c.words) (dOp c.words) = true → c.done = some d → d.status = 0 →
      c.epoch = s.epochOf (dClass c.words) c.unit → s.get R.PWR_STS_SHUTDOWN = 0 → s.nkTurn t c = true →
      let late : Prop := (dClass c.words = 0x08 ∨ dClass c.words = 0x09) ∧ s.get R.PWR_STS_NV_OK = 0
      let near_ : Prop := s.startAccess c = .ok
      (¬ late → near_ → exec (.nkStartPoint t) s = .next ((d.effs.foldl State.sendEff s).setCmd t { c with
        st := .irrevocable, nkDone := c.nkDone || decide (dClass c.words = 0x07)
        done := some { d with effs := d.effs.filter fun e => !e.leaves } })) ∧
      (late → near_ → ∃ u, exec (.nkStartPoint t) s = .next u ∧ u.cmd t = some { c with done := some ⟨0x09, [], []⟩ } ∧
        (dClass c.words = 0x08 → u.get R.CEL_ERR_NV_REFUSED = 1)) ∧
      (∀ ps, s.startAccess c = .fault ps → c.sheltered = false → ∃ u m, exec (.nkStartPoint t) s = .next u ∧ u.cmd t = some m ∧
        m.st = .killed ∧ m.lastKill = 2 ∧ m.await = ps)) ∧
    (c.st = .irrevocable → c.nkDone = false → dClass c.words = 0x08 ∨ dClass c.words = 0x09 →
      ∃ u, exec (.arrayProgramDone t) s = .next u ∧ u.cmd t = some { c with nkDone := true } ∧ u.mem = s.mem ∧
        (dClass c.words = 0x09 → u.cw = s.cw) ∧
        (∀ d, c.done = some d → dClass c.words = 0x08 →
          u.get R.CEL_PROG_BYTES = (s.get R.CEL_PROG_BYTES + nth d.res 0 0) % 2 ^ 64)) ∧
    (∀ g, ∃ u, exec (.shadowCopybackDone g) s = .next u ∧ u.x.copybacks = s.x.copybacks.erase g ∧ u.mem = s.mem ∧ u.cw = s.cw ∧
      u.vm = s.vm ∧ u.x.cmds = s.x.cmds ∧ u.x.cores = s.x.cores)

/-- COMMAND_KILL, KILL_COMPLETE, COMMAND_RERUN and FAULT_RESOLVED_RERUN: a killed command keeps its words and attempts and loses what it
has made; a shelter mark shuts out the causes of R31, which count to eight in a row, and any other cause starts that count anew; nothing
past the start point, over, or in a controlled shutdown is killed; a kill of a command still Issued adds no attempt (the model's
choice, log entry 85); a rerun comes once the kill is complete, after a TRANSLATION kill only once the pages are resolved. -/
def Obligations.KillsDiscardAndRerunsIssueAgain : Prop :=
  ∀ (s : State) (t : Nat) (c : Cmd), s.cmd t = some c →
    let safe : Prop := c.st.isOver = true ∨ c.st = .irrevocable ∨ s.get R.PWR_STS_SHUTDOWN = 1
    (∀ k, safe → exec (.commandKill (.cmd t) k) s = .next s) ∧
    (∀ k, c.sheltered = true → k.shelters = true → exec (.commandKill (.cmd t) k) s = .next s) ∧
    (∀ k, ¬ safe → c.st ≠ .killed → k ≠ .streamAbort → ¬ (c.sheltered = true ∧ k.shelters = true) →
      ∃ u m, exec (.commandKill (.cmd t) k) s = .next u ∧ u.cmd t = some m ∧ m.st = .killed ∧ m.done = none ∧ m.reads = [] ∧
        m.patched = [] ∧ m.lease = none ∧ m.far = [] ∧ m.tiles = 0 ∧ m.lastKill = k.code ∧ m.words = c.words ∧ m.attempts = c.attempts ∧
        m.kills = (if k.shelters then c.kills + 1 else 0) ∧ m.transKills = (if k = .translation then c.transKills + 1 else 0) ∧
        m.sheltered = (c.sheltered || decide (8 ≤ m.kills)) ∧ m.discarding = c.st.live ∧ u.mem = s.mem ∧ u.x.cores = s.x.cores ∧
        (∀ n l, l ∈ (u.well n).live → l.drawer ≠ .cmd t)) ∧
    (¬ safe → ∃ u m, exec (.commandKill (.cmd t) .streamAbort) s = .next u ∧ u.cmd t = some m ∧ m.st = .void ∧ m.done = none ∧
      u.mem = s.mem) ∧
    exec (.killComplete (.cmd t)) s = .next (s.setCmd t { c with discarding := false }) ∧
    (c.st = .killed → c.discarding = false → s.get R.PWR_STS_SHUTDOWN = 0 → c.lastKill ≠ 2 → s.mayRun c.ten = true →
      exec (.commandRerun (.cmd t)) s = .next (s.setCmd t { c with st := .issued, await := [] })) ∧
    (c.discarding = true → exec (.commandRerun (.cmd t)) s = .next s) ∧
    (c.st = .killed → c.discarding = false → c.lastKill = 2 → s.listDone c.writesStore c.await = true →
      exec (.faultResolvedRerun (.cmd t)) s = .next (s.setCmd t { c with st := .issued, await := [] })) ∧
    (c.lastKill = 2 → s.listDone c.writesStore c.await = false → exec (.faultResolvedRerun (.cmd t)) s = .next s) ∧
    (∀ b, s.listDone b [] = true)

/-- A killed turn: its core restores the registers, masks, program counter and counts that the turn began with, its younger turn and its
deferred work are gone, its kept scratch lines read as before the turn, its mark counts the kill, and its rerun begins it again. -/
def Obligations.KilledTurnsRestoreTheirCheckpoint : Prop :=
  ∀ (s : State) (c : Nat) (k : Cause) (tn : Turn) (rest : List Turn), (s.core c).turns = tn :: rest →
    let mark := tget (s.core c).marks tn.num {}
    (mark.sheltered = true → k.shelters = true → exec (.commandKill (.turn c) k) s = .next s) ∧
    (¬ (mark.sheltered = true ∧ k.shelters = true) → s.get R.PWR_STS_SHUTDOWN = 0 →
      ∃ u, exec (.commandKill (.turn c) k) s = .next u ∧
        let n := u.core c
        n.g = tn.ckpt.g ∧ n.v = tn.ckpt.v ∧ n.m = tn.ckpt.m ∧ n.pc = tn.ckpt.pc ∧ n.counts = tn.ckpt.counts ∧ n.turns = [] ∧
        n.turnNum = tn.num ∧ n.held = true ∧ n.discarding = true ∧ n.lastKill = k.code ∧ n.wait = .none ∧ n.mode = .running ∧
        ((∀ x ∈ rest, x.num ≠ tn.num) → tget n.marks tn.num {} = {
          kills := if k.shelters then mark.kills + 1 else 0, trans := if k = .translation then mark.trans + 1 else 0
          sheltered := mark.sheltered || decide (k.shelters = true ∧ 7 ≤ mark.kills) }) ∧
        n.istore = (s.core c).istore ∧ n.arg = (s.core c).arg ∧ n.turnsDone = (s.core c).turnsDone ∧ u.x.cmds = s.x.cmds ∧
        (memWf s.mem = true → ∀ a, key (spScratch (s.core c).bank) 0 ≤ a → a < key (spScratch (s.core c).bank) 0x40000 →
          (∀ x ∈ tn :: rest, ∀ p ∈ x.kept, p.1 ≠ (a - key (spScratch (s.core c).bank) 0) / 64) → u.byte a = s.byte a) ∧
        (memWf s.mem = true → rest = [] → ∀ l v, tn.kept = [(l, v)] →
          u.run (key (spScratch (s.core c).bank) (64 * l)) 64 = leBytes 64 v.toNat)) ∧
    exec (.killComplete (.turn c)) s = .next (s.setCore c { s.core c with discarding := false }) ∧
    ((s.core c).held = true → (s.core c).discarding = false → (s.core c).lastKill ≠ 2 → s.mayRun (s.core c).ten = true →
      s.get R.PWR_STS_SHUTDOWN = 0 →
      exec (.commandRerun (.turn c)) s = .next (s.setCore c ({ s.core c with held := false, await := [] } : Core).startTurn)) ∧
    ((s.core c).held = true → (s.core c).discarding = false → (s.core c).lastKill = 2 → s.listDone false (s.core c).await = true →
      exec (.faultResolvedRerun (.turn c)) s = .next (s.setCore c ({ s.core c with held := false, await := [] } : Core).startTurn))

/-- COMMIT_GRANT of a Ready command whose dependencies are over and whose record's page can be written: one instant gives it the next
serial, makes it Committed with its record's first word, consumes its leases and clears its counts; a command that waits for a dependency,
for the command before it in its queue or for a unit's epoch that is no longer current is not granted. What it made ready is written at
that instant, each run of bytes at its page's home. -/
def Obligations.CommitGrantCommitsOnce : Prop :=
  ∀ (s : State) (t : Nat) (c : Cmd) (q : Queue) (d : Done), s.cmd t = some c → s.queue (qOf t) = some q → c.done = some d →
    c.st = .ready →
    (s.commitReady t c = false ∨ c.epoch ≠ s.epochOf (dClass c.words) c.unit ∨ s.get R.PWR_STS_SHUTDOWN = 1 →
      exec (.commitGrant (.cmd t)) s = .next s) ∧
    (s.commitReady t c = true → c.epoch = s.epochOf (dClass c.words) c.unit → s.get R.PWR_STS_SHUTDOWN = 0 →
      s.pw.absent.contains 5 = false → (∀ ps, s.access .unit q.ten [] [(q.slot (seqOf t), 64)] ≠ .fault ps) →
      s.grmStale c d = false → s.trimAway c = [] →
      exec (.commitGrant (.cmd t)) s = .next (s.commitCmd t c q d)) ∧
    (s.commitReady t c = true → c.epoch = s.epochOf (dClass c.words) c.unit → s.get R.PWR_STS_SHUTDOWN = 0 →
      s.pw.absent.contains 5 = false → (∀ ps, s.access .unit q.ten [] [(q.slot (seqOf t), 64)] ≠ .fault ps) →
      (dDeps c.words).any s.isVoid = false → s.haloVoid t c = false → s.tw.leaving.contains c.ten = false →
      (dClass c.words ≠ 0x05 ∧ dClass c.words ≠ 0x0B ∧ s.trimAway c = [] ∧ d.effs.contains .late = false) →
      ∃ u m, exec (.commitGrant (.cmd t)) s = .next u ∧ u.x.serial = s.x.serial + 1 ∧ u.cmd t = some m ∧ m.st = .committed ∧
        m.record = 1 + d.status * 2 ^ 8 + c.attempts * 2 ^ 16 + c.lastKill * 2 ^ 24 + dTag c.words * 2 ^ 32 ∧ m.done = none ∧
        m.kills = 0 ∧ m.sheltered = false ∧ m.words = c.words ∧ (∀ n l, l ∈ (u.well n).live → l.drawer ≠ .cmd t) ∧
        (∀ va bs, d.effs = [.write (key c.ten va) bs] → c.ten < 64 → memWf s.mem = true → va + bs.length ≤ cwVa →
          (∀ i, i < 64 → ∀ j, j < bs.length → s.dkey q.ten (q.slot (seqOf t) + i) ≠ s.dkey c.ten (va + j)) →
          (∀ i, i < bs.length → ∀ j, j < bs.length → s.dkey c.ten (va + i) = s.dkey c.ten (va + j) → i = j) →
          ∀ i, i < bs.length → (∀ k, s.dkey c.ten (va + i) / 2 ^ 56 ≠ spScratch k) → u.byte (s.dkey c.ten (va + i)) = bs.getD i 0))

/-- COMMIT_GRANT of a core's oldest ended turn: its stores are made at their keys, its register write and its issues take effect, it is
one more committed turn, and its leases are consumed. A turn that is open, held for a rerun or under an epoch that is no longer current
is not granted. -/
def Obligations.CommitGrantCommitsTheOldestTurn : Prop :=
  ∀ (s : State) (c : Nat) (tn : Turn) (rest : List Turn), c < 256 → (s.core c).turns = tn :: rest →
    (s.turnReady c tn = false → s.hasFenced (Drawer.isTurnFrom c 0) = false → exec (.commitGrant (.turn c)) s = .next s) ∧
    (s.turnReady c tn = true → (s.core c).ending = false → ∃ u, exec (.commitGrant (.turn c)) s = .next u ∧
      u.x.serial = s.x.serial + 1 ∧ (u.core c).turns = rest ∧ (u.core c).turnsDone = (s.core c).turnsDone + 1 ∧
      (u.core c).arg = tn.arg.getD (s.core c).arg ∧ (tn.fin = .halt → (u.core c).mode = .syncHalted) ∧
      (tn.stores = [] → u.mem = s.mem) ∧
      (memWf s.mem = true → (tn.stores.map (·.1)).Pairwise (· < ·) → ∀ p ∈ tn.stores, p.1 < key 128 0 → u.byte p.1 = p.2) ∧
      (∀ i, i ∈ tn.issues → (u.cmd (ticket i.queue i.seq)).isSome = true) ∧
      (∀ h n b, tn.fin = .barrier h n → tfind s.x.bars (barKey (s.core c).ten h n) = some b →
        tfind u.x.bars (barKey (s.core c).ten h n) = some { b with arrived := addNew b.arrived c }))

/-! ## Carts, joins and wells (04 R92, R99 to R107) -/

/-- queue.join and the cart's five commands: the field checks of R99 to R101 refuse with BAD_FIELD, OVERLAP or LENGTH; with operands in
order and accesses that reach, the command makes its payload, its footprint and its writes ready, and no byte of memory changes before the
commit; an access that Table 7.3 does not allow refuses with PROTECTION, and a page not at home kills the copy for TRANSLATION.
well.fill: a well that is not the tenancy's, a step of 0 or a limit below the base refuses with BAD_FIELD, the first with FOREIGN; it
waits while a lease is live, and its commit waits for one that is live then; returned values found at its commit refuse it with WELL_BUSY;
else it makes the refill ready, and the refill, at the commit, sets base, limit and step, has the next value at the base, and clears the
counts. -/
def Obligations.CartsAndFillsMakeTheirEffectsReady : Prop :=
  (∀ (s : State) (t : Nat) (c : Cmd),
     let b := c.body
     (atWork s t 0 0 c → reach s .unit c [] [] → made s t c ⟨0, [], []⟩ (exec (.queueJoin t) s)) ∧
     (atWork s t 3 1 c →
       let n := bits (b 2) 0 32
       let bad : Prop := b 0 % 4 ≠ 0 ∨ b 1 % 4 ≠ 0 ∨ n % 4 ≠ 0 ∨ n < 4 ∨ 92800000 < n
       (bad → exec (.cartCopy t) s = refusal s t c 5) ∧
       (¬ bad → overlaps (b 0) n (b 1) n = true → exec (.cartCopy t) s = refusal s t c 7) ∧
       (¬ bad → overlaps (b 0) n (b 1) n = false → s.pw.absent.contains 5 = false → near s .unit c [(b 0, n)] →
         (s.access .unit c.ten [(b 0, n)] [(b 1, n)] = .ok →
           made s t c ⟨0, [n, 0], [.write (key c.ten (b 1)) (s.vrun c.ten (b 0) n)]⟩ (exec (.cartCopy t) s)) ∧
         (s.access .unit c.ten [(b 0, n)] [(b 1, n)] = .prot →
           exec (.cartCopy t) s = refusal (s.tried .unit c.ten [] [(b 0, n)]) t c 6) ∧
         (∀ ps, s.access .unit c.ten [(b 0, n)] [(b 1, n)] = .fault ps → s.get R.PWR_STS_SHUTDOWN = 0 →
           ∃ u m, exec (.cartCopy t) s = .next u ∧ u.cmd t = some m ∧ m.st = .killed ∧ m.lastKill = 2 ∧ m.await = ps))) ∧
     (atWork s t 3 2 c →
       let n := bits (b 2) 0 32
       let rs := s.listRecords c.ten (b 0) n
       let bad : Prop := b 0 % 16 ≠ 0 ∨ b 1 % 64 ≠ 0 ∨ n = 0 ∨ 65536 < n
       (bad → exec (.cartGather t) s = refusal s t c 5) ∧
       (¬ bad → reach s .unit c [(b 0, 16 * n)] [] →
         (recordsOk 16777216 rs = false → refusedRead s t c 5 (exec (.cartGather t) s)) ∧
         (recordsOk 16777216 rs = true → 1450000 < ceilDiv (lsum (rs.map (·.2))) 64 + n →
           refusedRead s t c 8 (exec (.cartGather t) s)) ∧
         (recordsOk 16777216 rs = true → ceilDiv (lsum (rs.map (·.2))) 64 + n ≤ 1450000 →
           b 3 < footprint rs ∨ anyOverlap [(b 1, footprint rs)] ((b 0, 16 * n) :: rs) = true →
           refusedRead s t c 7 (exec (.cartGather t) s)) ∧
         (recordsOk 16777216 rs = true → ceilDiv (lsum (rs.map (·.2))) 64 + n ≤ 1450000 → footprint rs ≤ b 3 →
           anyOverlap [(b 1, footprint rs)] ((b 0, 16 * n) :: rs) = false →
           reach s .unit c ((b 0, 16 * n) :: rs) [(b 1, footprint rs)] →
           made s t c ⟨0, [lsum (rs.map (·.2)), footprint rs], [.write (key c.ten (b 1)) (s.packed c.ten rs)]⟩
             (exec (.cartGather t) s)))) ∧
     (atWork s t 3 3 c →
       let n := bits (b 2) 0 32
       let rs := s.listRecords c.ten (b 1) n
       let ps := packRecords 0 rs
       let srcs := ps.map fun p => (b 0 + p.1, p.2.2)
       let bad : Prop := b 1 % 16 ≠ 0 ∨ b 0 % 64 ≠ 0 ∨ n = 0 ∨ 65536 < n
       (bad → exec (.cartScatter t) s = refusal s t c 5) ∧
       (¬ bad → reach s .unit c [(b 1, 16 * n)] [] →
         (recordsOk 16777216 rs = false → refusedRead s t c 5 (exec (.cartScatter t) s)) ∧
         (recordsOk 16777216 rs = true → 1450000 < ceilDiv (lsum (rs.map (·.2))) 64 + n →
           refusedRead s t c 8 (exec (.cartScatter t) s)) ∧
         (recordsOk 16777216 rs = true → ceilDiv (lsum (rs.map (·.2))) 64 + n ≤ 1450000 →
           selfOverlap rs = true ∨ anyOverlap rs ((b 1, 16 * n) :: srcs) = true → refusedRead s t c 7 (exec (.cartScatter t) s)) ∧
         (recordsOk 16777216 rs = true → ceilDiv (lsum (rs.map (·.2))) 64 + n ≤ 1450000 → selfOverlap rs = false →
           anyOverlap rs ((b 1, 16 * n) :: srcs) = false → reach s .unit c ((b 1, 16 * n) :: srcs) rs →
           made s t c ⟨0, [lsum (rs.map (·.2)), footprint rs],
             ps.map fun p => .write (key c.ten p.2.1) (s.vrun c.ten (b 0 + p.1) p.2.2)⟩ (exec (.cartScatter t) s)))) ∧
     (atWork s t 3 4 c →
       let n := bits (b 1) 0 32
       let bad : Prop := b 0 % 8 ≠ 0 ∨ n % 8 ≠ 0 ∨ n = 0 ∨ 92800000 < n
       (bad → exec (.cartFill t) s = refusal s t c 5) ∧
       (¬ bad → reach s .unit c [] [(b 0, n)] →
         made s t c ⟨0, [n, 0], [.fill (key c.ten (b 0)) n (b 2)]⟩ (exec (.cartFill t) s))) ∧
     (atWork s t 3 5 c →
       let rows := bits (b 2) 0 16 + 1
       let n := bits (b 2) 32 32
       let ss := bits (b 3) 0 32
       let ds := bits (b 3) 32 32
       let srcs := (List.range rows).map fun k => (b 0 + k * ss, n)
       let dsts := (List.range rows).map fun k => (b 1 + k * ds, n)
       let bad : Prop := b 0 % 4 ≠ 0 ∨ b 1 % 4 ≠ 0 ∨ n % 4 ≠ 0 ∨ ss % 4 ≠ 0 ∨ ds % 4 ≠ 0
       (bad → exec (.cartStride t) s = refusal s t c 5) ∧
       (¬ bad → 1450000 < ceilDiv (rows * n) 64 + rows → exec (.cartStride t) s = refusal s t c 8) ∧
       (¬ bad → ceilDiv (rows * n) 64 + rows ≤ 1450000 → ds < n ∨ anyOverlap dsts srcs = true →
         exec (.cartStride t) s = refusal s t c 7) ∧
       (¬ bad → ceilDiv (rows * n) 64 + rows ≤ 1450000 → n ≤ ds → anyOverlap dsts srcs = false → reach s .unit c srcs dsts →
         made s t c ⟨0, [rows * n, rows],
           (List.range rows).map fun k => .write (key c.ten (b 1 + k * ds)) (s.vrun c.ten (b 0 + k * ss) n)⟩ (exec (.cartStride t) s)))) ∧
  (∀ (s : State) (t : Nat) (c : Cmd), atWork s t 0x0B 1 c →
     let n := bits (c.body 0) 0 7
     let step := bits (c.body 3) 0 32
     (s.wellMine n c.ten = false → exec (.wellFill t) s = refusal (s.raiseAt (R.WEL_ERR_FOREIGN n) (some c.ten) n t) t c 5) ∧
     (s.wellMine n c.ten = true → step = 0 ∨ c.body 2 < c.body 1 → exec (.wellFill t) s = refusal s t c 5) ∧
     (s.wellMine n c.ten = true → step ≠ 0 → c.body 1 ≤ c.body 2 →
       ((s.well n).live ≠ [] → exec (.wellFill t) s = .next s) ∧
       ((s.well n).live = [] → s.pw.absent.contains 5 = false →
         made s t c ⟨0, [], [.wellFill n (c.body 1) (c.body 2) step]⟩ (exec (.wellFill t) s))) ∧
     (∀ d : Done, d.status = 0 → (dDeps c.words).any s.isVoid = false →
       ((s.well n).returned ≠ [] → s.doneNow t c d = ⟨0x0A, [], []⟩) ∧ ((s.well n).returned = [] → s.doneNow t c d = d) ∧
       ((s.well n).live ≠ [] → s.commitReady t { c with st := .ready, done := some d } = false)) ∧
     (c.body 1 < 2 ^ 64 → c.body 2 < 2 ^ 64 →
       let u := s.applyEff (.wellFill n (c.body 1) (c.body 2) step)
       (u.reg (R.WEL_BASE n)).toNat = c.body 1 ∧ (u.reg (R.WEL_LIMIT n)).toNat = c.body 2 ∧ u.get (R.WEL_STEP_STEP n) = step ∧
         (u.reg (R.WEL_NEXT n)).toNat = c.body 1 ∧ u.reg (R.WEL_CNT n) = 0 ∧ u.mem = s.mem ∧ u.x.wells = s.x.wells))

/-! ## Engines (05 R111 to R135, 06 R138 to R147) -/

/-- eng.pass and eng.ew: a pass queues in the order of its receipt, and ENG_PASS or ACC_TILE_WAIT_END runs the first that waits once its tiles
are free, and only that one; a pass or an element-wise command whose operands are in order makes its output ready, one write per element, and
its beats are counted; an INT8 pass into INT32 gives the sums of its products; a pair of formats outside Table 5.2, a wrong length or a halo
that does not match refuses.
IDLE_FILL_START, IDLE_FILL_TAPER and IDLE_FILL_STOP: an enabled, active engine with FILL_EN and no pass ready fills; after GAP_MAX passes
it tapers, then stops; fill passes of 32 beats are counted, and nothing else changes. -/
def Obligations.EnginesMakeTheirOutputReadyAndFill : Prop :=
  ((∀ (s : State) (t : Nat) (c : Cmd) (corr : List (Nat × Nat × Bool)), atWork s t 1 1 c →
     let p := passBody c.patched
     let free : Prop := (s.tileQueue c.unit).head? = some t ∧ min p.demand 16 ≤ s.freeTiles c.unit
     let rds := s.passReads t p
     let outs := s.passWrites c.ten p
     -- a pass without delta variant, palette or halo whose operands are in order and in reach
     let plain : Prop := dLen c.patched = 15 + dNdep c.patched ∧ p.fieldsOk = true ∧ p.variant = 0 ∧ p.pwf = false ∧ p.haloRecv = 0 ∧
       s.haloStatus t p = none ∧ anyOverlap [(p.out, p.footprint)] rds = false ∧ passBeats p [] + 2048 * p.evictions ≤ 1450000 ∧
       reach s .unit c rds outs
     let ran (x : Ans) : Prop := ∃ u m d, x = .next u ∧ u.cmd t = some m ∧ m.st = .running ∧ m.done = some d ∧ d.status = 0 ∧
       m.tiles = min p.demand 16 ∧ u.mem = s.mem ∧ nw d.res 0 = p.nt * p.kt ∧ nw d.res 2 = passBeats p [] ∧
       nw d.res 3 = 262144 * p.evictions ∧ t ∉ u.tileQueue c.unit ∧
       u.get (R.ENG_BEATS_BEATS c.unit) = (s.get (R.ENG_BEATS_BEATS c.unit) + passBeats p []) % 2 ^ 64 ∧
       -- INT8 by INT8 into INT32, no row or column masked, no sum that could saturate
       (p.aFmt = 2 → p.oFmt = 0xA → p.mask = 0 → p.validK ≤ 131071 →
         let act (r k : Nat) : Nat := (s.byte (s.dkey c.ten (p.a + r * p.aStride + k))).toNat
         let wgt (col k : Nat) : Nat := (s.byte (s.dkey c.ten (p.tileAddr (col / 256) (k / 256) + (col % 256 * 256 + k % 256)))).toNat
         d.effs = (List.range p.m).flatMap fun r => (List.range p.validN).map fun col =>
           .write (key c.ten (p.out + r * p.oStride + col * 4)) (leBytes 4 (unsigned 32
             ((List.range p.validK).foldl (fun (x : Int) k => x + signed 8 (act r k) * signed 8 (wgt col k)) 0))))
     (plain → free → ran (exec (.engPass ⟨t, corr⟩) s) ∧ ran (exec (.accTileWaitEnd ⟨t, corr⟩) s)) ∧
     (plain → ¬ free → 1 ≤ p.demand → exec (.engPass ⟨t, corr⟩) s = .next s ∧ exec (.accTileWaitEnd ⟨t, corr⟩) s = .next s) ∧
     (∀ rds wrs d, s.passPlan t c = .go rds wrs d → d.status = 0 → reach s .unit c rds wrs → free →
       ∃ u m, exec (.engPass ⟨t, corr⟩) s = .next u ∧ u.cmd t = some m ∧ m.done = some d ∧ m.tiles = min p.demand 16 ∧ u.mem = s.mem ∧
         u.get (R.ENG_BEATS_BEATS c.unit) = (s.get (R.ENG_BEATS_BEATS c.unit) + nw d.res 2) % 2 ^ 64) ∧
     (pairOk p.aFmt p.wFmt = false ∨ dLen c.patched ≠ 15 + dNdep c.patched ∨ s.haloStatus t p = some 5 →
       ∃ u, exec (.engPass ⟨t, corr⟩) s = .next u ∧ u.cmd t = some { c with done := some ⟨5, [], []⟩ } ∧ u.mem = s.mem ∧
         t ∉ u.tileQueue c.unit)) ∧
   (∀ (s : State) (t : Nat) (c : Cmd), atWork s t 1 2 c →
     let w := c.body 3
     let n := bits w 0 32
     let x (at_ i : Nat) : FVal := elemVal 9 (ofLe (s.vrun c.ten (at_ + i * 4) 4))
     (n = 0 ∨ ewType (bits w 32 4) = false ∨ 0xA < bits w 36 4 ∨ (c.body 1 ≠ 0 ∧ ewType (bits w 36 4) = false ∧ bits w 44 4 ≠ 5) ∨
         ewType (bits w 40 4) = false ∨ 5 < bits w 44 4 → exec (.engEw t) s = refusal s t c 5) ∧
     (bits w 32 4 = 9 → bits w 36 4 = 9 → bits w 40 4 = 9 → bits w 44 4 = 0 → c.body 1 ≠ 0 → 1 ≤ n → 512 + ceilDiv n 256 ≤ 1450000 →
       overlaps (c.body 0) (n * 4) (c.body 2) (n * 4) = false → overlaps (c.body 1) (n * 4) (c.body 2) (n * 4) = false →
       reach s .unit c [(c.body 0, n * 4), (c.body 1, n * 4)] [(c.body 2, n * 4)] →
       ∃ u m d, exec (.engEw t) s = .next u ∧ u.cmd t = some m ∧ m.done = some d ∧ d.status = 0 ∧ nw d.res 0 = n ∧ u.mem = s.mem ∧
         d.effs = [.write (key c.ten (c.body 2)) ((List.range n).flatMap fun i =>
           leBytes 4 (roundF .fp32 false (fadd (x (c.body 0) i) (x (c.body 1) i))))]))) ∧
  (∀ (s : State) (e : Nat), e < 104 →
     let phase (u : State) (p : Nat) : Prop := tget u.en.fill e 0 = p ∧ u.mem = s.mem ∧ u.x = s.x ∧ u.vm = s.vm
     (s.get (R.ENG_CTL_EN e) = 1 → s.get (R.ENG_STS_STATE e) = 1 → s.get (R.ENG_IDLE_FILL_EN e) = 1 → s.gridBusy e = false →
       tget s.en.fill e 0 = 0 → ∃ u, exec (.idleFillStart e) s = .next u ∧ phase u 1 ∧ u.get (R.ENG_STS_FILLING e) = 1) ∧
     (s.gridBusy e = true ∨ s.get (R.ENG_IDLE_FILL_EN e) = 0 → exec (.idleFillStart e) s = .next s) ∧
     (tget s.en.fill e 0 = 1 → ∃ u, exec (.idleFillTaper e) s = .next u ∧ phase u 2 ∧
       u.get (R.ENG_FILLS_FILLS e) = (s.get (R.ENG_FILLS_FILLS e) + 32 * s.get (R.ENG_IDLE_GAP_MAX e)) % 2 ^ 64) ∧
     (tget s.en.fill e 0 = 2 → ∃ u, exec (.idleFillStop e) s = .next u ∧ phase u 3 ∧ u.get (R.ENG_STS_FILLING e) = 0))

/-! ## The memory system (07) -/

/-- The drift commands drift.map, unmap, pin, unpin, hint and settle: a range that is not aligned or leaves the address space refuses with
BAD_FIELD, else the command is made ready with its outcome to be decided at its commit; an unmap waits, and is not granted, while an
Irrevocable command holds a page of its range. -/
def Obligations.DriftCommandsDecideAtTheirCommit : Prop :=
  ∀ (s : State) (t : Nat) (c : Cmd),
    let n := bits (c.body 1) 0 18 + 1
    let bad : Prop := c.body 0 % 2 ^ 21 ≠ 0 ∨ 2 ^ 56 < c.body 0 + n * 2 ^ 21
    let held : Prop := ∃ p, p ∈ s.x.cmds ∧ p.2.st = .irrevocable ∧ ∃ k, k ∈ p.2.pages ∧ k ∈ c.vpns.map (s.pkOf c.ten)
    let late (x : Ans) : Prop := made s t c ⟨0, [], [.late]⟩ x
    (atWork s t 4 1 c → (bad → exec (.driftMap t) s = refusal s t c 5) ∧
      (¬ bad → s.pw.absent.contains 5 = false → late (exec (.driftMap t) s))) ∧
    (atWork s t 4 2 c → (bad → exec (.driftUnmap t) s = refusal s t c 5) ∧
      (¬ bad → held → exec (.driftUnmap t) s = .next s ∧ s.commitReady t { c with st := .ready } = false) ∧
      (¬ bad → ¬ held → s.pw.absent.contains 5 = false → late (exec (.driftUnmap t) s))) ∧
    (atWork s t 4 3 c → (bad ∨ 2 ≤ bits (c.body 1) 18 2 → exec (.driftPin t) s = refusal s t c 5) ∧
      (¬ bad → bits (c.body 1) 18 2 < 2 → s.pw.absent.contains 5 = false → late (exec (.driftPin t) s))) ∧
    (atWork s t 4 4 c → (bad → exec (.driftUnpin t) s = refusal s t c 5) ∧
      (¬ bad → s.pw.absent.contains 5 = false → late (exec (.driftUnpin t) s))) ∧
    (atWork s t 4 5 c → (bad → exec (.driftHint t) s = refusal s t c 5) ∧
      (¬ bad → s.pw.absent.contains 5 = false → late (exec (.driftHint t) s))) ∧
    (atWork s t 4 6 c → (bad → exec (.driftSettle t) s = refusal s t c 5) ∧
      (¬ bad → s.pw.absent.contains 5 = false → late (exec (.driftSettle t) s)))

/-- What the drift commands come to at their commit: a map past the quotas answers QUOTA and one of a mapped page MAPPED, with nothing
changed, else each page of the range is mapped, at no home, writable as asked; an unmap leaves no page of the range and its bytes read as
memory that nothing has written; a pin binds each page, a hint marks each and an unpin frees each; a settle says how many; an unmapped page
answers NOT_MAPPED. -/
def Obligations.DriftOutcomesAtTheCommit : Prop :=
  ∀ (s : State) (t : Nat) (c : Cmd), c.ten < 64 → 2 ^ 21 * (bits (c.body 1) 0 18 + 1) + c.body 0 ≤ cwVa → c.body 0 % 2 ^ 21 = 0 →
    c.seen = c.patched →
    let vs := c.vpns
    let used := (s.vm.pages.filter fun p => p.1 / 2 ^ 35 == c.ten).length
    let quota := (s.quota c.ten).2.1 + (s.quota c.ten).2.2.1 + (s.quota c.ten).2.2.2
    let r := s.driftCommit t c
    (dOp c.words = 1 → quota < used + vs.length → r = (s, 0x40, [])) ∧
    (dOp c.words = 1 → used + vs.length ≤ quota → (∃ v, v ∈ vs ∧ s.isMapped c.ten v = true) → r = (s, 0x41, [])) ∧
    (dOp c.words = 1 → used + vs.length ≤ quota → (∀ v, v ∈ vs → s.isMapped c.ten v = false) →
      r.2 = (0, [vs.length, 0]) ∧ r.1.mem = s.mem ∧ r.1.cw = s.cw ∧
      ∀ v, v ∈ vs → r.1.page (pageKey c.ten v) = some { writable := (c.body 1).testBit 27, era := s.era }) ∧
    (2 ≤ dOp c.words → dOp c.words ≠ 3 → (∃ v, v ∈ vs ∧ s.isMapped c.ten v = false) → r = (s, 0x42, [])) ∧
    (dOp c.words = 2 → (s.vm.pages.map (·.1)).Pairwise (· < ·) → (∀ v, v ∈ vs → (s.page (pageKey c.ten v)).isSome = true) →
      s.ringIn c.ten (c.body 0) (vs.length * 2 ^ 21) = false → r.2 = (0, [vs.length, 0]) ∧
      ∀ v, v ∈ vs → r.1.page (pageKey c.ten v) = none ∧
        ∀ a, key c.ten (v * 2 ^ 21) ≤ a → a < key c.ten ((v + 1) * 2 ^ 21) → r.1.byte a = memGet [] a) ∧
    (dOp c.words = 5 → (∀ v, v ∈ vs → (s.page (pageKey c.ten v)).isSome = true) → r.2 = (0, [vs.length, 0]) ∧ r.1.mem = s.mem ∧
      ∀ v, v ∈ vs → ∀ p, r.1.page (pageKey c.ten v) = some p → p.hint = bits (c.body 1) 20 2) ∧
    (dOp c.words = 4 → (∀ v, v ∈ vs → (s.page (pageKey c.ten v)).isSome = true) → r.2.1 = 0 ∧ r.1.mem = s.mem ∧
      ∀ v, v ∈ vs → ∀ p, r.1.page (pageKey c.ten v) = some p → p.pin = 0 ∧ p.pinStack = none) ∧
    (let tier := bits (c.body 1) 18 2
     let stk : Option Nat := if tier = 1 ∧ (c.body 1).testBit 22 = true then some (bits (c.body 1) 23 4) else none
     dOp c.words = 3 → (s.pinOver c.ten tier vs = true → r = (s, 0x40, [])) ∧
       (s.pinOver c.ten tier vs = false → (∀ v, v ∈ vs → (s.page (pageKey c.ten v)).isSome = true) →
         (∀ k, stk = some k → s.stackFull k = false) → r.2.1 = 0 ∧ nw r.2.2 0 + nw r.2.2 1 = vs.length ∧ r.1.mem = s.mem ∧
         ∀ v, v ∈ vs → ∀ p, r.1.page (pageKey c.ten v) = some p → p.pin = tier + 1 ∧ p.pinStack = stk)) ∧
    (dOp c.words = 6 → (∀ v, v ∈ vs → s.isMapped c.ten v = true) → r = (s, 0, [vs.length, 0]))

/-- DRIFT_MOVE, its commit, ERA_ADVANCE and PAGE_HOLD_EXPIRY: a move that drift may make and has room for is in flight; its commit gives
the page its new home in one step and empties the move; the era goes on when as many lines have moved as DECAY_SHIFT says; a hold that
has lasted its millisecond ends. -/
def Obligations.DriftMovesPages : Prop :=
  ∀ (s : State) (pk : Nat) (p : Page), s.page pk = some p →
    let clear (g : Option Nat) : Prop := ∀ m, m ∈ s.vm.moves → ¬ (m.2.page = pk ∧ (m.2.granule = none ∨ g = none ∨ m.2.granule = g))
    (∀ toSt dest why, s.get R.MEM_CTL_EN = 1 → (why = .pin ∨ s.pinFirst = false) → clear none → s.pageMoveOk pk p toSt dest why = true →
      s.moveRoom (moveDie p toSt dest) (toSt == 2 || toSt == 3 || p.st == 2 || p.st == 3) = true →
      ∃ u, exec (.driftMove pk none toSt dest why) s = .next u ∧ u.mem = s.mem ∧ u.cw = s.cw ∧ u.vm.pages = s.vm.pages ∧
        ∃ m, tfind u.vm.moves s.vm.nextMove = some m ∧ m.page = pk ∧ m.granule = none ∧ m.toSt = toSt ∧ m.toFrame = dest ∧
          m.st = .running ∧ m.why = why) ∧
    (∀ g dest why, s.get R.MEM_CTL_EN = 1 → (why = .pin ∨ s.pinFirst = false) → clear (some g) → s.granuleOk pk p g (dest == 1) why = true →
      s.moveRoom (p.frame / 262144) false = true →
      ∃ u, exec (.driftMove pk (some g) 1 dest why) s = .next u ∧ u.vm.pages = s.vm.pages ∧
        ∃ m, tfind u.vm.moves s.vm.nextMove = some m ∧ m.page = pk ∧ m.granule = some g ∧ m.inward = (dest == 1) ∧ m.st = .running) ∧
    (∀ g toSt dest why, s.get R.MEM_CTL_EN = 0 → exec (.driftMove pk g toSt dest why) s = .next s) ∧
    (∀ id m, tfind s.vm.moves id = some m → m.page = pk → m.st = .ready → s.get R.PWR_STS_SHUTDOWN = 0 → s.nkHolds pk = false →
      ∃ u, exec (.commitGrant (.move id)) s = .next u ∧ u.x.serial = s.x.serial + 1 ∧ u.mem = s.mem ∧ ∃ n, u.page pk = some n ∧
        (m.granule = none → n.st = m.toSt ∧ n.frame = m.toFrame ∧ n.oasis = 0) ∧
        (∀ g, m.granule = some g → g < 32 → n.st = p.st ∧ n.frame = p.frame ∧ n.oasis.testBit g = m.inward) ∧
        n.writable = p.writable ∧ n.pin = p.pin ∧ n.hint = p.hint) ∧
    (2 ^ s.get R.MEM_CTL_DECAY_SHIFT ≤ s.vm.lines → ∃ u, exec .eraAdvance s = .next u ∧
      u.vm.lines = s.vm.lines - 2 ^ s.get R.MEM_CTL_DECAY_SHIFT ∧ u.era = (s.era + 1) % 2 ^ 64 ∧
      u.vm.pages = s.vm.pages ∧ u.mem = s.mem) ∧
    (s.vm.lines < 2 ^ s.get R.MEM_CTL_DECAY_SHIFT → exec .eraAdvance s = .next s) ∧
    (p.held = true → p.holdEnd ≤ s.time p.holdPort → exec (.pageHoldExpiry pk) s = .next (s.setPage pk { p with held := false })) ∧
    (p.held = true → s.time p.holdPort < p.holdEnd → exec (.pageHoldExpiry pk) s = .next s)

/-- FRAME_RETIRE, CHANNEL_GROUP_RETIRE, GRANULE_POISON, POISON_REBUILD, CELLAR_MEDIA_EVENT and CELLAR_CHANNEL_FAIL: what each marks in the
memory system's record and in its registers; memory itself stands. A frame retires for two corrected errors of a row or an uncorrectable
line and is repaired once nothing is in it; a group retires for 64 frames or 16 parity repeats of a channel. -/
def Obligations.MediaFailuresAreMarked : Prop :=
  ∀ (s : State),
    (∀ frame row repaired, frame < 524288 → frame ∉ s.vm.retired →
      let bad : Prop := frame ∈ s.vm.ueFrames ∨ 2 ≤ s.vm.corrRows.countP fun r => r == (frame, row)
      let full : Prop := (∃ p, p ∈ s.vm.pages ∧ p.2.st = 1 ∧ p.2.frame = frame) ∨ ∃ l, l ∈ s.fa.lent ∧ l.1 = frame
      (¬ bad → exec (.frameRetire (frame / 32768) (frame % 32768) row repaired) s = .next s) ∧
      (bad → s.vm.repairs = [] → ∃ u, exec (.frameRetire (frame / 32768) (frame % 32768) row repaired) s = .next u ∧ u.vm.pages = s.vm.pages ∧ u.mem = s.mem ∧
        u.vm.retireList = s.vm.retireList ++ [(frame, row)] ∧ u.get R.MEM_ERR_FRAME_RETIRED = 1 ∧
        (full → u.vm.retired = s.vm.retired ++ [frame] ∧ u.vm.repairs = [(frame, row, repaired)]) ∧
        (¬ full → repaired = true → u.vm.retired = s.vm.retired ∧ u.vm.repairs = []) ∧
        (¬ full → repaired = false → u.vm.retired = s.vm.retired ++ [frame] ∧ u.get R.MEM_ERR_PPR_FAIL = 1))) ∧
    (∀ stk grp channel, stk < 16 → grp < 8 → channel.getD 0 < 4 → (s.get (R.MEM_STACK_GROUPS_RETIRED stk)).testBit grp = false →
      let due : Prop := match channel with
        | none => 64 ≤ s.groupRetired stk grp
        | some i => 16 ≤ tget s.vm.parity (32 * stk + 4 * grp + i) 0
      (due → ∃ u, exec (.channelGroupRetire stk grp channel) s = .next u ∧ (u.get (R.MEM_STACK_GROUPS_RETIRED stk)).testBit grp = true ∧
        u.get R.MEM_ERR_GROUP_RETIRED = 1 ∧ u.vm = s.vm ∧ u.mem = s.mem) ∧
      (¬ due → exec (.channelGroupRetire stk grp channel) s = .next s)) ∧
    (∀ g p t, s.page (g / 32) = some p → p.st = 1 ∨ p.st = 2 → s.cmd t = none →
      64 ≤ g / 32 / 2 ^ 35 ∨ p.source? = true ∨ (s.sv.kv = [] ∧ s.get R.TWN_STS_STATE ≠ 1) →
      ∃ u, exec (.granulePoison g (.cmd t)) s = .next u ∧ u.get R.MEM_ERR_HBM_UE = 1 ∧ u.mem = s.mem ∧
        (p.st = 1 → p.oasis.testBit (g % 32) = false → p.frame ∈ u.vm.ueFrames) ∧
        ∃ n, u.page (g / 32) = some n ∧ n.poison.testBit (g % 32) = true ∧ n = { p with poison := n.poison }) ∧
    (∀ g p, s.page (g / 32) = some p → p.poison.testBit (g % 32) = true → p.source? = true →
      ∃ n, exec (.poisonRebuild g) s = .next (s.setPage (g / 32) { p with poison := n }) ∧ n.testBit (g % 32) = false) ∧
    (∀ g p, s.page (g / 32) = some p → p.source? = false → exec (.poisonRebuild g) s = .next s) ∧
    exec (.cellarMediaEvent .readRetry) s = .next (s.raise R.CEL_ERR_READ_CE none) ∧
    exec (.cellarMediaEvent .progFail) s = .next (s.raise R.CEL_ERR_PROG_FAIL none) ∧
    (∃ u, exec (.cellarMediaEvent .eraseFail) s = .next u ∧ u.get R.CEL_ERR_ERASE_FAIL = 1 ∧ u.get R.CEL_ERR_BLOCK_RETIRED = 1 ∧
      u.vm = s.vm ∧ u.mem = s.mem) ∧
    (∀ q, q / 512 < s.get R.CEL_STORE_STORE → ∃ u, exec (.cellarMediaEvent (.storeUe q)) s = .next u ∧ q ∈ u.vm.badSectors ∧
      u.get R.CEL_ERR_STORE_UE = 1 ∧ u.get R.CEL_ERR_READ_UE = 1 ∧ u.mem = s.mem) ∧
    (∀ ch, ch < 32 → (s.get R.CEL_STS_CH_FAIL).testBit ch = false → (s.vm.pages.map (·.1)).Pairwise (· < ·) →
      (∀ p, p ∈ s.vm.pages → p.1 / 2 ^ 35 < 64 → p.2.st ≠ 2) → ∃ u, exec (.cellarChannelFail ch) s = .next u ∧
      (u.get R.CEL_STS_CH_FAIL).testBit ch = true ∧ u.get R.CEL_ERR_CHANNEL_FAIL = 1 ∧ u.mem = s.mem ∧
      u.vm.pages = tmap (fun _ p => p.channelLost ch) s.vm.pages)

/-- cel.gather, cel.prog and cel.trim: fields, supply and mapping refuse in their order; an uncorrectable store sector refuses a gather with
STORE_UE and is reported; else a gather packs its records with the count of its sectors, a program takes its bytes and a trim its zeros to the store page, at the commit. -/
def Obligations.CellarCommandsMakeTheirEffectsReady : Prop :=
  ∀ (s : State) (t : Nat) (c : Cmd),
    let b := c.body
    (atWork s t 8 1 c →
      let n := bits (b 2) 0 13
      let rs := s.listRecords c.ten (b 0) n
      let bad : Prop := b 0 % 16 ≠ 0 ∨ b 1 % 64 ≠ 0 ∨ n = 0 ∨ 4096 < n
      (bad → exec (.celGather t) s = refusal s t c 5) ∧
      (¬ bad → reach s .cellar c [(b 0, 16 * n)] [] → recordsOk 65536 rs = false → refusedRead s t c 5 (exec (.celGather t) s)) ∧
      (¬ bad → s.access .cellar c.ten [(b 0, 16 * n)] [] = .ok → recordsOk 65536 rs = true → ceilDiv (footprint rs) 64 ≤ 1450000 →
        footprint rs ≤ b 3 → anyOverlap [(b 1, footprint rs)] ((b 0, 16 * n) :: rs) = false →
        s.access .cellar c.ten rs [(b 1, footprint rs)] = .ok →
        (∀ i, s.badRecord c.ten rs = some i → reach s .cellar c ((b 0, 16 * n) :: rs) [] →
          made (s.reportSectors (((b 0, 16 * n) :: rs).flatMap (s.badSectorsOf c.ten))) t c ⟨0x40, [0, 0, 0, i], []⟩
            (exec (.celGather t) s)) ∧
        (s.badRecord c.ten rs = none → reach s .cellar c ((b 0, 16 * n) :: rs) [(b 1, footprint rs)] →
          made s t c ⟨0, [lsum (rs.map (·.2)), footprint rs, lsum (rs.map fun r => (s.nandSectors c.ten r).length)],
            [.write (key c.ten (b 1)) (s.packed c.ten rs)]⟩ (exec (.celGather t) s)))) ∧
    (atWork s t 8 2 c →
      let n := bits (b 2) 0 3
      let bad : Prop := b 0 % 64 ≠ 0 ∨ b 1 % 4096 ≠ 0 ∨ n = 0 ∨ 4 < n
      (bad → s.get R.PWR_STS_NV_OK = 1 → exec (.celProg t) s = refusal s t c 5) ∧
      (¬ bad → s.get R.PWR_STS_NV_OK = 0 → exec (.celProg t) s = refusal (s.raiseAt R.CEL_ERR_NV_REFUSED (some c.ten) 0 t) t c 9) ∧
      (¬ bad → s.get R.PWR_STS_NV_OK = 1 → s.storeDst c.ten (b 1) (n * 4096) [(b 0, n * 4096)] = none →
        s.access .drift c.ten [(b 1, n * 4096)] [] = .ok → reach s .cellar c [(b 0, n * 4096)] [] →
        made s t c ⟨0, [n * 4096], [.write (s.dkey c.ten (b 1)) (s.vrun c.ten (b 0) (n * 4096))]⟩ (exec (.celProg t) s))) ∧
    (atWork s t 8 3 c →
      let n := bits (b 1) 0 17
      let bad : Prop := b 0 % 4096 ≠ 0 ∨ n = 0 ∨ 65536 < n
      (bad → s.get R.PWR_STS_NV_OK = 1 → exec (.celTrim t) s = refusal s t c 5) ∧
      (¬ bad → s.get R.PWR_STS_NV_OK = 1 → s.storeDst c.ten (b 0) (n * 4096) [] = none →
        s.access .drift c.ten [(b 0, n * 4096)] [] = .ok → s.pw.absent.contains 5 = false →
        made s t c ⟨0, [n], [.fill (s.dkey c.ten (b 0)) (n * 4096) 0]⟩ (exec (.celTrim t) s)))

/-! ## Vector search (08, 09) -/

/-- The scan commands: an index that was off as the command left Issued refuses with INDEX_OFF and one that does not serve the tenancy with
INDEX_DENIED; a probe of a given snapshot older than a chosen list answers SNAP_STALE; a probe and a re-score with operands in order and
in reach give a result list of their length with the counts of Tables 8.8 and 8.9; a snapshot, an insert, a delete and a fold with operands
in order are decided at their commit; a gather merges the slots that are marked, and says how many. -/
def Obligations.ScanCommandsMakeTheirResultsReady : Prop :=
  (∀ (s : State) (ten x : Nat) (w : List Nat),
    (s.get (R.SCN_IDX_CTL_EN x) = 0 → ∀ b, s.idxRefuse x ten b = some 0x41) ∧
    (s.get (R.SCN_IDX_CTL_EN x) = 1 → (s.reg (R.SCN_IDX_TENS x)).toNat.testBit ten = false → ∀ b, s.idxRefuse x ten b = some 0x42) ∧
    (s.get (R.SCN_IDX_CTL_EN x) = 1 → (s.reg (R.SCN_IDX_TENS x)).toNat.testBit ten = true → s.idxRefuse x ten false = none ∧
      s.idxRefuse x ten true = (if s.get (R.SCN_IDX_CTL_WRITER_EN x) = 1 ∧ s.get (R.SCN_IDX_CTL_WRITER x) = ten then none else some 0x42)) ∧
    (dClass w = 2 → dOp w = 1 → s.idxBar ten w = s.idxRefuse (bits (dBody w 3) 0 6) ten false) ∧
    (dClass w = 2 → dOp w = 2 ∨ dOp w = 3 → s.idxBar ten w = s.idxRefuse (bits (dBody w 1) 0 6) ten false) ∧
    (dClass w = 2 → dOp w = 4 ∨ dOp w = 5 ∨ dOp w = 6 → s.idxBar ten w = s.idxRefuse (bits (dBody w 1) 0 6) ten true)) ∧
  (∀ (s : State) (t : Nat) (c : Cmd),
    let b := c.body
    let barred (x : Ans) : Prop := ∀ e, c.barred = some e → x = refusal s t c e
    (atWork s t 2 1 c → barred (exec (.scanProbe t) s) ∧
      (c.barred = none →
        let x := exec (.scanProbe t) s
        let h := s.idx (bits (b 3) 0 6)
        let k := bits (b 3) 8 12 + 1
        let limit := bits (b 3) 42 22 + 1
        let bad : Prop := limit < bits (b 3) 20 22 + 1 ∨ h.lists < limit ∨ b 0 % 64 ≠ 0
        let rds := [(b 0, 2 * h.dim), (b 1, 4 * h.lists)]
        let lists := s.probeLists c h []
        let got := lists.1.take lists.2
        let more := (s.probeScan (s.scanUnits t) c rds []).reads.1
        let fits : Prop := ¬ bad ∧ 512 + ceilDiv h.lists 512 + h.dim * (if h.metric = 2 then limit else 1) +
          limit * ceilDiv (h.maxList * (h.cb + 8)) 2048 + ceilDiv (h.sideCap * h.entry) 2048 ≤ 1450000
        let near_ : Prop := s.pw.absent.contains 5 = false ∧ s.access .scan c.ten rds [] = .ok ∧ s.accessReads more = .ok ∧
          s.toFetch c .scan more rds = []
        let stale : Prop := (b 3).testBit 6 = false ∧ ∃ l, l ∈ got ∧ b 4 < l.dir.seq
        let dense : Prop := ∃ l, l ∈ got ∧ 131072 < l.relevant
        (bad → x = refusal s t c 5) ∧
        -- without a predicate block
        (fits → b 5 = 0 → near_ → stale → ∃ u m, x = .next u ∧ u.cmd t = some m ∧ m.done = some ⟨0x40, [], []⟩ ∧ u.mem = s.mem) ∧
        (fits → b 5 = 0 → near_ → ¬ stale → dense → ∃ u m, x = .next u ∧ u.cmd t = some m ∧ m.done = some ⟨0x44, [], []⟩ ∧ u.mem = s.mem) ∧
        (fits → b 5 = 0 → near_ → ¬ stale → ¬ dense → s.access .scan c.ten rds [(b 2, 64 + 32 * k)] = .ok →
          ∃ u m n bs, x = .next u ∧ u.cmd t = some m ∧ u.mem = s.mem ∧ u.x.cores = s.x.cores ∧
            m.done = some ⟨0, [n, got.length, lsum (got.map fun l => l.cands.length), lsum (got.map (·.relevant))],
              [.write (key c.ten (b 2)) bs]⟩ ∧
            n ≤ k ∧ n ≤ lsum (got.map fun l => l.cands.length) ∧ got.length ≤ limit ∧ bs.length = 64 + 32 * k))) ∧
    (atWork s t 2 2 c → barred (exec (.scanRescore t) s) ∧
      (c.barred = none →
        let h := s.idx (bits (b 1) 0 6)
        let k := bits (b 1) 6 12 + 1
        let es := s.rescoreIn c
        let good := es.filter fun e => !s.vecBad h e.id
        let rds := [(b 0, 64 + 32 * es.length), (b 2, 2 * h.dim)]
        let vecs : List Read := es.map fun e => ⟨.cellar, spModule, h.vec e.id, h.vecBytes⟩
        s.pw.absent.contains 5 = false → s.access .scan c.ten [(b 0, 64)] [] = .ok → 512 + 2 * es.length * ceilDiv h.vecBytes 4096 ≤ 1450000 →
        s.access .scan c.ten rds [] = .ok → s.access .scan c.ten rds [(b 3, 64 + 32 * k)] = .ok → s.accessReads vecs = .ok →
        s.toFetch c .scan vecs rds = [] →
        ∃ u m n q bs, exec (.scanRescore t) s = .next u ∧ u.cmd t = some m ∧ u.mem = s.mem ∧
          m.done = some ⟨0, [n, q, es.length - good.length, 0], [.write (key c.ten (b 3)) bs]⟩ ∧ n ≤ k ∧ n ≤ good.length ∧
          bs.length = 64 + 32 * k ∧ (good.length ≠ es.length → u.get (R.SCN_ERR_RESCORE_SKIP c.unit) = 1))) ∧
    (atWork s t 2 3 c → barred (exec (.scanSnap t) s) ∧
      (c.barred = none → s.pw.absent.contains 5 = false → made s t c ⟨0, [], [.late]⟩ (exec (.scanSnap t) s))) ∧
    (let x := bits (b 1) 0 6
     let n := bits (b 1) 6 13
     let h := s.idx x
     let es := s.appended c h
     let appends (len : Nat) (x : Ans) : Prop :=
       (n = 0 ∨ 4096 < n → x = refusal s t c 5) ∧
       (1 ≤ n → n ≤ 4096 → barred x) ∧
       (1 ≤ n → n ≤ 4096 → c.barred = none → reach s .scan c [(b 0, n * len)] [] →
         ((∃ e, e ∈ es ∧ h.lists ≤ e.2.1) → refusedRead s t c 5 x) ∧
         ((∀ e, e ∈ es → e.2.1 < h.lists) → (∃ e, e ∈ es ∧ (e.1 < h.firstId ∨ h.firstId + h.span ≤ e.1)) → refusedRead s t c 0x45 x) ∧
         ((∀ e, e ∈ es → e.2.1 < h.lists ∧ h.firstId ≤ e.1 ∧ e.1 < h.firstId + h.span) →
           made s t c ⟨0, [], [s.scanBytes c.unit (ownReads c.ten [(b 0, n * len)]), .late]⟩ x))
     (atWork s t 2 4 c → appends h.entry (exec (.scanInsert t) s)) ∧
     (atWork s t 2 5 c → appends 16 (exec (.scanDelete t) s))) ∧
    (atWork s t 2 6 c →
      let x := bits (b 1) 0 6
      let n := bits (b 1) 6 17
      let ls := (s.folds c).map (·.1)
      (n = 0 ∨ 65536 < n → exec (.scanFold t) s = refusal s t c 5) ∧
      (1 ≤ n → n ≤ 65536 → barred (exec (.scanFold t) s)) ∧
      (1 ≤ n → n ≤ 65536 → c.barred = none → reach s .scan c [(b 0, 48 * n)] [] →
        ((∃ l, l ∈ ls ∧ (s.idx x).lists ≤ l) ∨ ¬ ls.Nodup → refusedRead s t c 5 (exec (.scanFold t) s)) ∧
        (ls.Nodup → (∀ l, l ∈ ls → l < (s.idx x).lists) →
          made s t c ⟨0, [], [s.scanBytes c.unit (ownReads c.ten [(b 0, 48 * n)]), .late]⟩ (exec (.scanFold t) s)))) ∧
    (atWork s t 2 7 c →
      let n := bits (b 1) 0 9
      let k := bits (b 1) 9 12 + 1
      let sk := bits (b 3) 0 13
      let bad : Prop := b 0 % 64 ≠ 0 ∨ n = 0 ∨ 256 < n ∨ sk = 0 ∨ 4096 < sk ∨ n * sk < k
      let slot (i : Nat) : Nat := slotAddr (b 0) sk i
      let slots := (List.range n).filter fun i => s.vword c.ten (slot i) % 256 == 1
      let heads := (b 0, 8) :: (List.range n).map fun i => (slot i, 64)
      let rds := heads ++ slots.map fun i => (slot i + 64, 32 * min (bits (s.vword c.ten (slot i)) 32 13) sk)
      (bad → exec (.scanGather t) s = refusal s t c 5) ∧
      (¬ bad → 512 + ceilDiv (n * sk) 64 ≤ 1450000 → s.access .scan c.ten heads [] = .ok → reach s .scan c rds [(b 2, 64 + 32 * k)] →
        ∃ d bs, made s t c d (exec (.scanGather t) s) ∧ d.status = 0 ∧ nw d.res 0 ≤ k ∧ nw d.res 1 = slots.length ∧
          d.deferred.effs = [.write (key c.ten (b 2)) bs] ∧ bs.length = 64 + 32 * k)))

/-- The scan commands at their commit: a snapshot answers the sequence; an insert or a delete past the side list's capacity answers
SIDE_FULL with nothing changed, else takes the sequence, which goes on by one, and lengthens the side list; a fold that removes more than is
live answers CUT_RANGE, else takes the sequence, sets the floor and shortens the side list. -/
def Obligations.ScanOutcomesAtTheCommit : Prop :=
  ∀ (s : State) (t : Nat) (c : Cmd),
    let x := bits (c.body 1) 0 6
    let live := s.get (R.SCN_IDX_SIDE_LIVE x)
    let seq := (s.reg (R.SCN_IDX_SEQ x)).toNat
    let n := bits (c.body 1) 6 13
    let r := s.scanCommit t c
    (dOp c.words = 3 → r = (s, 0, [seq, 0, 0, 0])) ∧
    (dOp c.words = 4 ∨ dOp c.words = 5 →
      ((s.idx x).sideCap < live + n → r = (s, 0x43, [])) ∧
      (live + n ≤ (s.idx x).sideCap → r.2 = (0, [seq, n, 0, 0]) ∧ (r.1.reg (R.SCN_IDX_SEQ x)).toNat = (seq + 1) % 2 ^ 64 ∧
        (live + n < 2 ^ 25 → r.1.get (R.SCN_IDX_SIDE_LIVE x) = live + n) ∧ r.1.x.cmds = s.x.cmds)) ∧
    (dOp c.words = 6 →
      let cut := bits (c.body 2) 0 25
      (live < cut → r = (s, 0x46, [])) ∧
      (cut ≤ live → r.2 = (0, [seq, bits (c.body 1) 6 17, cut, 0]) ∧ (r.1.reg (R.SCN_IDX_FLOOR x)).toNat = seq ∧
        r.1.get (R.SCN_IDX_SIDE_LIVE x) = live - cut))

/-! ## Text and grammars (11, 12) -/

/-- txt.tok, txt.open, txt.feed and txt.close: a token array of the field and its counts; a stream opened once, with its stop strings; a
feed's released bytes and the stream after it; a close that releases the held tail. A stream that is closed, another tenancy's or stopped
refuses. -/
def Obligations.TextCommandsMakeTheirEffectsReady : Prop :=
  ∀ (s : State) (t : Nat) (c : Cmd),
    let b := c.body
    (atWork s t 5 1 c →
      let n := bits (b 1) 0 24
      let r := s.encode (s.vrun c.ten (b 0) n)
      (b 2 % 4 ≠ 0 → exec (.txtTok t) s = refusal s t c 5) ∧
      (b 2 % 4 = 0 → reach s .unit c [(b 0, n)] [] → 1450000 < 512 + 4 * r.2.1 → refusedRead s t c 8 (exec (.txtTok t) s)) ∧
      (b 2 % 4 = 0 → reach s .unit c [(b 0, n)] [] → 512 + 4 * r.2.1 ≤ 1450000 →
        (bits (b 3) 0 19 < r.1.length → made s t c ⟨0x40, [], [workFx R.TXT_FALLBACK_FALLBACK r.2.2.1,
          workFx R.TXT_FALLBACK_TRUNCATED (if r.2.2.2 then 1 else 0)]⟩ (exec (.txtTok t) s)) ∧
        (r.1.length ≤ bits (b 3) 0 19 → reach s .unit c [(b 0, n)] [(b 2, 4 * r.1.length)] →
          ∃ d, made s t c d (exec (.txtTok t) s) ∧ d.status = 0 ∧
            d.res = [r.1.length, r.2.1, r.2.2.1, if r.2.2.2 then 1 else 0] ∧
            d.effs.head? = some (.write (key c.ten (b 2)) (r.1.flatMap (leBytes 4)))))) ∧
    (atWork s t 5 2 c →
      let n := bits (b 0) 0 12
      let ns := bits (b 0) 14 5
      (16 < ns ∨ b 1 % 8 ≠ 0 → exec (.txtOpen t) s = refusal s t c 5) ∧
      (ns ≤ 16 → b 1 % 8 = 0 → (tfind s.tx.streams n).isSome = true → exec (.txtOpen t) s = refusal s t c 0x41) ∧
      (ns ≤ 16 → b 1 % 8 = 0 → tfind s.tx.streams n = none → reach s .unit c [(b 1, 72 * ns)] [] →
        (s.stopStrings c.ten (b 1) ns = none → refusedRead s t c 5 (exec (.txtOpen t) s)) ∧
        (∀ l, s.stopStrings c.ten (b 1) ns = some l →
          made s t c ⟨0, [n, ns, 0, 0], [.stream n (some ⟨c.ten, (b 0).testBit 12, (b 0).testBit 13, l, [], false⟩)]⟩
            (exec (.txtOpen t) s)))) ∧
    (atWork s t 5 3 c →
      let n := bits (b 0) 0 12
      let k := bits (b 0) 12 7
      let s' := s.bump R.TXT_STOPS_FEEDS 1
      (k = 0 ∨ 64 < k → exec (.txtFeed t) s = refusal s' t c 5) ∧
      (1 ≤ k → k ≤ 64 →
        (tfind s.tx.streams n = none → exec (.txtFeed t) s = refusal s' t c 0x42) ∧
        (∀ v, tfind s.tx.streams n = some v →
          (v.ten ≠ c.ten → exec (.txtFeed t) s = refusal s' t c 0x43) ∧
          (v.ten = c.ten → v.stopped = true → exec (.txtFeed t) s = refusal s' t c 0x44) ∧
          (v.ten = c.ten → v.stopped = false → reach s .unit c [(b 1, 4 * k)] [] →
            (∃ x, x ∈ s.tokensAt c.ten (b 1) k ∧ s.tok.vocab ≤ x) → refusedRead s' t c 5 (exec (.txtFeed t) s)) ∧
          (v.ten = c.ten → v.stopped = false → reach s .unit c [(b 1, 4 * k)] [] →
            (∀ x, x ∈ s.tokensAt c.ten (b 1) k → x < s.tok.vocab) →
            let f := s.feed v (s.tokensAt c.ten (b 1) k)
            (b 3 < f.1.length → refusedRead s' t c 0x45 (exec (.txtFeed t) s)) ∧
            (f.1.length ≤ b 3 → reach s .unit c [(b 1, 4 * k)] [(b 2, f.1.length)] →
              ∃ d, made s' t c d (exec (.txtFeed t) s) ∧ d.status = 0 ∧
                d.res = [f.1.length, f.2.2.1, (match f.2.2.2 with | some i => 1 + i * 2 ^ 8 | none => 0), f.2.1.held.length] ∧
                d.effs.take 2 = [.write (key c.ten (b 2)) f.1, .stream n (some f.2.1)]))))) ∧
    (atWork s t 5 4 c →
      let n := bits (b 0) 0 12
      (tfind s.tx.streams n = none → exec (.txtClose t) s = refusal s t c 0x42) ∧
      (∀ v, tfind s.tx.streams n = some v → v.ten = c.ten →
        let out := if v.stopped then [] else v.out v.held
        (b 2 < out.length → exec (.txtClose t) s = refusal s t c 0x45) ∧
        (out.length ≤ b 2 → reach s .unit c [] [(b 1, out.length)] →
          made s t c ⟨0, [out.length, 0, 0, 0], [.write (key c.ten (b 1)) out, .stream n none]⟩ (exec (.txtClose t) s))))

/-- A feed loses no byte and makes none up: where no stop string completes, without REPAIR, the released bytes and then the held tail are
the bytes held before and then the tokens' bytes; where one completes, nothing is held, the stream has stopped, and under STOP_INCLUDE
the released bytes end with it. -/
def Obligations.FeedLosesNoByte : Prop :=
  ∀ (s : State) (v : Strm) (ts : List Nat), v.repair = false →
    let r := s.feed v ts
    (r.2.2.2 = none → r.1 ++ r.2.1.held = v.held ++ ts.flatMap (s.vocabBytes s.tok) ∧ r.2.2.1 = ts.length ∧ r.2.1.stopped = v.stopped) ∧
    (∀ i, r.2.2.2 = some i → i < v.stops.length ∧ r.2.1.held = [] ∧ r.2.1.stopped = true ∧
      (v.incl = true → endsWith r.1 (nth v.stops i []) = true)) ∧
    r.2.1.stops = v.stops ∧ r.2.1.ten = v.ten

/-- The grammar commands: a load of an image that its check refuses answers BAD_IMAGE with the check and the index, else it is decided at
its commit, as an unload is; an open writes a session record at its grammar's start; a step, a path and a look at a session whose slot
stands write their masks; a session that is over refuses with SESSION_DONE, one of an emptied slot with SLOT_EMPTY. -/
def Obligations.GrammarCommandsMakeTheirEffectsReady : Prop :=
  ∀ (s : State) (t : Nat) (c : Cmd),
    let b := c.body
    let x := s.sess c.ten (b 0)
    let g := s.slotGram x.slot c.ten
    let v := s.tok.vocab
    let n := bits (b 1) 0 4
    let ts := s.tokensAt c.ten (b 2) n
    let sound : Prop := s.sessSlotBad x c.ten = none ∧ x.done = false ∧ s.sessOk g c.ten (b 0) x = true ∧ (∀ d, d ∈ ts → d < v)
    (atWork s t 5 0x10 c →
      let len := bits (b 2) 0 27
      (b 0 % 2 ^ 21 ≠ 0 → exec (.grmLoad t) s = refusal s t c 5) ∧
      (b 0 % 2 ^ 21 = 0 → 1450000 < 512 + len / 64 → exec (.grmLoad t) s = refusal s t c 8) ∧
      (b 0 % 2 ^ 21 = 0 → 512 + len / 64 ≤ 1450000 → reach s .unit c [(b 0, len)] [] →
        (∀ k i, s.imageCheck (s.gram c.ten (b 0)) len v = some (k, i) → made s t c ⟨0x50, [0, k, i], []⟩ (exec (.grmLoad t) s)) ∧
        (s.imageCheck (s.gram c.ten (b 0)) len v = none → made s t c ⟨0, [], [.late]⟩ (exec (.grmLoad t) s)))) ∧
    (atWork s t 5 0x11 c → s.pw.absent.contains 5 = false → made s t c ⟨0, [0, 0, 0, 0], [.late]⟩ (exec (.grmUnload t) s)) ∧
    (atWork s t 5 0x12 c →
      let slot := bits (b 1) 0 6
      (b 0 % 64 ≠ 0 ∨ 64 < bits (b 1) 9 7 ∨ 16 < bits (b 1) 16 5 ∨ bits (b 1) 7 2 = 3 → exec (.grmOpen t) s = refusal s t c 5) ∧
      (b 0 % 64 = 0 → bits (b 1) 9 7 = 0 → bits (b 1) 16 5 = 0 → bits (b 1) 7 2 ≤ 1 →
        (s.get (R.TXT_GRM_SLOT_VALID slot) = 0 → exec (.grmOpen t) s = refusal s t c 0x52) ∧
        (s.get (R.TXT_GRM_SLOT_VALID slot) = 1 → s.get (R.TXT_GRM_SLOT_TEN slot) ≠ c.ten → exec (.grmOpen t) s = refusal s t c 0x53) ∧
        (s.get (R.TXT_GRM_SLOT_VALID slot) = 1 → s.get (R.TXT_GRM_SLOT_TEN slot) = c.ten →
          reach s .unit c [(b 2, 0), (b 3, 0)] [(b 0, 16384)] → s.access .unit c.ten [(b 2, 0), (b 3, 0)] [] = .ok →
          ∃ d bs, made s t c d (exec (.grmOpen t) s) ∧ d.status = 0 ∧ d.res = [(s.slotGram slot c.ten).start, 0, 0, 0] ∧
            d.effs = [.write (key c.ten (b 0)) bs]))) ∧
    (atWork s t 5 0x13 c → b 0 % 64 = 0 → b 3 % 64 = 0 → reach s .unit c [(b 0, 16384), (b 2, 4 * n)] [] →
      (∀ e, s.session c true = .error e → n ≤ 9 → bits (b 1) 4 4 ≤ 8 → refusedRead s t c e (exec (.grmStep t) s)) ∧
      (∀ e, s.sessSlotBad x c.ten = some e → s.session c true = .error e) ∧
      (s.sessSlotBad x c.ten = none → s.sessOk g c.ten (b 0) x = true → x.done = true → s.session c true = .error 0x55) ∧
      (sound → n ≤ 9 → bits (b 1) 4 4 = 0 →
        let y := ts.foldl (s.advance g) x
        let m := s.maskToks g v y
        m ≠ [] → reach s .unit c ([(b 0, 16384), (b 2, 4 * n)] ++ (s.trail g x ts).flatMap (s.gramReads g))
          [(b 0, 16384), (b 3, 64 + 32768)] →
        ∃ d hd, made s t c d (exec (.grmStep t) s) ∧ d.status = 0 ∧ hd.length = 64 ∧
          d.effs.take 2 = [.write (key c.ten (b 0)) y.bytes, .write (key c.ten (b 3)) (hd ++ maskBytes m)])) ∧
    (atWork s t 5 0x14 c → b 0 % 64 = 0 → b 3 % 64 = 0 → 1 ≤ n → n ≤ 8 → s.access .unit c.ten [(b 0, 16384), (b 2, 4 * n)] [] = .ok →
      sound → reach s .unit c ([(b 0, 16384), (b 2, 4 * n)] ++
        (s.trail g x (ts.take (min (s.pathGo g v 0 x ts).2 (n - 1)))).flatMap (s.gramReads g)) [(b 3, 64 + 32768 * n)] →
      ∃ d bs, made s t c d (exec (.grmPath t) s) ∧ d.status = 0 ∧
        nw d.res 0 = 1 + n * 2 ^ 8 + (s.pathGo g v 0 x ts).2 * 2 ^ 12 ∧ d.effs.head? = some (.write (key c.ten (b 3)) bs)) ∧
    (atWork s t 5 0x15 c → b 0 % 64 = 0 → s.access .unit c.ten [(b 0, 16384)] [] = .ok → s.sessSlotBad x c.ten = none →
      s.sessOk g c.ten (b 0) x = true → b 0 % 64 = 0 →
      (reach s .unit c [(b 0, 16384)] [(b 1, 16384)] →
        made s t c ⟨0, [0, 0, 0, 0], [.write (key c.ten (b 1)) (s.vrun c.ten (b 0) 16384)]⟩ (exec (.grmPeek t) s)))

/-! ## Embedding, network, fabric and island commands (16, 17, 20) -/

/-- emb.gather, emb.add and emb.swap: a table that is off or another tenancy's refuses; a gather of rows homed here makes ready the rows,
decoded or summed as its output form says; an add checks every entry and registers its caravans, which leave at its start point; a swap
waits for the commands of the old version, then makes the next version ready. -/
def Obligations.EmbeddingCommandsMakeTheirEffectsReady : Prop :=
  ∀ (s : State) (t : Nat) (c : Cmd), s.remoteBusy t = false → s.pw.absent.contains 5 = false →
    let b := c.body
    let table := bits (b 0) 0 5
    let n := bits (b 2) 0 17
    let on : Prop := s.get (R.EMB_TAB_CTL_EN table) = 1 ∧ s.get (R.EMB_TAB_CTL_TEN table) = c.ten
    let barred (x : Ans) : Prop := (s.get (R.EMB_TAB_CTL_EN table) = 0 → x = refusal s t c 0x41) ∧
      (s.get (R.EMB_TAB_CTL_EN table) = 1 → s.get (R.EMB_TAB_CTL_TEN table) ≠ c.ten → x = refusal s t c 0x42)
    -- a refusal decided from what the command read
    let refused (st : Nat) (x : Ans) : Prop := ∃ u m, x = .next u ∧ u.cmd t = some m ∧
      m = { c with reads := m.reads, far := m.far, pages := m.pages, done := some ⟨st, [], []⟩ } ∧ u.mem = s.mem ∧ u.cw = s.cw
    (atWork s t 6 1 c → barred (exec (.embGather t) s) ∧ (on → ∀ d, s.embDescOf table c.snap = some d →
      let x := exec (.embGather t) s
      let ids := s.gatherIds c n
      let out := bits (b 0) 5 2
      let sum := (b 0).testBit 7
      let fits : Prop := out ≠ 3 ∧ ¬ (out = 2 ∧ sum = true) ∧ 1 ≤ n ∧ n ≤ 65536 ∧ b 3 % 64 = 0
      let rds := (b 1, 4 * n) :: ids.map fun r => (d.addr r, d.stride)
      (¬ fits → x = refusal s t c 5) ∧
      (fits → 1450000 < 512 + n * ceilDiv d.stride 64 → x = refusal s t c 8) ∧
      (fits → 512 + n * ceilDiv d.stride 64 ≤ 1450000 → reach s .unit c [(b 1, 4 * n)] [] →
        ((∃ r, r ∈ ids ∧ d.rows ≤ r) → refused 0x40 x) ∧
        ((∀ r, r ∈ ids → r < d.rows ∧ d.home r = s.ownAddr) → reach s .unit c rds [(b 3, gatherLen d out sum n)] →
          ∃ u m hits, x = .next u ∧ u.cmd t = some m ∧ hits ≤ n ∧ u.mem = s.mem ∧
            m.done = some ⟨0, [n, hits, 0, c.snap],
              [.write (key c.ten (b 3)) (gatherOut d out sum (ids.map fun r => s.vrun c.ten (d.addr r) d.stride))]⟩)))) ∧
    (atWork s t 6 2 c → barred (exec (.embAdd t) s) ∧ (on → ∀ d, s.embDescOf table c.snap = some d →
      let x := exec (.embAdd t) s
      let es := splitEntries d.entry n (s.vrun c.ten (b 1) (n * d.entry))
      let rowOf (e : List Byte) : Nat := ofLe (e.take 4)
      (s.get (R.EMB_TAB_CTL_ADD_EN table) = 0 → x = refusal s t c 0x43) ∧
      (s.get (R.EMB_TAB_CTL_ADD_EN table) = 1 → n = 0 ∨ 65536 < n ∨ b 1 % 8 ≠ 0 → x = refusal s t c 5) ∧
      (s.get (R.EMB_TAB_CTL_ADD_EN table) = 1 → 1 ≤ n → n ≤ 65536 → b 1 % 8 = 0 → s.addMax < n * d.entry → x = refusal s t c 8) ∧
      (s.get (R.EMB_TAB_CTL_ADD_EN table) = 1 → 1 ≤ n → n ≤ 65536 → b 1 % 8 = 0 → n * d.entry ≤ s.addMax →
        reach s .unit c [(b 1, n * d.entry)] [] →
        ((∃ e, e ∈ es ∧ d.rows ≤ rowOf e) → refused 0x40 x) ∧
        ((∀ e, e ∈ es → rowOf e < d.rows) → (∃ e, e ∈ es ∧ (addEntry d e).2.any notFinite = true) → refused 0x44 x) ∧
        ((∀ e, e ∈ es → rowOf e < d.rows ∧ (addEntry d e).2.any notFinite = false) →
          ∃ u m effs, x = .next u ∧ u.cmd t = some m ∧ m.st = .running ∧ u.mem = s.mem ∧
            m.done = some ⟨0, [n, ((es.map fun e => d.home (rowOf e)).foldl addNew []).length, 0, c.snap], effs⟩ ∧
            u.fa.nextOp = s.fa.nextOp + effs.length)))) ∧
    (atWork s t 6 3 c → barred (exec (.embSwap t) s) ∧ (on →
      let x := exec (.embSwap t) s
      let old := s.get (R.EMB_TAB_STS_VERSION table)
      let rds := [(b 1, s.descLen c.ten (b 1))]
      (b 1 % 64 ≠ 0 → x = refusal s t c 5) ∧
      (b 1 % 64 = 0 → s.versionUsed table old = true → x = .next s) ∧
      (b 1 % 64 = 0 → s.versionUsed table old = false → s.access .unit c.ten [(b 1, 64)] [] = .ok → reach s .unit c rds [] →
        (s.descOk c.ten (b 1) = false → refusedRead s t c 0x45 x) ∧
        (s.descOk c.ten (b 1) = true →
          made s t c ⟨0, [old, (old + 1) % 2 ^ 32, 0, 0], [.embSwap table (b 1) (s.descAt c.ten (b 1))]⟩ x))))

/-- net.emit, fab.read, fab.write and fab.atomic: an emission over its length refuses with LENGTH, one to a pair that is not the tenancy's
with BAD_FIELD, one to a module without a route with UNREACHABLE; else it is made ready to leave whole. A remote operation registers
itself under the next OP_ID and waits; an atomic is made ready to leave at its start point; one to a module without a route refuses. -/
def Obligations.RemoteCommandsStartTheirOperation : Prop :=
  ∀ (s : State) (t : Nat) (c : Cmd),
    let dst := faDst c
    let n := faBytes c
    let ok : Prop := isGroup dst = false ∧ faSpace c ≠ 3
    let len : Prop := 4 ≤ n ∧ n ≤ 92800000 ∧ n % 4 = 0
    let id := s.fa.nextOp % 2 ^ 32
    let noRoute (x : Ans) : Prop := s.reachable dst = false →
      ((∀ h, s.hopsTo dst = some h → h ≤ 8) → x = refusal s t c 0x40) ∧
      (∀ h, s.hopsTo dst = some h → 8 < h → ∃ u, x = refusal u t c 0x40 ∧ u = s.raiseAt R.FAB_ERR_HOP_LIMIT (some c.ten) dst t)
    let waits (kind total : Nat) (x : Ans) : Prop := ∃ u m hops, x = .next u ∧ s.hopsTo dst = some hops ∧ u.cmd t = some m ∧
      m.done = none ∧ m.st = .running ∧ tfind u.fa.ops id = some ⟨t, kind, dst, hops, 0, total, []⟩ ∧
      u.fa.nextOp = s.fa.nextOp + 1 ∧ u.mem = s.mem
    (atWork s t 0x0A 1 c → s.remoteBusy t = false →
      (¬ (ok ∧ len) → exec (.fabRead t) s = refusal s t c 5) ∧ (ok → len → noRoute (exec (.fabRead t) s)) ∧
      (ok → len → s.reachable dst = true → reach s .unit c [] [(c.body 2, n)] → waits 1 n (exec (.fabRead t) s))) ∧
    (atWork s t 0x0A 2 c → s.remoteBusy t = false →
      (¬ (ok ∧ len) → exec (.fabWrite t) s = refusal s t c 5) ∧ (ok → len → noRoute (exec (.fabWrite t) s)) ∧
      (ok → len → s.reachable dst = true → reach s .unit c [(c.body 2, n)] [] → waits 2 n (exec (.fabWrite t) s))) ∧
    (atWork s t 0x0A 3 c → s.remoteBusy t = false →
      let op := bits (c.body 0) 24 4
      let fits : Prop := op ≤ 6 ∧ c.body 1 % 8 = 0
      (¬ (ok ∧ fits) → exec (.fabAtomic t) s = refusal s t c 5) ∧ (ok → fits → noRoute (exec (.fabAtomic t) s)) ∧
      (ok → fits → s.reachable dst = true → ∃ u m car hops, exec (.fabAtomic t) s = .next u ∧ s.hopsTo dst = some hops ∧
        u.cmd t = some m ∧ m.done = some ⟨0, [], [.send none car]⟩ ∧ car.kind = 0x16 ∧ car.dst = dst ∧ car.ten = c.ten ∧
        car.words = [c.body 1, id + op * 2 ^ 32, c.body 2, c.body 3] ∧
        tfind u.fa.ops id = some ⟨t, 3, dst, hops, 0, 8, []⟩ ∧ u.mem = s.mem)) ∧
    (atWork s t 7 1 c →
      let n := faBytes c
      let q := bits (c.body 0) 0 10
      let pair : Prop := q / 256 = c.unit ∧ s.get (R.HST_QP_STATE c.unit (q % 256)) = 2 ∧ s.get (R.HST_QP_ROLE c.unit (q % 256)) = 0 ∧
        s.get (R.HST_QP_TEN c.unit (q % 256)) = c.ten
      ((if c.unit < 4 then 1000000 else 4000000) < n → exec (.netEmit t) s = refusal s t c 8) ∧
      (c.unit < 4 → n ≤ 1000000 → ¬ pair → exec (.netEmit t) s = refusal s t c 5) ∧
      (c.unit < 4 → n ≤ 1000000 → pair → reach s .unit c [(c.body 2, n)] [] →
        made s t c ⟨0, [n, 1], [.msg q (wordsOf (ceilDiv n 8) (s.vrun c.ten (c.body 2) n))]⟩ (exec (.netEmit t) s)) ∧
      (4 ≤ c.unit → n ≤ 4000000 → isGroup (faDst c) = false → s.reachable (faDst c) = false → exec (.netEmit t) s = refusal s t c 0x40) ∧
      (4 ≤ c.unit → n ≤ 4000000 → isGroup (faDst c) = false → s.reachable (faDst c) = true → reach s .unit c [(c.body 2, n)] [] →
        ∃ d, made s t c d (exec (.netEmit t) s) ∧ d.status = 0 ∧ nw d.res 0 = n ∧ d.effs.length = nw d.res 1 ∧
          ∀ e, e ∈ d.effs → ∃ p car, e = .send p car ∧ car.kind = 0x10 ∧ car.dst = faDst c ∧ car.data.length ≤ 4096))

/-- The security island: a report or a flash write made ready or refused; the boot chain tries TRY or ACTIVE, then the other slot, else names
STAGE 2, and clears TRY before the steward starts; a firmware update is checked, programmed into the slot not booted and named in TRY, confirmed,
or raises SVN_FLOOR; a report of the manager's is left in its registers; a key-store write is refused by its first reason or begun, and its end
installs it or keeps the store. A chain's second attempt and its failure set their error bits. -/
def Obligations.IslandCommandsTakeEffect : Prop :=
  ∀ s : State,
   (∀ (t : Nat) (c : Cmd),
    let b := c.body
    (atWork s t 9 2 c →
      (b 0 % 8 ≠ 0 ∨ b 1 % 64 ≠ 0 → exec (.secQuoteCmd t) s = refusal s t c 5) ∧
      (b 0 % 8 = 0 → b 1 % 64 = 0 → s.get R.SEC_STS_LIFECYCLE ≠ 1 → exec (.secQuoteCmd t) s = refusal s t c 0x40) ∧
      (b 0 % 8 = 0 → b 1 % 64 = 0 → s.get R.SEC_STS_LIFECYCLE = 1 → reach s .unit c [(b 0, 32)] [(b 1, 320)] →
        made s t c ⟨0, [s.se.log.length], [.write (key c.ten (b 1)) (s.report 0 0 c.ten false (s.vrun c.ten (b 0) 32))]⟩
          (exec (.secQuoteCmd t) s))) ∧
    (atWork s t 9 1 c →
      let n := bits (b 2) 0 13
      let w : Effect := .write (key spFlash (b 0)) (s.vrun c.ten (b 1) n)
      let shaped : Prop := b 0 % 256 = 0 ∧ n % 256 = 0 ∧ 1 ≤ n ∧ n ≤ 4096
      let inside : Prop := b 0 + n ≤ 536870912 ∧ b 0 / 65536 = (b 0 + n - 1) / 65536
      (c.ten < 64 → exec (.secBfw t) s = refusal s t c 0x40) ∧
      (64 ≤ c.ten → shaped → ¬ inside → exec (.secBfw t) s = refusal s t c 0x42) ∧
      (64 ≤ c.ten → shaped → inside → (b 2).testBit 13 = false → s.get R.PWR_STS_NV_OK = 0 → exec (.secBfw t) s = refusal s t c 9) ∧
      (64 ≤ c.ten → shaped → inside → (b 2).testBit 13 = false → s.get R.PWR_STS_NV_OK = 1 → reach s .unit c [(b 1, n)] [] →
        made s t c ⟨0, [n], [w]⟩ (exec (.secBfw t) s)) ∧
      (64 ≤ c.ten → shaped → inside → b 0 % 65536 = 0 → (b 2).testBit 13 = true → s.get R.PWR_STS_NV_OK = 1 →
        reach s .unit c [(b 1, n)] [] →
        made s t c ⟨0, [n], [.fill (key spFlash (b 0)) 65536 (2 ^ 64 - 1), w]⟩ (exec (.secBfw t) s)))) ∧
    -- the registers that begin an operation
    (∀ via, mayWrite s via → tfind s.checks R.SEC_CTL = none →
      let at_ (off : Nat) : State := s.setReg off (s.reg off).toNat
      (∀ n, exec (.fwStart via n) s = .next ((at_ R.SEC_FW_CTL).fwStart (n % 2 ^ 32))) ∧
      exec (.fwConfirm via) s = .next (at_ R.SEC_FW_CTL).fwConfirm ∧ exec (.fwAdvance via) s = .next (at_ R.SEC_FW_CTL).fwAdvance ∧
      exec (.secQuoteGo via) s = .next ((at_ R.SEC_QUOTE).quoteGo via) ∧
      (∀ slot, exec (.ksInstallSm4 via slot) s = .next ((at_ R.SEC_KS_CTL).ksStart 1 (slot % 16)) ∧
        exec (.ksInstallSigner via slot) s = .next ((at_ R.SEC_KS_CTL).ksStart 2 (slot % 16)) ∧
        exec (.ksRevoke via slot) s = .next ((at_ R.SEC_KS_CTL).ksStart 3 (slot % 16)))) ∧
    -- the boot chain
    (let b := s.bootCtl
     let first := b.try_.getD b.active
     let finds (slot : Nat) : Except Nat (List Byte × ImgHdr) := s.firmware (s.run (slotAt slot) slotBytes)
     let bad (slot : Nat) : Prop := (finds slot).toOption = none
     (s.pw.charged = false ∨ s.get R.SEC_STS_STAGE ≠ 0 ∨ s.se.tryWait.isSome = true → exec .romBoot s = .next s) ∧
     (s.pw.charged = true → s.get R.SEC_STS_STAGE = 0 → s.se.tryWait = none →
       ∃ u, exec .romBoot s = .next u ∧ u.mem = s.mem ∧ u.x.cmds = s.x.cmds ∧ u.x.cores = s.x.cores ∧ u.se.boot = s.se.boot ∧ u.se.store = s.se.store ∧
         (∀ cert h, finds first = .ok (cert, h) → u.get R.SEC_STS_SLOT = first % 2 ∧ u.get R.SEC_STS_FW_SVN = h.svn % 256 ∧
           u.se.log = [(0, sm3 cert), (0, h.digest)] ∧ (b.try_ = none → u.get R.SEC_STS_STAGE = 1) ∧
           (b.try_ ≠ none → u.get R.SEC_STS_STAGE = 0 ∧ u.se.tryWait = some first)) ∧
         (∀ cert h, bad first → finds (1 - first) = .ok (cert, h) → u.get R.SEC_STS_STAGE = 1 ∧ u.get R.SEC_STS_SLOT = (1 - first) % 2 ∧
           u.get R.SEC_ERR_BOOT_SLOT_FAIL = 1) ∧
         (bad first → bad (1 - first) → u.get R.SEC_STS_STAGE = 2 ∧ u.get R.SEC_ERR_BOOT_SLOT_FAIL = 1)) ∧
     (∀ w, s.se.tryWait = none ∨ s.get R.PWR_STS_NV_OK = 0 → exec (.romTryClear w) s = .next s) ∧
     (∀ slot, s.se.tryWait = some slot → s.get R.PWR_STS_NV_OK = 1 →
       (∃ u, exec (.romTryClear true) s = .next u ∧ u.bootCtl = { b with seq := b.seq + 1, valid := true, try_ := none } ∧ u.mem = s.mem ∧
         u.se.tryWait = none ∧ u.se.tried = true ∧ u.get R.SEC_STS_STAGE = 1 ∧ u.get R.SEC_STS_SLOT = slot % 2) ∧
       (∃ u, exec (.romTryClear false) s = .next u ∧ u.bootCtl = b ∧ u.mem = s.mem ∧ u.se.tryWait = none ∧ u.get R.SEC_ERR_BFW_FAIL = 1 ∧
         (bad b.active → u.get R.SEC_STS_STAGE = 2) ∧ (¬ bad b.active → u.get R.SEC_STS_STAGE = 1 ∧ u.get R.SEC_STS_SLOT = b.active % 2)))) ∧
    -- firmware updates, while SEC_CTL.EN is 1
    (s.get R.SEC_CTL_EN = 1 →
      let tells (u : State) (code : Nat) : Prop := u.get R.SEC_FW_STS_CHK = code ∧ u.se = s.se ∧ u.mem = s.mem
      let idle : Prop := s.get R.HST_IMG_STS_ACTIVE = 0 ∧ s.get R.SEC_FW_STS_BUSY = 0
      let other := 1 - s.get R.SEC_STS_SLOT
      (∀ n, (¬ idle → tells (s.fwStart n) 0xA7) ∧ (idle → s.get R.PWR_STS_NV_OK = 0 → tells (s.fwStart n) 0xA1) ∧
        (idle → s.get R.PWR_STS_NV_OK = 1 → slotBytes < n → tells (s.fwStart n) 0xA2) ∧
        (∀ code, idle → s.get R.PWR_STS_NV_OK = 1 → n ≤ slotBytes → s.firmware (s.run (key spStage 0) n) = .error code →
          tells (s.fwStart n) (code % 256) ∧ (s.fwStart n).get R.SEC_ERR_IMG_REFUSED = 1) ∧
        (∀ r, idle → s.get R.PWR_STS_NV_OK = 1 → n ≤ slotBytes → s.firmware (s.run (key spStage 0) n) = .ok r → memWf s.mem = true →
          (s.fwStart n).get R.SEC_FW_STS_CHK = 0 ∧ (s.fwStart n).run (slotAt other) n = s.run (key spStage 0) n ∧
          (s.fwStart n).bootCtl = { s.bootCtl with seq := s.bootCtl.seq + 1, valid := true, try_ := some other })) ∧
      (s.get R.SEC_STS_STAGE ≠ 1 → tells s.fwConfirm 0xA7) ∧
      (s.get R.SEC_STS_STAGE = 1 → s.get R.PWR_STS_NV_OK = 0 → tells s.fwConfirm 0xA1) ∧
      (s.get R.SEC_STS_STAGE = 1 → s.get R.PWR_STS_NV_OK = 1 → s.fwConfirm.get R.SEC_FW_STS_CHK = 0 ∧
        s.fwConfirm.bootCtl = { s.bootCtl with seq := s.bootCtl.seq + 1, valid := true, active := s.get R.SEC_STS_SLOT }) ∧
      (s.get R.SEC_STS_STAGE ≠ 1 ∨ s.bootCtl.active ≠ s.get R.SEC_STS_SLOT → tells s.fwAdvance 0xA7) ∧
      (s.get R.SEC_STS_STAGE = 1 → s.bootCtl.active = s.get R.SEC_STS_SLOT → tells s.fwAdvance 0 ∧
        s.fwAdvance.get R.SEC_STS_SVN_FLOOR = max (s.get R.SEC_STS_SVN_FLOOR) (s.get R.SEC_STS_FW_SVN)) ∧
      -- a report by register
      (∀ via, s.get R.SEC_STS_QUOTE_BUSY = 0 → s.get R.SEC_STS_LIFECYCLE = 1 →
        let nonce := (List.range 4).flatMap fun i => leBytes 8 (s.reg (R.SEC_NONCE i)).toNat
        (s.quoteGo via).mem = s.mem ∧ (s.quoteGo via).x = s.x ∧ ∀ i, i < 40 → ((s.quoteGo via).reg (R.SEC_REPORT i)).toNat =
          nw (wordsOf 40 (s.report (s.time (viaPort via)) (viaPort via) 0 true nonce)) i % 2 ^ 64) ∧
      -- key-store writes
      (∀ op slot, 1 ≤ op →
        let k := s.keyStore.after op slot s.ksIn
        let refused (code : Nat) : Prop := (s.ksStart op slot).get R.SEC_KS_STS_CHK = code ∧ (s.ksStart op slot).se = s.se ∧
          (s.ksStart op slot).get R.SEC_ERR_KS_REFUSED = 1
        (s.get R.PWR_STS_NV_OK = 0 → refused 0xA8) ∧ (s.get R.PWR_STS_NV_OK = 1 → k = none → refused 0xA9) ∧
        (s.get R.PWR_STS_NV_OK = 1 → k ≠ none → s.get R.SEC_KS_STS_BUSY = 1 → refused 0xAA) ∧
        (s.get R.PWR_STS_NV_OK = 1 → k ≠ none → s.get R.SEC_KS_STS_BUSY = 0 →
          s.ksStart op slot = { s.put R.SEC_KS_STS_BUSY 1 with se := { s.se with writing := k } }))) ∧
    (∀ via n op slot, s.get R.SEC_CTL_EN = 0 →
      s.fwStart n = s ∧ s.fwConfirm = s ∧ s.fwAdvance = s ∧ s.quoteGo via = s ∧ s.ksStart op slot = s) ∧
    (∀ w, s.se.writing = none → exec (.ksWriteDone w) s = .next s) ∧
    (∀ k, s.se.writing = some k →
      (∃ u, exec (.ksWriteDone true) s = .next u ∧ u.keyStore = { k with seq := s.keyStore.seq + 1, valid := true } ∧ u.se.writing = none ∧
        u.get R.SEC_KS_STS_BUSY = 0 ∧ u.get R.SEC_KS_STS_CHK = 0 ∧ u.mem = s.mem) ∧
      (∃ u, exec (.ksWriteDone false) s = .next u ∧ u.keyStore = s.keyStore ∧ u.se.writing = none ∧ u.get R.SEC_KS_STS_BUSY = 0 ∧
        u.get R.SEC_KS_STS_CHK = 0xA8 ∧ u.get R.SEC_ERR_BFW_FAIL = 1 ∧ u.mem = s.mem))

/-! ## Requests, steps and host messages (10, 13, 15) -/

/-- PROMPT_PACK, SPLICE_MASK_SEND, SPLICE_AGREE and SPLICE_BUILD: a shard's re-scored candidates become pairs and a slot; a prompt is planned
in its template's slots under its budget from what its gather left, and a fixed part over the budget ends the request with LENGTH_LIMIT; a
stage's mask marks the passages whose entries it has read; with every stage's mask the row takes the blocks of the passages that all agree
on; a passage that qualifies, with room in the store, gets its entry: blocks, header, directory slot, in that order. -/
def Obligations.PromptsArePackedAndSpliced : Prop :=
  (∀ (s : State) (h i : Nat) (b : Batch) (r : Row) (m : ModelSet) (tag : Nat),
    s.rowOf h i = some (b, r) → s.sv.model = some (m, tag) → r.live = true →
    (∀ (gather : Nat) (arrived : List (Nat × List Nat)) (g : GatherRes), r.packed = false → b.fed = false → b.step = 0 → r.plan = [] →
      s.gatherOf b r gather = some g →
      let x := exec (.promptPack h i none gather arrived) s
      let t := templateOf m r.req.pack.template
      let q := s.question r.req
      let f := fixedLen t q.1.length
      let got := g.ids.map fun p => (p, s.tokensOf r.req.iset arrived p)
      let ps := got.map fun p => (p.1, p.2.getD [])
      let p := planOf t r.req.pack q.1.length (ps.map fun p => (p.1, p.2.length))
      (f ≤ r.req.pack.budget → (∃ p, p ∈ got ∧ p.2 = none) → x = .next s) ∧
      (f ≤ r.req.pack.budget → (∀ p, p ∈ got → p.2 ≠ none) → ∃ u b' r', x = .next u ∧ u.rowOf h i = some (b', r') ∧ r'.plan = p.1 ∧
        r'.valid = p.2 ∧ r'.packed = (!r.req.splices || p.1.isEmpty) ∧ r'.sum.packed = p.1.length ∧ r'.sum.prompt = p.2 ∧
        r'.sum.prefilled = p.2 - (if r.req.gen.variant = 0 then prefixLen t else 0) ∧ r'.sum.reranked = g.scored ∧
        r'.short = g.short ∧ r'.truncated = q.2 ∧ r'.live = true ∧
        r'.prompt = s.promptToks t q.1 ((if r.req.pack.lastFirst then p.1.reverse else p.1).map fun e =>
          (((ps.find? fun y => y.1 == e.1).map (·.2)).getD []).take e.2.2.1)) ∧
      (r.req.pack.budget < f → s.mirrors b = false → (s.sv.batches.map (·.1)).Pairwise (· < ·) → ∃ u : State, x = .next u ∧
        ∀ b' r', u.rowOf h i = some (b', r') → r'.live = false ∧ r'.status = 2)) ∧
    (∀ p : PlanIn, p.home = s.ownAddr → r.plan ≠ [] → (s.stageOf s.ownAddr).isSome = true →
      let k := kvKey s.ownAddr h i
      let x := exec (.spliceMaskSend h i p) s
      ((∃ q, s.kvOf k = some q ∧ q.mask ≠ none) → x = .next s) ∧
      ((∀ q, s.kvOf k = some q → q.mask = none) → ∃ u q, x = .next u ∧ u.kvOf k = some q ∧ q.plan = r.plan ∧ q.placed = !r.req.splices ∧
        q.mask = some (maskOf (tkeys q.fetched)) ∧ u.mem = s.mem ∧ (r.req.splices = false → q.fetched = []) ∧
        ∀ j bs, (j, bs) ∈ q.fetched → ∃ e slot unit, r.plan[j]? = some e ∧ s.dirLookup m e.1 = some (slot, unit, e.2.2.2) ∧
          s.headerOk m unit e.1 e.2.2.2 = true ∧ bs = s.vrun spModule (unitVa m unit + 4096) (s.blockLen m e.2.2.2))) ∧
    (∀ stages masks : List Nat, r.packed = false → r.plan ≠ [] →
      let own := ((s.kvOf (kvKey s.ownAddr h i)).bind (·.mask)).toList
      let agreed := (own ++ masks).foldl (· &&& ·) (2 ^ r.plan.length - 1)
      let spliced := (List.range r.plan.length).filter (splicedAt r.plan r.req.pack.b agreed)
      let x := exec (.spliceAgree s.ownAddr h i b.ten stages masks) s
      (own.length + masks.length ≠ s.stages.length ∨ stages ≠ s.otherStages → x = .next s) ∧
      (own.length + masks.length = s.stages.length → stages = s.otherStages → ∃ u b' r', x = .next u ∧ u.rowOf h i = some (b', r') ∧ r'.packed = true ∧
        r'.agreed = some agreed ∧ r'.sum.spliced = spliced.length ∧ r'.plan = r.plan ∧ r'.sum.packed = r.sum.packed ∧
        r'.sum.prefilled = r.sum.prefilled - lsum (spliced.map fun j => (reused r.plan r.req.pack.b agreed j).length) ∧
        (agreed = 0 → u.mem = s.mem)))) ∧
  (∀ (s : State) (home h i : Nat) (m : ModelSet) (tag : Nat) (q : KvReq) (stages masks : List Nat), s.sv.model = some (m, tag) →
    home ≠ s.ownAddr → s.kvOf (kvKey home h i) = some q →
    let all := q.mask.toList ++ masks
    (all.length = s.stages.length → stages = s.otherStages → q.placed = false → q.mask ≠ none →
      exec (.spliceAgree home h i q.ten stages masks) s =
      .next (s.placeSpliced m (kvKey home h i) q.plan q.b (agreedMask q.plan.length all))) ∧
    (all.length ≠ s.stages.length ∨ stages ≠ s.otherStages ∨ q.placed = true ∨ q.mask = none →
      exec (.spliceAgree home h i q.ten stages masks) s = .next s)) ∧
  (∀ (s : State) (h i gather : Nat) (arrived : List (Nat × List Nat)) (k : RankIn) (c : Cmd) (m : ModelSet) (tag : Nat),
    s.cmd k.rescored = some c → s.sv.model = some (m, tag) →
    let es := s.rerankIn c k.perShard
    let slot := s.rerankSlot c k.perShard k.scores
    let x := exec (.promptPack h i (some k) gather arrived) s
    (c.scanned k.ten 2 = false ∨ k.perShard = 0 ∨ k.scores.length ≠ es.length → x = .next s) ∧
    (c.scanned k.ten 2 = true → 1 ≤ k.perShard → k.perShard ≤ bits (c.body 1) 6 12 + 1 → k.scores.length = es.length → k.area = none →
      s.access .unit k.ten [] [(k.slot, slot.length)] = .ok → ∃ u, x = .next u ∧ u.sv.pairs.length = es.length ∧
        (∀ (j : Nat) (e : Cand), es[j]? = some e → ∃ pass : List Nat, u.sv.pairs[j]? = some (rerankPair m.rerank k.question pass) ∧
          ∀ ts, s.passageToks (bits (c.body 1) 0 6) e.id = some ts → pass = ts) ∧
        u.x.serial = s.x.serial + 1 ∧
        (memWf s.mem = true → s.dkey k.ten k.slot + slot.length ≤ key 128 0 → u.run (s.dkey k.ten k.slot) slot.length = slot)) ∧
    -- a pair has at most 1,024 tokens, the question 512 of them (R259)
    (∀ (runs : List Nat × List Nat × List Nat) (q p : List Nat), runs.1.length + runs.2.1.length + runs.2.2.length ≤ 512 →
      (rerankPair runs q p).length ≤ 1024 ∧ (runs.1 ++ q.take 512 ++ runs.2.1).isPrefixOf (rerankPair runs q p) = true)) ∧
  (∀ (s : State) (p n unit upto : Nat) (victim : Option Nat) (data : List Byte) (m : ModelSet) (tag : Nat), s.sv.model = some (m, tag) →
    let x := exec (.spliceBuild p n ⟨unit, upto, victim⟩ data) s
    (s.nvOk = false ∨ n ≤ 64 ∨ 65535 < n ∨ data.length ≠ s.blockLen m n ∨ s.buildPlan m p n unit victim = none → x = .next s) ∧
    (∀ plan, s.buildPlan m p n unit victim = some plan → data.length = s.blockLen m n →
      let steps := s.buildSteps m p n unit plan data
      (∀ w, w ∈ steps.flatten → s.storeDst spModule w.1 w.2.length [] = none) →
      x = .next ((steps.take upto).foldl State.progStep s) ∧
      (5 ≤ upto → memWf s.mem = true → plan.gone = [] →
        dirSlot m plan.slot + 16 ≤ entryKey m unit ∨ entryKey m unit + 4096 + data.length ≤ dirSlot m plan.slot →
        entryKey m unit + 4096 + data.length ≤ key 128 0 → dirSlot m plan.slot + 16 ≤ key 128 0 → ∃ u, x = .next u ∧
        u.run (entryKey m unit + 4096) data.length = data ∧ u.run (entryKey m unit) 32 =
          bytesOf [p % 2 ^ 40 + n * 2 ^ 40 + 2 ^ 56, s.modelTag, s.firstLayer m + s.ownLayers.length * 2 ^ 8, 0] ∧
        u.run (dirSlot m plan.slot) 16 = bytesOf [p % 2 ^ 40 + 2 ^ 40, unit + n * 2 ^ 32] ∧ u.x.serial = s.x.serial + 3)))

/-- STEP_FEED_SEND, DRAFT_PROPOSE, SAMPLE_DECIDE and STEP_COMMIT: a ready batch is fed with what its rows' grammar steps report, held
while output backs up; the sampling module draws a row's proposals and decides its tokens as a step record under a new serial; a step
commits once every live row has its record: the batch's next step may be fed, and where no row ends each has what its record counts. -/
def Obligations.StepsFeedDecideAndCommit : Prop :=
  ∀ (s : State) (h : Nat) (b : Batch), s.batch h = some b →
    (∀ grms : List (Nat × Nat),
      let x := exec (.stepFeedSend h grms) s
      let may : Prop := b.ready = true ∧ b.stepWait = none ∧ s.mayRun b.ten = true ∧ s.isolated = false ∧ s.grmReady b grms = true
      (¬ may → x = .next s) ∧
      (may → s.heldBack b = true → x = .next (s.raise (R.HST_ERR_BACKLOG_HOLD (b.qp / 256)) (some b.ten))) ∧
      (may → s.heldBack b = false → ∃ u b', x = .next u ∧ u.batch h = some b' ∧ b'.fed = true ∧ b'.step = b.step ∧
        ∀ (i : Nat) (r : Row), b.rows[i]? = some r → b'.rows[i]? = some (if r.live then
          { r with stepRec := none, grm := (s.fedRow b i r grms).grm, feed := (s.fedRow b i r grms).feed } else r) ∧
          (r.req.gen.grammarEn = false → (s.fedRow b i r grms).feed = none))) ∧
    (∀ (i : Nat) (r : Row), b.rows[i]? = some r → r.live = true → s.samples = true →
      (∀ logits : List (List Nat), 0 < b.step → b.fed = false → exec (.draftPropose h i ⟨none, logits⟩) s = .next (s.setRow h i fun x => { x with
        props := propose r.req.gen (b.seed r) r.generated (logits.take (proposalCount r.req.gen r.draftLen r.probeWait r.generated)) 0 })) ∧
      (∀ (pos : List PosIn) (routes : List RouteIn), b.fed = true → s.isolated = false → r.stepRec = none → positionsOf r ≤ pos.length →
        let v := stepVerdict b r pos
        ∃ u b' r' k, exec (.sampleDecide h i ⟨none, routes, pos⟩) s = .next u ∧ u.rowOf h i = some (b', r') ∧ r'.stepRec = some k ∧ k.row = i ∧
          k.tokens = v.tokens.take 9 ∧ k.accepted = v.accepted ∧ k.wide = v.wide ∧ k.numeric = v.numeric ∧ k.gen = r.generated ∧
          k.step = b.step ∧ k.serial = u.x.serial ∧ s.x.serial < u.x.serial ∧
          (routes = [] → u.x.serial = s.x.serial + 1 ∧ u.mem = s.mem) ∧
          -- the output of a mixture-of-experts token in place (R332)
          (∀ m tag y, s.sv.model = some (m, tag) → routes = [y] → memWf s.mem = true →
            s.dkey b.ten y.va + (moeRow m y).length ≤ key 128 0 → u.run (s.dkey b.ten y.va) (moeRow m y).length = moeRow m y))) ∧
    -- a row homed elsewhere: its proposals and its step record go to its home
    (∀ (far : RemoteRow) (i : Nat) (b' : Batch) (r : Row), s.sampledRow h i (some far) = some (b', r) → s.samples = true → r.live = true →
      (∀ logits : List (List Nat), 0 < b'.step → exec (.draftPropose h i ⟨some far, logits⟩) s =
        .next (s.stageOut [.proposals far.home h i ((propose r.req.gen (b'.seed r) r.generated
          (logits.take (proposalCount r.req.gen r.draftLen r.probeWait r.generated)) 0).map (·.1))])) ∧
      (∀ pos : List PosIn, s.isolated = false → r.stepRec = none → positionsOf r ≤ pos.length → (stepVerdict b' r pos).numeric = false →
        ∃ u : State, exec (.sampleDecide h i ⟨some far, [], pos⟩) s = .next u ∧ u.x.serial = s.x.serial + 1 ∧ u.mem = s.mem ∧
          u.sv = (s.stageOut [.record far.home h (s.stepRecord b' i r pos (s.x.serial + 1))]).sv)) ∧
    (b.stepWait = none → s.mirrors b = false →
      (b.decided = false → exec (.stepCommit h []) s = .next s) ∧
      (b.decided = true → (∀ e, e ∈ s.stepEnds b → e.2.ended = false ∧ e.2.row.onRing = false) →
        (s.sv.batches.map (·.1)).Pairwise (· < ·) → (∀ k b', (k, b') ∈ s.sv.batches → b'.order = b.order → k = h) →
        ∃ u b', exec (.stepCommit h []) s = .next u ∧ u.batch h = some b' ∧ b'.step = b.step + 1 ∧ b'.fed = false ∧
          s.x.serial < u.x.serial ∧
          ∀ i e, (i, e) ∈ s.stepEnds b → ∃ r, b'.rows[i]? = some r ∧ r.generated = e.row.generated ∧ r.strm = e.row.strm ∧
            r.live = true ∧ r.stepRec = none ∧ r.feed = none))

/-- BATCH, CANCEL, STATUS_QUERY and HELLO, on a connected request pair: a BATCH that fails a check of Table 15.8 is answered REFUSED with the
first cause and row, and counted; one that passes becomes a batch under a free handle; a CANCEL without its batch is
counted, else it cancels the rows it names; a query is answered with the batch's standing; a HELLO fixes the version. -/
def Obligations.HostMessagesAreAnswered : Prop :=
  ∀ (s : State) (q : Nat) (m : List Byte), q < 1024 → s.requestPair q = true →
    let ten := s.get (qpReg R.HST_QP_TEN q)
    let ver := s.get (qpReg R.HST_QP_VER q)
    let port := q / 256
    (∀ ahead, mType m = 2 →
      (∀ cause row, s.admission q ahead m = .error (cause, row) → exec (.batch q ahead m) s =
        .next ((s.bump (R.HST_CNT0_REFUSED port) 1).reply q ver 0x82 (mId m) [cause + row * 2 ^ 8, s.time port])) ∧
      (∀ secs, s.admission q ahead m = .ok secs → s.mirroring = false → ∃ u b, exec (.batch q ahead m) s = .next u ∧
        s.batch s.freeHandle = none ∧ u.batch s.freeHandle = some b ∧ b.ten = ten ∧ b.id = mId m ∧ b.qp = q ∧ b.ver = mVer m ∧
        b.level = (batchSched m).1 ∧ b.ttft = (batchSched m).2.1 ∧ b.tbt = (batchSched m).2.2 ∧ b.stamp = s.time port ∧
        b.order = s.sv.nextOrder ∧ b.step = 0 ∧ b.msg = m ∧ b.rows.length = secs.length ∧ u.sv.nextOrder = s.sv.nextOrder + 1)) ∧
    (mType m = 3 →
      (s.verOk q m = false → exec (.cancel q m) s = .next (s.raise (R.HST_ERR_BAD_VERSION port) none)) ∧
      (s.verOk q m = true → s.batchById ten (mId m) = none → exec (.cancel q m) s = .next (s.bump (R.HST_CNT1_CANCEL_MISS port) 1)) ∧
      (s.verOk q m = true → ∀ h b, s.batchById ten (mId m) = some (h, b) →
        exec (.cancel q m) s = .next (s.cancelRows h (w64 m 0x10)))) ∧
    (∀ (h mask : Nat) (b : Batch) (i : Nat) (r : Row), s.batch h = some b → s.mirrors b = false → b.fed = true → b.rows[i]? = some r →
      r.live = true → mask.testBit i = true → r.cancel = none →
      ∃ b' r', (s.cancelRows h mask).batch h = some b' ∧ b'.rows[i]? = some r' ∧ r' = { r with cancel := some (s.x.serial + 1) }) ∧
    (mType m = 4 → s.verOk q m = true →
      (bits (w64 m 0x10) 0 8 = 0 → ∀ h b, s.batchById ten (mId m) = some (h, b) → exec (.statusQuery q m) s =
        .next (s.reply q (mVer m) 0x86 (mId m) ([1 + h * 2, maskOf b.liveRows, b.step % 2 ^ 32] ++ b.statusWords))) ∧
      (bits (w64 m 0x10) 0 8 = 0 → s.batchById ten (mId m) = none →
        exec (.statusQuery q m) s = .next (s.reply q (mVer m) 0x86 (mId m) [0, 0, 0, 0, 0, 0])) ∧
      (bits (w64 m 0x10) 0 8 = 1 → exec (.statusQuery q m) s =
        .next (s.reply q (mVer m) 0x86 (mId m) [(s.reg (R.SCH_TEN_STS ten)).toNat, (s.reg (R.SCH_TEN_LATE ten)).toNat]))) ∧
    (mType m = 1 →
      let v := min (bits (w64 m 0x10) 8 8) 3
      (ver ≠ 0 → (∃ h b, (h, b) ∈ s.sv.batches ∧ b.qp = q) → exec (.hello q m) s = .next (s.helloReply q ver)) ∧
      ((∀ p, p ∈ s.sv.batches → p.2.noQp = false) → (∀ b, b ∈ s.sv.tails → b.noQp = false) → ver = 0 →
        (2 ≤ v → bits (w64 m 0x10) 0 8 ≤ v → ∃ u, exec (.hello q m) s = .next u ∧ u.get (qpReg R.HST_QP_VER q) = v ∧
          u.ho.hellos = q :: s.ho.hellos.filter (· != q)) ∧
        (v < bits (w64 m 0x10) 0 8 → ∃ u, exec (.hello q m) s = .next u ∧ u.get (qpReg R.HST_QP_VER q) = 0 ∧
          u.ho.hellos = s.ho.hellos.filter (· != q))))

/-! ## The scheduler and the host ports (02, 14, 15) -/

/-- PORT_DEADLINE, PCS_LOCK_LOST and PCS_LOCK_GAINED, SLICE_END, EARLY_SLICE_END, ROTA_IDLE_RESUME, REBIND_COMPLETE and TENANCY_FREE: a
deadline that port time has reached is taken off; a slice ends at its deadline, or early for the waiting member of lowest level number, and
the next begins, shorter by its member's charge, or the rota idles; a re-bind ends once what it names is quiet; a closed tenancy's pages,
streams and units are released. -/
def Obligations.SchedulerEventsTakeEffect : Prop :=
  ∀ s : State,
    (∀ port v, port < 20 →
      ((port, v) ∈ s.pt.deadlines → v ≤ s.time port → ∃ u, exec (.portDeadline port v) s = .next u ∧
        u.pt = { s.pt with deadlines := s.pt.deadlines.erase (port, v) } ∧ u.sv = s.sv) ∧
      (s.time port < v → exec (.portDeadline port v) s = .next s) ∧
      (port ∈ s.pt.locked → exec (.pcsLockLost port) s = .next (s.setLock port false)) ∧
      (port ∉ s.pt.locked → s.powered (portDomain port) = true → s.pw.absent.contains (edgeClock port) = false →
        exec (.pcsLockGained port) s = .next ((s.retrain port).setLock port true)) ∧
      -- after its reference has stopped, the port trains again: its crossing is reset and its quarantine ends (R559, R560)
      ((s.crossing port).stopped = false → s.retrain port = s) ∧
      ((s.crossing port).stopped = true → (s.retrain port).crossing port = {} ∧ (s.retrain port).mem = s.mem) ∧
      (∀ on, (s.setLock port on).pt = { s.pt with locked := if on then addNew s.pt.locked port else s.pt.locked.erase port } ∧
        (port < 4 → (s.setLock port on).get (R.HST_STS_LINK port) = on.toNat) ∧
        (4 ≤ port → (s.setLock port on).get (R.FAB_PORT_STS_LINK (port - 4)) = on.toNat))) ∧
    (∀ rota, isRota rota = true →
      let h := s.rotaHolder rota
      (∀ e, tfind s.sc.ends rota = some e →
        let w := s.endSlice rota e
        let next := (w.rotaOrder rota h).find? w.hasWork
        (s.time (s.tenPort h) < e → exec (.sliceEnd rota) s = .next s) ∧
        (e ≤ s.time (s.tenPort h) → ∀ m, next = some m → ∃ u, exec (.sliceEnd rota) s = .next u ∧ tfind u.sc.ends rota =
          some (e + (w.get (R.SCH_TEN_SLICE_SLICE m) * 1000 - w.get (R.SCH_TEN_OVERRUN_CHARGE m))) ∧
          (rota < 16 → u.get (R.SCH_ROTA_STS_HOLDER rota) = m)) ∧
        (e ≤ s.time (s.tenPort h) → next = none →
          exec (.sliceEnd rota) s = .next (if rota < 16 then w.put (R.SCH_ROTA_STS_IDLE rota) 1 else w)) ∧
        (rota < 16 → s.get (R.SCH_ROTA_CTL_PREEMPT_EN rota) = 1 →
          let waits (m l : Nat) : Prop := m ∈ s.rotaOrder rota h ∧ m ≠ h ∧ s.readyLevel m false = some l ∧
            l ≤ s.get (R.SCH_ROTA_CTL_PREEMPT_LEVEL rota) ∧ l < (s.readyLevel h true).getD 8
          ((∀ m l, ¬ waits m l) → exec (.earlySliceEnd rota) s = .next s) ∧
          ((∃ m l, waits m l) → ∃ m l, waits m l ∧ (∀ m' l', waits m' l' → l ≤ l') ∧ exec (.earlySliceEnd rota) s =
            .next ((s.endSlice rota (s.time (s.tenPort h))).beginSlice rota m (s.time (s.tenPort h)))))) ∧
      (tfind s.sc.ends rota = none →
        (∀ m, (s.rotaOrder rota h).find? s.hasWork = some m →
          exec (.rotaIdleResume rota) s = .next (s.beginSlice rota m (s.time (s.tenPort m)))) ∧
        ((s.rotaOrder rota h).find? s.hasWork = none → exec (.rotaIdleResume rota) s = .next s))) ∧
    (∀ r, s.sc.rebind = some r →
      (s.rebindQuiet r = false → exec .rebindComplete s = .next s) ∧
      (s.rebindQuiet r = true →
        let p := s.rebindAll r
        exec .rebindComplete s = .next (({ p.1.rebindAmounts r with sc := { p.1.sc with rebind := none } } : State).rebindDone r p.2)) ∧
      (r.via = .steward → ∀ code, (s.rebindDone r code).get R.SCH_REBIND_STS_BUSY = 0)) ∧
    (∀ ten, ten < 64 → s.get (R.SCH_TEN_STS_STATE ten) = 4 → s.hasBatch ten = false → s.tw.leaving.contains ten = false →
      let w := (s.releaseUnits ten).unbind ten
      (w.quiet ten = false → exec (.tenancyFree ten) s = .next w) ∧
      (w.quiet ten = true → (w.vm.pages.map (·.1)).Pairwise (· < ·) → ∃ u, exec (.tenancyFree ten) s = .next u ∧
        u.get (R.SCH_TEN_STS_STATE ten) = 0 ∧ (∀ p, p ∈ u.vm.pages → p.1 / 2 ^ 35 ≠ ten) ∧
        ∀ p, p ∈ u.tx.streams → p.2.ten ≠ ten))

/-- RDMA_WRITE, RDMA_READ_REQUEST and CW_RDMA_WRITE on a connected pair: a key without the port's salt or of a region that is not the
pair's is refused; a write of the pair's tenancy is one commit and then its acknowledgement, a read returns the bytes there; one that meets
a page it cannot reach waits; a manager's write to the window writes its registers a word at a time, and to the stage region its bytes. -/
def Obligations.HostAccessesReadAndWrite : Prop :=
  ∀ (s : State) (q rkey va : Nat), q < 1024 → s.connected q = true →
    let region := rkey % 256
    (s.keyOk q rkey = false ∨ (64 ≤ region ∧ region ≠ 0x80 ∧ region ≠ 0x81) →
      (∀ data, exec (.rdmaWrite q rkey va data) s = .next (s.refuseAccess q)) ∧
      (∀ n, exec (.rdmaReadRequest q rkey va n) s = .next (s.refuseAccess q))) ∧
    (s.keyOk q rkey = true → region < 64 →
      let mine (n : Nat) : Prop := s.requestPair q = true ∧ s.get (qpReg R.HST_QP_TEN q) = region ∧ va + n ≤ 2 ^ 56
      (∀ data : List Byte,
        let n := data.length
        let o : HostOp := ⟨q, rkey, va, n, data, false⟩
        let x := exec (.rdmaWrite q rkey va data) s
        (¬ mine n → x = .next (s.refuseAccess q)) ∧
        (mine n → s.pw.absent.contains 5 = true → x = .next (s.holdOp o)) ∧
        (mine n → s.pw.absent.contains 5 = false → s.access .unit region [] [(va, n)] = .ok →
          let w := (s.dropHeld o).accessHeat (s.granules region [(va, n)]) (s.homeLines region [(va, n)])
          x = .next ((w.commitPeer (w.spread region va data)).hostOut (.ack q)))) ∧
      (∀ n : Nat,
        let o : HostOp := ⟨q, rkey, va, n, [], true⟩
        let x := exec (.rdmaReadRequest q rkey va n) s
        (s.ho.held = [] → ¬ mine n → x = .next (s.refuseAccess q)) ∧
        (s.ho.held = [] → mine n → s.pw.absent.contains 5 = false → s.access .unit region [(va, n)] [] = .ok →
          s.poolParts .unit region [(va, n)] = [] →
          x = .next (((s.dropHeld o).accessHeat (s.granules region [(va, n)]) (s.homeLines region [(va, n)])).hostOut
            (.readData q (s.vrun region va n)))) ∧
        (s.ho.held = [] → mine n → s.pw.absent.contains 5 = false → ∀ ps, s.access .unit region [(va, n)] [] = .fault ps →
          x = .next ((s.holdOp o).awaitPages ps)))) ∧
    (s.keyOk q rkey = true → s.manager q = true →
      (∀ data : List Byte,
        let words := wordsOf (data.length / 8) data
        (region = 0x81 → va + data.length ≤ 2 ^ 30 →
          exec (.rdmaWrite q rkey va data) s = .next ((s.writeRun (key spStage va) data).hostOut (.ack q))) ∧
        (region = 0x80 → va + data.length ≤ 2 ^ 26 → va % 8 = 0 → data.length % 8 = 0 → data.length ≤ 4096 →
          exec (.cwRdmaWrite q rkey va data) s = .next ((s.cwWords q va words).hostOut (.ack q)) ∧
          exec (.rdmaWrite q rkey va data) s = .next ((s.cwWords q va words).hostOut (.ack q)))) ∧
      (∀ n, region = 0x80 → va + n ≤ 2 ^ 26 → va % 8 = 0 → n % 8 = 0 → n ≤ 4096 → exec (.rdmaReadRequest q rkey va n) s =
        .next (s.hostOut (.readData q (bytesOf ((List.range (n / 8)).map fun i => s.view (va + 8 * i)))))) ∧
      (∀ n, region = 0x81 → va + n ≤ 2 ^ 30 →
        exec (.rdmaReadRequest q rkey va n) s = .next (s.hostOut (.readData q (s.run (key spStage va) n)))))

/-- The transport of a queue pair: a connection is answered and its RTU connects it; an acknowledgement frees the messages up to it and a
NAK sends the rest again; seven timeouts, then the pair is lost; an RNR refusal waits 10 µs, and one too many is reported; marks, CNPs and
pauses change the rate and hold what is to be sent; a ring's consumer word is asked for again after 2 µs. -/
def Obligations.QueuePairsAcknowledgeAndRecover : Prop :=
  ∀ (s : State) (q : Nat), q < 1024 →
    let p := s.qpOf q
    let port := q / 256
    let now := s.time port
    let conn := s.connected q = true
    (∀ n, conn → n < p.next →
      exec (.roceAcknowledge q n false) s = .next ((s.setQp q { p with retries := 0, rnr := 0, rnrAt := none, exhausted := false }).ackBelow q (n + 1)) ∧
      exec (.roceAcknowledge q n true) s = .next ((s.ackBelow q n).resend q)) ∧
    (∀ n, ((s.ackBelow q n).qpOf q).sent = p.sent.filter fun m => decide (n ≤ m.seq)) ∧
    (conn → p.sent ≠ [] → s.sendHeld q = false → p.sentAt + 131000 ≤ now →
      (p.retries < 7 → exec (.roceAckTimeout q) s = .next ((s.setQp q { p with retries := p.retries + 1 }).resend q)) ∧
      (7 ≤ p.retries → exec (.roceAckTimeout q) s = .next (s.loseQp q 3))) ∧
    (s.get (qpReg R.HST_QP_STATE q) ≠ 0 → ∀ err, exec (.qpLost q err) s = .next (s.loseQp q (if err && s.connected q then 3 else 0))) ∧
    (conn → s.sv.batches = [] → s.sv.tails = [] → ∃ u, exec (.qpLost q true) s = .next u ∧ u.get (qpReg R.HST_QP_STATE q) = 3 ∧
      u.ho.qps = tdel s.ho.qps q ∧ u.ho.hellos = s.ho.hellos.filter (· != q)) ∧
    (∀ seq m, conn → p.sent.find? (fun m => m.seq == seq) = some m → m.kind ≠ 0x83 → ∃ u, exec (.rnrNak q seq) s = .next u ∧
      (u.qpOf q).rnrAt = some now ∧ (u.qpOf q).rnr = min 8 (p.rnr + 1) ∧ (u.qpOf q).sent = p.sent.filter fun m => decide (seq ≤ m.seq)) ∧
    (∀ t, p.rnrAt = some t →
      (t + 10000 ≤ now → exec (.rnrTimerExpiry q) s = .next ((s.setQp q { p with rnrAt := none }).resend q)) ∧
      (now < t + 10000 → exec (.rnrTimerExpiry q) s = .next s)) ∧
    (∀ m ms, p.sent = m :: ms → m.kind = 0x83 → 8 ≤ p.rnr → p.exhausted = false → exec (.rnrRetryExhausted q) s =
      .next ((s.setQp q { p with exhausted := true }).raise (R.HST_ERR_RNR_EXHAUSTED port) (s.qpTen q))) ∧
    (conn → exec (.cnpReceive q) s = .next (s.setQp q { p with rate := max 1000000 (p.rate / 2), cnpAt := now })) ∧
    (conn → p.cnpSent = none → exec (.ecnMarkedReceive q) s = .next ((s.setQp q { p with cnpSent := some now }).hostOut (.cnp q))) ∧
    (conn → ∀ t, p.cnpSent = some t → exec (.ecnMarkedReceive q) s =
      if t + 50000 ≤ now then .next ((s.setQp q { p with cnpSent := some now }).hostOut (.cnp q)) else .next s) ∧
    (conn → p.cnpAt + 55000 ≤ now → p.rate < 200000000 →
      exec (.rateRecovery q) s = .next (s.setQp q { p with rate := min 200000000 (p.rate + 5000000), cnpAt := now })) ∧
    (s.get (qpReg R.HST_QP_STATE q) = 1 → exec (.cmRtu q) s = .next (s.put (qpReg R.HST_QP_STATE q) 2)) ∧
    (∀ ns, 0 < ns → s.get (R.HST_CTL_PFC_EN port) = 1 → exec (.pfcPauseReceive port (s.get (R.HST_CTL_PFC_PRIO port)) ns) s =
      .next { s with ho := { s.ho with paused := tset s.ho.paused port (now + ns) } }) ∧
    (∀ t, tfind s.ho.paused port = some t → t ≤ now → exec (.pfcPauseExpiry port) s = .next (s.unpause port)) ∧
    (exec (.hostFrameDrop port .oversize) s = .next (s.raise (R.HST_ERR_OVERSIZE port) none) ∧
      exec (.hostFrameDrop port .fec) s = .next (s.raise (R.HST_ERR_FEC_UNCORR port) none) ∧
      exec (.hostFrameDrop port .fcs) s = .next (s.raise (R.HST_ERR_FEC_UNCORR port) none) ∧
      (conn → exec (.hostFrameDrop port (.unsupported q)) s = .next ((s.raise (R.HST_ERR_UNSUPPORTED port) (s.qpTen q)).hostOut (.nak q 0)))) ∧
    (∀ remote priv, s.get (R.HST_CTL_EN port) = 1 → bits priv 0 8 = 1 → bits priv 8 1 = 0 →
      let ten := bits priv 9 6
      (s.closing ten = true ∨ s.tenPort ten ≠ port → exec (.cmReq port remote priv) s = .next (s.hostOut (.cm port 1))) ∧
      (s.closing ten = false → s.tenPort ten = port → ∀ f, s.freeQp port = some f → exec (.cmReq port remote priv) s =
        .next ((((((s.put (qpReg R.HST_QP_STATE f) 1).put (qpReg R.HST_QP_ROLE f) 0).put (qpReg R.HST_QP_TEN f) ten).put
          (qpReg R.HST_QP_REMOTE_QPN f) remote).setQp f {}).hostOut (.cm port 0)))) ∧
    (∀ o i b r k t, s.batchByOrder o = some b → b.rows[i]? = some r → r.consAsked = some t → r.req.ringBlk = some k →
      (r.records ≠ [] → t + 2000 ≤ s.time (b.qp / 256) → exec (.ringConsPoll o i) s =
        .next ((s.askCons b.qp o i k).modRowOf o i fun r => { r with consAsked := some (s.time (b.qp / 256)) })) ∧
      (∀ v, r.records = [] → ∃ u, exec (.rdmaReadResponse o i v) s = .next u ∧
        ((∀ p, p ∈ s.ho.qps → (p.2.reads.take 4).contains (o, i) = false) → u.ho = s.ho) ∧
        u.sv.batches = tmap (fun _ x => if x.order = o then x.modRow i fun r =>
          if r.records.isEmpty then { r with cons := v % 2 ^ 64, consAsked := none } else { r with cons := v % 2 ^ 64 } else x) s.sv.batches))

/-! ## Images and programs (06, 13, 15, 20) -/

/-- HST_IMG_BEGIN, HST_IMG_CHUNK, HST_IMG_END, IMAGE_CHECK_DONE, PROGRAM_BIND, VARIANT_LOAD and VARIANT_REMOVAL: a load begins when none is in
progress, takes the staged bytes chunk by chunk, and ends with the check's verdict, its image kept on a pass; a program that a check refuses
answers its verdict and changes nothing else, one that passes is bound; a variant is removed once no live request names it. -/
def Obligations.ImagesAndProgramsLoad : Prop :=
  ∀ s : State,
    (∀ via, mayWrite s via → s.unitPowered .img 0 = true →
      (∀ k t, k < 4 → t < 64 → s.ho.img = none → s.get R.SEC_FW_STS_BUSY = 0 → ∃ u, exec (.hstImgBegin via k t) s = .next u ∧
        u.ho.img = some ⟨k, t, 0, false, false⟩ ∧ u.get R.HST_IMG_STS_ACTIVE = 1 ∧ u.get R.HST_IMG_STS_RECEIVED = 0 ∧
        u.get R.HST_IMG_STS_CHK = 0) ∧
      (∀ k t, s.ho.img.isSome = true → ∃ u, exec (.hstImgBegin via k t) s = .next u ∧ u.ho.img = s.ho.img ∧ u.mem = s.mem ∧
        u.get R.HST_IMG_STS_CHK = 0x7A) ∧
      (∀ l, s.ho.img = some l → l.ended = false →
        let n := s.get R.HST_IMG_LEN_BYTES
        (1 ≤ n → n ≤ 1073741824 → ∃ u, exec (.hstImgChunk via) s = .next u ∧
          u.ho.img = some { l with received := l.received + n, nv := l.nv || !s.nvOk } ∧
          u.mem = (s.writeRun (key spLoad l.received) (s.run (key spStage 0) n)).mem ∧ u.get R.HST_IMG_STS_CHK = 0) ∧
        (n = 0 → ∃ u, exec (.hstImgChunk via) s = .next u ∧ u.ho.img = some l ∧ u.mem = s.mem ∧ u.get R.HST_IMG_STS_CHK = 0x7A) ∧
        (∃ u, exec (.hstImgEnd via) s = .next u ∧ u.ho.img = some { l with ended := true } ∧ u.mem = s.mem ∧
          u.get R.HST_IMG_STS_CHK = 0))) ∧
    (∀ l content, s.ho.img = some l →
      let x := exec (.imageCheckDone content) s
      let bs := s.run (key spLoad 0) l.received
      let refused (code : Nat) : Ans := .next ((s.raise R.SEC_ERR_IMG_REFUSED none).imageDone l code)
      (l.ended = false → x = .next s) ∧
      (l.ended = true → l.nv = true → x = refused 0xA1) ∧
      (l.ended = true → l.nv = false → l.number = none → x = refused 0xA2) ∧
      (l.ended = true → l.nv = false → ∀ i, l.number = some i →
        (∀ code, s.loadImage i bs content false = .error code → x = refused code) ∧
        (∀ w, s.loadImage i bs content false = .ok w →
          let w := (w.clearRun (key (spImage i) 0) (2 ^ 56)).writeRun (key (spImage i) 0) bs
          x = .next (({ w with nv := { w.nv with images := tset w.nv.images i (l.received, content) } } : State).imageDone l 0))) ∧
      (∀ code, code < 256 → (s.imageDone l code).ho.img = none ∧ (s.imageDone l code).get R.HST_IMG_STS_ACTIVE = 0 ∧
        (s.imageDone l code).get R.HST_IMG_STS_CHK = code)) ∧
    (∀ ten port m, ten < 64 → port < 4 →
      let x := exec (.programBind ten port m) s
      let w := s.unbind ten
      (∀ v, s.ldrRefusal ten m = some v → x = .next (s.verdict v)) ∧
      (s.ldrRefusal ten m = none → (tfind w.x.progs ten).isSome = true → x = .next w) ∧
      (s.ldrRefusal ten m = none → tfind w.x.progs ten = none →
        x = .next ((w.bindProgram ten port m).verdict ⟨ten, 0, 0xFFFF, 0xFFFF, 0xFF, 0, 0⟩))) ∧
    (∀ v base size, 1 ≤ v → v ≤ 256 →
      let vs := tset s.en.variants v (base, size)
      let holds (p : Nat × Program) : Prop := s.ldr8 p.1 vs p.2.manifest = none ∧ s.ldr10 p.1 vs p.2.manifest = none
      ((∀ p, p ∈ s.x.progs → holds p) → exec (.variantLoad v base size) s = .next { s with en := { s.en with variants := vs } }) ∧
      ((∃ p, p ∈ s.x.progs ∧ ¬ holds p) → ∃ r, exec (.variantLoad v base size) s = .next (s.verdict r))) ∧
    (∀ v, (tfind s.en.variants v).isSome = true →
      let used : Prop := ∃ p r, p ∈ s.sv.batches ∧ r ∈ p.2.rows ∧ r.live = true ∧ r.req.gen.variant = v
      ∃ u, exec (.variantRemoval v) s = .next u ∧ u.sv.batches = s.sv.batches ∧
        (used → v ∈ u.sv.removing ∧ tfind u.en.variants v = tfind s.en.variants v) ∧
        (¬ used → v ∉ u.sv.removing ∧ tfind u.en.variants v = none))

/-! ## The fabric (16) -/

/-- The link of a fabric port: LINK_HELLO, LINK_ACK, TOPO, CREDIT and CARAVAN_FORWARD as they arrive, and the port's timers and losses. Three
hellos in a row declare a neighbour and put its port into routing; 100 µs without one, or the loss of the signal, takes it out; a caravan
not acknowledged for 2 µs is sent again; a TOPO record of a higher number replaces its origin's; a lane that fails is left out. -/
def Obligations.LinksKeepTheirNeighbours : Prop :=
  ∀ (s : State) (port : Nat), port < 16 →
    let now := s.ftime port
    let on : Prop := s.portInUse port = true
    let lit : Prop := s.get (R.FAB_PORT_STS_LINK port) = 1
    (∀ c, lands s port 1 c →
      let w := linked s port c
      let old := tget w.fa.nbrs port {}
      let same := decide (0 < old.count) && old.ident == nw c.words 0 && old.port == bits (nw c.words 1) 20 4
      let b : Nbr := ⟨nw c.words 0, bits (nw c.words 1) 0 20, bits (nw c.words 1) 20 4, (nw c.words 1).testBit 24,
        if same then old.count + 1 else 1, w.ftime port⟩
      let v : State := { w with fa := { w.fa with nbrs := tset w.fa.nbrs port b } }
      (b.count < 3 ∨ v.portUp port = true → exec (.linkHello port c) s = landed c v) ∧
      (3 ≤ b.count → v.portUp port = false → v.lanes port ≠ 0 → exec (.linkHello port c) s = landed c (v.declareNbr port b).returned) ∧
      (v.declareNbr port b).portUp port = true) ∧
    (∀ c, lands s port 2 c → exec (.linkAck port c) s = landed c (s.acked port c.lack)) ∧
    (∀ lack front x rest, tget s.fa.unacked port [] = front ++ x :: rest → x.2.lseq = lack → (∀ y, y ∈ front → y.2.lseq ≠ lack) →
      tget (s.acked port lack).fa.unacked port [] = rest) ∧
    (∀ c ident, lands s port 3 c →
      let w := linked s port c
      let origin := bits (nw c.words 0) 0 20
      let q := nw c.words 0 / 2 ^ 32
      (origin = s.ownAddr → ident < (s.reg R.MOD_IDENT).toNat → ∃ u, exec (.topo port c ident) s = .next u ∧ u.fa.withdrawn = true ∧
        u.get R.FAB_STS_ROUTED = 0) ∧
      (origin ≠ s.ownAddr → (∀ r, tfind s.fa.topo origin = some r → r.1 < q) → ∃ u, exec (.topo port c ident) s = .next u ∧
        tfind u.fa.topo origin = some (q, topoLinks c.words) ∧ u.get R.FAB_STS_RECOMPUTING = 1) ∧
      (origin ≠ s.ownAddr → (∃ r, tfind s.fa.topo origin = some r ∧ q ≤ r.1) → exec (.topo port c ident) s = landed c w)) ∧
    (∀ c, lands s port 4 c →
      let w := linked s port c
      let k := bits (carArg c 0) 0 6 * 2 ^ 20 + c.src
      exec (.credit port c) s = landed c { w with fa := { w.fa with
        credits := tset w.fa.credits k (carArg c 0 / 2 ^ 32, (tget w.fa.credits k (0, 0)).2) } }) ∧
    (∀ c, on → knownCar c = false → exec (.caravanForward port c) s = .next (s.raise R.FAB_ERR_FOREIGN_FRAME none) ∧
      (c.kind = 1 → exec (.linkHello port c) s = .next (s.raise R.FAB_ERR_FOREIGN_FRAME none))) ∧
    (∀ c, on → knownCar c = true → s.get (R.FAB_PORT_STS_ALIEN port) = 0 → s.forMe c = false → c.kind ≠ 2 →
      (c.lseq ≠ tget s.fa.rx port 0 → exec (.caravanForward port c) s = .next (s.acked port c.lack)) ∧
      (c.lseq = tget s.fa.rx port 0 → c.hop < 7 →
        exec (.caravanForward port c) s = .next ((linked s port c).route port { c with hop := c.hop + 1 })) ∧
      (c.lseq = tget s.fa.rx port 0 → 7 ≤ c.hop →
        exec (.caravanForward port c) s = .next ((linked s port c).holdCar port { c with hop := c.hop + 1 }))) ∧
    (on → lit → s.timer (port * 4) + 10000 ≤ now → exec (.linkHelloTimer port) s = .next ((s.setTimer (port * 4) now).sendLink port 1
      [(s.reg R.MOD_IDENT).toNat, s.ownAddr + port * 2 ^ 20 + (if s.twinPort port then 2 ^ 24 else 0)])) ∧
    (∀ b, tfind s.fa.nbrs port = some b →
      (b.stamp + 100000 ≤ now → exec (.neighbourTimeout port) s = .next (s.neighbourLost port)) ∧
      (now < b.stamp + 100000 → exec (.neighbourTimeout port) s = .next s)) ∧
    (s.neighbourLost port).portUp port = false ∧
    (on → s.twinPort port = false → exec (.linkSignalLoss port) s = .next ((s.put (R.FAB_PORT_STS_LANES port) 0).neighbourLost port)) ∧
    (∀ t c rest, on → tget s.fa.unacked port [] = (t, c) :: rest → t + 2000 ≤ now → ∃ u, exec (.linkRetransmitTimer port) s = .next u ∧
      tget u.fa.unacked port [] = ((t, c) :: rest).map (fun p => (now, p.2)) ∧ u.get R.FAB_ERR_RETRANSMIT = 1) ∧
    (on → lit → tfind s.fa.nbrs port = none → s.timer (port * 4 + 2) + 1000000 ≤ now →
      exec (.alienTimeout port) s = .next ((s.put (R.FAB_PORT_STS_ALIEN port) 1).raise R.FAB_ERR_ALIEN none)) ∧
    (∀ lane, on → lane < 4 → (s.get (R.FAB_PORT_STS_LANES port)).testBit lane = true → ∃ u, exec (.laneFail port lane) s = .next u ∧
      (u.get (R.FAB_PORT_STS_FAILED port)).testBit lane = true ∧ u.get (R.FAB_PORT_STS_LANES port) = 0 ∧ u.portUp port = false) ∧
    (∀ lanes, s.mayRetrain port lanes = true →
      let w := s.retrained port lanes
      exec (.laneRetrainDone port lanes) s = .next ({ w with tw := { w.tw with los := w.tw.los.erase port } } : State).returned ∧
      w.get (R.FAB_PORT_STS_LANES port) = lanes ∧ w.get (R.FAB_PORT_STS_LINK port) = 1) ∧
    (on → exec (.fabricFrameDrop port true) s = .next (s.raise R.FAB_ERR_E2E_CRC none) ∧
      exec (.fabricFrameDrop port false) s = .next (s.raise R.FAB_ERR_FOREIGN_FRAME none)) ∧
    (∀ dst, let (bytes, p, stamp) := s.window dst
      (s.get R.FAB_CTL_EN = 1 → stamp + 10000 ≤ s.ftime p → exec (.injectWindowGrow dst) s = .next (s.setWindow dst (bytes + 65536))) ∧
      (s.ftime p < stamp + 10000 → exec (.injectWindowGrow dst) s = .next s) ∧
      ∀ n, (s.setWindow dst n).window dst = (n, s.echoPort dst, s.ftime (s.echoPort dst))) ∧
    (let ref := s.get R.ERR_CTL_REF_PORT
     s.get R.FAB_CTL_EN = 1 → s.timer 1000 + 100000000 ≤ s.time (s.timer 1001) →
       exec .topoRefreshTimer s = .next ((s.setTimer 1000 (s.time ref)).setTimer 1001 ref).flood) ∧
    (s.get R.FAB_STS_RECOMPUTING = 1 →
      let w := (s.put R.FAB_STS_RECOMPUTING 0).put R.FAB_STS_ROUTED (if s.fa.withdrawn then 0 else 1)
      let known := sortBy (fun a b => decide (a ≤ b)) w.known
      (s.get R.FAB_CTL_ROUTE_HOST = 1 → exec .routeRecomputeDone s = .next w) ∧
      (s.get R.FAB_CTL_ROUTE_HOST = 0 → known.length ≤ 16384 → exec .routeRecomputeDone s = .next ({ w with fa := { w.fa with
        rows := known.foldl (fun t d => (w.rowsFor d).foldl (fun t p => tset t p.1 p.2) t) [] } } : State).resendWaiting))

/-- Caravans that carry data to this module, and their answers: a read is answered with the bytes there; a write is staged, acknowledged
with its last caravan and applied as one commit when its WRITE_COMMIT arrives, or freed by WRITE_DISCARD; an atomic is one commit answered with the
old value; what the access rules forbid is answered REMOTE_PROTECTION; an answer completes the operation that its OP_ID names. -/
def Obligations.RemoteDataTakesEffectOnce : Prop :=
  ∀ (s : State) (port : Nat) (c : Car),
    let w := linked s port c
    let va := carArg c 0
    let op := carArg c 1 % 2 ^ 32
    let id := carArg c 0 % 2 ^ 32
    (lands s port 0x14 c →
      let n := carArg c 2 % 2 ^ 32
      (w.remoteAccess c.space c.ten c.src [(va, n)] [] = .ok → w.remoteParts c.space c.ten va n = [] → exec (.readReq port c) s = landed c
        ((carPieces (w.remoteRun c.space c.ten va n)).foldl (fun (s : State) p => s.answer c 0x15 [op, p.1] p.2) w)) ∧
      (w.remoteAccess c.space c.ten c.src [(va, n)] [] = .prot → exec (.readReq port c) s = landed c (w.answer c 0x15 [op + 0x41 * 2 ^ 32, 0] [])) ∧
      (∀ ps, w.remoteAccess c.space c.ten c.src [(va, n)] [] = .fault ps → exec (.readReq port c) s = waits c (w.awaitPages ps))) ∧
    (lands s port 0x16 c →
      let old := ofLe (w.remoteRun c.space c.ten va 8)
      (w.remoteAccess c.space c.ten c.src [(va, 8)] [(va, 8)] = .ok → exec (.atomic port c) s = landed c ((w.commitPeer
        [(w.remoteKey c.space c.ten va, leBytes 8 (atomicOp (bits (carArg c 1) 32 4) old (carArg c 2) (carArg c 3)))]).answer c 0x17 [op, old] [])) ∧
      (w.remoteAccess c.space c.ten c.src [(va, 8)] [(va, 8)] = .prot →
        exec (.atomic port c) s = landed c (w.answer c 0x17 [op + 0x41 * 2 ^ 32, 0] []))) ∧
    (lands s port 0x10 c →
      let emit := (carArg c 1).testBit 32
      let x := w.stagedWith c emit op
      let acc := w.remoteAccess x.space x.ten x.src [] (stagedRanges x)
      (268435456 < w.stagedBytes + c.data.length → ∀ last, exec (.write port c last) s = waits c w) ∧
      (w.stagedBytes + c.data.length ≤ 268435456 → exec (.write port c false) s = landed c (w.keepStaged emit x)) ∧
      (w.stagedBytes + c.data.length ≤ 268435456 → acc = .ok → emit = false →
        exec (.write port c true) s = landed c ((w.keepStaged false x).answer { c with ce := x.ce } 0x13 [op] [])) ∧
      (w.stagedBytes + c.data.length ≤ 268435456 → acc = .ok → emit = true →
        exec (.write port c true) s = landed c ((w.freeStaged true x.src op).commitPeer (w.stagedWrites x))) ∧
      (w.stagedBytes + c.data.length ≤ 268435456 → acc = .prot → emit = false → exec (.write port c true) s =
        landed c ((w.freeStaged false x.src op).answer { c with ce := x.ce } 0x13 [op + 0x41 * 2 ^ 32] []))) ∧
    (lands s port 0x11 c →
      (w.fa.staged.find? (fun x => x.src == c.src && x.op == id) = none → exec (.writeCommit port c) s = landed c w) ∧
      (∀ x, w.fa.staged.find? (fun x => x.src == c.src && x.op == id) = some x →
        w.remoteAccess x.space x.ten x.src [] (stagedRanges x) = .ok →
        exec (.writeCommit port c) s = landed c ((w.freeStaged false x.src id).commitPeer (w.stagedWrites x)))) ∧
    (lands s port 0x12 c → exec (.writeDiscard port c) s = landed c (w.freeStaged false c.src id)) ∧
    (∀ o, tfind s.fa.ops id = some o → o.dst = c.src →
      let e := w.echo c
      (lands s port 0x13 c → o.kind = 2 → carStatus c = 0 → exec (.writeAck port c) s =
        landed c (e.setDone o.ticket ⟨0, [o.total, o.hops], [.send none (e.newCar 0x11 1 o.dst c.ten c.space [id] [])]⟩)) ∧
      (lands s port 0x13 c → o.kind = 2 → carStatus c ≠ 0 →
        exec (.writeAck port c) s = landed c ((e.dropOp id).setDone o.ticket ⟨carStatus c, [], []⟩)) ∧
      (lands s port 0x17 c → o.kind = 3 → ∀ k, s.cmd o.ticket = some k → exec (.atomicResp port c) s =
        landed c ((e.dropOp id).setCmd o.ticket { k with done := some ⟨carStatus c, [carArg c 1, o.hops], []⟩, nkDone := true })) ∧
      (lands s port 0x15 c → o.kind = 1 → carStatus c ≠ 0 →
        exec (.readResp port c) s = landed c ((e.dropOp id).setDone o.ticket ⟨carStatus c, [], []⟩)) ∧
      (lands s port 0x15 c → o.kind = 1 → carStatus c = 0 →
        let got := insertBy (fun a b => decide (a.1 ≤ b.1)) (carArg c 1 % 2 ^ 32, c.data) o.got
        (lsum (got.map fun g => g.2.length) < o.total → exec (.readResp port c) s =
          landed c { e with fa := { e.fa with ops := tset e.fa.ops id { o with got := got } } }) ∧
        (o.total ≤ lsum (got.map fun g => g.2.length) → ∀ k, s.cmd o.ticket = some k → exec (.readResp port c) s =
          landed c ((e.dropOp id).setDone o.ticket ⟨0, [o.total, o.hops], [.write (key k.ten (k.body 2)) (got.flatMap (·.2))]⟩)))) ∧
    (lands s port 0x18 c →
      let table := bits (carArg c 0) 8 5
      let n := bits (carArg c 0) 16 16
      let ack (u : State) (sat : Nat) : Ans := landed c (u.answer c 0x18 [2 + table * 2 ^ 8 + n * 2 ^ 16, op, sat] [])
      (bits (carArg c 0) 0 8 = 2 → ∀ o, tfind s.fa.ops op = some o → o.kind = 4 → o.dst = c.src →
        exec (.emb port c) s = landed c (w.addAcked op o (carArg c 2 % 2 ^ 32))) ∧
      (bits (carArg c 0) 0 8 = 1 → w.tableBad table c.ten ≠ none → exec (.emb port c) s = ack w 0) ∧
      (bits (carArg c 0) 0 8 = 1 → w.tableBad table c.ten = none → ∀ d, w.embDescOf table (w.get (R.EMB_TAB_STS_VERSION table)) = some d →
        let es := (splitEntries d.entry n c.data).filter fun e => d.home (ofLe (e.take 4)) == w.ownAddr
        let rs := es.map fun e => (d.addr (ofLe (e.take 4)), d.stride)
        w.remoteAccess 0 c.ten c.src rs rs = .ok →
          let r := es.foldl (fun (a : State × Nat) e => ((a.1.applyEntry c.ten d e).1, a.2 + (a.1.applyEntry c.ten d e).2)) (w, 0)
          exec (.emb port c) s = ack r.1 r.2)) ∧
    (∀ borrower frame,
      (s.get R.FAB_CTL_EN = 1 → s.fa.lent.length < s.get R.FAB_LEND_OFFER → s.frameFree frame = true →
        exec (.poolFrameRequest borrower frame) s = .next { s with fa := { s.fa with lent := s.fa.lent ++ [(frame, borrower)] } }) ∧
      (s.fa.lent.contains (frame, borrower) = true →
        let u := s.clearRun (key spLent (frame * pageBytes)) pageBytes
        exec (.poolFrameReturn borrower frame) s =
          .next { u with fa := { u.fa with lent := u.fa.lent.erase (frame, borrower), recalls := u.fa.recalls.erase frame } }) ∧
      (∀ pk p dest, s.vm.pages.find? (fun p => p.2.st == 4 && p.2.frame == frame) = some (pk, p) → s.get R.MEM_CTL_EN = 1 →
        s.vm.moves.any (fun m => m.2.page == pk) = false → s.frameFree dest = true → exec (.poolFrameRecall frame 1 dest) s =
          .next (s.startMove ⟨pk, none, 1, dest, true, .running, .recall, moveDie p 1 dest⟩)))

/-! ## Twin mode and lost units (18) -/

/-- TWIN_OFFER, SUBST, SUBST_ACK and the mirror caravans MIR_ADMIT, MIR_KV, MIR_STEP, MIR_CANCEL, MIR_END, MIR_ACK and TWIN_BEAT: an offer that
agrees pairs the modules; a substitution of a module of the pipeline is installed and answered; of the partner, not fenced, each mirror
caravan changes the shadow that it names and is acknowledged with its OSEQ; an acknowledgement ends the wait of those up to it. -/
def Obligations.TwinCaravansKeepTheMirror : Prop :=
  ∀ (s : State) (port : Nat) (c : Car),
    let w := linked s port c
    let h := bits (carArg c 0) 0 10
    let ours : Prop := c.src = s.twin ∧ s.paired = true ∧ s.tw.fenced = false
    let acked (u : State) : Ans := landed c (u.mirror 0x25 0 [c.oseq] [])
    let shadows (t : Tab Batch) : State := { w with tw := { w.tw with batches := t } }
    (∀ epoch, lands s port 5 c → exec (.twinOffer port c epoch) s = landed c (w.takeOffer port c epoch)) ∧
    (∀ epoch, s.isolated = false → s.twin ≠ 0 → s.get R.FAB_TWIN_STATE = 1 → c.src = s.twin → bits (carArg c 1) 0 20 = s.ownAddr →
      carArg c 0 = s.modelTag → bits (carArg c 1) 20 4 = (s.stageOf s.ownAddr).getD 0 → s.tw.peerEpoch = epoch → s.tw.fenced = false →
      (s.takeOffer port c epoch).get R.FAB_TWIN_STATE = 2) ∧
    (∀ epoch, s.isolated = false → s.twin ≠ 0 → s.get R.FAB_TWIN_STATE = 1 → carArg c 0 ≠ s.modelTag →
      (s.takeOffer port c epoch).get R.FAB_TWIN_STATE = 3 ∧ (s.takeOffer port c epoch).get R.FAB_ERR_TWIN_MISMATCH = 1) ∧
    (lands s port 6 c →
      let lost := bits (carArg c 0) 0 20
      (w.stageOf lost = none → exec (.subst port c) s = landed c w) ∧
      (w.stageOf lost ≠ none →
        (∀ u, w.install lost (bits (carArg c 0) 20 20) = some u → exec (.subst port c) s =
          landed c ((if w.substOf lost = u.substOf lost then u else u.sendAgain lost).sendCar 7 0 c.src 0 0 [carArg c 0] [])) ∧
        (w.install lost (bits (carArg c 0) 20 20) = none → exec (.subst port c) s = landed c w))) ∧
    (lands s port 7 c →
      exec (.substAck port c) s = landed c { w with tw := { w.tw with substAcks := addNew w.tw.substAcks c.src } }) ∧
    (ours →
      (lands s port 0x20 c →
        let m := tget s.tw.pieces h [] ++ c.data
        (m.length < 8 ∨ m.length < w64 m 0 / 2 ^ 32 → exec (.mirAdmit port c) s = acked { w with tw := { w.tw with pieces := tset w.tw.pieces h m } }) ∧
        (8 ≤ m.length → w64 m 0 / 2 ^ 32 ≤ m.length → exec (.mirAdmit port c) s = acked (w.admitShadow h c.ten m))) ∧
      (lands s port 0x21 c →
        let k := h * 64 + bits (carArg c 0) 10 6
        exec (.mirKv port c) s = acked { w with tw := { w.tw with kv := tset w.tw.kv k (tget w.tw.kv k [] ++ [(c.words, c.data)]) } }) ∧
      (∀ b, tfind s.tw.batches h = some b →
        (lands s port 0x22 c → exec (.mirStep port c) s =
          acked (shadows (tset w.tw.batches h (w.shadowStep b (recOfWords (c.words.drop 1)))))) ∧
        (lands s port 0x23 c → exec (.mirCancel port c) s = acked (shadows (tset w.tw.batches h
          ((b.liveRows.filter (carArg c 1).testBit).foldl (fun (b : Batch) i => b.modRow i fun r => { r with cancel := some 0 }) b)))) ∧
        (lands s port 0x24 c →
          let e := b.endRow (bits (carArg c 0) 10 6) (bits (carArg c 0) 16 3)
          (e.liveRows ≠ [] → exec (.mirEnd port c) s = acked (shadows (tset w.tw.batches h e))) ∧
          (e.liveRows = [] → exec (.mirEnd port c) s = acked { w with tw := { w.tw with
            batches := tdel (tset w.tw.batches h e) h, kv := tfilter (fun k _ => k / 64 != h) w.tw.kv } }))) ∧
      (lands s port 0x26 c → exec (.twinBeat port c) s =
        acked ({ w with tw := { w.tw with beatIn := true, los := w.tw.los.erase port } } : State).rejoin)) ∧
    (¬ ours → lands s port 0x20 c → exec (.mirAdmit port c) s = landed c w) ∧
    (lands s port 0x25 c → c.src = s.twin → s.tw.fenced = false →
      let upTo (m : MirWait) : Bool := decide ((carArg c 0 + 2 ^ 32 - m.oseq) % 2 ^ 32 < 2 ^ 31)
      let gone := w.fa.mirrors.filter upTo
      exec (.mirAck port c) s = landed c ({ w with
        fa := { w.fa with mirrors := w.fa.mirrors.filter fun m => !upTo m }
        tw := { w.tw with miss := w.tw.miss.filter fun n => !(gone.any fun m => m.port == n), beatOut := w.tw.beatOut || !gone.isEmpty }
        } : State).grantAll.rejoin)

/-- TWIN_BEAT_TIMER, ACK_WAIT_EXPIRY, CONFIRM_WAIT_EXPIRY, RESYNC_BATCH_PROTECT, UNIT_ERROR_REPORT and UNIT_WAIT_EXPIRY: a beat every 2 µs; mirror
caravans unanswered for ACK_WAIT are a miss, with every twin port so a suspicion; no answer in CONFIRM_WAIT is a takeover, no other way out
fences the module; in RESYNC the oldest batch is mirrored; a unit's error is recorded, and one marked UNIT_FAULT loses the unit. -/
def Obligations.LossesAreDeclaredAndIsolated : Prop :=
  ∀ s : State,
    (∀ port, port < 16 → s.paired = true → s.twinPort port = true → s.portUp port = true → s.timer (port * 4 + 1) + 2000 ≤ s.ftime port →
      exec (.twinBeatTimer port) s = .next ((s.setTimer (port * 4 + 1) (s.ftime port)).mirrorOn port 0x26 0 [] [])) ∧
    (let late := (s.fa.mirrors.filter fun m => decide (m.stamp + s.get R.FAB_TWIN_ACK_WAIT ≤ s.ftime m.port)).map (·.port)
     (late = [] → exec .ackWaitExpiry s = .next s) ∧
     (late ≠ [] → exec .ackWaitExpiry s =
       .next ((({ s with tw := { s.tw with miss := late.foldl addNew s.tw.miss } } : State).raise R.FAB_ERR_ACK_MISS none).suspect))) ∧
    (∀ t pipe, s.tw.suspectAt = some t →
      (s.otherPorts = [] → exec (.confirmWaitExpiry pipe) s = .next s.isolate) ∧
      (s.otherPorts ≠ [] → t + s.get R.TWN_CTL_CONFIRM_WAIT ≤ s.ftime s.firstTwin →
        exec (.confirmWaitExpiry pipe) s = .next (s.takeover pipe)) ∧
      (s.otherPorts ≠ [] → s.ftime s.firstTwin < t + s.get R.TWN_CTL_CONFIRM_WAIT → exec (.confirmWaitExpiry pipe) s = .next s)) ∧
    (s.isolate.get R.TWN_STS_STATE = 5 ∧ s.isolate.get R.TWN_ERR_ISOLATED = 1 ∧ s.isolate.tw.suspectAt = none) ∧
    (s.get R.TWN_STS_STATE = 6 →
      ((∀ p, p ∈ s.sv.batches → p.2.mirrored = true) → exec .resyncBatchProtect s = .next (s.twn 1)) ∧
      (∀ h b, s.sv.batches = [(h, b)] → b.mirrored = false → ∃ u, exec .resyncBatchProtect s = .next u ∧ u.get R.TWN_STS_STATE = 1 ∧
        u.sv.batches = [(h, { b with mirrored := true })])) ∧
    (∀ n bit, n < 104 → bit ≤ 6 →
      let u := s.report1 (R.ENG_ERR n) bit (s.unitTen 1 n) 0
      exec (.unitErrorReport (.engine n bit)) s = .next (if bit = 2 ∨ bit = 4 then u else u.loseEngine n)) ∧
    (∀ n bit, n < 16 → bit ≤ 4 →
      let u := s.report1 (R.SCN_ERR n) bit (s.unitTen 2 n) 0
      exec (.unitErrorReport (.scan n bit)) s = .next (if bit = 0 ∨ bit = 2 then u else u.loseUnit 2 n)) ∧
    (∀ c bit served, c < 256 → 1 ≤ bit → bit ≤ 6 →
      let u := s.report1 (R.HAM_ERR (c / 32)) bit (s.unitTen clsCore c) 0
      exec (.unitErrorReport (.core c bit served)) s =
        .next (if bit = 2 ∨ bit = 6 then u.loseCore c else if bit = 4 ∨ bit = 5 then u.loseTask c served else u)) ∧
    (∀ lane ts, lane < 32 →
      exec (.unitErrorReport (.text 3 lane ts)) s = .next ((s.report1 R.TXT_ERR 3 none 0).loseLane ts) ∧
      exec (.unitErrorReport (.text 4 lane ts)) s = .next (((s.report1 R.TXT_ERR 4 none 0).put ⟨R.TXT_CTL, 16 + lane, 1⟩ 0).loseLane ts) ∧
      exec (.unitErrorReport (.grammar 1 lane ts)) s = .next ((s.report1 R.TXT_GRM_ERR 1 none 0).loseLane ts) ∧
      exec (.unitErrorReport (.grammar 2 lane ts)) s =
        .next (((s.report1 R.TXT_GRM_ERR 2 none 0).put ⟨R.TXT_GRM_CTL, 32 + lane, 1⟩ 0).loseLane ts) ∧
      (∀ bit ∈ [0, 2], exec (.unitErrorReport (.text bit lane ts)) s = .next (s.report1 R.TXT_ERR bit none 0)) ∧
      exec (.unitErrorReport (.grammar 0 lane ts)) s = .next (s.report1 R.TXT_GRM_ERR 0 none 0)) ∧
    (∀ slot, exec (.unitErrorReport (.rowCache 1 slot)) s = .next (s.report1 R.EMB_ERR 1 none 0) ∧
      let u := s.report1 R.EMB_ERR 2 none 0
      exec (.unitErrorReport (.rowCache 2 slot)) s = .next { u with em := { u.em with cache := tdel u.em.cache slot } }) ∧
    (∀ die g rs, die < 2 → exec (.unitErrorReport (.oasis die 0 g rs)) s = .next (s.report1 (R.OAS_ERR die) 0 none (g * granuleBytes % 2 ^ 56))) ∧
    (∀ cls n,
      (s.declares = true → s.loseUnit cls n = (((s.raise R.TWN_ERR_UNIT_LOST (s.unitTen cls n)).raiseEpoch cls n).fenceLeases fun l => l.unit == unitKey cls n).stopUnits
        (fun c m => c == cls && m == n) .unitFault) ∧
      (s.declares = false → s.loseUnit cls n = s.stopUnits (fun c m => c == cls && m == n) .unitFault)) ∧
    (∀ t c, s.cmd t = some c →
      let late := c.runAt.2 + s.get R.TWN_CTL_UNIT_WAIT ≤ s.time c.runAt.1
      (s.declares = false ∨ c.st ≠ .running ∨ ¬ late → exec (.unitWaitExpiry t) s = .next s) ∧
      (s.declares = true → c.st = .running → late → exec (.unitWaitExpiry t) s =
        .next (if dClass c.words = 1 then s.loseEngine c.unit else s.loseUnit (dClass c.words) c.unit)))

/-! ## Power, heat and clocks (19, 23) -/

/-- The input thresholds and the controlled shutdown: INPUT_LOW_FALL and RISE, NV_CUTOFF, NV_RESTORE, INPUT_HIGH_RISE and FALL, the shutdowns for
voltage and their steps, SHUTDOWN_RESTART and RAILS_FAIL. A shutdown starts once, with its cause, and ends non-volatile writes; the field dies go
off when no Irrevocable command is short of its length, then all but the steward and the island; the flash keeps what it holds. -/
def Obligations.SupplyThresholdsAndShutdown : Prop :=
  ∀ (s : State) (v : Nat),
    let m := s.put R.PWR_STS_IN_V v
    (v < 5400 → exec (.inputLowFall v) s = .next ((m.put R.PWR_STS_IN_LOW 1).raise R.PWR_ERR_IN_LOW none).settle) ∧
    (5450 < v → exec (.inputLowRise v) s = .next (m.put R.PWR_STS_IN_LOW 0).settle) ∧
    (v < 5200 → exec (.nvCutoff v) s = .next (m.clearNv.raise R.PWR_ERR_NV_CUT none)) ∧
    (5350 < v → exec (.nvRestore v) s = .next (m.put R.PWR_STS_NV_OK 1)) ∧
    (6450 < v → exec (.inputHighRise v) s = .next ((m.put R.PWR_STS_IN_HIGH 1).raise R.PWR_ERR_IN_HIGH none).settle) ∧
    (v < 6400 → exec (.inputHighFall v) s = .next (m.put R.PWR_STS_IN_HIGH 0).settle) ∧
    (v < 4600 → exec (.undervoltageShutdown v) s = .next (m.shutdown 1)) ∧
    (6800 < v → exec (.overvoltageShutdown v) s = .next (m.shutdown 2)) ∧
    (4600 ≤ v → exec (.undervoltageShutdown v) s = .next s) ∧ (v ≤ 6800 → exec (.overvoltageShutdown v) s = .next s) ∧
    (let inRange : Prop := s.get R.PWR_STS_IN_LOW = 0 ∧ s.get R.PWR_STS_IN_HIGH = 0
     (s.pw.phase = 4 → inRange → s.pw.steadyAt = none → s.settle = { s with pw := { s.pw with steadyAt := some s.pwrStamp } }) ∧
     (s.pw.phase = 4 → inRange → s.pw.steadyAt ≠ none → s.settle = s) ∧
     (s.pw.phase ≠ 4 ∨ s.get R.PWR_STS_IN_LOW = 1 ∨ s.get R.PWR_STS_IN_HIGH = 1 → s.settle = { s with pw := { s.pw with steadyAt := none } })) ∧
    (s.clearNv.get R.PWR_STS_NV_OK = 0 ∧ s.clearNv.se.writing = none) ∧
    (∀ cause, 1 ≤ cause → cause ≤ 4 →
      (s.get R.PWR_STS_SHUTDOWN = 1 → s.shutdown cause = s) ∧
      (s.get R.PWR_STS_SHUTDOWN = 0 → (s.shutdown cause).get R.PWR_STS_SHUTDOWN = 1 ∧ (s.shutdown cause).get R.PWR_STS_CAUSE = cause ∧
        (s.shutdown cause).get R.PWR_STS_NV_OK = 0 ∧ (s.shutdown cause).pw.phase = 2 ∧ (s.shutdown cause).mem = s.mem)) ∧
    (let short (p : Nat × Cmd) : Bool := p.2.st == .irrevocable && !p.2.nkDone
     (s.pw.phase = 2 → s.x.cmds.any (fun p => short p && dClass p.2.words != 8 && dClass p.2.words != 9) = false →
       ∃ u, exec .shutdownFieldGate s = .next u ∧ u.pw.phase = 3 ∧ u.x.cores = [] ∧ u.x.cmds = s.x.cmds ∧
         u.get R.PWR_DOM_STS_POWERED = s.get R.PWR_DOM_STS_POWERED / 2 ^ 40 * 2 ^ 40 ∧ u.nv = s.nv ∧ u.se = s.se) ∧
     (s.pw.phase = 3 → s.x.cmds.any short = false →
       ∃ u, exec .shutdownGateDieGate s = .next u ∧ u.pw.phase = 4 ∧ u.pw.pwrgd = false ∧ u.get R.PWR_DOM_STS_POWERED = 2 ^ 48 + 2 ^ 49 ∧
         u.mem = s.lastingMem ∧ (∀ c ∈ s.lastingMem, c ∈ s.mem) ∧ u.nv = s.nv ∧ u.se = s.se ∧ u.sb = s.sb ∧
         u.x.cmds = [] ∧ u.vm.pages = []) ∧
     (s.x.cmds.any short = true → exec .shutdownGateDieGate s = .next s)) ∧
    (∀ f0 f1 gate hbm,
      let cause := s.get R.PWR_STS_CAUSE
      let cool : Prop := f0 ≤ 70 ∧ f1 ≤ 70 ∧ gate ≤ 70 ∧ hbm ≤ 70
      let may : Prop := s.pw.phase = 4 ∧ (∃ t, s.pw.steadyAt = some t ∧ t.2 + 10000000 ≤ s.time t.1) ∧ s.get R.PWR_STS_IN_LOW = 0 ∧ s.get R.PWR_STS_IN_HIGH = 0 ∧ (cause = 3 → cool) ∧
        (cause = 4 → s.pw.absent.contains 5 = false)
      (¬ may → exec (.shutdownRestart f0 f1 gate hbm) s = .next s) ∧
      (may → ∃ u, exec (.shutdownRestart f0 f1 gate hbm) s = .next u ∧ u.pw.phase = 0 ∧ u.pw.pwrgd = true ∧
        u.get R.PWR_STS_SHUTDOWN = 0 ∧ u.get R.PWR_STS_CAUSE = 0 ∧ u.get R.PWR_DOM_STS_POWERED = 2 ^ 50 - 1 ∧
        u.get R.ERR_BRING_STAGE = 1 ∧ u.mem = s.mem)) ∧
    (∃ u, exec .railsFail s = .next u ∧ u.nv = s.nv ∧ u.sb = s.sb ∧ u.se.boot = s.se.boot ∧ u.se.store = s.se.store ∧ u.x.cores = [] ∧
      u.x.cmds = [] ∧ u.vm.pages = [] ∧ u.pw.pwrgd = false ∧ u.pw.charged = false ∧ u.get R.PWR_DOM_STS_POWERED = 0 ∧
      u.get R.SEC_STS_SVN_FLOOR = s.get R.SEC_STS_SVN_FLOOR)

/-- Domains, voltage, heat, current and references: a request waits, is refused, or takes back one that waits; a domain is gated once its
condition holds and powered up with its units reset; VCORE moves 10 mV at a time, 10 µs apart, toward the least of what is set and of the
limits that the power average and the temperature set; a reference's loss takes the locks and the ports that run from it, and its edges' crossings,
which carry one event at a time and hold at most 65,535 more, keep what they hold until it returns. -/
def Obligations.DomainsVoltageHeatAndClocks : Prop :=
  ∀ s : State,
    (∀ via v, mayWrite s via → exec (.pwrDomCtlWrite via v) s = .next (s.regWrite via R.PWR_DOM_CTL v) ∧
      exec (.pwrSleepWrite via v) s = .next (s.regWrite via R.PWR_CTL (setBits (s.view R.PWR_CTL) 1 1 v))) ∧
    (∀ d (on : Bool), d < 50 → s.pw.queue = [] →
      (s.powered d = on → s.domRequest d on = s) ∧
      (s.powered d ≠ on → (on = true ∨ s.gateRefusal d = none) → s.domRequest d on = { s with pw := { s.pw with queue := [(d, on)] } }) ∧
      (s.powered d = true → ∀ code, on = false → s.gateRefusal d = some code → (s.domRequest d on).pw.queue = [] ∧
        (s.domRequest d on).get R.PWR_GATE_STS_CHK = code % 256 ∧ (s.domRequest d on).get R.PWR_ERR_GATE_REFUSED = 1)) ∧
    (∀ d q, d < 50 → s.pw.queue = (d, false) :: q →
      let w : State := { s with pw := { s.pw with queue := q } }
      (s.gateReady d = false → exec (.domainGateDone d) s = .next s) ∧
      (s.gateReady d = true → exec (.domainGateDone d) s = .next (w.gate d).gatePending ∧ ((w.gate d).gatePending).powered d = false)) ∧
    (∀ d q, d < 50 → s.pw.queue = (d, true) :: q → ∃ u, exec (.domainPowerUpDone d) s = .next u ∧ u.powered d = true ∧ u.pw.queue = q ∧
      u.get R.PWR_GATE_STS_PENDING = (if q.isEmpty then 0 else 1)) ∧
    (s.get R.PWR_CTL_SLEEP = 1 → (∀ t, t < 64 → s.get (R.SCH_TEN_CTL_EN t) = 0) → s.get R.FAB_CTL_EN = 0 →
      (s.sleepWrite 0).pw.asleep = true ∧ (s.sleepWrite 0).get R.PWR_DOM_STS_POWERED = 2 ^ 48 + 2 ^ 49) ∧
    (s.get R.PWR_CTL_SLEEP = 1 → s.get R.FAB_CTL_EN = 1 →
      (s.sleepWrite 0).get R.PWR_CTL_SLEEP = 0 ∧ (s.sleepWrite 0).get R.PWR_ERR_GATE_REFUSED = 1 ∧ (s.sleepWrite 0).pw.asleep = s.pw.asleep) ∧
    (s.get R.PWR_CTL_SLEEP = 0 → (s.sleepWrite 1).pw.asleep = false ∧ (s.sleepWrite 1).get R.PWR_DOM_STS_POWERED = 2 ^ 50 - 1 ∧
      (s.sleepWrite 1).get R.ERR_BRING_STAGE = 2) ∧
    (∀ die, die < 2 →
      let v := s.get (R.PWR_FD_STS_VCORE die)
      let w := s.vTarget die
      let at_ (n : Nat) : Ans := .next { s.put (R.PWR_FD_STS_VCORE die) n with pw := { s.pw with stepAt := tset s.pw.stepAt die s.pwrStamp } }
      (∀ p t, tfind s.pw.stepAt die = some (p, t) → s.time p < t + 10000 → exec (.vcoreStep die) s = .next s) ∧
      ((∀ p t, tfind s.pw.stepAt die = some (p, t) → t + 10000 ≤ s.time p) →
        (w < v → exec (.vcoreStep die) s = at_ (v - 10)) ∧ (v + 10 ≤ w → exec (.vcoreStep die) s = at_ (v + 10)) ∧
        (v ≤ w → w < v + 10 → exec (.vcoreStep die) s = .next s)) ∧
      720 ≤ w ∧ w ≤ 860 ∧
      (∀ n, let u := s.put (R.PWR_FD_STS_RATE die) (n / 10)
        exec (.pacerWindow die n) s = .next (if n / 10 < 1450 then u.raise R.PWR_ERR_RATE_LOW none else u)) ∧
      (∀ tj, let u := s.put (R.PWR_FD_STS_TJ die) tj
        (u.tjHigh ≤ tj → exec (.tjHighCrossing die tj) s = .next (u.setThermal die 720)) ∧
        (tj + 5 < u.tjHigh → exec (.tjHighCrossing die tj) s = .next (u.setThermal die 860)) ∧
        (tj < u.tjHigh → u.tjHigh ≤ tj + 5 → exec (.tjHighCrossing die tj) s = .next u) ∧
        (95 < tj → exec (.tjOver die tj) s = .next ((u.setThermal die 720).raise R.PWR_ERR_TJ_OVER none)) ∧
        (105 ≤ tj → exec (.thermalShutdown (.field die) tj) s = .next (u.shutdown 3)) ∧
        (tj < 105 → exec (.thermalShutdown (.field die) tj) s = .next u)) ∧
      (∀ a, let u := s.put (R.PWR_FD_STEP_STEP_PEAK die) (max a (s.get (R.PWR_FD_STEP_STEP_PEAK die)))
        exec (.currentStepWindow die a) s = .next (if u.get (R.PWR_FD_STEP_STEP_MAX die) < a then u.raise R.PWR_ERR_STEP none else u))) ∧
    (∀ n tj, n < 16 →
      (95 ≤ tj → exec (.hbmHot n tj) s = .next ((s.stackTemp n tj).raise R.PWR_ERR_HBM_HOT none)) ∧
      (tj < 95 → exec (.hbmHot n tj) s = .next (s.stackTemp n tj)) ∧
      (105 ≤ tj → exec (.thermalShutdown (.stack n) tj) s = .next ((s.stackTemp n tj).shutdown 3)) ∧
      (105 ≤ tj → exec (.thermalShutdown .gate tj) s = .next ((s.put R.PWR_TEMP_GATE_TJ tj).shutdown 3))) ∧
    (∀ watts,
      let u := s.put R.PWR_STS_IN_W watts
      let v (d : Nat) : Nat := u.get (R.PWR_FD_STS_VCORE d)
      let limit (f : Nat → Nat) : Ans := .next { u with pw := { u.pw with capLimit := tset (tset u.pw.capLimit 0 (f 0)) 1 (f 1) } }
      (u.capWatts < watts → v 0 ≤ 720 → v 1 ≤ 720 → exec (.powerAverageWindow watts) s = .next (u.raise R.PWR_ERR_CAP_MISS none)) ∧
      (u.capWatts < watts → (720 < v 0 ∨ 720 < v 1) → exec (.powerAverageWindow watts) s = limit fun d => max 720 (v d - 10)) ∧
      (watts * 100 < u.capWatts * 95 →
        exec (.powerAverageWindow watts) s = limit fun d => min 860 (max (tget u.pw.capLimit d 860) 720 + 10)) ∧
      (watts ≤ u.capWatts → u.capWatts * 95 ≤ watts * 100 → exec (.powerAverageWindow watts) s = .next u)) ∧
    (exec .hostRefclkLoss s = .next ((List.range 4).foldl (fun (s : State) p => s.setLock p false) (s.clockGone 0)) ∧
      exec (.memRefclkLoss false) s = .next (s.clockGone 5) ∧ exec (.memRefclkLoss true) s = .next ((s.clockGone 5).memLost.shutdown 4)) ∧
    (∀ q, q < 4 → ∃ u, exec (.fabRefclkLoss q) s = .next u ∧ u.pw.absent = addNew s.pw.absent (1 + q) ∧
      ∀ n, 4 * q ≤ n → n < 4 * q + 4 → u.portUp n = false) ∧
    (∀ n, n < 6 → ∃ u, exec (.refclkReturn n) s = .next u ∧ u.pw = { s.pw with absent := s.pw.absent.erase n } ∧ u.mem = s.mem ∧ u.cw = s.cw ∧
      (∀ e, e < 20 → edgeClock e = n → u.crossing e = (s.crossing e).drain) ∧
      (∀ e, edgeClock e ≠ n → u.crossing e = s.crossing e)) ∧
    (∀ (x : Crossing) v,
      (x.busy = false → (x.send v).busy = true ∧ (x.send v).hold = some v ∧ (x.send v).level = !x.level ∧ (x.send v).waiting = x.waiting) ∧
      (x.busy = true → x.send v = { x with waiting := x.waiting ++ [v] }) ∧
      (x.busy = true → x.waiting = [] → x.take = { x with sample := x.hold, ack := x.level }) ∧
      (∀ y ys, x.busy = true → x.waiting = y :: ys → x.take.sample = x.hold ∧ x.take.hold = some y ∧ x.take.level = !x.level ∧
        x.take.ack = x.level ∧ x.take.waiting = ys) ∧
      (let ok (x : Crossing) : Prop := x.busy = false → x.waiting = []
       ok x → ok (x.send v) ∧ ok x.take ∧ (x.drain.busy = false ∧ x.drain.waiting = [])) ∧
      x.count ≤ 65535 ∧ (x.stalled = true ↔ 65535 < x.waiting.length)) ∧
    (∀ e v, ∃ u, s.cross e v = u ∧ u.pw = s.pw ∧ u.mem = s.mem ∧ (s.pw.absent.contains (edgeClock e) = true → u.crossing e = (s.crossing e).send v) ∧
      (s.pw.absent.contains (edgeClock e) = false → u.crossing e = ((s.crossing e).send v).drain))

/-! ## Register writes and consistency checks (21 R524 to R538) -/

/-- The registers whose write does something beyond their fields. -/
def Sys2Proof.Claims.active : List Nat :=
  [R.SCH_REBIND, R.SCH_TEN_CTL 0, R.SCH_TEN_LIMITS 0, R.MEM_LOOKUP_VA, R.HST_IMG_CTL, R.FAB_LEND, R.FAB_RT_SEL, R.FAB_RT_ROW, R.PWR_CTL,
   R.PWR_ERR, R.PWR_DOM_CTL, R.SEC_QUOTE, R.SEC_KS_CTL, R.SEC_FW_CTL, R.ERR_LOG_CTL]

/-- Every command that writes a register writes it, from the steward or a host's manager pair, and is refused elsewhere. A write reaches the
register's fields by their access codes; at an unassigned offset it is ignored and noted, at a gated unit it is ignored, during the unit's check it is held;
a write that differs in a locked field is noted; EN from 0 to 1 starts a check and stays 0, from 1 to 0 stops the unit; the check's end sets EN, or the
code of what failed, and then takes the writes held. -/
def Obligations.RegisterWritesTakeEffect : Prop :=
  ∀ (s : State) (via : Via),
    (let en (v : Nat) : Nat := setBits v 0 1 1
     let dis (v : Nat) : Nat := setBits v 0 1 0
     let writes (takes : Nat → Nat → Ans) : Prop := ∀ off n v,
        exec (.registerWrite via off v) s = takes off v ∧
        exec (.schRebind via v) s = takes R.SCH_REBIND v ∧
        exec (.memLookupVa via v) s = takes R.MEM_LOOKUP_VA v ∧
        exec (.fabRtRowWrite via v) s = takes R.FAB_RT_ROW v ∧
        exec (.errLogClear via) s = takes R.ERR_LOG_CTL 1 ∧
        exec (.fabLendWrite via v) s = takes R.FAB_LEND (setBits (s.view R.FAB_LEND) 0 20 v) ∧
        exec (.memEnable via v) s = takes R.MEM_CTL (en v) ∧
        exec (.celEnable via v) s = takes R.CEL_CTL (en v) ∧
        exec (.txtEnable via v) s = takes R.TXT_CTL (en v) ∧
        exec (.txtGrmEnable via v) s = takes R.TXT_GRM_CTL (en v) ∧
        exec (.schEnable via v) s = takes R.SCH_CTL (en v) ∧
        exec (.fabEnable via v) s = takes R.FAB_CTL (en v) ∧
        exec (.embEnable via v) s = takes R.EMB_CTL (en v) ∧
        exec (.twnEnable via v) s = takes R.TWN_CTL (en v) ∧
        exec (.pwrEnable via v) s = takes R.PWR_CTL (en v) ∧
        exec (.secEnable via v) s = takes R.SEC_CTL (en v) ∧
        (n < 2 → exec (.oasEnable via n v) s = takes (R.OAS_CTL n) (en v)) ∧
        (n < 4 → exec (.hstEnable via n v) s = takes (R.HST_CTL n) (en v)) ∧
        (n < 8 → exec (.hamEnable via n v) s = takes (R.HAM_CTL n) (en v) ∧ exec (.hamDisable via n v) s = takes (R.HAM_CTL n) (dis v)) ∧
        (n < 16 → exec (.scnEnable via n v) s = takes (R.SCN_CTL n) (en v) ∧ exec (.fabPortRetry via n) s = takes (R.FAB_PORT_CTL n) 1) ∧
        (n < 32 → exec (.embTabEnable via n v) s = takes (R.EMB_TAB_CTL n) (en v)) ∧
        (n < 64 → exec (.scnIdxEnable via n v) s = takes (R.SCN_IDX_CTL n) (en v) ∧ exec (.scnIdxDisable via n v) s = takes (R.SCN_IDX_CTL n) (dis v) ∧
          exec (.tenancyEnable via n v) s = takes (R.SCH_TEN_CTL n) (en v) ∧ exec (.tenancyDisable via n v) s = takes (R.SCH_TEN_CTL n) (dis v) ∧
          exec (.tenancyDrainWrite via n v) s = takes (R.SCH_TEN_CTL n) (setBits (s.view (R.SCH_TEN_CTL n)) 1 1 v) ∧
          exec (.kvPagesWrite via n v) s = takes (R.SCH_TEN_LIMITS n) (setBits (s.view (R.SCH_TEN_LIMITS n)) 16 25 v)) ∧
        (n < 104 → exec (.engEnable via n v) s = takes (R.ENG_CTL n) (en v)) ∧
        (n < 128 → exec (.welEnable via n v) s = takes (R.WEL_CTL n) (en v))
     (mayWrite s via → writes fun off v => .next (s.regWrite via off v)) ∧
     (∀ q, via = .host q → q < 1024 → s.manager q = false → writes fun _ _ => .next (s.refuseAccess q))) ∧
    (mayWrite s via → ∀ ctl b n v, unitAt ctl = some (b, n) → n < copyCount b →
      exec (.unitDisable via ctl v) s = .next (s.regWrite via ctl (setBits v 0 1 0))) ∧
    (∀ off v, findReg off = none → s.regWrite via off v = s.badWrite R.MOD_ERR_UNASSIGNED via off) ∧
    (∀ off, ∀ f ∈ [R.MOD_ERR_UNASSIGNED, R.MOD_ERR_LOCKED_WRITE, R.MOD_ERR_RO_WRITE],
      (s.badWrite f via off).get f = 1 ∧ (s.badWrite f via off).get R.MOD_LASTBAD_OFFSET = off % 2 ^ R.MOD_LASTBAD_OFFSET.w ∧
      (s.badWrite f via off).mem = s.mem ∧ (s.badWrite f via off).x = s.x) ∧
    (∀ off v d ix, findReg off = some (d, ix) → s.regPowered d ix = false → s.regWrite via off v = s) ∧
    (∀ off v d ix, findReg off = some (d, ix) → s.regPowered d ix = true →
      let n := copyNumber d ix
      let old := (s.reg off).toNat
      let locked := (ctlAt d.blk n).isSome && s.get (enOf ((ctlAt d.blk n).getD off)) == 1
      let word := wordWrite locked v old d.fields
      let running : Option CheckRun := (ctlAt d.blk n).bind (tfind s.checks ·)
      let clean : Prop := differs (· == .ro) v (s.view off) d.fields = false
      (∀ run, running = some run → s.regWrite via off v =
        { s with checks := tset s.checks ((ctlAt d.blk n).getD off) { run with held := run.held ++ [(via, off, v)] } }) ∧
      (running = none → ¬ d.base ∈ active → clean →
        let steady : Prop := ctlAt d.blk n = some off → (locked = true ↔ v.testBit 0 = true)
        (steady → (locked && differs (· == .rwl) v old d.fields) = false → s.regWrite via off v = s.setReg off word) ∧
        (steady → (locked && differs (· == .rwl) v old d.fields) = true →
          s.regWrite via off v = (s.setReg off word).badWrite R.MOD_ERR_LOCKED_WRITE via off) ∧
        (ctlAt d.blk n = some off → locked = false → v.testBit 0 = true →
          let u := s.setReg off (setBits word 0 1 0)
          s.regWrite via off v = ({ u with checks := tset u.checks off ⟨via, u.time (viaPort via), []⟩ } : State).put (chkOf d.blk off) 1) ∧
        (ctlAt d.blk n = some off → locked = true → v.testBit 0 = false → differs (· == .rwl) v old d.fields = false →
          s.regWrite via off v = (s.setReg off word).stopped d.blk n)) ∧
      (∀ f ∈ d.fields, bits word f.lo f.w =
        match f.acc with
        | .ro => bits old f.lo f.w
        | .wo => bits old f.lo f.w
        | .rw => bits v f.lo f.w
        | .rwl => if locked then bits old f.lo f.w else bits v f.lo f.w
        | .w1c => bits old f.lo f.w - (bits old f.lo f.w &&& bits v f.lo f.w)
        | .w1s => bits old f.lo f.w ||| bits v f.lo f.w)) ∧
    (∀ ctl b n, unitAt ctl = some (b, n) →
      (tfind s.checks ctl = none → exec (.consistencyCheckEnd ctl) s = .next s) ∧
      (∀ run, tfind s.checks ctl = some run →
        let u : State := { s with checks := tdel s.checks ctl }
        exec (.consistencyCheckEnd ctl) s =
          .next (run.held.foldl (fun (s : State) w => s.regWrite w.1 w.2.1 w.2.2) (if s.unitPowered b n then u.endCheck b n else u))) ∧
      (∀ c, s.checkCode b n = c + 1 → s.endCheck b n = (s.put (enOf ctl) 0).put (chkOf b ctl) (c + 1) ∧
        (s.endCheck b n).get (enOf ctl) = 0 ∧ (s.endCheck b n).get (chkOf b ctl) = (c + 1) % 256) ∧
      (s.checkCode b n = 0 →
        let u := (s.put (enOf ctl) 1).put (chkOf b ctl) 0
        s.endCheck b n = (u.extend 3 (sm3 (u.enableRecord b n))).started b n ∧ u.get (enOf ctl) = 1)) ∧
    (mayWrite s via → ∃ u, exec (.errLogClear via) s = .next u ∧ (∀ i, i < 64 → u.get (R.ERR_LOG_HDR_VALID i) = 0) ∧
      u.reg R.ERR_LOG_OLD = s.reg R.ERR_LOG_STS ∧ u.mem = s.mem ∧ u.x = s.x)

/-! ## Sideband pins and bring-up (24 R569 to R574, 25) -/

/-- The sideband: RST_N puts every die in reset but leaves the island, the flash and the pins, its release starts the meters from zero; the first
rise of VDDIO_SB reads the straps; an I3C transfer for this target reads or writes the window, of which a limited part while the steward does not
run, and any other is not acknowledged and changes nothing; the TAP's instructions select their register, three of them only during reset. -/
def Obligations.SidebandCommandsTakeEffect : Prop :=
  ∀ s : State,
    (s.pw.rstLow = true → exec .rstNAssert s = .next s) ∧
    (s.pw.rstLow = false → s.get R.PWR_STS_SHUTDOWN = 1 ∨ s.pw.asleep = true →
      exec .rstNAssert s = .next { s with pw := { s.pw with rstLow := true } }) ∧
    (s.pw.rstLow = false → s.get R.PWR_STS_SHUTDOWN = 0 → s.pw.asleep = false →
      ∃ u, exec .rstNAssert s = .next u ∧ u.pw.rstLow = true ∧ u.pw.queue = [] ∧ u.x.cores = [] ∧ u.x.cmds = [] ∧ u.vm.pages = [] ∧
        u.mem = s.lastingMem ∧ u.se = s.se ∧ u.nv = s.nv ∧ u.sb = s.sb ∧
        u.get R.PWR_DOM_STS_POWERED = s.get R.PWR_DOM_STS_POWERED ∧ u.get R.TWN_EPOCH_EPOCH = s.get R.TWN_EPOCH_EPOCH ∧
        u.get R.ERR_BRING_STAGE = (if s.get R.SEC_STS_STAGE = 1 then 1 else 0)) ∧
    (s.pw.rstLow = false → exec .rstNRelease s = .next s) ∧
    (s.pw.rstLow = true → exec .rstNRelease s = .next { s with
      pw := { s.pw with rstLow := false }, pt := { s.pt with meters := [] }
      sb := { s.sb with tap := if 3 ≤ s.sb.tap then 0 else s.sb.tap } }) ∧
    (∀ strap, exec (.vddioSbRise strap) s =
      .next (if s.sb.vddio then s else { s with sb := { s.sb with vddio := true, strap := strap % 4, dyn := none, sample := none } })) ∧
    (∀ v, exec (.hotInsertPrecharge v) s = .next { s with pw := { s.pw with charged := s.pw.charged || decide (5000 ≤ v) } }) ∧
    -- what answers on the bus
    (let up : Prop := s.sb.vddio = true ∧ s.pw.charged = true
     let static := 0x50 + s.sb.strap
     let mine (addr : Nat) : Prop := up ∧ ((s.sb.dyn = some addr) ∨ (s.sb.dyn = none ∧ addr = static))
     let nack : Ans := .next { s with sb := { s.sb with acked := false, reply := [] } }
     let ack (reply : List Nat) (u : State) : Ans := .next { u with sb := { u.sb with acked := true, reply := reply } }
     (∀ addr, ¬ mine addr → ∀ off v data, exec (.i3cRead addr off) s = nack ∧ exec (.i3cWrite addr off v) s = nack ∧
       exec (.i3cPrivateRead addr) s = nack ∧ exec (.recovData addr data) s = nack ∧ exec (.recovEnd addr) s = nack) ∧
     (∀ addr, mine addr →
       (∀ off, off % 8 ≠ 0 → ∀ v, exec (.i3cRead addr off) s = nack ∧ exec (.i3cWrite addr off v) s = nack) ∧
       (∀ off, off % 8 = 0 → exec (.i3cRead addr off) s = ack [] { s with sb := { s.sb with sample := some (s.sideView off) } } ∧
         ∀ v, exec (.i3cWrite addr off v) s = ack [] (s.sideWrite off (v % 2 ^ 64))) ∧
       (∀ v, v < 2 ^ 64 → s.sb.sample = some v → ∃ bs, exec (.i3cPrivateRead addr) s = ack bs s ∧ bs.length = 8 ∧
         ∀ i, i < 8 → nw bs i = v / 2 ^ (8 * i) % 256) ∧
       (s.sb.sample = none → exec (.i3cPrivateRead addr) s = ack (List.replicate 8 255) s) ∧
       (∀ data : List Byte,
         let fits : Prop := 1 ≤ data.length ∧ data.length ≤ 256 ∧ s.se.recovery + data.length ≤ 67108864 ∧ s.get R.SEC_STS_STAGE = 2
         (¬ fits → exec (.recovData addr data) s = nack) ∧
         (fits → exec (.recovData addr data) s =
           ack [] { s.writeRun (key spRecovery s.se.recovery) data with se := { s.se with recovery := s.se.recovery + data.length } })) ∧
       (s.get R.SEC_STS_STAGE ≠ 2 → exec (.recovEnd addr) s = nack) ∧
       (s.get R.SEC_STS_STAGE = 2 → exec (.recovEnd addr) s = ack [] s.recover ∧ s.recover.se.recovery = 0 ∧ s.recover.se.store = s.se.store ∧
         let sent := s.run (key spRecovery 0) s.se.recovery
         ((s.firmware sent).toOption = none ∨ s.get R.PWR_STS_NV_OK = 0 →
           s.recover.get R.SEC_ERR_BOOT_SLOT_FAIL = 1 ∧ s.recover.get R.SEC_STS_STAGE = 2 ∧ s.recover.se.boot = s.se.boot) ∧
         ((s.firmware sent).toOption ≠ none → s.get R.PWR_STS_NV_OK = 1 →
           s.recover.bootCtl = { s.bootCtl with seq := s.bootCtl.seq + 1, valid := true, active := 0 }))) ∧
     -- the limited view (R572)
     (∀ off v, let limited : Prop := s.pw.rstLow = true ∨ s.get R.SEC_STS_STAGE ≠ 1
       (4 ≤ off / 2 ^ 20 → s.sideView off = 0 ∧ s.sideWrite off v = s) ∧
       (off / 2 ^ 20 < 4 → ¬ limited ∨ 2 ≤ off / 2 ^ 20 → s.sideView off = s.view off ∧ s.sideWrite off v = s.regWrite .steward off v) ∧
       (limited → off / 2 ^ 20 < 2 → off ≠ R.PWR_CTL → s.sideView off = 0 ∧ s.sideWrite off v = s) ∧
       (limited → s.sideView R.PWR_CTL = s.view R.PWR_CTL &&& 2 ∧
         s.sideWrite R.PWR_CTL v = s.regWrite .steward R.PWR_CTL (setBits (s.view R.PWR_CTL) 1 1 (v / 2)))) ∧
     -- addresses
     (∀ dyn,
       let given : Ans := ack [] { s with sb := { s.sb with dyn := some (dyn % 128), sample := none } }
       (up → s.sb.dyn = none → exec (.entdaa dyn) s = given ∧ exec (.setdasa static dyn) s = given ∧
         ∀ a, a ≠ static → exec (.setdasa a dyn) s = nack) ∧
       (¬ up ∨ s.sb.dyn ≠ none → exec (.entdaa dyn) s = nack ∧ ∀ a, exec (.setdasa a dyn) s = nack) ∧
       (∀ a, (up → s.sb.dyn = some a → exec (.setnewda a dyn) s = given) ∧
         (¬ up ∨ s.sb.dyn ≠ some a → exec (.setnewda a dyn) s = nack))) ∧
     (up → exec .rstdaa s = ack [] { s with sb := { s.sb with dyn := none, sample := none } }) ∧ (¬ up → exec .rstdaa s = nack) ∧
     (∀ a, (up → s.sb.dyn = some a →
         (s.sb.strap < 4 → exec (.getpid a) s = ack [0x34, 0xD6, 0x48, 0x00, s.sb.strap * 64, 0x00] s) ∧
         exec (.getbcr a) s = ack [0] s ∧ exec (.getdcr a) s = ack [0] s ∧ exec (.getmwl a) s = ack [1, 5] s ∧
         exec (.getmrl a) s = ack [0, 8] s ∧
         ∃ x y, x < 256 ∧ y < 256 ∧ exec (.getstatus a) s = ack [x, y] s.takeFree.2) ∧
       (¬ up ∨ s.sb.dyn ≠ some a → (∀ i ∈ [Instr.getpid a, .getbcr a, .getdcr a, .getmwl a, .getmrl a], exec i s = nack) ∧
         ∃ u, exec (.getstatus a) s = .next u ∧ u.sb = { s.sb with acked := false, reply := [] }))) ∧
    -- boundary scan
    (let tap (n dr : Nat) : State := { s with sb := { s.sb with tap := n, dr := dr } }
     exec .bypass s = .next (tap 0 0) ∧ exec .idcode s = .next (tap 1 (s.get R.MOD_ID_STEPPING % 16 * 2 ^ 28 + 0x4800DA5)) ∧
     (∀ cells, exec (.samplePreload cells) s = .next { s with sb := { s.sb with tap := 2, dr := 0, boundary := cells } }) ∧
     (s.pw.rstLow = true → exec .extest s = .next (tap 3 0) ∧ exec .clamp s = .next (tap 4 0) ∧ exec .highz s = .next (tap 5 0)) ∧
     (s.pw.rstLow = false → ∀ i ∈ [Instr.extest, .clamp, .highz], exec i s = .next (tap 0 0)))

/-- The end of each stage of bring-up: nothing once it is done or halted, during a shutdown or asleep; else the stage's own work, then the next
stage and the time, or the halt with the block and the bit of what failed. The epoch goes up by one; a granary without a stack, a cellar without a
channel halt; an enable that fails leaves the stage; DONE is set once the images are placed. -/
def Obligations.BringUpStagesTakeEffect : Prop :=
  ∀ (s : State) (r : StageRes),
    let stage := s.get R.ERR_BRING_STAGE
    let out : Prop := s.get R.ERR_BRING_DONE = 1 ∨ s.get R.ERR_BRING_HALTED = 1 ∨ s.pw.asleep = true ∨ s.get R.PWR_STS_SHUTDOWN = 1
    let x := exec (.bringUpStageEnd r) s
    let timed (t : State) (n : Nat) : Ans := .next ((t.put R.ERR_BRING_STAGE n).setReg R.ERR_BRING_T (s.time 0))
    let halted (block bit : Nat) : Prop := ∃ u : State, x = .next u ∧ u.get R.ERR_BRING_STAGE = stage ∧ u.get R.ERR_BRING_HALTED = 1 ∧
      u.get R.ERR_BRING_BLOCK = block ∧ u.get R.ERR_BRING_BIT = bit ∧ u.get R.ERR_BRING_DONE = 0
    (out → x = .next s) ∧
    (¬ out →
      (stage = 0 → s.get R.SEC_STS_STAGE = 1 →
        x = timed (({ s with pw := { s.pw with pwrgd := true } } : State).put R.PWR_DOM_STS_POWERED (2 ^ 50 - 1)) 1) ∧
      (stage = 0 → s.get R.SEC_STS_STAGE = 2 → halted 2 0) ∧
      (stage = 0 → s.get R.SEC_STS_STAGE ≠ 1 → s.get R.SEC_STS_STAGE ≠ 2 → x = .next s) ∧
      (stage = 1 → s.pw.rstLow = true ∨ s.pw.pwrgd = false ∨ s.get R.PWR_STS_NV_OK = 0 → x = .next s) ∧
      (stage = 1 → s.pw.rstLow = false → s.pw.pwrgd = true → s.get R.PWR_STS_NV_OK = 1 → x = timed s 2) ∧
      (stage = 2 → s.get R.PWR_STS_NV_OK = 0 → x = .next s) ∧
      (stage = 2 → s.get R.PWR_STS_NV_OK = 1 → r.written = false → halted 2 R.SEC_ERR_BFW_FAIL.lo) ∧
      (stage = 2 → s.get R.PWR_STS_NV_OK = 1 → r.written = true → ∃ u, x = .next u ∧ u.get R.ERR_BRING_STAGE = 3 ∧
        u.get R.TWN_EPOCH_EPOCH = (s.bootCtl.epoch + 1) % 2 ^ 32 ∧ u.mem = s.mem ∧ u.x = s.x ∧
        u.bootCtl = { s.bootCtl with seq := s.bootCtl.seq + 1, valid := true, epoch := (s.bootCtl.epoch + 1) % 2 ^ 32 } ∧
        ((∀ c ∈ s.se.store, c.valid = true ∧ { c with seq := s.keyStore.seq } = s.keyStore) → u.se.store = s.se.store) ∧
        ((∃ c ∈ s.se.store, c.valid = false ∨ { c with seq := s.keyStore.seq } ≠ s.keyStore) →
          u.keyStore = { s.keyStore with seq := s.keyStore.seq + 1, valid := true })) ∧
      (stage = 3 →
        let t := r.groups.foldl State.groupFails s
        let none_ : Prop := ∀ n, n < 16 → t.get (R.MEM_STACK_GROUPS_RETIRED n) = 255
        (none_ → ∃ u, x = .next u ∧ u.get R.ERR_BRING_HALTED = 1 ∧ u.get R.ERR_BRING_BLOCK = 9 ∧
          u.get R.ERR_BRING_BIT = R.MEM_ERR_GROUP_RETIRED.lo) ∧
        (¬ none_ → ∃ u, x = .next u ∧ u.get R.ERR_BRING_STAGE = 4)) ∧
      (stage = 4 →
        let t := r.channels.foldl State.channelFail s
        (t.get R.CEL_STS_CH_FAIL = 2 ^ 32 - 1 → ∃ u, x = .next u ∧ u.get R.ERR_BRING_HALTED = 1 ∧ u.get R.ERR_BRING_BLOCK = 8 ∧
          u.get R.ERR_BRING_BIT = R.CEL_ERR_CHANNEL_FAIL.lo) ∧
        (t.get R.CEL_STS_CH_FAIL ≠ 2 ^ 32 - 1 → ∃ u, x = .next u ∧
          (u.get R.CEL_CTL_EN = 1 → u.get R.ERR_BRING_STAGE = 5 ∧ u.get R.CEL_STORE_STORE = s.nv.regions.1 % 2 ^ R.CEL_STORE_STORE.w ∧
            u.get R.CEL_SPILL_SPILL = s.nv.regions.2 % 2 ^ R.CEL_SPILL_SPILL.w))) ∧
      (stage = 5 → r.engines = [] → r.scans = [] → r.tokLanes = [] → r.detLanes = [] → r.maskLanes = [] → x = timed s 6) ∧
      (stage = 5 → ∃ u, x = .next u ∧ u.get R.ERR_BRING_STAGE = 6 ∧ u.mem = s.mem) ∧
      (stage = 6 → ∃ u, x = .next u ∧ u.mem = s.mem ∧ ((∀ n, n < 4 → u.get (R.HST_CTL_EN n) = 1) → u.get R.ERR_BRING_STAGE = 7) ∧
        (∀ n, n < 4 → u.get (R.HST_CTL_EN n) = 1 → u.get (R.HST_CTL_MANAGE n) = 1)) ∧
      (7 ≤ stage → ∃ u, x = .next u ∧ ((u.get R.MEM_CTL_EN = 0 ∧ u.get R.ERR_BRING_DONE = 0 ∧ u.nv = s.nv) ∨
        (u.get R.ERR_BRING_DONE = 1 ∧ u.get R.ERR_BRING_STAGE = 7))))
end

