-- ==== Sys2Proof/Laws/Mem.lean ====
section
/-!
SUPPORT. The laws of memory: every operation keeps the canonical form, a read after a write gives the value written, and a
write leaves every other byte alone.
-/
namespace Sys2Proof.Machine

/-- Whether every address of a memory is above a bound, with the form of memories, in one recursion. -/
def memAbove (lo : Nat) : List Host.Cell → Bool
  | [] => true
  | (a, b) :: t => decide (lo ≤ a) && b != unlisted && memAbove (a + 1) t

theorem memWf_cons (a : Nat) (b : Byte) (t : List Host.Cell) :
    memWf ((a, b) :: t) = (b != unlisted && memAbove (a + 1) t) := by
  induction t generalizing a b with
  | nil => simp [memWf, memAbove]
  | cons p t ih =>
    obtain ⟨a', b'⟩ := p
    rw [memWf, ih]
    simp only [memAbove, Nat.succ_le_iff]
    cases h1 : (b != unlisted) <;> simp [Bool.and_assoc]

theorem memWf_eq_above (m : List Host.Cell) : memWf m = memAbove 0 m := by
  cases m with
  | nil => rfl
  | cons p t => obtain ⟨a, b⟩ := p; simp [memWf_cons, memAbove]

theorem memAbove_mono {lo hi : Nat} (h : lo ≤ hi) {m : List Host.Cell} (hm : memAbove hi m = true) : memAbove lo m = true := by
  cases m with
  | nil => rfl
  | cons p t =>
    obtain ⟨a, b⟩ := p
    simp only [memAbove, Bool.and_eq_true, decide_eq_true_eq] at hm ⊢
    exact ⟨⟨Nat.le_trans h hm.1.1, hm.1.2⟩, hm.2⟩

theorem memGet_below {lo x : Nat} {m : List Host.Cell} (hm : memAbove lo m = true) (h : x < lo) : memGet m x = unlisted := by
  cases m with
  | nil => rfl
  | cons p t =>
    obtain ⟨a, b⟩ := p
    simp only [memAbove, Bool.and_eq_true, decide_eq_true_eq] at hm
    have : x ≠ a := by omega
    have : x < a := by omega
    simp [memGet, *]

/-- Every write keeps the form. -/
theorem memAbove_memSet {lo : Nat} {m : List Host.Cell} (hm : memAbove lo m = true) (a : Nat) (b : Byte) (ha : lo ≤ a) :
    memAbove lo (memSet m a b) = true := by
  induction m generalizing lo with
  | nil => by_cases hb : b = unlisted <;> simp [memSet, memCons, memAbove, hb, ha]
  | cons p t ih =>
    obtain ⟨k, v⟩ := p
    simp only [memAbove, Bool.and_eq_true, decide_eq_true_eq] at hm
    obtain ⟨⟨hk, hv⟩, ht⟩ := hm
    unfold memSet
    by_cases h1 : a = k
    · subst h1
      by_cases hb : b = unlisted
      · simp [memCons, hb]; exact memAbove_mono (by omega) ht
      · simp [memCons, hb, memAbove, ha, ht]
    · by_cases h2 : a < k
      · by_cases hb : b = unlisted
        · simp [h1, h2, memCons, hb, memAbove, hk, hv, ht]
        · have h3 : a + 1 ≤ k := h2
          simp [h1, h2, h3, memCons, hb, memAbove, ha, hv, ht]
      · simp [h1, h2, memAbove, hk, hv]; exact ih ht (by omega)

theorem memGet_memSet {lo : Nat} {m : List Host.Cell} (hm : memAbove lo m = true) (a x : Nat) (b : Byte) :
    memGet (memSet m a b) x = if x = a then b else memGet m x := by
  induction m generalizing lo with
  | nil =>
    by_cases hb : b = unlisted <;> by_cases hx : x = a <;> by_cases hl : x < a <;> simp [memSet, memCons, memGet, hb, hx, hl]
  | cons p t ih =>
    obtain ⟨k, v⟩ := p
    simp only [memAbove, Bool.and_eq_true, decide_eq_true_eq] at hm
    obtain ⟨⟨hk, hv⟩, ht⟩ := hm
    unfold memSet
    by_cases h1 : a = k
    · subst h1
      by_cases hb : b = unlisted
      · simp only [memCons, hb, if_true]
        by_cases hx : x = a
        · subst hx; rw [memGet_below ht (by omega)]; simp
        · by_cases hl : x < a
          · simp [memGet, hx, hl]; exact memGet_below ht (by omega)
          · simp [memGet, hx, hl]
      · by_cases hx : x = a <;> by_cases hl : x < a <;> simp [memCons, hb, memGet, hx, hl]
    · by_cases h2 : a < k
      · by_cases hb : b = unlisted
        · by_cases hx : x = a
          · subst hx; simp [h1, h2, memCons, hb, memGet]
          · simp [h1, h2, memCons, hb, hx]
        · by_cases hx : x = a
          · subst hx; simp [h1, h2, memCons, hb, memGet]
          · by_cases hl : x < a
            · have : x ≠ k := by omega
              have : x < k := by omega
              simp [memCons, memGet, *]
            · simp [h1, h2, memCons, hb, memGet, hx, hl]
      · simp only [h1, h2, if_false, memGet]
        rw [ih ht]
        by_cases hx : x = a
        · subst hx; simp [h1, h2]
        · simp [hx]

theorem memAbove_memSetRun {m : List Host.Cell} (hm : memAbove 0 m = true) (a : Nat) (bs : List Byte) :
    memAbove 0 (memSetRun m a bs) = true := by
  induction bs generalizing m a with
  | nil => simpa [memSetRun] using hm
  | cons b bs ih => exact ih (memAbove_memSet hm a b (by omega)) (a + 1)

/-- What a byte reads as after a run of bytes is written. -/
theorem memGet_memSetRun {m : List Host.Cell} (hm : memAbove 0 m = true) (a x : Nat) (bs : List Byte) :
    memGet (memSetRun m a bs) x = if a ≤ x then (bs[x - a]?).getD (memGet m x) else memGet m x := by
  induction bs generalizing m a with
  | nil => simp [memSetRun]
  | cons b bs ih =>
    rw [memSetRun, ih (memAbove_memSet hm a b (by omega)), memGet_memSet hm]
    by_cases h1 : x = a
    · subst h1
      have h4 : ¬ x + 1 ≤ x := by omega
      simp [h4]
    · by_cases h2 : a ≤ x
      · have h3 : a + 1 ≤ x := by omega
        obtain ⟨d, rfl⟩ : ∃ d, x = a + 1 + d := ⟨x - (a + 1), by omega⟩
        have e : a + 1 + d - a = d + 1 := by omega
        have h4 : ¬ a + 1 + d < a := by omega
        simp [h1, h4, e]
      · have h3 : ¬ a + 1 ≤ x := by omega
        simp [h1, h2, h3]

theorem memAbove_filter {lo : Nat} {m : List Host.Cell} (hm : memAbove lo m = true) (f : Host.Cell → Bool) :
    memAbove lo (m.filter f) = true := by
  induction m generalizing lo with
  | nil => simpa using hm
  | cons p t ih =>
    obtain ⟨k, v⟩ := p
    simp only [memAbove, Bool.and_eq_true, decide_eq_true_eq] at hm
    obtain ⟨⟨hk, hv⟩, ht⟩ := hm
    by_cases hf : f (k, v) = true
    · simp only [List.filter_cons_of_pos hf, memAbove, Bool.and_eq_true, decide_eq_true_eq]
      exact ⟨⟨hk, hv⟩, ih ht⟩
    · rw [List.filter_cons_of_neg hf]; exact memAbove_mono (by omega) (ih ht)

theorem memGet_memClear {lo : Nat} {m : List Host.Cell} (hm : memAbove lo m = true) (a n x : Nat) :
    memGet (memClear m a n) x = if a ≤ x ∧ x < a + n then unlisted else memGet m x := by
  induction m generalizing lo with
  | nil => simp [memClear, memGet]
  | cons p t ih =>
    obtain ⟨k, v⟩ := p
    simp only [memAbove, Bool.and_eq_true, decide_eq_true_eq] at hm
    obtain ⟨⟨hk, hv⟩, ht⟩ := hm
    have ih' : memGet (memClear t a n) x = if a ≤ x ∧ x < a + n then unlisted else memGet t x := ih ht
    by_cases hf : (decide (k < a) || decide (a + n ≤ k)) = true
    · have e : memClear ((k, v) :: t) a n = (k, v) :: memClear t a n := by
        simp only [memClear]; exact List.filter_cons_of_pos (by simpa using hf)
      rw [e]; simp only [memGet]; rw [ih']
      simp only [Bool.or_eq_true, decide_eq_true_eq] at hf
      by_cases hx : x = k
      · subst hx; have : ¬ (a ≤ x ∧ x < a + n) := by omega
        simp [this]
      · by_cases hl : x < k
        · simp [hx, hl]
        · simp [hx, hl]
    · have e : memClear ((k, v) :: t) a n = memClear t a n := by
        simp only [memClear]; exact List.filter_cons_of_neg (by simpa using hf)
      rw [e, ih']
      simp only [Bool.or_eq_true, decide_eq_true_eq, not_or] at hf
      simp only [memGet]
      by_cases hx : x = k
      · subst hx; have : a ≤ x ∧ x < a + n := by omega
        simp [this]
      · by_cases hl : x < k
        · simp only [hx, hl, if_false, if_true]
          rw [memGet_below ht (by omega)]
        · simp [hx, hl]

/-! ## By the names of the model -/

theorem memWf_memSet {m : List Host.Cell} (hm : memWf m = true) (a : Nat) (b : Byte) : memWf (memSet m a b) = true := by
  rw [memWf_eq_above] at hm ⊢; exact memAbove_memSet hm a b (by omega)

theorem memWf_memSetRun {m : List Host.Cell} (hm : memWf m = true) (a : Nat) (bs : List Byte) :
    memWf (memSetRun m a bs) = true := by
  rw [memWf_eq_above] at hm ⊢; exact memAbove_memSetRun hm a bs

theorem memWf_memClear {m : List Host.Cell} (hm : memWf m = true) (a n : Nat) : memWf (memClear m a n) = true := by
  rw [memWf_eq_above] at hm ⊢; exact memAbove_filter hm _

theorem State.writeRun_wf {s : State} (h : memWf s.mem = true) (k : Nat) (bs : List Byte) : memWf (s.writeRun k bs).mem = true :=
  memWf_memSetRun h k bs

theorem State.clearRun_wf {s : State} (h : memWf s.mem = true) (k n : Nat) : memWf (s.clearRun k n).mem = true :=
  memWf_memClear h k n

/-- A byte after a run is written: the byte of the run, or as before. -/
theorem State.byte_writeRun {s : State} (h : memWf s.mem = true) (k x : Nat) (bs : List Byte) :
    (s.writeRun k bs).byte x = if k ≤ x then (bs[x - k]?).getD (s.byte x) else s.byte x :=
  memGet_memSetRun (by rwa [← memWf_eq_above]) k x bs

/-- A byte after a run is cleared. -/
theorem State.byte_clearRun {s : State} (h : memWf s.mem = true) (k n x : Nat) :
    (s.clearRun k n).byte x = if k ≤ x ∧ x < k + n then unlisted else s.byte x :=
  memGet_memClear (by rwa [← memWf_eq_above]) k n x

/-- The memory after reset is in form. -/
theorem reset_memWf : memWf State.reset.mem = true := rfl

/-- A memory read back: a run that has just been written. -/
theorem State.run_getElem (m : List Host.Cell) (a n i : Nat) (h : i < n) : (memRun m a n)[i]? = some (memGet m (a + i)) := by
  induction n generalizing a i with
  | zero => omega
  | succ n ih =>
    cases i with
    | zero => simp [memRun]
    | succ i =>
      simp only [memRun, List.getElem?_cons_succ]
      rw [ih (a + 1) i (by omega)]
      congr 2; omega

end Sys2Proof.Machine
end

