-- ==== Sys2Proof/Laws/Tab.lean ====
section
/-!
SUPPORT. The laws of sparse tables and of the accessors over them: an entry read back after it is set, deleted or changed, and
the fields that each accessor leaves alone.
-/
namespace Sys2Proof.Machine

/-- Whether a table's numbers rise strictly from a bound. -/
def tabAbove {α : Type} : Nat → Tab α → Bool
  | _, [] => true
  | lo, (k, _) :: t => decide (lo ≤ k) && tabAbove (k + 1) t

theorem tabAbove_mono {α : Type} {lo hi : Nat} (h : lo ≤ hi) {t : Tab α} (ht : tabAbove hi t = true) : tabAbove lo t = true := by
  cases t with
  | nil => rfl
  | cons p t =>
    obtain ⟨k, v⟩ := p
    simp only [tabAbove, Bool.and_eq_true, decide_eq_true_eq] at ht ⊢
    exact ⟨Nat.le_trans h ht.1, ht.2⟩

theorem tfind_below {α : Type} {lo i : Nat} {t : Tab α} (ht : tabAbove lo t = true) (h : i < lo) : tfind t i = none := by
  cases t with
  | nil => rfl
  | cons p t =>
    obtain ⟨k, v⟩ := p
    simp only [tabAbove, Bool.and_eq_true, decide_eq_true_eq] at ht
    have h1 : i ≠ k := by omega
    have h2 : i < k := by omega
    simp [tfind, h1, h2]

/-- An entry read after an entry is set: no form of the table is asked. -/
theorem tfind_tset {α : Type} (t : Tab α) (i j : Nat) (x : α) : tfind (tset t i x) j = if j = i then some x else tfind t j := by
  induction t with
  | nil => by_cases h : j = i <;> by_cases h2 : j < i <;> simp [tset, tfind, h, h2]
  | cons p t ih =>
    obtain ⟨k, v⟩ := p
    unfold tset
    by_cases h1 : i = k
    · subst h1; by_cases h : j = i <;> by_cases h2 : j < i <;> simp [tfind, h, h2]
    · by_cases h2 : i < k
      · by_cases h : j = i
        · subst h; simp [h1, h2, tfind]
        · by_cases h3 : j < i
          · have h4 : j ≠ k := by omega
            have h5 : j < k := by omega
            simp [h1, h2, tfind, h, h3, h4, h5]
          · simp [h1, h2, tfind, h, h3]
      · simp only [h1, h2, if_false, tfind, ih]
        by_cases h : j = i
        · subst h; simp [h1, h2]
        · simp [h]

theorem tget_tset {α : Type} (t : Tab α) (i j : Nat) (x d : α) : tget (tset t i x) j d = if j = i then x else tget t j d := by
  simp only [tget, tfind_tset]; split <;> rfl

theorem tabAbove_tset {α : Type} {lo : Nat} {t : Tab α} (ht : tabAbove lo t = true) (i : Nat) (x : α) (h : lo ≤ i) :
    tabAbove lo (tset t i x) = true := by
  induction t generalizing lo with
  | nil => simp [tset, tabAbove, h]
  | cons p t ih =>
    obtain ⟨k, v⟩ := p
    simp only [tabAbove, Bool.and_eq_true, decide_eq_true_eq] at ht
    unfold tset
    by_cases h1 : i = k
    · subst h1; simp [tabAbove, h, ht.2]
    · by_cases h2 : i < k
      · have h3 : i + 1 ≤ k := h2
        simp [h1, h2, h3, tabAbove, h, ht.2]
      · simp [h1, h2, tabAbove, ht.1]; exact ih ht.2 (by omega)

theorem tabAbove_tdel {α : Type} {lo : Nat} {t : Tab α} (ht : tabAbove lo t = true) (i : Nat) : tabAbove lo (tdel t i) = true := by
  induction t generalizing lo with
  | nil => rfl
  | cons p t ih =>
    obtain ⟨k, v⟩ := p
    simp only [tabAbove, Bool.and_eq_true, decide_eq_true_eq] at ht
    unfold tdel
    by_cases h1 : i = k
    · simp [h1]; exact tabAbove_mono (by omega) ht.2
    · simp [h1, tabAbove, ht.1]; exact ih ht.2

theorem tfind_tdel {α : Type} {lo : Nat} {t : Tab α} (ht : tabAbove lo t = true) (i j : Nat) :
    tfind (tdel t i) j = if j = i then none else tfind t j := by
  induction t generalizing lo with
  | nil => simp [tdel, tfind]
  | cons p t ih =>
    obtain ⟨k, v⟩ := p
    simp only [tabAbove, Bool.and_eq_true, decide_eq_true_eq] at ht
    unfold tdel
    by_cases h1 : i = k
    · subst h1
      by_cases h : j = i
      · subst h; simp; exact tfind_below ht.2 (by omega)
      · by_cases h2 : j < i
        · simp [h, h2, tfind]; exact tfind_below ht.2 (by omega)
        · simp [h, h2, tfind]
    · simp only [h1, if_false, tfind, ih ht.2]
      by_cases h : j = i
      · subst h; simp [h1]
      · simp [h]

/-! ## Accessors -/

@[simp] theorem State.core_setCore (s : State) (c d : Nat) (k : Core) :
    (s.setCore c k).core d = if d = c then k else s.core d := by
  simp only [State.core, State.setCore, tget_tset]

@[simp] theorem State.cmd_setCmd (s : State) (t u : Nat) (c : Cmd) : (s.setCmd t c).cmd u = if u = t then some c else s.cmd u := by
  simp only [State.cmd, State.setCmd, tfind_tset]

@[simp] theorem State.well_setWell (s : State) (n m : Nat) (w : Well) : (s.setWell n w).well m = if m = n then w else s.well m := by
  simp only [State.well, State.setWell, tget_tset]

@[simp] theorem State.page_setPage (s : State) (k j : Nat) (p : Page) : (s.setPage k p).page j = if j = k then some p else s.page j := by
  simp only [State.page, State.setPage, tfind_tset]

/-- A register read after a register is set. -/
@[simp] theorem State.reg_setReg (s : State) (a b v : Nat) : (s.setReg a v).reg b = if b = a then Machine.word v else s.reg b := by
  simp only [State.reg, State.setReg, tfind_tset]
  by_cases h : b = a <;> simp [h]

/-- A field of another register is as before. -/
theorem State.get_put_other (s : State) (f g : Field) (v : Nat) (h : g.reg ≠ f.reg) : (s.put f v).get g = s.get g := by
  simp [State.get, State.put, h]

@[simp] theorem State.setCmd_core (s : State) (t c : Nat) (m : Cmd) : (s.setCmd t m).core c = s.core c := rfl
@[simp] theorem State.setCore_cmd (s : State) (t c : Nat) (k : Core) : (s.setCore c k).cmd t = s.cmd t := rfl
@[simp] theorem State.setCore_well (s : State) (n c : Nat) (k : Core) : (s.setCore c k).well n = s.well n := rfl
@[simp] theorem State.setCmd_well (s : State) (n t : Nat) (m : Cmd) : (s.setCmd t m).well n = s.well n := rfl
@[simp] theorem State.setCore_queue (s : State) (q c : Nat) (k : Core) : (s.setCore c k).queue q = s.queue q := rfl
@[simp] theorem State.setCmd_queue (s : State) (q t : Nat) (m : Cmd) : (s.setCmd t m).queue q = s.queue q := rfl
@[simp] theorem State.setReg_core (s : State) (a v c : Nat) : (s.setReg a v).core c = s.core c := rfl
@[simp] theorem State.put_core (s : State) (f : Field) (v c : Nat) : (s.put f v).core c = s.core c := rfl
@[simp] theorem State.put_cmd (s : State) (f : Field) (v t : Nat) : (s.put f v).cmd t = s.cmd t := rfl
@[simp] theorem State.put_page (s : State) (f : Field) (v k : Nat) : (s.put f v).page k = s.page k := rfl
@[simp] theorem State.setPage_core (s : State) (k c : Nat) (p : Page) : (s.setPage k p).core c = s.core c := rfl
@[simp] theorem State.setPage_cmd (s : State) (k t : Nat) (p : Page) : (s.setPage k p).cmd t = s.cmd t := rfl
@[simp] theorem State.setCore_byte (s : State) (c k : Nat) (m : Core) : (s.setCore c m).byte k = s.byte k := rfl
@[simp] theorem State.setCmd_byte (s : State) (t k : Nat) (m : Cmd) : (s.setCmd t m).byte k = s.byte k := rfl
@[simp] theorem State.put_byte (s : State) (f : Field) (v k : Nat) : (s.put f v).byte k = s.byte k := rfl
@[simp] theorem State.setPage_byte (s : State) (pk k : Nat) (p : Page) : (s.setPage pk p).byte k = s.byte k := rfl

end Sys2Proof.Machine
end

