-- ==== Sys2Proof/Laws/State.lean ====
section
/-!
SUPPORT. What each update of State leaves alone: one law for each field and each update.
-/
namespace Sys2Proof.Machine

@[simp] theorem State.setCore_pending (s : State) (c : Nat) (k : Core) : (s.setCore c k).pending = s.pending := rfl
@[simp] theorem State.setCore_cw (s : State) (c : Nat) (k : Core) : (s.setCore c k).cw = s.cw := rfl
@[simp] theorem State.setCore_mem (s : State) (c : Nat) (k : Core) : (s.setCore c k).mem = s.mem := rfl
@[simp] theorem State.setCore_vm (s : State) (c : Nat) (k : Core) : (s.setCore c k).vm = s.vm := rfl
@[simp] theorem State.setCore_en (s : State) (c : Nat) (k : Core) : (s.setCore c k).en = s.en := rfl
@[simp] theorem State.setCore_tx (s : State) (c : Nat) (k : Core) : (s.setCore c k).tx = s.tx := rfl
@[simp] theorem State.setCore_fa (s : State) (c : Nat) (k : Core) : (s.setCore c k).fa = s.fa := rfl
@[simp] theorem State.setCore_em (s : State) (c : Nat) (k : Core) : (s.setCore c k).em = s.em := rfl
@[simp] theorem State.setCore_sv (s : State) (c : Nat) (k : Core) : (s.setCore c k).sv = s.sv := rfl
@[simp] theorem State.setCore_sc (s : State) (c : Nat) (k : Core) : (s.setCore c k).sc = s.sc := rfl
@[simp] theorem State.setCore_pt (s : State) (c : Nat) (k : Core) : (s.setCore c k).pt = s.pt := rfl
@[simp] theorem State.setCore_ho (s : State) (c : Nat) (k : Core) : (s.setCore c k).ho = s.ho := rfl
@[simp] theorem State.setCore_checks (s : State) (c : Nat) (k : Core) : (s.setCore c k).checks = s.checks := rfl
@[simp] theorem State.setCore_tw (s : State) (c : Nat) (k : Core) : (s.setCore c k).tw = s.tw := rfl
@[simp] theorem State.setCore_pw (s : State) (c : Nat) (k : Core) : (s.setCore c k).pw = s.pw := rfl
@[simp] theorem State.setCore_se (s : State) (c : Nat) (k : Core) : (s.setCore c k).se = s.se := rfl
@[simp] theorem State.setCore_sb (s : State) (c : Nat) (k : Core) : (s.setCore c k).sb = s.sb := rfl
@[simp] theorem State.setCore_nv (s : State) (c : Nat) (k : Core) : (s.setCore c k).nv = s.nv := rfl
@[simp] theorem State.setCore_cx (s : State) (c : Nat) (k : Core) : (s.setCore c k).cx = s.cx := rfl

@[simp] theorem State.setCmd_pending (s : State) (t : Nat) (c : Cmd) : (s.setCmd t c).pending = s.pending := rfl
@[simp] theorem State.setCmd_cw (s : State) (t : Nat) (c : Cmd) : (s.setCmd t c).cw = s.cw := rfl
@[simp] theorem State.setCmd_mem (s : State) (t : Nat) (c : Cmd) : (s.setCmd t c).mem = s.mem := rfl
@[simp] theorem State.setCmd_vm (s : State) (t : Nat) (c : Cmd) : (s.setCmd t c).vm = s.vm := rfl
@[simp] theorem State.setCmd_en (s : State) (t : Nat) (c : Cmd) : (s.setCmd t c).en = s.en := rfl
@[simp] theorem State.setCmd_tx (s : State) (t : Nat) (c : Cmd) : (s.setCmd t c).tx = s.tx := rfl
@[simp] theorem State.setCmd_fa (s : State) (t : Nat) (c : Cmd) : (s.setCmd t c).fa = s.fa := rfl
@[simp] theorem State.setCmd_em (s : State) (t : Nat) (c : Cmd) : (s.setCmd t c).em = s.em := rfl
@[simp] theorem State.setCmd_sv (s : State) (t : Nat) (c : Cmd) : (s.setCmd t c).sv = s.sv := rfl
@[simp] theorem State.setCmd_sc (s : State) (t : Nat) (c : Cmd) : (s.setCmd t c).sc = s.sc := rfl
@[simp] theorem State.setCmd_pt (s : State) (t : Nat) (c : Cmd) : (s.setCmd t c).pt = s.pt := rfl
@[simp] theorem State.setCmd_ho (s : State) (t : Nat) (c : Cmd) : (s.setCmd t c).ho = s.ho := rfl
@[simp] theorem State.setCmd_checks (s : State) (t : Nat) (c : Cmd) : (s.setCmd t c).checks = s.checks := rfl
@[simp] theorem State.setCmd_tw (s : State) (t : Nat) (c : Cmd) : (s.setCmd t c).tw = s.tw := rfl
@[simp] theorem State.setCmd_pw (s : State) (t : Nat) (c : Cmd) : (s.setCmd t c).pw = s.pw := rfl
@[simp] theorem State.setCmd_se (s : State) (t : Nat) (c : Cmd) : (s.setCmd t c).se = s.se := rfl
@[simp] theorem State.setCmd_sb (s : State) (t : Nat) (c : Cmd) : (s.setCmd t c).sb = s.sb := rfl
@[simp] theorem State.setCmd_nv (s : State) (t : Nat) (c : Cmd) : (s.setCmd t c).nv = s.nv := rfl
@[simp] theorem State.setCmd_cx (s : State) (t : Nat) (c : Cmd) : (s.setCmd t c).cx = s.cx := rfl

@[simp] theorem State.setWell_pending (s : State) (n : Nat) (w : Well) : (s.setWell n w).pending = s.pending := rfl
@[simp] theorem State.setWell_cw (s : State) (n : Nat) (w : Well) : (s.setWell n w).cw = s.cw := rfl
@[simp] theorem State.setWell_mem (s : State) (n : Nat) (w : Well) : (s.setWell n w).mem = s.mem := rfl
@[simp] theorem State.setWell_vm (s : State) (n : Nat) (w : Well) : (s.setWell n w).vm = s.vm := rfl
@[simp] theorem State.setWell_en (s : State) (n : Nat) (w : Well) : (s.setWell n w).en = s.en := rfl
@[simp] theorem State.setWell_tx (s : State) (n : Nat) (w : Well) : (s.setWell n w).tx = s.tx := rfl
@[simp] theorem State.setWell_fa (s : State) (n : Nat) (w : Well) : (s.setWell n w).fa = s.fa := rfl
@[simp] theorem State.setWell_em (s : State) (n : Nat) (w : Well) : (s.setWell n w).em = s.em := rfl
@[simp] theorem State.setWell_sv (s : State) (n : Nat) (w : Well) : (s.setWell n w).sv = s.sv := rfl
@[simp] theorem State.setWell_sc (s : State) (n : Nat) (w : Well) : (s.setWell n w).sc = s.sc := rfl
@[simp] theorem State.setWell_pt (s : State) (n : Nat) (w : Well) : (s.setWell n w).pt = s.pt := rfl
@[simp] theorem State.setWell_ho (s : State) (n : Nat) (w : Well) : (s.setWell n w).ho = s.ho := rfl
@[simp] theorem State.setWell_checks (s : State) (n : Nat) (w : Well) : (s.setWell n w).checks = s.checks := rfl
@[simp] theorem State.setWell_tw (s : State) (n : Nat) (w : Well) : (s.setWell n w).tw = s.tw := rfl
@[simp] theorem State.setWell_pw (s : State) (n : Nat) (w : Well) : (s.setWell n w).pw = s.pw := rfl
@[simp] theorem State.setWell_se (s : State) (n : Nat) (w : Well) : (s.setWell n w).se = s.se := rfl
@[simp] theorem State.setWell_sb (s : State) (n : Nat) (w : Well) : (s.setWell n w).sb = s.sb := rfl
@[simp] theorem State.setWell_nv (s : State) (n : Nat) (w : Well) : (s.setWell n w).nv = s.nv := rfl
@[simp] theorem State.setWell_cx (s : State) (n : Nat) (w : Well) : (s.setWell n w).cx = s.cx := rfl

@[simp] theorem State.setPage_pending (s : State) (pk : Nat) (p : Page) : (s.setPage pk p).pending = s.pending := rfl
@[simp] theorem State.setPage_cw (s : State) (pk : Nat) (p : Page) : (s.setPage pk p).cw = s.cw := rfl
@[simp] theorem State.setPage_mem (s : State) (pk : Nat) (p : Page) : (s.setPage pk p).mem = s.mem := rfl
@[simp] theorem State.setPage_x (s : State) (pk : Nat) (p : Page) : (s.setPage pk p).x = s.x := rfl
@[simp] theorem State.setPage_en (s : State) (pk : Nat) (p : Page) : (s.setPage pk p).en = s.en := rfl
@[simp] theorem State.setPage_tx (s : State) (pk : Nat) (p : Page) : (s.setPage pk p).tx = s.tx := rfl
@[simp] theorem State.setPage_fa (s : State) (pk : Nat) (p : Page) : (s.setPage pk p).fa = s.fa := rfl
@[simp] theorem State.setPage_em (s : State) (pk : Nat) (p : Page) : (s.setPage pk p).em = s.em := rfl
@[simp] theorem State.setPage_sv (s : State) (pk : Nat) (p : Page) : (s.setPage pk p).sv = s.sv := rfl
@[simp] theorem State.setPage_sc (s : State) (pk : Nat) (p : Page) : (s.setPage pk p).sc = s.sc := rfl
@[simp] theorem State.setPage_pt (s : State) (pk : Nat) (p : Page) : (s.setPage pk p).pt = s.pt := rfl
@[simp] theorem State.setPage_ho (s : State) (pk : Nat) (p : Page) : (s.setPage pk p).ho = s.ho := rfl
@[simp] theorem State.setPage_checks (s : State) (pk : Nat) (p : Page) : (s.setPage pk p).checks = s.checks := rfl
@[simp] theorem State.setPage_tw (s : State) (pk : Nat) (p : Page) : (s.setPage pk p).tw = s.tw := rfl
@[simp] theorem State.setPage_pw (s : State) (pk : Nat) (p : Page) : (s.setPage pk p).pw = s.pw := rfl
@[simp] theorem State.setPage_se (s : State) (pk : Nat) (p : Page) : (s.setPage pk p).se = s.se := rfl
@[simp] theorem State.setPage_sb (s : State) (pk : Nat) (p : Page) : (s.setPage pk p).sb = s.sb := rfl
@[simp] theorem State.setPage_nv (s : State) (pk : Nat) (p : Page) : (s.setPage pk p).nv = s.nv := rfl
@[simp] theorem State.setPage_cx (s : State) (pk : Nat) (p : Page) : (s.setPage pk p).cx = s.cx := rfl

@[simp] theorem State.modPage_pending (s : State) (pk : Nat) (f : Page → Page) : (s.modPage pk f).pending = s.pending := rfl
@[simp] theorem State.modPage_cw (s : State) (pk : Nat) (f : Page → Page) : (s.modPage pk f).cw = s.cw := rfl
@[simp] theorem State.modPage_mem (s : State) (pk : Nat) (f : Page → Page) : (s.modPage pk f).mem = s.mem := rfl
@[simp] theorem State.modPage_x (s : State) (pk : Nat) (f : Page → Page) : (s.modPage pk f).x = s.x := rfl
@[simp] theorem State.modPage_en (s : State) (pk : Nat) (f : Page → Page) : (s.modPage pk f).en = s.en := rfl
@[simp] theorem State.modPage_tx (s : State) (pk : Nat) (f : Page → Page) : (s.modPage pk f).tx = s.tx := rfl
@[simp] theorem State.modPage_fa (s : State) (pk : Nat) (f : Page → Page) : (s.modPage pk f).fa = s.fa := rfl
@[simp] theorem State.modPage_em (s : State) (pk : Nat) (f : Page → Page) : (s.modPage pk f).em = s.em := rfl
@[simp] theorem State.modPage_sv (s : State) (pk : Nat) (f : Page → Page) : (s.modPage pk f).sv = s.sv := rfl
@[simp] theorem State.modPage_sc (s : State) (pk : Nat) (f : Page → Page) : (s.modPage pk f).sc = s.sc := rfl
@[simp] theorem State.modPage_pt (s : State) (pk : Nat) (f : Page → Page) : (s.modPage pk f).pt = s.pt := rfl
@[simp] theorem State.modPage_ho (s : State) (pk : Nat) (f : Page → Page) : (s.modPage pk f).ho = s.ho := rfl
@[simp] theorem State.modPage_checks (s : State) (pk : Nat) (f : Page → Page) : (s.modPage pk f).checks = s.checks := rfl
@[simp] theorem State.modPage_tw (s : State) (pk : Nat) (f : Page → Page) : (s.modPage pk f).tw = s.tw := rfl
@[simp] theorem State.modPage_pw (s : State) (pk : Nat) (f : Page → Page) : (s.modPage pk f).pw = s.pw := rfl
@[simp] theorem State.modPage_se (s : State) (pk : Nat) (f : Page → Page) : (s.modPage pk f).se = s.se := rfl
@[simp] theorem State.modPage_sb (s : State) (pk : Nat) (f : Page → Page) : (s.modPage pk f).sb = s.sb := rfl
@[simp] theorem State.modPage_nv (s : State) (pk : Nat) (f : Page → Page) : (s.modPage pk f).nv = s.nv := rfl
@[simp] theorem State.modPage_cx (s : State) (pk : Nat) (f : Page → Page) : (s.modPage pk f).cx = s.cx := rfl

@[simp] theorem State.setReg_pending (s : State) (a v : Nat) : (s.setReg a v).pending = s.pending := rfl
@[simp] theorem State.setReg_mem (s : State) (a v : Nat) : (s.setReg a v).mem = s.mem := rfl
@[simp] theorem State.setReg_x (s : State) (a v : Nat) : (s.setReg a v).x = s.x := rfl
@[simp] theorem State.setReg_vm (s : State) (a v : Nat) : (s.setReg a v).vm = s.vm := rfl
@[simp] theorem State.setReg_en (s : State) (a v : Nat) : (s.setReg a v).en = s.en := rfl
@[simp] theorem State.setReg_tx (s : State) (a v : Nat) : (s.setReg a v).tx = s.tx := rfl
@[simp] theorem State.setReg_fa (s : State) (a v : Nat) : (s.setReg a v).fa = s.fa := rfl
@[simp] theorem State.setReg_em (s : State) (a v : Nat) : (s.setReg a v).em = s.em := rfl
@[simp] theorem State.setReg_sv (s : State) (a v : Nat) : (s.setReg a v).sv = s.sv := rfl
@[simp] theorem State.setReg_sc (s : State) (a v : Nat) : (s.setReg a v).sc = s.sc := rfl
@[simp] theorem State.setReg_pt (s : State) (a v : Nat) : (s.setReg a v).pt = s.pt := rfl
@[simp] theorem State.setReg_ho (s : State) (a v : Nat) : (s.setReg a v).ho = s.ho := rfl
@[simp] theorem State.setReg_checks (s : State) (a v : Nat) : (s.setReg a v).checks = s.checks := rfl
@[simp] theorem State.setReg_tw (s : State) (a v : Nat) : (s.setReg a v).tw = s.tw := rfl
@[simp] theorem State.setReg_pw (s : State) (a v : Nat) : (s.setReg a v).pw = s.pw := rfl
@[simp] theorem State.setReg_se (s : State) (a v : Nat) : (s.setReg a v).se = s.se := rfl
@[simp] theorem State.setReg_sb (s : State) (a v : Nat) : (s.setReg a v).sb = s.sb := rfl
@[simp] theorem State.setReg_nv (s : State) (a v : Nat) : (s.setReg a v).nv = s.nv := rfl
@[simp] theorem State.setReg_cx (s : State) (a v : Nat) : (s.setReg a v).cx = s.cx := rfl

@[simp] theorem State.put_pending (s : State) (f : Field) (v : Nat) : (s.put f v).pending = s.pending := rfl
@[simp] theorem State.put_mem (s : State) (f : Field) (v : Nat) : (s.put f v).mem = s.mem := rfl
@[simp] theorem State.put_x (s : State) (f : Field) (v : Nat) : (s.put f v).x = s.x := rfl
@[simp] theorem State.put_vm (s : State) (f : Field) (v : Nat) : (s.put f v).vm = s.vm := rfl
@[simp] theorem State.put_en (s : State) (f : Field) (v : Nat) : (s.put f v).en = s.en := rfl
@[simp] theorem State.put_tx (s : State) (f : Field) (v : Nat) : (s.put f v).tx = s.tx := rfl
@[simp] theorem State.put_fa (s : State) (f : Field) (v : Nat) : (s.put f v).fa = s.fa := rfl
@[simp] theorem State.put_em (s : State) (f : Field) (v : Nat) : (s.put f v).em = s.em := rfl
@[simp] theorem State.put_sv (s : State) (f : Field) (v : Nat) : (s.put f v).sv = s.sv := rfl
@[simp] theorem State.put_sc (s : State) (f : Field) (v : Nat) : (s.put f v).sc = s.sc := rfl
@[simp] theorem State.put_pt (s : State) (f : Field) (v : Nat) : (s.put f v).pt = s.pt := rfl
@[simp] theorem State.put_ho (s : State) (f : Field) (v : Nat) : (s.put f v).ho = s.ho := rfl
@[simp] theorem State.put_checks (s : State) (f : Field) (v : Nat) : (s.put f v).checks = s.checks := rfl
@[simp] theorem State.put_tw (s : State) (f : Field) (v : Nat) : (s.put f v).tw = s.tw := rfl
@[simp] theorem State.put_pw (s : State) (f : Field) (v : Nat) : (s.put f v).pw = s.pw := rfl
@[simp] theorem State.put_se (s : State) (f : Field) (v : Nat) : (s.put f v).se = s.se := rfl
@[simp] theorem State.put_sb (s : State) (f : Field) (v : Nat) : (s.put f v).sb = s.sb := rfl
@[simp] theorem State.put_nv (s : State) (f : Field) (v : Nat) : (s.put f v).nv = s.nv := rfl
@[simp] theorem State.put_cx (s : State) (f : Field) (v : Nat) : (s.put f v).cx = s.cx := rfl

@[simp] theorem State.bump_pending (s : State) (f : Field) (n : Nat) : (s.bump f n).pending = s.pending := rfl
@[simp] theorem State.bump_mem (s : State) (f : Field) (n : Nat) : (s.bump f n).mem = s.mem := rfl
@[simp] theorem State.bump_x (s : State) (f : Field) (n : Nat) : (s.bump f n).x = s.x := rfl
@[simp] theorem State.bump_vm (s : State) (f : Field) (n : Nat) : (s.bump f n).vm = s.vm := rfl
@[simp] theorem State.bump_en (s : State) (f : Field) (n : Nat) : (s.bump f n).en = s.en := rfl
@[simp] theorem State.bump_tx (s : State) (f : Field) (n : Nat) : (s.bump f n).tx = s.tx := rfl
@[simp] theorem State.bump_fa (s : State) (f : Field) (n : Nat) : (s.bump f n).fa = s.fa := rfl
@[simp] theorem State.bump_em (s : State) (f : Field) (n : Nat) : (s.bump f n).em = s.em := rfl
@[simp] theorem State.bump_sv (s : State) (f : Field) (n : Nat) : (s.bump f n).sv = s.sv := rfl
@[simp] theorem State.bump_sc (s : State) (f : Field) (n : Nat) : (s.bump f n).sc = s.sc := rfl
@[simp] theorem State.bump_pt (s : State) (f : Field) (n : Nat) : (s.bump f n).pt = s.pt := rfl
@[simp] theorem State.bump_ho (s : State) (f : Field) (n : Nat) : (s.bump f n).ho = s.ho := rfl
@[simp] theorem State.bump_checks (s : State) (f : Field) (n : Nat) : (s.bump f n).checks = s.checks := rfl
@[simp] theorem State.bump_tw (s : State) (f : Field) (n : Nat) : (s.bump f n).tw = s.tw := rfl
@[simp] theorem State.bump_pw (s : State) (f : Field) (n : Nat) : (s.bump f n).pw = s.pw := rfl
@[simp] theorem State.bump_se (s : State) (f : Field) (n : Nat) : (s.bump f n).se = s.se := rfl
@[simp] theorem State.bump_sb (s : State) (f : Field) (n : Nat) : (s.bump f n).sb = s.sb := rfl
@[simp] theorem State.bump_nv (s : State) (f : Field) (n : Nat) : (s.bump f n).nv = s.nv := rfl
@[simp] theorem State.bump_cx (s : State) (f : Field) (n : Nat) : (s.bump f n).cx = s.cx := rfl

@[simp] theorem State.resetReg_pending (s : State) (a : Nat) : (s.resetReg a).pending = s.pending := rfl
@[simp] theorem State.resetReg_mem (s : State) (a : Nat) : (s.resetReg a).mem = s.mem := rfl
@[simp] theorem State.resetReg_x (s : State) (a : Nat) : (s.resetReg a).x = s.x := rfl
@[simp] theorem State.resetReg_vm (s : State) (a : Nat) : (s.resetReg a).vm = s.vm := rfl
@[simp] theorem State.resetReg_en (s : State) (a : Nat) : (s.resetReg a).en = s.en := rfl
@[simp] theorem State.resetReg_tx (s : State) (a : Nat) : (s.resetReg a).tx = s.tx := rfl
@[simp] theorem State.resetReg_fa (s : State) (a : Nat) : (s.resetReg a).fa = s.fa := rfl
@[simp] theorem State.resetReg_em (s : State) (a : Nat) : (s.resetReg a).em = s.em := rfl
@[simp] theorem State.resetReg_sv (s : State) (a : Nat) : (s.resetReg a).sv = s.sv := rfl
@[simp] theorem State.resetReg_sc (s : State) (a : Nat) : (s.resetReg a).sc = s.sc := rfl
@[simp] theorem State.resetReg_pt (s : State) (a : Nat) : (s.resetReg a).pt = s.pt := rfl
@[simp] theorem State.resetReg_ho (s : State) (a : Nat) : (s.resetReg a).ho = s.ho := rfl
@[simp] theorem State.resetReg_checks (s : State) (a : Nat) : (s.resetReg a).checks = s.checks := rfl
@[simp] theorem State.resetReg_tw (s : State) (a : Nat) : (s.resetReg a).tw = s.tw := rfl
@[simp] theorem State.resetReg_pw (s : State) (a : Nat) : (s.resetReg a).pw = s.pw := rfl
@[simp] theorem State.resetReg_se (s : State) (a : Nat) : (s.resetReg a).se = s.se := rfl
@[simp] theorem State.resetReg_sb (s : State) (a : Nat) : (s.resetReg a).sb = s.sb := rfl
@[simp] theorem State.resetReg_nv (s : State) (a : Nat) : (s.resetReg a).nv = s.nv := rfl
@[simp] theorem State.resetReg_cx (s : State) (a : Nat) : (s.resetReg a).cx = s.cx := rfl

@[simp] theorem State.writeRun_pending (s : State) (k : Nat) (bs : List Byte) : (s.writeRun k bs).pending = s.pending := rfl
@[simp] theorem State.writeRun_cw (s : State) (k : Nat) (bs : List Byte) : (s.writeRun k bs).cw = s.cw := rfl
@[simp] theorem State.writeRun_x (s : State) (k : Nat) (bs : List Byte) : (s.writeRun k bs).x = s.x := rfl
@[simp] theorem State.writeRun_vm (s : State) (k : Nat) (bs : List Byte) : (s.writeRun k bs).vm = s.vm := rfl
@[simp] theorem State.writeRun_en (s : State) (k : Nat) (bs : List Byte) : (s.writeRun k bs).en = s.en := rfl
@[simp] theorem State.writeRun_tx (s : State) (k : Nat) (bs : List Byte) : (s.writeRun k bs).tx = s.tx := rfl
@[simp] theorem State.writeRun_fa (s : State) (k : Nat) (bs : List Byte) : (s.writeRun k bs).fa = s.fa := rfl
@[simp] theorem State.writeRun_em (s : State) (k : Nat) (bs : List Byte) : (s.writeRun k bs).em = s.em := rfl
@[simp] theorem State.writeRun_sv (s : State) (k : Nat) (bs : List Byte) : (s.writeRun k bs).sv = s.sv := rfl
@[simp] theorem State.writeRun_sc (s : State) (k : Nat) (bs : List Byte) : (s.writeRun k bs).sc = s.sc := rfl
@[simp] theorem State.writeRun_pt (s : State) (k : Nat) (bs : List Byte) : (s.writeRun k bs).pt = s.pt := rfl
@[simp] theorem State.writeRun_ho (s : State) (k : Nat) (bs : List Byte) : (s.writeRun k bs).ho = s.ho := rfl
@[simp] theorem State.writeRun_checks (s : State) (k : Nat) (bs : List Byte) : (s.writeRun k bs).checks = s.checks := rfl
@[simp] theorem State.writeRun_tw (s : State) (k : Nat) (bs : List Byte) : (s.writeRun k bs).tw = s.tw := rfl
@[simp] theorem State.writeRun_pw (s : State) (k : Nat) (bs : List Byte) : (s.writeRun k bs).pw = s.pw := rfl
@[simp] theorem State.writeRun_se (s : State) (k : Nat) (bs : List Byte) : (s.writeRun k bs).se = s.se := rfl
@[simp] theorem State.writeRun_sb (s : State) (k : Nat) (bs : List Byte) : (s.writeRun k bs).sb = s.sb := rfl
@[simp] theorem State.writeRun_nv (s : State) (k : Nat) (bs : List Byte) : (s.writeRun k bs).nv = s.nv := rfl
@[simp] theorem State.writeRun_cx (s : State) (k : Nat) (bs : List Byte) : (s.writeRun k bs).cx = s.cx := rfl

@[simp] theorem State.clearRun_pending (s : State) (k n : Nat) : (s.clearRun k n).pending = s.pending := rfl
@[simp] theorem State.clearRun_cw (s : State) (k n : Nat) : (s.clearRun k n).cw = s.cw := rfl
@[simp] theorem State.clearRun_x (s : State) (k n : Nat) : (s.clearRun k n).x = s.x := rfl
@[simp] theorem State.clearRun_vm (s : State) (k n : Nat) : (s.clearRun k n).vm = s.vm := rfl
@[simp] theorem State.clearRun_en (s : State) (k n : Nat) : (s.clearRun k n).en = s.en := rfl
@[simp] theorem State.clearRun_tx (s : State) (k n : Nat) : (s.clearRun k n).tx = s.tx := rfl
@[simp] theorem State.clearRun_fa (s : State) (k n : Nat) : (s.clearRun k n).fa = s.fa := rfl
@[simp] theorem State.clearRun_em (s : State) (k n : Nat) : (s.clearRun k n).em = s.em := rfl
@[simp] theorem State.clearRun_sv (s : State) (k n : Nat) : (s.clearRun k n).sv = s.sv := rfl
@[simp] theorem State.clearRun_sc (s : State) (k n : Nat) : (s.clearRun k n).sc = s.sc := rfl
@[simp] theorem State.clearRun_pt (s : State) (k n : Nat) : (s.clearRun k n).pt = s.pt := rfl
@[simp] theorem State.clearRun_ho (s : State) (k n : Nat) : (s.clearRun k n).ho = s.ho := rfl
@[simp] theorem State.clearRun_checks (s : State) (k n : Nat) : (s.clearRun k n).checks = s.checks := rfl
@[simp] theorem State.clearRun_tw (s : State) (k n : Nat) : (s.clearRun k n).tw = s.tw := rfl
@[simp] theorem State.clearRun_pw (s : State) (k n : Nat) : (s.clearRun k n).pw = s.pw := rfl
@[simp] theorem State.clearRun_se (s : State) (k n : Nat) : (s.clearRun k n).se = s.se := rfl
@[simp] theorem State.clearRun_sb (s : State) (k n : Nat) : (s.clearRun k n).sb = s.sb := rfl
@[simp] theorem State.clearRun_nv (s : State) (k n : Nat) : (s.clearRun k n).nv = s.nv := rfl
@[simp] theorem State.clearRun_cx (s : State) (k n : Nat) : (s.clearRun k n).cx = s.cx := rfl

@[simp] theorem State.cross_pending (s : State) (e : Nat) (v : Nat × Nat) : (s.cross e v).pending = s.pending := rfl
@[simp] theorem State.cross_cw (s : State) (e : Nat) (v : Nat × Nat) : (s.cross e v).cw = s.cw := rfl
@[simp] theorem State.cross_mem (s : State) (e : Nat) (v : Nat × Nat) : (s.cross e v).mem = s.mem := rfl
@[simp] theorem State.cross_x (s : State) (e : Nat) (v : Nat × Nat) : (s.cross e v).x = s.x := rfl
@[simp] theorem State.cross_vm (s : State) (e : Nat) (v : Nat × Nat) : (s.cross e v).vm = s.vm := rfl
@[simp] theorem State.cross_en (s : State) (e : Nat) (v : Nat × Nat) : (s.cross e v).en = s.en := rfl
@[simp] theorem State.cross_tx (s : State) (e : Nat) (v : Nat × Nat) : (s.cross e v).tx = s.tx := rfl
@[simp] theorem State.cross_fa (s : State) (e : Nat) (v : Nat × Nat) : (s.cross e v).fa = s.fa := rfl
@[simp] theorem State.cross_em (s : State) (e : Nat) (v : Nat × Nat) : (s.cross e v).em = s.em := rfl
@[simp] theorem State.cross_sv (s : State) (e : Nat) (v : Nat × Nat) : (s.cross e v).sv = s.sv := rfl
@[simp] theorem State.cross_sc (s : State) (e : Nat) (v : Nat × Nat) : (s.cross e v).sc = s.sc := rfl
@[simp] theorem State.cross_pt (s : State) (e : Nat) (v : Nat × Nat) : (s.cross e v).pt = s.pt := rfl
@[simp] theorem State.cross_ho (s : State) (e : Nat) (v : Nat × Nat) : (s.cross e v).ho = s.ho := rfl
@[simp] theorem State.cross_checks (s : State) (e : Nat) (v : Nat × Nat) : (s.cross e v).checks = s.checks := rfl
@[simp] theorem State.cross_tw (s : State) (e : Nat) (v : Nat × Nat) : (s.cross e v).tw = s.tw := rfl
@[simp] theorem State.cross_pw (s : State) (e : Nat) (v : Nat × Nat) : (s.cross e v).pw = s.pw := rfl
@[simp] theorem State.cross_se (s : State) (e : Nat) (v : Nat × Nat) : (s.cross e v).se = s.se := rfl
@[simp] theorem State.cross_sb (s : State) (e : Nat) (v : Nat × Nat) : (s.cross e v).sb = s.sb := rfl
@[simp] theorem State.cross_nv (s : State) (e : Nat) (v : Nat × Nat) : (s.cross e v).nv = s.nv := rfl

@[simp] theorem State.crossReset_pending (s : State) (e : Nat) : (s.crossReset e).pending = s.pending := rfl
@[simp] theorem State.crossReset_cw (s : State) (e : Nat) : (s.crossReset e).cw = s.cw := rfl
@[simp] theorem State.crossReset_mem (s : State) (e : Nat) : (s.crossReset e).mem = s.mem := rfl
@[simp] theorem State.crossReset_x (s : State) (e : Nat) : (s.crossReset e).x = s.x := rfl
@[simp] theorem State.crossReset_vm (s : State) (e : Nat) : (s.crossReset e).vm = s.vm := rfl
@[simp] theorem State.crossReset_en (s : State) (e : Nat) : (s.crossReset e).en = s.en := rfl
@[simp] theorem State.crossReset_tx (s : State) (e : Nat) : (s.crossReset e).tx = s.tx := rfl
@[simp] theorem State.crossReset_fa (s : State) (e : Nat) : (s.crossReset e).fa = s.fa := rfl
@[simp] theorem State.crossReset_em (s : State) (e : Nat) : (s.crossReset e).em = s.em := rfl
@[simp] theorem State.crossReset_sv (s : State) (e : Nat) : (s.crossReset e).sv = s.sv := rfl
@[simp] theorem State.crossReset_sc (s : State) (e : Nat) : (s.crossReset e).sc = s.sc := rfl
@[simp] theorem State.crossReset_pt (s : State) (e : Nat) : (s.crossReset e).pt = s.pt := rfl
@[simp] theorem State.crossReset_ho (s : State) (e : Nat) : (s.crossReset e).ho = s.ho := rfl
@[simp] theorem State.crossReset_checks (s : State) (e : Nat) : (s.crossReset e).checks = s.checks := rfl
@[simp] theorem State.crossReset_tw (s : State) (e : Nat) : (s.crossReset e).tw = s.tw := rfl
@[simp] theorem State.crossReset_pw (s : State) (e : Nat) : (s.crossReset e).pw = s.pw := rfl
@[simp] theorem State.crossReset_se (s : State) (e : Nat) : (s.crossReset e).se = s.se := rfl
@[simp] theorem State.crossReset_sb (s : State) (e : Nat) : (s.crossReset e).sb = s.sb := rfl
@[simp] theorem State.crossReset_nv (s : State) (e : Nat) : (s.crossReset e).nv = s.nv := rfl

end Sys2Proof.Machine
end

