-- ==== Sys2Proof/Laws/Ops.lean ====
section
/-!
SUPPORT. The shared operations, each said once: fields of a register, the error record and messages to hosts, free values, heat,
port time, the rows of a queue's operations and of received caravans.
-/
namespace Sys2Proof.Machine

/-! ## Fields of a number -/

/-- A field just replaced reads as the value's low bits. -/
@[simp] theorem bits_setBits_same (x lo w v : Nat) : bits (setBits x lo w v) lo w = v % 2 ^ w := by
  have h0 : 0 < 2 ^ lo := Nat.two_pow_pos lo
  have h1 : x % 2 ^ lo < 2 ^ lo := Nat.mod_lt _ h0
  have e : setBits x lo w v = (x / 2 ^ (lo + w) * 2 ^ w + v % 2 ^ w) * 2 ^ lo + x % 2 ^ lo := by
    simp only [setBits, Nat.pow_add, Nat.add_mul, Nat.mul_assoc, Nat.mul_comm (2 ^ lo) (2 ^ w)]
  rw [bits, e, Nat.add_comm, Nat.add_mul_div_right _ _ h0, Nat.div_eq_of_lt h1, Nat.zero_add, Nat.add_comm,
    Nat.add_mul_mod_self_right, Nat.mod_mod]

/-- A bit of a number with a field replaced. -/
theorem testBit_setBits (x lo w v i : Nat) :
    (setBits x lo w v).testBit i =
      if i < lo then x.testBit i else if i < lo + w then v.testBit (i - lo) else x.testBit i := by
  have e : setBits x lo w v = 2 ^ lo * (2 ^ w * (x / 2 ^ (lo + w)) + v % 2 ^ w) + x % 2 ^ lo := by
    simp only [setBits, Nat.pow_add, Nat.mul_add]
    rw [Nat.mul_comm (x / _), Nat.mul_assoc, Nat.mul_comm (v % _)]
  rw [e, Nat.testBit_two_pow_mul_add _ (Nat.mod_lt _ (Nat.two_pow_pos lo)),
    Nat.testBit_two_pow_mul_add _ (Nat.mod_lt _ (Nat.two_pow_pos w))]
  by_cases h : i < lo
  · simp [h, Nat.testBit_mod_two_pow]
  · by_cases h2 : i < lo + w
    · have h3 : i - lo < w := by omega
      simp [h, h2, h3, Nat.testBit_mod_two_pow]
    · have h3 : ¬ i - lo < w := by omega
      have h4 : lo + w + (i - lo - w) = i := by omega
      simp [h, h2, h3, Nat.testBit_div_two_pow, h4, Nat.add_comm]

/-- A bit of a field. -/
theorem testBit_bits (x lo w i : Nat) : (bits x lo w).testBit i = (decide (i < w) && x.testBit (lo + i)) := by
  simp [bits, Nat.testBit_mod_two_pow, Nat.testBit_div_two_pow, Nat.add_comm]

/-- A field apart from the one replaced is as before. -/
theorem bits_setBits_apart (x lo w v lo' w' : Nat) (h : lo' + w' ≤ lo ∨ lo + w ≤ lo') :
    bits (setBits x lo w v) lo' w' = bits x lo' w' := by
  apply Nat.eq_of_testBit_eq
  intro i
  rw [testBit_bits, testBit_bits, testBit_setBits]
  by_cases hi : i < w'
  · rcases h with h | h
    · simp [show lo' + i < lo by omega]
    · simp [show ¬ lo' + i < lo by omega, show ¬ lo' + i < lo + w by omega]
  · simp [hi]

/-- A field of a number cut to 64 bits. -/
theorem bits_mod_word (x lo w : Nat) (h : lo + w ≤ 64) : bits (x % 2 ^ 64) lo w = bits x lo w := by
  apply Nat.eq_of_testBit_eq
  intro i
  rw [testBit_bits, testBit_bits, Nat.testBit_mod_two_pow]
  by_cases hi : i < w
  · simp [show lo + i < 64 by omega]
  · simp [hi]

@[simp] theorem word_toNat (n : Nat) : (Machine.word n).toNat = n % 2 ^ 64 := by simp [Machine.word]

/-! ## Fields of a register -/

/-- A field put reads as the value, cut to its width. -/
theorem State.get_put_same (s : State) (f : Field) (v : Nat) (h : f.lo + f.w ≤ 64) : (s.put f v).get f = v % 2 ^ f.w := by
  rw [State.get, State.put, State.reg_setReg, if_pos rfl, word_toNat, bits_mod_word _ _ _ h, bits_setBits_same]

/-- A field apart from the one put, in the same register or another, is as before. -/
theorem State.get_put_apart (s : State) (f g : Field) (v : Nat) (hg : g.lo + g.w ≤ 64)
    (h : g.reg ≠ f.reg ∨ g.lo + g.w ≤ f.lo ∨ f.lo + f.w ≤ g.lo) : (s.put f v).get g = s.get g := by
  by_cases hr : g.reg = f.reg
  · have h' : g.lo + g.w ≤ f.lo ∨ f.lo + f.w ≤ g.lo := by
      rcases h with h | h
      · exact absurd hr h
      · exact h
    rw [State.get, State.get, State.put, State.reg_setReg, if_pos hr, word_toNat, bits_mod_word _ _ _ hg, hr,
      bits_setBits_apart _ _ _ _ _ _ h']
  · exact State.get_put_other s f g v hr

/-- A field is below two to its width. -/
theorem State.get_lt (s : State) (f : Field) : s.get f < 2 ^ f.w := Nat.mod_lt _ (Nat.two_pow_pos _)

/-- A register apart from the one whose field is put is as before. -/
theorem State.reg_put_other (s : State) (f : Field) (v off : Nat) (h : off ≠ f.reg) : (s.put f v).reg off = s.reg off := by
  simp [State.put, h]

/-! ## The error record and messages to hosts: registers, queue pairs and crossings change, nothing else -/

/-- Whether a state differs from another at most in its registers, its host ports and its crossings. -/
def State.onRecord (s t : State) : Prop := t = { s with cw := t.cw, ho := t.ho, cx := t.cx }

theorem State.onRecord_refl (s : State) : s.onRecord s := rfl

theorem State.onRecord_trans {s t u : State} (h : s.onRecord t) (h' : t.onRecord u) : s.onRecord u := by
  unfold State.onRecord at *
  rw [h', h]

theorem State.onRecord_setReg {s t : State} (h : s.onRecord t) (off v : Nat) : s.onRecord (t.setReg off v) :=
  State.onRecord_trans h rfl

theorem State.onRecord_put {s t : State} (h : s.onRecord t) (f : Field) (v : Nat) : s.onRecord (t.put f v) :=
  State.onRecord_trans h rfl

theorem State.onRecord_bump {s t : State} (h : s.onRecord t) (f : Field) (n : Nat) : s.onRecord (t.bump f n) :=
  State.onRecord_trans h rfl

theorem State.onRecord_sendMsg {s t : State} (h : s.onRecord t) (q kind : Nat) (ws : List Nat) :
    s.onRecord (t.sendMsg q kind ws) := State.onRecord_trans h rfl

theorem State.onRecord_eventOn {s t : State} (h : s.onRecord t) (kind reason : Nat) (ten : Option Nat) (stamp : Nat)
    (detail : List Nat) (q : Nat) : s.onRecord (t.eventOn kind reason ten stamp detail q) :=
  State.onRecord_sendMsg h _ _ _

/-- A chain of operations that each change only the record changes only the record. -/
theorem State.onRecord_foldl {α : Type} {f : State → α → State} (hf : ∀ (s : State) (a : α), s.onRecord (f s a)) {s t : State}
    (h : s.onRecord t) (l : List α) : s.onRecord (l.foldl f t) := by
  induction l generalizing t with
  | nil => exact h
  | cons a l ih => exact ih (State.onRecord_trans h (hf t a))

theorem State.onRecord_sendEvent {s t : State} (h : s.onRecord t) (kind reason : Nat) (ten : Option Nat) (stamp : Nat)
    (detail : List Nat) : s.onRecord (t.sendEvent kind reason ten stamp detail) := by
  unfold State.sendEvent
  split
  · split
    · exact State.onRecord_eventOn h _ _ _ _ _ _
    · exact State.onRecord_bump h _ _
  · split
    · exact State.onRecord_bump h _ _
    · exact State.onRecord_foldl (fun s q => State.onRecord_eventOn (State.onRecord_refl s) _ _ _ _ _ q) h _

theorem State.onRecord_logCause {s t : State} (h : s.onRecord t) (block inst kind code : Nat) (ten : Option Nat) (d0 d1 : Nat) :
    s.onRecord (t.logCause block inst kind code ten d0 d1).1 := by
  unfold State.logCause
  dsimp only
  split
  · exact State.onRecord_setReg (State.onRecord_put h _ _) _ _
  · exact State.onRecord_trans h rfl

theorem State.onRecord_raiseSeq {s t : State} (h : s.onRecord t) (f : Field) (ten : Option Nat) (d0 d1 : Nat) (own : Bool) :
    s.onRecord (t.raiseSeq f ten d0 d1 own).1 := by
  unfold State.raiseSeq
  split
  · exact h
  · dsimp only
    split
    · exact State.onRecord_put h _ _
    · dsimp only
      split
      · exact State.onRecord_sendEvent (State.onRecord_logCause (State.onRecord_put h _ _) _ _ _ _ _ _ _) _ _ _ _ _
      · exact State.onRecord_logCause (State.onRecord_put h _ _) _ _ _ _ _ _ _

theorem State.onRecord_raiseAt {s t : State} (h : s.onRecord t) (f : Field) (ten : Option Nat) (d0 d1 : Nat) :
    s.onRecord (t.raiseAt f ten d0 d1) := State.onRecord_raiseSeq h _ _ _ _ _

theorem State.onRecord_raise {s t : State} (h : s.onRecord t) (f : Field) (ten : Option Nat) : s.onRecord (t.raise f ten) :=
  State.onRecord_raiseAt h _ _ _ _

theorem State.onRecord_logKind {s t : State} (h : s.onRecord t) (block inst kind code : Nat) (ten : Option Nat) (d0 d1 : Nat)
    (own : Bool) : s.onRecord (t.logKind block inst kind code ten d0 d1 own).1 := by
  unfold State.logKind
  dsimp only
  split
  · exact State.onRecord_sendEvent (State.onRecord_logCause h _ _ _ _ _ _ _) _ _ _ _ _
  · exact State.onRecord_logCause h _ _ _ _ _ _ _

theorem State.onRecord_badWrite {s t : State} (h : s.onRecord t) (f : Field) (via : Via) (off : Nat) :
    s.onRecord (t.badWrite f via off) := by
  unfold State.badWrite
  have h1 := State.onRecord_put (State.onRecord_raise h f none) R.MOD_LASTBAD_OFFSET off
  split
  · exact State.onRecord_put (State.onRecord_put h1 _ _) _ _
  · exact State.onRecord_put (State.onRecord_put h1 _ _) _ _

/-- A cause whose bit is set already changes nothing (22 R544). -/
theorem State.raise_again (s : State) (f : Field) (ten : Option Nat) (h : s.get f = 1) : s.raise f ten = s := by
  simp [State.raise, State.raiseAt, State.raiseSeq, h]

@[simp] theorem State.raise_pending (s : State) (f : Field) (ten : Option Nat) : (s.raise f ten).pending = s.pending := by
  rw [State.onRecord_raise s.onRecord_refl f ten]
@[simp] theorem State.raise_mem (s : State) (f : Field) (ten : Option Nat) : (s.raise f ten).mem = s.mem := by
  rw [State.onRecord_raise s.onRecord_refl f ten]
@[simp] theorem State.raise_x (s : State) (f : Field) (ten : Option Nat) : (s.raise f ten).x = s.x := by
  rw [State.onRecord_raise s.onRecord_refl f ten]
@[simp] theorem State.raise_vm (s : State) (f : Field) (ten : Option Nat) : (s.raise f ten).vm = s.vm := by
  rw [State.onRecord_raise s.onRecord_refl f ten]
@[simp] theorem State.raise_en (s : State) (f : Field) (ten : Option Nat) : (s.raise f ten).en = s.en := by
  rw [State.onRecord_raise s.onRecord_refl f ten]
@[simp] theorem State.raise_tx (s : State) (f : Field) (ten : Option Nat) : (s.raise f ten).tx = s.tx := by
  rw [State.onRecord_raise s.onRecord_refl f ten]
@[simp] theorem State.raise_fa (s : State) (f : Field) (ten : Option Nat) : (s.raise f ten).fa = s.fa := by
  rw [State.onRecord_raise s.onRecord_refl f ten]
@[simp] theorem State.raise_em (s : State) (f : Field) (ten : Option Nat) : (s.raise f ten).em = s.em := by
  rw [State.onRecord_raise s.onRecord_refl f ten]
@[simp] theorem State.raise_sv (s : State) (f : Field) (ten : Option Nat) : (s.raise f ten).sv = s.sv := by
  rw [State.onRecord_raise s.onRecord_refl f ten]
@[simp] theorem State.raise_sc (s : State) (f : Field) (ten : Option Nat) : (s.raise f ten).sc = s.sc := by
  rw [State.onRecord_raise s.onRecord_refl f ten]
@[simp] theorem State.raise_pt (s : State) (f : Field) (ten : Option Nat) : (s.raise f ten).pt = s.pt := by
  rw [State.onRecord_raise s.onRecord_refl f ten]
@[simp] theorem State.raise_checks (s : State) (f : Field) (ten : Option Nat) : (s.raise f ten).checks = s.checks := by
  rw [State.onRecord_raise s.onRecord_refl f ten]
@[simp] theorem State.raise_tw (s : State) (f : Field) (ten : Option Nat) : (s.raise f ten).tw = s.tw := by
  rw [State.onRecord_raise s.onRecord_refl f ten]
@[simp] theorem State.raise_pw (s : State) (f : Field) (ten : Option Nat) : (s.raise f ten).pw = s.pw := by
  rw [State.onRecord_raise s.onRecord_refl f ten]
@[simp] theorem State.raise_se (s : State) (f : Field) (ten : Option Nat) : (s.raise f ten).se = s.se := by
  rw [State.onRecord_raise s.onRecord_refl f ten]
@[simp] theorem State.raise_sb (s : State) (f : Field) (ten : Option Nat) : (s.raise f ten).sb = s.sb := by
  rw [State.onRecord_raise s.onRecord_refl f ten]
@[simp] theorem State.raise_nv (s : State) (f : Field) (ten : Option Nat) : (s.raise f ten).nv = s.nv := by
  rw [State.onRecord_raise s.onRecord_refl f ten]

@[simp] theorem State.raiseAt_pending (s : State) (f : Field) (ten : Option Nat) (a b : Nat) : (s.raiseAt f ten a b).pending = s.pending := by
  rw [State.onRecord_raiseAt s.onRecord_refl f ten a b]
@[simp] theorem State.raiseAt_mem (s : State) (f : Field) (ten : Option Nat) (a b : Nat) : (s.raiseAt f ten a b).mem = s.mem := by
  rw [State.onRecord_raiseAt s.onRecord_refl f ten a b]
@[simp] theorem State.raiseAt_x (s : State) (f : Field) (ten : Option Nat) (a b : Nat) : (s.raiseAt f ten a b).x = s.x := by
  rw [State.onRecord_raiseAt s.onRecord_refl f ten a b]
@[simp] theorem State.raiseAt_vm (s : State) (f : Field) (ten : Option Nat) (a b : Nat) : (s.raiseAt f ten a b).vm = s.vm := by
  rw [State.onRecord_raiseAt s.onRecord_refl f ten a b]
@[simp] theorem State.raiseAt_en (s : State) (f : Field) (ten : Option Nat) (a b : Nat) : (s.raiseAt f ten a b).en = s.en := by
  rw [State.onRecord_raiseAt s.onRecord_refl f ten a b]
@[simp] theorem State.raiseAt_tx (s : State) (f : Field) (ten : Option Nat) (a b : Nat) : (s.raiseAt f ten a b).tx = s.tx := by
  rw [State.onRecord_raiseAt s.onRecord_refl f ten a b]
@[simp] theorem State.raiseAt_fa (s : State) (f : Field) (ten : Option Nat) (a b : Nat) : (s.raiseAt f ten a b).fa = s.fa := by
  rw [State.onRecord_raiseAt s.onRecord_refl f ten a b]
@[simp] theorem State.raiseAt_em (s : State) (f : Field) (ten : Option Nat) (a b : Nat) : (s.raiseAt f ten a b).em = s.em := by
  rw [State.onRecord_raiseAt s.onRecord_refl f ten a b]
@[simp] theorem State.raiseAt_sv (s : State) (f : Field) (ten : Option Nat) (a b : Nat) : (s.raiseAt f ten a b).sv = s.sv := by
  rw [State.onRecord_raiseAt s.onRecord_refl f ten a b]
@[simp] theorem State.raiseAt_sc (s : State) (f : Field) (ten : Option Nat) (a b : Nat) : (s.raiseAt f ten a b).sc = s.sc := by
  rw [State.onRecord_raiseAt s.onRecord_refl f ten a b]
@[simp] theorem State.raiseAt_pt (s : State) (f : Field) (ten : Option Nat) (a b : Nat) : (s.raiseAt f ten a b).pt = s.pt := by
  rw [State.onRecord_raiseAt s.onRecord_refl f ten a b]
@[simp] theorem State.raiseAt_checks (s : State) (f : Field) (ten : Option Nat) (a b : Nat) : (s.raiseAt f ten a b).checks = s.checks := by
  rw [State.onRecord_raiseAt s.onRecord_refl f ten a b]
@[simp] theorem State.raiseAt_tw (s : State) (f : Field) (ten : Option Nat) (a b : Nat) : (s.raiseAt f ten a b).tw = s.tw := by
  rw [State.onRecord_raiseAt s.onRecord_refl f ten a b]
@[simp] theorem State.raiseAt_pw (s : State) (f : Field) (ten : Option Nat) (a b : Nat) : (s.raiseAt f ten a b).pw = s.pw := by
  rw [State.onRecord_raiseAt s.onRecord_refl f ten a b]
@[simp] theorem State.raiseAt_se (s : State) (f : Field) (ten : Option Nat) (a b : Nat) : (s.raiseAt f ten a b).se = s.se := by
  rw [State.onRecord_raiseAt s.onRecord_refl f ten a b]
@[simp] theorem State.raiseAt_sb (s : State) (f : Field) (ten : Option Nat) (a b : Nat) : (s.raiseAt f ten a b).sb = s.sb := by
  rw [State.onRecord_raiseAt s.onRecord_refl f ten a b]
@[simp] theorem State.raiseAt_nv (s : State) (f : Field) (ten : Option Nat) (a b : Nat) : (s.raiseAt f ten a b).nv = s.nv := by
  rw [State.onRecord_raiseAt s.onRecord_refl f ten a b]

@[simp] theorem State.sendEvent_pending (s : State) (kind reason : Nat) (ten : Option Nat) (stamp : Nat) (l : List Nat) : (s.sendEvent kind reason ten stamp l).pending = s.pending := by
  rw [State.onRecord_sendEvent s.onRecord_refl kind reason ten stamp l]
@[simp] theorem State.sendEvent_mem (s : State) (kind reason : Nat) (ten : Option Nat) (stamp : Nat) (l : List Nat) : (s.sendEvent kind reason ten stamp l).mem = s.mem := by
  rw [State.onRecord_sendEvent s.onRecord_refl kind reason ten stamp l]
@[simp] theorem State.sendEvent_x (s : State) (kind reason : Nat) (ten : Option Nat) (stamp : Nat) (l : List Nat) : (s.sendEvent kind reason ten stamp l).x = s.x := by
  rw [State.onRecord_sendEvent s.onRecord_refl kind reason ten stamp l]
@[simp] theorem State.sendEvent_vm (s : State) (kind reason : Nat) (ten : Option Nat) (stamp : Nat) (l : List Nat) : (s.sendEvent kind reason ten stamp l).vm = s.vm := by
  rw [State.onRecord_sendEvent s.onRecord_refl kind reason ten stamp l]
@[simp] theorem State.sendEvent_en (s : State) (kind reason : Nat) (ten : Option Nat) (stamp : Nat) (l : List Nat) : (s.sendEvent kind reason ten stamp l).en = s.en := by
  rw [State.onRecord_sendEvent s.onRecord_refl kind reason ten stamp l]
@[simp] theorem State.sendEvent_tx (s : State) (kind reason : Nat) (ten : Option Nat) (stamp : Nat) (l : List Nat) : (s.sendEvent kind reason ten stamp l).tx = s.tx := by
  rw [State.onRecord_sendEvent s.onRecord_refl kind reason ten stamp l]
@[simp] theorem State.sendEvent_fa (s : State) (kind reason : Nat) (ten : Option Nat) (stamp : Nat) (l : List Nat) : (s.sendEvent kind reason ten stamp l).fa = s.fa := by
  rw [State.onRecord_sendEvent s.onRecord_refl kind reason ten stamp l]
@[simp] theorem State.sendEvent_em (s : State) (kind reason : Nat) (ten : Option Nat) (stamp : Nat) (l : List Nat) : (s.sendEvent kind reason ten stamp l).em = s.em := by
  rw [State.onRecord_sendEvent s.onRecord_refl kind reason ten stamp l]
@[simp] theorem State.sendEvent_sv (s : State) (kind reason : Nat) (ten : Option Nat) (stamp : Nat) (l : List Nat) : (s.sendEvent kind reason ten stamp l).sv = s.sv := by
  rw [State.onRecord_sendEvent s.onRecord_refl kind reason ten stamp l]
@[simp] theorem State.sendEvent_sc (s : State) (kind reason : Nat) (ten : Option Nat) (stamp : Nat) (l : List Nat) : (s.sendEvent kind reason ten stamp l).sc = s.sc := by
  rw [State.onRecord_sendEvent s.onRecord_refl kind reason ten stamp l]
@[simp] theorem State.sendEvent_pt (s : State) (kind reason : Nat) (ten : Option Nat) (stamp : Nat) (l : List Nat) : (s.sendEvent kind reason ten stamp l).pt = s.pt := by
  rw [State.onRecord_sendEvent s.onRecord_refl kind reason ten stamp l]
@[simp] theorem State.sendEvent_checks (s : State) (kind reason : Nat) (ten : Option Nat) (stamp : Nat) (l : List Nat) : (s.sendEvent kind reason ten stamp l).checks = s.checks := by
  rw [State.onRecord_sendEvent s.onRecord_refl kind reason ten stamp l]
@[simp] theorem State.sendEvent_tw (s : State) (kind reason : Nat) (ten : Option Nat) (stamp : Nat) (l : List Nat) : (s.sendEvent kind reason ten stamp l).tw = s.tw := by
  rw [State.onRecord_sendEvent s.onRecord_refl kind reason ten stamp l]
@[simp] theorem State.sendEvent_pw (s : State) (kind reason : Nat) (ten : Option Nat) (stamp : Nat) (l : List Nat) : (s.sendEvent kind reason ten stamp l).pw = s.pw := by
  rw [State.onRecord_sendEvent s.onRecord_refl kind reason ten stamp l]
@[simp] theorem State.sendEvent_se (s : State) (kind reason : Nat) (ten : Option Nat) (stamp : Nat) (l : List Nat) : (s.sendEvent kind reason ten stamp l).se = s.se := by
  rw [State.onRecord_sendEvent s.onRecord_refl kind reason ten stamp l]
@[simp] theorem State.sendEvent_sb (s : State) (kind reason : Nat) (ten : Option Nat) (stamp : Nat) (l : List Nat) : (s.sendEvent kind reason ten stamp l).sb = s.sb := by
  rw [State.onRecord_sendEvent s.onRecord_refl kind reason ten stamp l]
@[simp] theorem State.sendEvent_nv (s : State) (kind reason : Nat) (ten : Option Nat) (stamp : Nat) (l : List Nat) : (s.sendEvent kind reason ten stamp l).nv = s.nv := by
  rw [State.onRecord_sendEvent s.onRecord_refl kind reason ten stamp l]

@[simp] theorem State.badWrite_pending (s : State) (f : Field) (via : Via) (off : Nat) : (s.badWrite f via off).pending = s.pending := by
  rw [State.onRecord_badWrite s.onRecord_refl f via off]
@[simp] theorem State.badWrite_mem (s : State) (f : Field) (via : Via) (off : Nat) : (s.badWrite f via off).mem = s.mem := by
  rw [State.onRecord_badWrite s.onRecord_refl f via off]
@[simp] theorem State.badWrite_x (s : State) (f : Field) (via : Via) (off : Nat) : (s.badWrite f via off).x = s.x := by
  rw [State.onRecord_badWrite s.onRecord_refl f via off]
@[simp] theorem State.badWrite_vm (s : State) (f : Field) (via : Via) (off : Nat) : (s.badWrite f via off).vm = s.vm := by
  rw [State.onRecord_badWrite s.onRecord_refl f via off]
@[simp] theorem State.badWrite_en (s : State) (f : Field) (via : Via) (off : Nat) : (s.badWrite f via off).en = s.en := by
  rw [State.onRecord_badWrite s.onRecord_refl f via off]
@[simp] theorem State.badWrite_tx (s : State) (f : Field) (via : Via) (off : Nat) : (s.badWrite f via off).tx = s.tx := by
  rw [State.onRecord_badWrite s.onRecord_refl f via off]
@[simp] theorem State.badWrite_fa (s : State) (f : Field) (via : Via) (off : Nat) : (s.badWrite f via off).fa = s.fa := by
  rw [State.onRecord_badWrite s.onRecord_refl f via off]
@[simp] theorem State.badWrite_em (s : State) (f : Field) (via : Via) (off : Nat) : (s.badWrite f via off).em = s.em := by
  rw [State.onRecord_badWrite s.onRecord_refl f via off]
@[simp] theorem State.badWrite_sv (s : State) (f : Field) (via : Via) (off : Nat) : (s.badWrite f via off).sv = s.sv := by
  rw [State.onRecord_badWrite s.onRecord_refl f via off]
@[simp] theorem State.badWrite_sc (s : State) (f : Field) (via : Via) (off : Nat) : (s.badWrite f via off).sc = s.sc := by
  rw [State.onRecord_badWrite s.onRecord_refl f via off]
@[simp] theorem State.badWrite_pt (s : State) (f : Field) (via : Via) (off : Nat) : (s.badWrite f via off).pt = s.pt := by
  rw [State.onRecord_badWrite s.onRecord_refl f via off]
@[simp] theorem State.badWrite_checks (s : State) (f : Field) (via : Via) (off : Nat) : (s.badWrite f via off).checks = s.checks := by
  rw [State.onRecord_badWrite s.onRecord_refl f via off]
@[simp] theorem State.badWrite_tw (s : State) (f : Field) (via : Via) (off : Nat) : (s.badWrite f via off).tw = s.tw := by
  rw [State.onRecord_badWrite s.onRecord_refl f via off]
@[simp] theorem State.badWrite_pw (s : State) (f : Field) (via : Via) (off : Nat) : (s.badWrite f via off).pw = s.pw := by
  rw [State.onRecord_badWrite s.onRecord_refl f via off]
@[simp] theorem State.badWrite_se (s : State) (f : Field) (via : Via) (off : Nat) : (s.badWrite f via off).se = s.se := by
  rw [State.onRecord_badWrite s.onRecord_refl f via off]
@[simp] theorem State.badWrite_sb (s : State) (f : Field) (via : Via) (off : Nat) : (s.badWrite f via off).sb = s.sb := by
  rw [State.onRecord_badWrite s.onRecord_refl f via off]
@[simp] theorem State.badWrite_nv (s : State) (f : Field) (via : Via) (off : Nat) : (s.badWrite f via off).nv = s.nv := by
  rw [State.onRecord_badWrite s.onRecord_refl f via off]

/-! ## Free values, port time, heat -/

/-- Taking a free value changes only the count of those taken. -/
theorem State.takeFree_spec (s : State) :
    s.takeFree = (Config.freeValue s.x.free, { s with x := { s.x with free := s.x.free + 1 } }) := rfl

/-- A nanosecond of port time changes only the meters. -/
theorem State.tick_spec (s : State) : s.tick = { s with pt := s.tick.pt } := by
  unfold State.tick
  split <;> rfl

/-- Heat changes only the memory system. -/
theorem State.addHeat_spec (s : State) (g : Nat) : s.addHeat g = { s with vm := (s.addHeat g).vm } := by
  unfold State.addHeat
  split
  · rfl
  · split <;> rfl

theorem State.accessHeat_spec (s : State) (gs : List Nat) (n : Nat) :
    s.accessHeat gs n = { s with vm := (s.accessHeat gs n).vm } := by
  have h : ∀ (gs : List Nat) (t : State), t = { s with vm := t.vm } →
      gs.foldl State.addHeat t = { s with vm := (gs.foldl State.addHeat t).vm } := by
    intro gs
    induction gs with
    | nil => exact fun t h => h
    | cons g gs ih =>
      intro t h
      refine ih _ ?_
      rw [State.addHeat_spec, h]
  unfold State.accessHeat
  rw [h gs s rfl]

/-! ## A queue's operations -/

/-- A row of an operation whose command is not at work on it changes nothing (04 R88). -/
theorem State.opRow_idle (s : State) (t cls op : Nat) (acc : Accessor) (plan : Cmd → Plan)
    (h : ∀ c, s.cmd t = some c →
      ¬ (c.st = .running ∧ c.done = none ∧ dClass c.words = cls ∧ dOp c.words = op ∧ (!s.fetching t) = true)) :
    s.opRow t cls op acc plan = .next s := by
  unfold State.opRow
  split
  · rfl
  · rename_i c hc
    rw [if_neg (h c hc)]

/-- The row of an operation whose command is at work on it, and reads no page of a peer's, does what its plan says. -/
theorem State.opRow_run (s : State) (t cls op : Nat) (acc : Accessor) (plan : Cmd → Plan) (c : Cmd) (hc : s.cmd t = some c)
    (h : c.st = .running ∧ c.done = none ∧ dClass c.words = cls ∧ dOp c.words = op ∧ (!s.fetching t) = true)
    (hf : s.toFetch c acc (plan c).reads.1 (plan c).reads.2 = []) :
    s.opRow t cls op acc plan = (match plan c with
      | .refuse st => .next (s.setCmd t { c with done := some ⟨st, [], []⟩ })
      | .away ps rds => .next (if s.pw.absent.contains 5 then s else s.opAway t c acc ps rds)
      | .reach more rds wrs => .next (if s.pw.absent.contains 5 then s else s.opStop t c acc more rds wrs)
      | .wait => .next s
      | .go rds wrs done => s.opGo t c acc [] [] rds wrs done
      | .goX more tracked rds wrs done => s.opGo t c acc more tracked rds wrs done) := by
  unfold State.opRow
  rw [hc]
  dsimp only
  rw [if_pos h, hf]
  all_goals cases plan c <;> rfl

/-- Accesses wait while MEM_REFCLK is absent (23 R556). -/
theorem State.opGo_wait (s : State) (t : Nat) (c : Cmd) (acc : Accessor) (more : List Read) (tracked rds wrs : List (Nat × Nat))
    (d : Done) (h : s.pw.absent.contains 5 = true) : s.opGo t c acc more tracked rds wrs d = .next s := by
  unfold State.opGo
  rw [if_pos h]

/-- Accesses that all reach: the command is made ready with what is left for its commit; its reads and pages are noted, heat and the
counters of the work are counted, and nothing else changes. -/
theorem State.opGo_ok (s : State) (t : Nat) (c : Cmd) (acc : Accessor) (more : List Read) (tracked rds wrs : List (Nat × Nat))
    (d : Done) (h : s.pw.absent.contains 5 = false)
    (ha : (s.access acc c.ten rds wrs).join (s.accessReads more) = .ok) :
    ∃ (gs : List Nat) (n : Nat) (rs fs ps : List Nat), s.opGo t c acc more tracked rds wrs d =
      .next (((s.accessHeat gs n).setCmd t { c with reads := rs, far := fs, pages := ps, done := some d.deferred }).countWork d.effs) := by
  unfold State.opGo
  rw [h, if_neg (by decide), ha]
  exact ⟨_, _, _, _, _, rfl⟩

/-- Every operation's row answers a next state. -/
theorem State.opGo_next (s : State) (t : Nat) (c : Cmd) (acc : Accessor) (more : List Read) (tracked rds wrs : List (Nat × Nat))
    (d : Done) : ∃ u, s.opGo t c acc more tracked rds wrs d = .next u := by
  unfold State.opGo
  split
  · exact ⟨_, rfl⟩
  · split <;> exact ⟨_, rfl⟩

theorem State.opRow_next (s : State) (t cls op : Nat) (acc : Accessor) (plan : Cmd → Plan) :
    ∃ u, s.opRow t cls op acc plan = .next u := by
  unfold State.opRow
  split
  · exact ⟨_, rfl⟩
  · split
    · split
      · exact ⟨_, rfl⟩
      · split
        · exact ⟨_, rfl⟩
        · exact ⟨_, rfl⟩
        · exact ⟨_, rfl⟩
        · exact ⟨_, rfl⟩
        · exact State.opGo_next ..
        · exact State.opGo_next ..
    · exact ⟨_, rfl⟩

/-- The counters of work done change only registers. -/
theorem State.countWork_spec (s : State) (es : List Effect) : s.countWork es = { s with cw := (s.countWork es).cw } := by
  have h : ∀ (es : List Effect) (t : State), t = { s with cw := t.cw } →
      t.countWork es = { s with cw := (t.countWork es).cw } := by
    intro es
    induction es with
    | nil => exact fun t h => h
    | cons e es ih =>
      intro t h
      cases e <;> first | exact ih t h | exact ih _ (by rw [h]; rfl)
  exact h es s rfl

/-! ## Crossings (23 R557, R559) -/

/-- While an acknowledge is outstanding, an event waits behind those that wait: it is not merged. -/
theorem Crossing.send_busy (x : Crossing) (v : Nat × Nat) (h : x.busy = true) : x.send v = { x with waiting := x.waiting ++ [v] } := by
  simp [Crossing.send, h]

/-- An event on an idle crossing inverts the level, with its value in the holding register. -/
theorem Crossing.send_idle (x : Crossing) (v : Nat × Nat) (h : x.busy = false) :
    x.send v = { x with hold := some v, level := !x.level } := by
  simp [Crossing.send, h]

/-- A take of an idle crossing does nothing: no event is delivered twice. -/
theorem Crossing.take_idle (x : Crossing) (h : x.busy = false) : x.take = x := by
  simp [Crossing.take, h]

/-- A message to a host crosses the edge of its port. -/
@[simp] theorem State.sendMsg_cx (s : State) (q kind : Nat) (ws : List Nat) :
    (s.sendMsg q kind ws).cx = (s.cross (q / 256) (q, (s.qpOf q).next)).cx := rfl

end Sys2Proof.Machine
end

