-- ==== Sys2Proof/Laws/Rows.lean ====
section
/-!
SUPPORT. The rows that many commands share, each said once: a core's instruction, a register's write, an enable, a received
caravan: when they answer a next state, and what it is.
-/
namespace Sys2Proof.Machine

/-! ## A core's instruction (03 R59) -/

/-- A core that cannot step does nothing. -/
theorem State.coreRow_idle (s : State) (c : Nat) (act : CoreOp → Option (State → State)) (hc : c < 256)
    (h : s.canStep c = false) : s.coreRow c act = .next s := by
  unfold State.coreRow
  rw [if_neg (Nat.not_le.2 hc), if_pos (by rw [h]; rfl)]

/-- A core whose fetch leaves the store takes the exception (03 R80). -/
theorem State.coreRow_fetchRange (s : State) (c : Nat) (act : CoreOp → Option (State → State)) (hc : c < 256)
    (h : s.canStep c = true) (hf : (s.core c).fetch = none) : s.coreRow c act = .next (s.exception c .fetchRange) := by
  unfold State.coreRow
  rw [if_neg (Nat.not_le.2 hc), if_neg (by rw [h]; decide), hf]

/-- A core that can step does what the row gives for the instruction it fetches, and nothing where the row gives nothing. -/
theorem State.coreRow_run (s : State) (c : Nat) (act : CoreOp → Option (State → State)) (op : CoreOp) (hc : c < 256)
    (h : s.canStep c = true) (hf : (s.core c).fetch = some op) :
    s.coreRow c act = .next (((act op).getD id) s) := by
  unfold State.coreRow
  rw [if_neg (Nat.not_le.2 hc), if_neg (by rw [h]; decide), hf]
  cases ha : act op <;> simp [ha]

/-- A core's row answers a next state for every core the module has. -/
theorem State.coreRow_next (s : State) (c : Nat) (act : CoreOp → Option (State → State)) (hc : c < 256) :
    ∃ u, s.coreRow c act = .next u := by
  unfold State.coreRow
  rw [if_neg (Nat.not_le.2 hc)]
  split
  · exact ⟨_, rfl⟩
  · split
    · exact ⟨_, rfl⟩
    · split <;> exact ⟨_, rfl⟩

/-- An instruction with room in its turn is carried out there (03 R53). -/
theorem State.inRoom_roomy (s : State) (c : Nat) (full : Turn → Bool) (act : State → State) (t : Turn)
    (ht : (s.core c).turn = some t) (hf : full t = false) (hr : t.retired < retireMax) : s.inRoom c full act = act s := by
  unfold State.inRoom
  simp only [ht, hf, Bool.false_or, decide_eq_true_eq]
  exact if_neg (Nat.not_le.2 hr)

/-! ## Register writes (21 R525, R527) -/

/-- The steward's write is taken. -/
@[simp] theorem State.writeRow_steward (s : State) (off v : Nat) : s.writeRow .steward off v = .next (s.regWrite .steward off v) :=
  rfl

/-- A host's write is taken on a manager pair, and refused on any other (15 R383). -/
theorem State.writeRow_host (s : State) (q off v : Nat) (h : q < 1024) :
    s.writeRow (.host q) off v = .next (if s.manager q then s.regWrite (.host q) off v else s.refuseAccess q) := by
  simp only [State.writeRow, if_neg (Nat.not_le.2 h)]
  split <;> rfl

theorem State.writeRow_next (s : State) (via : Via) (off v : Nat) (h : viaOk via = true) : ∃ u, s.writeRow via off v = .next u := by
  cases via with
  | steward => exact ⟨_, rfl⟩
  | host q => exact ⟨_, s.writeRow_host q off v (by simpa [viaOk, qpOk] using h)⟩

/-- An enable or a clear of EN is the write of the unit's CTL register (21 R531, R536). -/
theorem State.enRow_write (s : State) (b : Blk) (n on : Nat) (via : Via) (v ctl : Nat) (hn : n < copyCount b)
    (hc : ctlAt b n = some ctl) : s.enRow b n on via v = s.writeRow via ctl (setBits v 0 1 on) := by
  unfold State.enRow
  rw [if_neg (Nat.not_le.2 hn), hc]

/-- A write at an offset that the map does not assign is noted and changes nothing else (21 R524). -/
theorem State.regWrite_unassigned (s : State) (via : Via) (off v : Nat) (h : findReg off = none) :
    s.regWrite via off v = s.badWrite R.MOD_ERR_UNASSIGNED via off := by
  unfold State.regWrite
  rw [h]

/-- A write to a gated unit is ignored (21 R538). -/
theorem State.regWrite_gated (s : State) (via : Via) (off v : Nat) (d : RegDef) (ix : List Nat) (h : findReg off = some (d, ix))
    (hp : s.regPowered d ix = false) : s.regWrite via off v = s := by
  unfold State.regWrite
  rw [h]
  simp [hp]

/-! ## Received caravans (16 R414 to R417) -/

/-- A received caravan's row answers a next state on every port the module has. -/
theorem State.carRow_next (s : State) (kind port : Nat) (c : Car) (act : State → Car → State × Bool) (h : port ≤ 16) :
    ∃ u, s.carRow kind port c act = .next u := by
  unfold State.carRow
  rw [if_neg (Nat.not_lt.2 h)]
  split
  · exact ⟨_, rfl⟩
  · split
    · split <;> exact ⟨_, rfl⟩
    · split
      · exact ⟨_, rfl⟩
      · split
        · exact ⟨_, rfl⟩
        · split
          · exact ⟨_, rfl⟩
          · dsimp only
            split <;> exact ⟨_, rfl⟩

/-- A caravan already taken is dropped: it only leaves those the module has yet to take (16 R417). -/
theorem State.takeIn_again (s : State) (c : Car) (act : State → Car → State × Bool) (h : s.psTaken c = true) :
    s.takeIn c act = { s with fa := { s.fa with selfIn := s.fa.selfIn.erase c } } := by
  unfold State.takeIn
  exact if_pos h

end Sys2Proof.Machine
end

