-- ==== Sys2Proof/Tests/Slice0.lean ====
section
/-!
SUPPORT. The model's own tests: ill-formed commands refused, words written out from the spec's encodings, and for every statement
that has hypotheses a state and operands that meet them, for each of its clauses.
-/
set_option Elab.async false

open Sys2Proof Sys2Proof.Machine Sys2Proof.Claims

namespace Sys2Proof.Tests

/-- The next state of an outcome, for a test; reset where there is none. -/
def after : Ans → State
  | .next s => s
  | .fault _ => State.reset
  | .refused _ => State.reset

/-- A turn that has begun and not ended. -/
def turn0 : Turn := ⟨0, ⟨[], [], [], 0, []⟩, [], [], [], [], [], none, [], [], 0, 0, .open_, []⟩

/-- A core that runs a word at its program counter; its turn is sheltered, so that no slice is asked for. -/
def core0 (w : BitVec 32) : Core :=
  { mode := .running, turns := [turn0], istore := [(0, w), (1, 7)], marks := [(0, { sheltered := true })], g := [(2, 64), (3, 9)],
    handles := [0], wells := [3], bars := [(0, 4)], counts := [(0, 2)] }

/-- A state whose core 0 is as given. -/
def on (k : Core) : State := ({} : State).setCore 0 k

/-- A state whose core 0 runs an instruction by its own encoding. -/
def runsOp (op : CoreOp) : State := on (core0 (encodeCore op).1)

/-! ## Well-formedness: a term that each check refuses -/

theorem test_wf_refuses_units :
    (Instr.intAddi 256).wf = false ∧ (Instr.commitGrant (.turn 256)).wf = false ∧ (Instr.commitGrant (.cmd (2 ^ 64))).wf = false ∧
    (Instr.errLogClear (.host 1024)).wf = false ∧ (Instr.cmRtu 1024).wf = false ∧ (Instr.queueJoin (2 ^ 64)).wf = false ∧
    (Instr.sliceEnd 16).wf = false ∧ (Instr.sliceEnd 128).wf = false ∧ (Instr.earlySliceEnd 64).wf = false ∧
    (Instr.tenancyFree 64).wf = false ∧ (Instr.vcoreStep 2).wf = false ∧ (Instr.barrierRelease 8 0).wf = false ∧
    (Instr.barrierRelease 0 16).wf = false ∧ (Instr.hbmHot 16 0).wf = false ∧ (Instr.channelGroupRetire 0 8 none).wf = false ∧
    (Instr.domainGateDone 50).wf = false ∧ (Instr.cellarChannelFail 32).wf = false ∧ (Instr.refclkReturn 6).wf = false ∧
    (Instr.laneFail 0 4).wf = false ∧ (Instr.laneFail 16 0).wf = false ∧ (Instr.fabRefclkLoss 4).wf = false := by decide

theorem test_wf_refuses_more :
    (Instr.thermalShutdown (.field 2) 0).wf = false ∧ (Instr.thermalShutdown (.stack 16) 0).wf = false ∧
    (Instr.unitErrorReport (.engine 104 0)).wf = false ∧ (Instr.unitErrorReport (.scan 0 5)).wf = false ∧
    (Instr.unitErrorReport (.core 0 0 [])).wf = false ∧ (Instr.unitErrorReport (.text 5 0 [])).wf = false ∧
    (Instr.unitErrorReport (.grammar 0 32 [])).wf = false ∧ (Instr.unitErrorReport (.oasis 2 0 0 [])).wf = false ∧
    (Instr.unitErrorReport (.rowCache 0 0)).wf = false ∧ (Instr.idleFillStart 104).wf = false ∧
    (Instr.engEnable .steward 104 0).wf = false ∧ (Instr.frameRetire 16 0 0 true).wf = false ∧
    (Instr.variantLoad 0 0 0).wf = false ∧ (Instr.variantLoad 257 0 0).wf = false ∧ (Instr.unitDisable .steward 1 0).wf = false ∧
    (Instr.promptPack 0 64 none 0 []).wf = false ∧ (Instr.pcsLockLost 20).wf = false ∧ (Instr.cmReq 4 0 0).wf = false ∧
    (Instr.programBind 0 4 ⟨2, 0, [], [], []⟩).wf = false ∧ (Instr.vddioSbRise 4).wf = false ∧
    (Instr.pfcPauseReceive 0 8 0).wf = false ∧ (Instr.credit 17 ⟨3, 1, 0, false, 0, 0, 0, 0, 0, 0, 0, 0, [], [], 1⟩).wf = false := by decide

/-! ## The block -/

theorem wit_StepRunsFrontCommand : (after (step { State.reset with pending := [.eraAdvance, .eraAdvance] })).pending.length = 1 := by
  decide
theorem wit_EmptyQueueCountsPortTime :
    State.reset.pending = [] ∧ State.reset.pw.rstLow = false ∧ (State.reset.powered (portDomain 0) = true) ∧
      (after (step State.reset)).time 0 = 1 := by decide
theorem wit_EmptyQueueWhileReset : (after (step { State.reset with pw := { rstLow := true } })).time 0 = 0 := by decide
theorem wit_WellFormedCommandsAnswerNext : (Instr.intAddi 255).wf = true ∧ isNext (exec (.intAddi 255) State.reset) = true := by decide

/-! ## Core instructions -/

theorem test_words_decode :
    decodeCore 0b000101_00001_00010_0000000000000101#32 0 = .imm .xori 1 2 5 ∧
    decodeCore 0b001100_00001_00000_1111111111111111#32 2 = .movl 1 0xFFFF00000002#48 ∧
    decodeCore 0b011011_00110_00111_00_00000000000010#32 0 = .st .b64 6 7 .scratch 2 ∧
    decodeCore 0b011111_00000_00111_01_00000000000010#32 0 = .touch 7 .virt 2 ∧
    decodeCore 0b100110_00000000000000000000000011#32 0 = .call 3 ∧
    decodeCore 0b101001_00111_01000_00000_010_1000_0010#32 0 = .vcvt .fp32 .i32 2 7 8 ∧
    decodeCore 0b101010_00111_01000_00000_010_0011_0010#32 0 = .vred .max .i64 2 7 8 ∧
    decodeCore 0b101011_00111_01000_01001_010_0000_0101#32 0 = .vperm .compress .i8 2 7 8 9 ∧
    decodeCore 0b101100_00011_01000_01001_010_0000_0010#32 0 = .vcmp .lt .i8 2 3 8 9 ∧
    decodeCore 0b101101_00011_00001_00010_000_0000_0011#32 0 = .vmsk .andn .i8 3 1 2 ∧
    decodeCore 0b110001_00011_00001_00000_00000000000#32 0 = .draw 3 1 ∧
    decodeCore 0b110010_00000_00000_00000_00000000010#32 0 = .halt ∧
    decodeCore 0b110011_00000_00001_00010_00000000001#32 0 = .sysWr 1 2 ∧
    decodeCore 0b110100_00000_00000_00000_00000000000#32 0 = .illegal := by decide

theorem wit_ImmediateInstructions :
    (∀ f ∈ [ImmFn.addi, .andi, .ori, .xori, .slti, .sltui, .hi, .shli, .shri, .srai],
      runs (runsOp (.imm f 1 2 0xFFFF)) 0 (.imm f 1 2 0xFFFF) = true) := by decide
theorem test_addi_sign_extends : ((after (exec (.intAddi 0) (runsOp (.imm .addi 1 2 0xFFFF)))).core 0).rd 1 = 63 := by decide
theorem wit_MovLong : runs (runsOp (.movl 1 0xFFFF00000007)) 0 (.movl 1 0xFFFF00000007) = true ∧
    ((after (exec (.movL 0) (runsOp (.movl 1 0xFFFF00000007)))).core 0).pc = 2 := by decide
theorem wit_IntegerArithmetic : runs (runsOp (.int .div 1 2 0)) 0 (.int .div 1 2 0) = true ∧
    ((after (exec (.intRegOp 0) (runsOp (.int .div 1 2 0)))).core 0).rd 1 = BitVec.allOnes 64 := by decide
theorem wit_IntegerMinors : (7 : Word) ≠ 0 ∧ intFn .mulhu (BitVec.allOnes 64) 2 = 1 := by decide
theorem wit_Branches :
    (∀ f ∈ [BrFn.eq, .ne, .lt, .ge, .ltu, .geu], runs (runsOp (.br f 2 3 4)) 0 (.br f 2 3 4) = true) ∧
    runs (runsOp (.call 5)) 0 (.call 5) = true ∧ runs (runsOp (.jr 1 2)) 0 (.jr 1 2) = true ∧
    ((on { core0 0 with pc := 16384 }).canStep 0 = true ∧ 16384 ≤ ((on { core0 0 with pc := 16384 }).core 0).pc.toNat) := by decide
theorem test_branch_back : ((after (exec (.brCompare 0) (runsOp (.br .ne 2 3 0xFFFF)))).core 0).pc = BitVec.allOnes 64 := by decide
theorem wit_Vectors :
    runs (runsOp (.vop .add .i8 1 1 2 3)) 0 (.vop .add .i8 1 1 2 3) = true ∧
    runs (runsOp (.vcvt .fp32 .i32 1 1 2)) 0 (.vcvt .fp32 .i32 1 1 2) = true ∧
    runs (runsOp (.vred .sum .i8 1 1 2)) 0 (.vred .sum .i8 1 1 2) = true ∧
    runs (runsOp (.vperm .extract .i8 1 1 2 3)) 0 (.vperm .extract .i8 1 1 2 3) = true ∧
    runs (runsOp (.vperm .insert .i8 1 1 2 3)) 0 (.vperm .insert .i8 1 1 2 3) = true ∧
    runs (runsOp (.vcmp .lt .i8 1 2 2 3)) 0 (.vcmp .lt .i8 1 2 2 3) = true ∧
    runs (runsOp (.vmsk .popc .i8 1 2 3)) 0 (.vmsk .popc .i8 1 2 3) = true ∧
    runs (runsOp (.vmsk .xor .i8 1 2 3)) 0 (.vmsk .xor .i8 1 2 3) = true := by decide
theorem wit_MaskedOff : 63 < eCount .i8 ∧ (0 : Word).toNat.testBit 63 = false := by decide
theorem wit_WiredRegisters : (1 : Reg) ≠ 0 ∧ (2 : Reg) ≠ 1 ∧ (1 : BitVec 3) ≠ 0 ∧ (2 : BitVec 3) ≠ 1 := by decide
theorem wit_Touch : runs (runsOp (.touch 2 .virt 0x3FFF)) 0 (.touch 2 .virt 0x3FFF) = true := by decide
theorem wit_CoreEncoding : (CoreOp.vop .exp2 .fp32 7 31 31 31).wf = true ∧ (CoreOp.vop .exp2 .i8 7 31 31 31).wf = false ∧
    (CoreOp.vred .sum .e4m3 0 0 0).wf = false ∧ (CoreOp.vcmp .eq .fp16 0 0 0 0).wf = false := by decide

theorem wit_ScratchAccesses :
    (runs (runsOp (.ld .d64 1 2 .scratch 0)) 0 (.ld .d64 1 2 .scratch 0) = true ∧
      (memAddr 64 0 8).toNat % 8 = 0 ∧ (memAddr 64 0 8).toNat + 8 ≤ 0x40000) ∧
    (runs (runsOp (.st .b64 1 2 .scratch 0x1FFF)) 0 (.st .b64 1 2 .scratch 0x1FFF) = true ∧ turn0.kept.length < 512) ∧
    (runs (runsOp (.vld 1 2 .scratch 0)) 0 (.vld 1 2 .scratch 0) = true ∧ (memAddr 64 0 64).toNat % 64 = 0) ∧
    (runs (runsOp (.vst 1 2 .scratch 0)) 0 (.vst 1 2 .scratch 0) = true) ∧
    (runs (runsOp (.ld .d64 1 3 .scratch 0)) 0 (.ld .d64 1 3 .scratch 0) = true ∧ (memAddr 9 0 8).toNat % 8 ≠ 0) ∧
    (runs (runsOp (.ld .u8 1 0 .scratch 0x3FFF)) 0 (.ld .u8 1 0 .scratch 0x3FFF) = true ∧ 0x40000 < (memAddr 0 0x3FFF 1).toNat + 1) := by
  decide
theorem wit_ScratchStore : runs (runsOp (.st .b8 3 2 .scratch 1)) 0 (.st .b8 3 2 .scratch 1) = true ∧
    memWf (runsOp (.st .b8 3 2 .scratch 1)).mem = true ∧ ((runsOp (.st .b8 3 2 .scratch 1)).core 0).turn = some turn0 ∧
    (after (exec (.memSt 0) (runsOp (.st .b8 3 2 .scratch 1)))).byte (key (spScratch 0) 65) = 9 := by decide

/-- A state as given with page 0 of tenancy 0 mapped, writable, at a home state. -/
def mapped (s : State) (st : Nat) : State := s.setPage (pageKey 0 0) { writable := true, st := st }

theorem wit_VirtualAccesses :
    (∀ op ∈ [CoreOp.ld .d64 1 2 .virt 0, .vld 1 2 .virt 0],
      runs (mapped (runsOp op) 1) 0 op = true ∧ (mapped (runsOp op) 1).access .unit 0 [(64, 64)] [] = .ok ∧
      (runsOp op).access .unit 0 [(64, 64)] [] = .prot ∧
      (mapped (runsOp op) 2).access .unit 0 [(64, 64)] [] = .fault [0]) ∧
    (∀ op ∈ [CoreOp.st .b64 1 2 .virt 0, .vst 1 2 .virt 0],
      runs (mapped (runsOp op) 1) 0 op = true ∧ (mapped (runsOp op) 1).access .unit 0 [] [(64, 64)] = .ok ∧
      (runsOp op).access .unit 0 [] [(64, 64)] = .prot ∧
      (mapped (runsOp op) 0).access .unit 0 [] [(64, 64)] = .fault [0]) ∧
    ((runsOp .halt).pw.absent.contains 5 = false) ∧ turn0.lines.length < 1024 := by decide

theorem wit_TurnsEnd :
    runs (runsOp .commit) 0 .commit = true ∧ runs (runsOp .halt) 0 .halt = true ∧
    runs (on { core0 (encodeCore (.bar 2)).1 with g := [(2, 4)] }) 0 (.bar 2) = true ∧
    (core0 0).bars.contains (0, 4) = true ∧ (core0 0).bars.contains (0, 64) = false ∧
    ((on { core0 0 with wait := .turn }).core 0).wait = .turn ∧ ((on { core0 0 with wait := .turn }).core 0).turns.length < 2 := by decide
theorem test_commit_begins_next_turn : ((after (exec (.syncCommit 0) (runsOp .commit))).core 0).turns.length = 2 := by decide
theorem wit_AtMostTwoTurns : (∀ d ∈ [0, 1, 255], ((runsOp .commit).core d).turns.length ≤ 2) ∧
    isNext (exec (.syncCommit 0) (runsOp .commit)) = true := by decide

/-- A state with core 5 waiting at barrier 3 of hamlet 0, where n have to arrive and core 5 has. -/
def atBarrier (n : Nat) : State :=
  let s := ({} : State).setCore 5 { mode := .waiting, wait := .barrier 0 3 }
  { s with x := { s.x with bars := [(3, ⟨n, [5]⟩)] } }

theorem wit_BarrierRelease :
    tfind (atBarrier 1).x.bars (16 * 0 + 3) = some ⟨1, [5]⟩ ∧ tfind (atBarrier 2).x.bars (16 * 0 + 3) = some ⟨2, [5]⟩ ∧ [5].Nodup ∧
    ((atBarrier 1).core 5).wait = .barrier 0 3 ∧ ((after (exec (.barrierRelease 0 3) (atBarrier 1))).core 5).mode = .running ∧
    ((after (exec (.barrierRelease 0 3) (atBarrier 2))).core 5).mode = .waiting := by decide

/-- A state with queue 0 of room n, whose core 0 runs an instruction and has a descriptor of two words at scratch 64. -/
def queued (op : CoreOp) (n : Nat) (wait : Wait) : State :=
  let s := on { core0 (encodeCore op).1 with wait := wait, g := [(2, 64), (3, 9), (4, 8)] }
  ({ s with x := { s.x with queues := [(0, ⟨0, 0, 3, [], 0, 64, n⟩)] } } : State).writeRun (key (spScratch 0) 64) [1, 2, 0, 0, 0, 0, 0, 0]

theorem wit_Issue :
    let s := queued (.issue 1 2 0) 4 .none
    runs s 0 (.issue 1 2 0) = true ∧ (s.core 0).handles.contains 0 = true ∧ bits (ofLe (s.scratch 0 64 8)) 8 8 = 2 ∧
      (∃ q, s.queue 0 = some q ∧ s.outstanding 0 < q.maxOut) ∧
    (∃ q, (queued (.issue 1 2 0) 0 .none).queue 0 = some q ∧ q.maxOut ≤ (queued (.issue 1 2 0) 0 .none).outstanding 0) ∧
    runs (queued (.issue 1 2 3) 4 .none) 0 (.issue 1 2 3) = true ∧ (s.core 0).handles.contains 9 = false ∧
    runs (queued (.issue 1 3 0) 4 .none) 0 (.issue 1 3 0) = true ∧
    runs (queued (.issue 1 4 0) 4 .none) 0 (.issue 1 4 0) = true ∧ ofLe (s.scratch 0 8 8) % 256 ≠ 1 ∧
    runs (on { core0 (encodeCore (.issue 1 2 0)).1 with g := [(2, 0x40000)] }) 0 (.issue 1 2 0) = true ∧ 0x40000 < 0x40000 + 8 := by
  refine ⟨by decide, by decide, by decide, ⟨_, rfl, by decide⟩, ⟨_, rfl, by decide⟩, ?_⟩
  decide
theorem wit_IssueStallEnd :
    let s := queued (.issue 1 2 0) 4 .issue
    (s.core 0).wait = .issue ∧ (s.core 0).fetch = some (.issue 1 2 0) ∧
      tget ((after (exec (.cmdIssueStallEnd 0) s)).core 0).counts 0 0 = 3 := by decide

/-- A state whose core 0 waits, with the command of ticket 1 in a state. -/
def waiting (w : Wait) (st : CmdSt) : State :=
  (on { core0 0 with mode := .waiting, wait := w, turns := [] }).setCmd 1 { st := st, record := 5 }

theorem wit_Waits :
    runs (on { core0 (encodeCore (.wait 1 2)).1 with g := [(2, 1)] }) 0 (.wait 1 2) = true ∧ (core0 0).issued 1 = true ∧
      (core0 0).issued 64 = false ∧
    runs (on { core0 (encodeCore (.waitAll 1 0 2)).1 with g := [(2, 1)] }) 0 (.waitAll 1 0 2) = true ∧
    runs (on { core0 (encodeCore (.abort 0 2)).1 with g := [(2, 1)] }) 0 (.abort 0 2) = true ∧
    (core0 0).rangeBad 0 1 = false ∧ (core0 0).rangeBad 0 64 = true ∧ (core0 0).rangeBad 9 1 = false ∧
    ((waiting (.ticket 7 1) .committed).core 0).mode = .waiting ∧
    ((after (exec (.cmdWaitReturn 0) (waiting (.ticket 7 1) .committed))).core 0).rd 7 = 5 ∧
    ((after (exec (.cmdWaitReturn 0) (waiting (.range 7 3 1) .issued))).core 0).rd 7 = 0 ∧
    ((after (exec (.cmdWaitReturn 0) (waiting (.range 7 1 1) .void))).core 0).rd 7 = 1 ∧
    ((after (exec (.cmdWaitReturn 0) (waiting (.ticket 7 1) .killed))).core 0).mode = .waiting := by decide
theorem wit_VoidTicket :
    let s := waiting (.ticket 7 1) .void
    (s.core 0).mode = .waiting ∧ s.isVoid 1 = true ∧ ((after (exec (.cmdWaitReturn 0) s)).core 0).rd 7 = 0x7000B01 := by decide

/-- A state whose well 3 is enabled and bound to tenancy 0 with values 10 to 11, and whose core 0 draws. -/
def welled (k : Core) (limit : Nat) : State :=
  (((on k).put (R.WEL_CTL_EN 3) 1).setReg (R.WEL_NEXT 3) 10 |>.setReg (R.WEL_LIMIT 3) limit).put (R.WEL_STEP_STEP 3) 1

def drawer : Core := { core0 (encodeCore (.draw 1 2)).1 with g := [(2, 3)] }

theorem wit_WellDraw :
    runs (welled drawer 12) 0 (.draw 1 2) = true ∧ (welled drawer 12).wellMine 3 0 = true ∧ drawer.wells.contains 3 = true ∧
    (on drawer).wellMine 3 0 = false ∧ runs (runsOp (.draw 1 2)) 0 (.draw 1 2) = true ∧ (core0 0).wells.contains 64 = false ∧
    ((after (exec (.wellDraw 0) (welled drawer 12))).core 0).rd 1 = 10 ∧
    ((after (exec (.wellDraw 0) (welled drawer 10))).core 0).rd 1 = BitVec.allOnes 64 ∧
    ((after (exec (.wellDraw 0) ((welled drawer 10).setWell 3 { live := [⟨9, .cmd 4, 0, 0⟩] }))).core 0).wait = .draw ∧
    ((after (exec (.wellDrawRetry (.turn 0)) (welled { drawer with wait := .draw } 12))).core 0).rd 1 = 10 := by decide
theorem wit_Draws :
    (((welled drawer 12).setWell 3 { returned := [8, 7] }).well 3).returned ≠ [] ∧
    256 ≤ (({} : State).setWell 3 { live := List.replicate 256 ⟨0, .cmd 0, 0, 0⟩ } |>.well 3).live.length ∧
    (((welled drawer 12).reg (R.WEL_NEXT 3)).toNat < ((welled drawer 12).reg (R.WEL_LIMIT 3)).toNat) ∧
    (((welled drawer 10).reg (R.WEL_LIMIT 3)).toNat ≤ ((welled drawer 10).reg (R.WEL_NEXT 3)).toNat) := by decide +kernel
theorem wit_CoreStateRegisters :
    (∀ n ∈ [0, 1, 2, 3, 4, 5], (((on { core0 0 with g := [(2, BitVec.ofNat 64 n)] }).sysReg 0 n).isSome = true)) ∧
    runs (runsOp (.sysRd 1 2)) 0 (.sysRd 1 2) = true ∧ 6 ≤ (((runsOp (.sysRd 1 2)).core 0).rd 2).toNat ∧
    runs (on { core0 (encodeCore (.sysWr 2 3)).1 with g := [(2, 4), (3, 9)] }) 0 (.sysWr 2 3) = true ∧
    runs (on { core0 (encodeCore (.sysWr 2 3)).1 with g := [(2, 5), (3, 9)] }) 0 (.sysWr 2 3) = true := by decide
theorem wit_Exceptions : runs (on (core0 0)) 0 .illegal = true ∧ runs (runsOp .sysBreak) 0 .sysBreak = true ∧
    ((after (exec (.illegalInstruction 0) (on (core0 0)))).core 0).turns = [{ turn0 with fin := .exception 1 0 }] ∧
    (on { core0 0 with turns := [{ turn0 with fin := .exception 1 0 }] }).turnReady 0 { turn0 with fin := .exception 1 0 } = true ∧
    ((after (exec (.commitGrant (.turn 0)) (on { core0 0 with turns := [{ turn0 with fin := .exception 1 0 }] }))).core 0).exc = 1 := by decide

/-! ## Commands -/

/-- A descriptor: its header (class, operation, no dependency) and its body. -/
def desc (cls op : Nat) (body : List Nat) : List Nat :=
  [1 + (2 + body.length) * 2 ^ 8 + cls * 2 ^ 16 + op * 2 ^ 24, 0] ++ body

/-- A state with pages 0 to 3 of tenancy 0 mapped, writable, in the granary, and a queue 0 of a class, served by unit 0. -/
def field (cls : Nat) : State :=
  let pg (i : Nat) : Page := { writable := true, st := 1, frame := i }
  { ({} : State).put (R.SCH_TEN_CTL_ROTA 0) 16 with
    vm := { pages := [(0, pg 0), (1, pg 1), (2, pg 2), (3, pg 3)] }
    x := { queues := [(0, ⟨0, 0, cls, [0], 0x600000, 64, 4⟩)] } }

/-- That state with the command of ticket 0 as given. -/
def cmdAt (c : Cmd) : State := (field (dClass c.words)).setCmd 0 c

/-- A Running command of a class and operation. -/
def running (cls op : Nat) (body : List Nat) : Cmd := { words := desc cls op body, patched := desc cls op body, st := .running }

/-- That command in that state. -/
def working (cls op : Nat) (body : List Nat) : State := cmdAt (running cls op body)

/-- Whether the command of ticket 0 after an outcome is as said. -/
def got (x : Ans) (f : Cmd → Bool) : Bool := match (after x).cmd 0 with
  | some c => f c
  | none => false

/-- What the command of ticket 0 has made ready after an outcome. -/
def doneOf (x : Ans) : Option Done := match (after x).cmd 0 with
  | some c => c.done
  | none => none

theorem wit_LeaveIssued :
    let c : Cmd := { words := desc 3 1 [0, 64, 4] }
    let q : Queue := ⟨0, 0, 3, [0], 0x600000, 64, 4⟩
    (cmdAt c).cmd 0 = some c ∧ (cmdAt c).queue 0 = some q ∧ (cmdAt c).mayServe q 0 0 = true ∧ (cmdAt c).mayServe q 0 1 = false ∧
      (cmdAt c).unitTakes 3 0 0 = true ∧ (cmdAt c).mayRun 0 = true ∧ (cmdAt c).startReady 0 c = true ∧
    doneOf (exec (.commandLeaveIssued 0 0) ((field 3).setCmd 0 { words := desc 3 9 [0, 64, 4] })) = some ⟨4, [], []⟩ ∧
    doneOf (exec (.commandLeaveIssued 0 0) ((field 3).setCmd 0 { words := [1 + 2 * 2 ^ 8 + 3 * 2 ^ 16 + 2 ^ 24 + 2 ^ 32, 0] })) =
      some ⟨5, [], []⟩ ∧
    doneOf (exec (.commandLeaveIssued 0 0) ((field 3).setCmd 0 { words := desc 3 1 [0, 64, 4], depBad := true })) = some ⟨3, [], []⟩ ∧
    doneOf (exec (.commandLeaveIssued 0 0) (((field 3).setCmd 0 { words := [0x1030401 + 2 ^ 32, 0, 7, 0] }).setCmd 7 { st := .void })) =
      some ⟨2, [], []⟩ := by decide
theorem wit_LeaveIssuedDraw :
    let w := [1 + 4 * 2 ^ 8 + 3 * 2 ^ 16 + 2 ^ 24 + 2 ^ 40 + 3 * 2 ^ 41, 3, 0, 64]
    let s := (((((field 3).setCmd 0 { words := w }).put (R.WEL_CTL_EN 3) 1).setReg (R.WEL_NEXT 3) 10).setReg (R.WEL_LIMIT 3) 12)
    s.wellMine 3 0 = true ∧
      got (exec (.commandLeaveIssued 0 0) s) (fun c => decide (c.patched = lset w 3 74)) = true := by decide
theorem wit_Ready :
    let c : Cmd := { running 3 1 [0, 64, 4] with done := some ⟨0, [], []⟩ }
    c.made = true ∧ got (exec (.commandReady ⟨.cmd 0, []⟩) (cmdAt c)) (fun m => decide (m.st = .ready)) = true ∧
    (running 3 1 []).made = false := by decide
theorem wit_StartPoint :
    let c : Cmd := { running 8 2 [] with done := some ⟨0, [], []⟩ }
    let on_ := (cmdAt c).put R.PWR_STS_NV_OK 1
    let off_ := (cmdAt c).put R.PWR_STS_NV_OK 0
    nonKillable 8 2 = true ∧ c.epoch = on_.epochOf 8 0 ∧ on_.get R.PWR_STS_SHUTDOWN = 0 ∧ off_.get R.PWR_STS_NV_OK = 0 ∧
    got (exec (.nkStartPoint 0) on_) (fun m => decide (m.st = .irrevocable)) = true ∧
    doneOf (exec (.nkStartPoint 0) off_) = some ⟨9, [], []⟩ ∧
    got (exec (.arrayProgramDone 0) (cmdAt { c with st := .irrevocable })) (fun m => decide (m.nkDone = true)) = true := by
  decide
theorem wit_Kills :
    let c := running 3 1 [0, 64, 4]
    (cmdAt c).get R.PWR_STS_SHUTDOWN = 0 ∧
    got (exec (.commandKill (.cmd 0) .readClash) (cmdAt { c with kills := 7 })) (fun m => decide (m.st = .killed ∧ m.sheltered = true)) = true ∧
    got (exec (.commandKill (.cmd 0) .readClash) (cmdAt { c with sheltered := true })) (fun m => decide (m.st = .running)) = true ∧
    got (exec (.commandKill (.cmd 0) .translation) (cmdAt { c with transKills := 15 })) (fun m => decide (m.transKills = 16)) = true ∧
    got (exec (.commandRerun (.cmd 0)) (cmdAt { c with st := .killed })) (fun m => decide (m.st = .issued)) = true ∧
    got (exec (.faultResolvedRerun (.cmd 0)) (cmdAt { c with st := .killed, lastKill := 2 })) (fun m => decide (m.st = .issued)) = true ∧
    (field 3).granaryRoom 0 = false ∧ (((field 3).put (R.MEM_QUOTA_GRANARY 0) 9).granaryRoom 0 = true) := by decide

/-- A core whose one turn has ended. -/
def endedCore : Core := { core0 0 with turns := [{ turn0 with fin := .plain, kept := [(1, 5)], stores := [(8, 7)] }] }

theorem wit_KilledTurns :
    (on endedCore).get R.PWR_STS_SHUTDOWN = 0 ∧ ((after (exec (.commandKill (.turn 0) .unitFault) (on endedCore))).core 0).held = true ∧
    (after (exec (.commandKill (.turn 0) .unitFault) (on endedCore))).byte (key (spScratch 0) 64) = 5 ∧
    ((after (exec (.commandKill (.turn 0) .sliceEnd) (on endedCore))).core 0).held = false ∧
    ((after (exec (.commandRerun (.turn 0)) (on { endedCore with held := true }))).core 0).held = false ∧
    ((after (exec (.faultResolvedRerun (.turn 0)) (on { endedCore with held := true, lastKill := 2 }))).core 0).held = false := by decide +kernel
theorem wit_CommitGrant :
    let c : Cmd := { running 3 1 [0, 64, 4] with st := .ready, done := some ⟨0, [4, 0], []⟩, attempts := 3 }
    let s := cmdAt c
    s.commitReady 0 c = true ∧ s.pw.absent.contains 5 = false ∧ s.access .unit 0 [] [(0x600000, 64)] = .ok ∧
    got (exec (.commitGrant (.cmd 0)) s) (fun m => decide (m.st = .committed ∧ m.record = 1 + 3 * 2 ^ 16)) = true ∧
    (after (exec (.commitGrant (.cmd 0)) s)).byte (key 0 0x600002) = 3 ∧ s.commitReady 5 c = false := by decide +kernel
theorem wit_TurnGrant :
    (on endedCore).turnReady 0 { turn0 with fin := .plain, kept := [(1, 5)], stores := [(8, 7)] } = true ∧
    ((after (exec (.commitGrant (.turn 0)) (on endedCore))).core 0).turnsDone = 1 ∧
    (after (exec (.commitGrant (.turn 0)) (on endedCore))).byte 8 = 7 ∧
    (on (core0 0)).turnReady 0 turn0 = false ∧ (on (core0 0)).hasFenced (Drawer.isTurnFrom 0 0) = false := by decide +kernel

/-- A record of a LIST: an address and a length. -/
def record (at_ len : Nat) : List Byte := bytesOf [at_, len]

/-- The made status, first results and number of effects of ticket 0. -/
def made0 (x : Ans) : Nat × List Nat × Nat := match doneOf x with
  | some d => (d.status, d.res, d.effs.length)
  | none => (999, [], 0)

theorem wit_Carts :
    made0 (exec (.queueJoin 0) (working 0 0 [])) = (0, [], 0) ∧
    made0 (exec (.cartCopy 0) (working 3 1 [64, 128, 8])) = (0, [8, 0], 1) ∧
    made0 (exec (.cartCopy 0) (working 3 1 [66, 128, 8])) = (5, [], 0) ∧
    made0 (exec (.cartCopy 0) (working 3 1 [64, 68, 8])) = (7, [], 0) ∧
    made0 (exec (.cartCopy 0) (working 3 1 [0x4000000, 128, 8])) = (6, [], 0) ∧
    got (exec (.cartCopy 0) ((working 3 1 [64, 128, 8]).setPage 0 { writable := true, st := 2 })) (fun c => c.await == [0]) = true ∧
    made0 (exec (.cartFill 0) (working 3 4 [64, 16, 5])) = (0, [16, 0], 1) ∧
    made0 (exec (.cartFill 0) (working 3 4 [64, 0, 5])) = (5, [], 0) ∧
    made0 (exec (.cartStride 0) (working 3 5 [64, 1024, 1 + 8 * 2 ^ 32, 16 + 16 * 2 ^ 32])) = (0, [16, 2], 2) ∧
    made0 (exec (.cartStride 0) (working 3 5 [64, 1024, 1 + 8 * 2 ^ 32, 18 + 16 * 2 ^ 32])) = (5, [], 0) ∧
    made0 (exec (.cartStride 0) (working 3 5 [64, 1024, 1 + 8 * 2 ^ 32, 16 + 4 * 2 ^ 32])) = (7, [], 0) ∧
    made0 (exec (.cartStride 0) (working 3 5 [64, 1024, 65535 + 2 ^ 48, 16 + 4 * 2 ^ 32])) = (8, [], 0) := by decide +kernel
theorem wit_CartLists :
    let s (op room : Nat) := (working 3 op ([16, 1024, 1, room].map fun x => if op = 3 then (if x = 16 then 1024 else if x = 1024 then 16 else x) else x)).writeRun 16
      (record 128 8)
    made0 (exec (.cartGather 0) (s 2 64)) = (0, [8, 64], 1) ∧ made0 (exec (.cartGather 0) (s 2 63)) = (7, [], 0) ∧
    made0 (exec (.cartScatter 0) (s 3 0)) = (0, [8, 64], 1) ∧
    made0 (exec (.cartGather 0) (working 3 2 [17, 1024, 1, 64])) = (5, [], 0) ∧
    made0 (exec (.cartGather 0) ((working 3 2 [16, 1024, 1, 64]).writeRun 16 (record 128 6))) = (5, [], 0) ∧
    made0 (exec (.cartGather 0) ((working 3 2 [16, 1024, 6, 2 ^ 40]).writeRun 16 ((List.replicate 6 (record 128 16777216)).flatten))) = (8, [], 0) ∧
    made0 (exec (.cartScatter 0) ((working 3 3 [1024, 16, 1]).writeRun 16 (record 16 8))) = (7, [], 0) := by decide +kernel
theorem wit_WellFill :
    let s := (working 0x0B 1 [3, 10, 12, 1]).put (R.WEL_CTL_EN 3) 1
    s.wellMine 3 0 = true ∧ made0 (exec (.wellFill 0) s) = (0, [], 1) ∧
    made0 (exec (.wellFill 0) (working 0x0B 1 [3, 10, 12, 1])) = (5, [], 0) ∧
    made0 (exec (.wellFill 0) ((working 0x0B 1 [3, 10, 9, 1]).put (R.WEL_CTL_EN 3) 1)) = (5, [], 0) ∧
    (s.setWell 3 { returned := [4] }).doneNow 0 (running 0x0B 1 [3, 10, 12, 1]) ⟨0, [], [.wellFill 3 10 12 1]⟩ = ⟨0x0A, [], []⟩ ∧
    s.doneNow 0 (running 0x0B 1 [3, 10, 12, 1]) ⟨0, [], [.wellFill 3 10 12 1]⟩ = ⟨0, [], [.wellFill 3 10 12 1]⟩ ∧
    (s.setWell 3 { live := [⟨9, .cmd 4, 0, 0⟩] }).well 3 ≠ {} ∧
    (after (exec (.commitGrant (.cmd 0)) (after (exec (.commandReady ⟨.cmd 0, []⟩) (after (exec (.wellFill 0) s)))))).get
      (R.WEL_STEP_STEP 3) = 1 := by decide +kernel

/-- An `eng.pass` of INT8 operands: one row, one column tile, one valid k and one valid column. -/
def passWords (aFmt : Nat) : List Nat :=
  [0, 0x10000, 0x100000, aFmt * 2 ^ 32 + 2 * 2 ^ 36 + 0xA * 2 ^ 40, 4096 + 4096 * 2 ^ 32, 65536, 0, 1 + 2 ^ 16, 0, 0, 0, 0, 0]

/-- That pass as its engine has received it. -/
def passing (aFmt : Nat) : State := (working 1 1 (passWords aFmt)).setTileQueue 0 [0]

theorem wit_EngPass :
    let p := passBody (desc 1 1 (passWords 2))
    let s := passing 2
    p.fieldsOk = true ∧ p.variant = 0 ∧ p.pwf = false ∧ p.haloRecv = 0 ∧ s.haloStatus 0 p = none ∧
      anyOverlap [(p.out, p.footprint)] (s.passReads 0 p) = false ∧ s.access .unit 0 (s.passReads 0 p) (s.passWrites 0 p) = .ok ∧
      s.toFetch (running 1 1 (passWords 2)) .unit [] (s.passReads 0 p) = [] ∧ p.demand = 1 ∧
    made0 (exec (.engPass ⟨0, []⟩) (s.writeRun 0 [3])) = (0, [1, 0, 544, 0], 1) ∧
    made0 (exec (.accTileWaitEnd ⟨0, []⟩) s) = (0, [1, 0, 544, 0], 1) ∧
    made0 (exec (.engPass ⟨0, []⟩) (passing 3)) = (5, [], 0) ∧
    made0 (exec (.engPass ⟨0, []⟩) ((s.setTileQueue 0 [9, 0]).setCmd 9 (running 1 1 (passWords 2)))) = (999, [], 0) ∧
    made0 (exec (.engPass ⟨0, []⟩) (s.setCmd 5 { running 1 1 [] with tiles := 16 })) = (999, [], 0) := by decide +kernel
theorem wit_EngEw :
    made0 (exec (.engEw 0) (working 1 2 [64, 128, 256, 1 + 9 * 2 ^ 32 + 9 * 2 ^ 36 + 9 * 2 ^ 40, 0])) = (0, [1, 0], 1) ∧
    made0 (exec (.engEw 0) (working 1 2 [64, 128, 256, 9 * 2 ^ 32, 0])) = (5, [], 0) := by decide +kernel
theorem wit_IdleFill :
    let s := (({} : State).put (R.ENG_CTL_EN 3) 1).put (R.ENG_STS_STATE 3) 1
    let s := s.put (R.ENG_IDLE_FILL_EN 3) 1
    let f (p : Nat) : State := { s with en := { fill := [(3, p)] } }
    tget (after (exec (.idleFillStart 3) s)).en.fill 3 0 = 1 ∧ tget (after (exec (.idleFillTaper 3) (f 1))).en.fill 3 0 = 2 ∧
    tget (after (exec (.idleFillStop 3) (f 2))).en.fill 3 0 = 3 ∧ s.gridBusy 3 = false ∧ (working 1 1 []).gridBusy 0 = true := by
  decide +kernel

theorem wit_DriftCommands :
    (∀ op ∈ [1, 2, 3, 4, 5, 6], atWork (working 4 op [0x200000, 0]) 0 4 op (running 4 op [0x200000, 0])) ∧
    made0 (exec (.driftMap 0) (working 4 1 [0x200000, 0])) = (0, [], 1) ∧
    made0 (exec (.driftMap 0) (working 4 1 [0x200001, 0])) = (5, [], 0) ∧
    made0 (exec (.driftPin 0) (working 4 3 [0x200000, 2 ^ 19])) = (5, [], 0) ∧
    made0 (exec (.driftUnmap 0) ((working 4 2 [0x200000, 0]).setCmd 9 { st := .irrevocable, pages := [1] })) = (999, [], 0) := by
  refine ⟨?_, ?_⟩
  · intro op h
    simp only [List.mem_cons, List.not_mem_nil, or_false] at h
    rcases h with rfl | rfl | rfl | rfl | rfl | rfl <;> exact ⟨by decide, by decide, by decide, by decide, by decide⟩
  · decide +kernel
theorem wit_DriftOutcomes :
    let q (s : State) : State := s.put (R.MEM_QUOTA_GRANARY 0) 9
    let at_ (op w : Nat) (s : State) : State × Nat × List Nat := s.driftCommit 0 (running 4 op [0, w])
    let s := field 4
    (s.driftCommit 0 (running 4 1 [0x800000, 0])).2 = (0x40, []) ∧
    ((q s).driftCommit 0 (running 4 1 [0, 0])).2 = (0x41, []) ∧
    ((q s).driftCommit 0 (running 4 1 [0x800000, 0])).2 = (0, [1, 0]) ∧
    ((q s).driftCommit 0 (running 4 2 [0x800000, 0])).2 = (0x42, []) ∧
    (at_ 2 0 s).2 = (0, [1, 0]) ∧ (at_ 5 (2 ^ 20) s).2 = (0, [1, 0]) ∧ (at_ 4 0 s).2 = (0, [0, 0]) ∧
    s.ringIn 0 0 (2 ^ 21) = false ∧ 2 ^ 21 + 0x800000 ≤ cwVa ∧ (running 4 1 [0, 0]).seen = (running 4 1 [0, 0]).patched ∧
    (s.vm.pages.map (·.1)).Pairwise (· < ·) := by
  decide +kernel
theorem wit_DriftMoves :
    let s := (field 4).put R.MEM_CTL_EN 1
    let p1 : Page := { writable := true, st := 1, frame := 1 }
    let s2 : State := { s with vm := { s.vm with moves := [(7, ⟨1, none, 1, 9, false, .ready, .evacuate, 0⟩), (8, ⟨2, some 3, 1, 1, true, .ready, .pin, 0⟩)], lines := 2 ^ 40 } }
    let s3 := (s.setPage 9 { st := 0 }).put (R.MEM_QUOTA_GRANARY 0) 99
    let s3 : State := { s3 with vm := { s3.vm with awaited := [9] } }
    s.page 1 = some p1 ∧ s.moveRoom 0 false = true ∧
    (s3.pageMoveOk 9 { st := 0 } 1 77 .fault = true ∧ s3.moveRoom (moveDie { st := 0 } 1 77) false = true) ∧
    ((((s.setPage 5 { st := 1, frame := 5, pin := 1 }).put (R.OAS_CTL_EN 0) 1).put (R.PWR_DOM_STS_POWERED) (2 ^ 50 - 1)).granuleOk 5
      { st := 1, frame := 5, pin := 1 } 2 true .pin = true) ∧
    (match (after (exec (.commitGrant (.move 7)) s2)).page 1 with | some n => n.frame | none => 0) = 9 ∧
    (match (after (exec (.commitGrant (.move 8)) s2)).page 2 with | some n => n.oasis | none => 0) = 8 ∧
    2 ^ s2.get R.MEM_CTL_DECAY_SHIFT ≤ s2.vm.lines ∧ s.vm.lines < 2 ^ s.get R.MEM_CTL_DECAY_SHIFT ∧
    (match (after (exec (.pageHoldExpiry 1) (s.setPage 1 { p1 with held := true }))).page 1 with | some n => n.held | none => true) = false ∧
    s.time 0 < 5 ∧ (after (exec (.driftMove 9 none 1 77 .fault) s3)).vm.moves.length = 1 := by
  decide +kernel
theorem wit_Media :
    let s := field 4
    let bad : State := { s with vm := { s.vm with corrRows := [(77, 0), (77, 0)], ueFrames := [2] } }
    (∀ p, p ∈ s.vm.pages → ¬ (p.2.st = 1 ∧ p.2.frame = 77)) ∧ bad.frameBad 77 0 = true ∧ s.frameBad 77 0 = false ∧
    (after (exec (.frameRetire 0 77 0 false) bad)).vm.retired = [77] ∧ (after (exec (.frameRetire 0 77 0 true) bad)).vm.retired = [] ∧
    (after (exec (.frameRetire 0 2 0 true) bad)).vm.repairs = [(2, 0, true)] ∧
    (s.get (R.MEM_STACK_GROUPS_RETIRED 3)).testBit 7 = false ∧ s.groupRetired 3 7 < 64 ∧
    (after (exec (.channelGroupRetire 3 7 (some 3)) { s with vm := { s.vm with parity := [(32 * 3 + 4 * 7 + 3, 16)] } })).get
      (R.MEM_STACK_GROUPS_RETIRED 3) = 128 ∧ (after (exec (.channelGroupRetire 3 7 none) s)).get (R.MEM_STACK_GROUPS_RETIRED 3) = 0 ∧
    (match (after (exec (.granulePoison 33 (.cmd 4)) s)).page 1 with | some n => n.poison | none => 0) = 2 ∧
    (match (after (exec (.poisonRebuild 33) (s.setPage 1 { st := 1, poison := 2, source := 1 }))).page 1 with
      | some n => n.poison | none => 9) = 0 ∧
    (match s.page 1 with | some p => p.source? | none => true) = false ∧
    (after (exec (.cellarMediaEvent .eraseFail) s)).get R.CEL_ERR_ERASE_FAIL = 1 ∧
    (after (exec (.cellarMediaEvent (.storeUe 5)) (s.put R.CEL_STORE_STORE 1))).vm.badSectors = [5] ∧
    (after (exec (.cellarChannelFail 31) s)).get R.CEL_STS_CH_FAIL = 2 ^ 31 := by
  decide +kernel

/-- A state whose page 1 is a store page. -/
def stored (s : State) : State := s.setPage 1 { writable := true, st := 3, image := true, imageUnit := 4, frame := 4 }

theorem wit_Cellar :
    let on_ (s : State) : State := s.put R.PWR_STS_NV_OK 1
    let off_ (s : State) : State := s.put R.PWR_STS_NV_OK 0
    made0 (exec (.celGather 0) ((working 8 1 [16, 1024, 1, 64]).writeRun 16 (record 128 8))) = (0, [8, 64, 0], 1) ∧
    made0 (exec (.celGather 0) (working 8 1 [16, 1024, 0, 64])) = (5, [], 0) ∧
    made0 (exec (.celGather 0) ((stored ((working 8 1 [16, 1024, 1, 64]).put R.CEL_STS_CH_FAIL (2 ^ 32 - 1))).writeRun 16 (record 0x200000 8))) =
      (0x40, [0, 0, 0, 0], 0) ∧
    made0 (exec (.celProg 0) (on_ (stored (working 8 2 [0, 0x200000, 1])))) = (0, [4096], 1) ∧
    made0 (exec (.celProg 0) (on_ (stored (working 8 2 [0, 0x200000, 0])))) = (5, [], 0) ∧
    made0 (exec (.celProg 0) (off_ (stored (working 8 2 [0, 0x200000, 1])))) = (9, [], 0) ∧
    made0 (exec (.celTrim 0) (on_ (stored (working 8 3 [0x200000, 1])))) = (0, [1], 1) ∧
    made0 (exec (.celTrim 0) (on_ (stored (working 8 3 [0x200000, 0])))) = (5, [], 0) := by decide +kernel

/-- A state with index 0 enabled for tenancy 0, its writer, over one list of no code, its header at 4096 of a module-owned page; the
tables stand in that page. -/
def indexed (s : State) (sideCap : Nat) : State :=
  let s := (s.setPage (pageKey spModule 0) { st := 1, frame := 9, users := [0] }).writeRun (key spModule 4096)
    (bytesOf [1 + 8 * 2 ^ 16 + 8 * 2 ^ 24, 1, 0x2000, 0x3000, 0x4000, 0x8000, 0, 100, 0x5000, sideCap, 10, 0])
  ((((s.setReg (R.SCN_IDX_HDR 0) 4096).put (R.SCN_IDX_CTL_EN 0) 1).setReg (R.SCN_IDX_TENS 0) 1).put (R.SCN_IDX_CTL_WRITER_EN 0) 1).put
    (R.SCN_IDX_CTL_WRITER 0) 0

/-- A plan that goes through. -/
def plan? (p : Plan) : Bool := match p with
  | .goX _ _ _ _ _ => true
  | _ => false

theorem wit_Scan :
    let ix (op : Nat) (b : List Nat) : State := indexed (working 2 op b) 4
    let bar (op : Nat) (b : List Nat) (e : Nat) : State := indexed ((field 2).setCmd 0 { running 2 op b with barred := some e }) 4
    plan? ((ix 1 [64, 0, 1024, 2 ^ 6, 0, 0]).probePlan [0] (running 2 1 [64, 0, 1024, 2 ^ 6, 0, 0])) = true ∧
    (working 2 1 []).idxBar 0 (desc 2 1 [64, 0, 1024, 2 ^ 6, 0, 0]) = some 0x41 ∧
    ((ix 1 []).setReg (R.SCN_IDX_TENS 0) 2).idxBar 0 (desc 2 2 [64, 0, 128, 1024]) = some 0x42 ∧
    (ix 4 []).idxBar 0 (desc 2 4 [64, 64]) = none ∧ ((ix 4 []).put (R.SCN_IDX_CTL_WRITER_EN 0) 0).idxBar 0 (desc 2 5 [64, 64]) = some 0x42 ∧
    ([(made0 (exec (.scanProbe 0) (ix 1 [64, 0, 1024, 2 ^ 6, 0, 0])), (0, [0, 1, 0, 0], 1)),
      (made0 (exec (.scanProbe 0) (bar 1 [64, 0, 1024, 2 ^ 6, 0, 0] 0x41)), (0x41, [], 0)),
      (made0 (exec (.scanRescore 0) (ix 2 [64, 0, 128, 1024])), (0, [0, 0, 0, 0], 1)),
      (made0 (exec (.scanRescore 0) (bar 2 [64, 0, 128, 1024] 0x41)), (0x41, [], 0)),
      (made0 (exec (.scanSnap 0) (ix 3 [0, 0])), (0, [], 1)),
      (made0 (exec (.scanSnap 0) (bar 3 [0, 0] 0x41)), (0x41, [], 0)),
      (made0 (exec (.scanInsert 0) (ix 4 [64, 64])), (0, [], 1)),
      (made0 (exec (.scanInsert 0) (ix 4 [64, 0])), (5, [], 0)),
      (made0 (exec (.scanInsert 0) (bar 4 [64, 64] 0x42)), (0x42, [], 0)),
      (made0 (exec (.scanInsert 0) ((ix 4 [64, 64]).writeRun 64 (bytesOf [101]))), (0x45, [], 0)),
      (made0 (exec (.scanInsert 0) ((ix 4 [64, 64]).writeRun 64 (bytesOf [2 ^ 40]))), (5, [], 0)),
      (made0 (exec (.scanDelete 0) (ix 5 [64, 64])), (0, [], 1)),
      (made0 (exec (.scanFold 0) (ix 6 [64, 64, 0])), (0, [], 1)),
      (made0 (exec (.scanFold 0) (ix 6 [64, 0, 0])), (5, [], 0)),
      (made0 (exec (.scanFold 0) (bar 6 [64, 64, 0] 0x41)), (0x41, [], 0)),
      (made0 (exec (.scanGather 0) (working 2 7 [64, 1, 1024, 2])), (0, [0, 0, 0, 0], 1)),
      (made0 (exec (.scanGather 0) (working 2 7 [64, 0, 1024, 2])), (5, [], 0))].all fun p => p.1 == p.2) = true := by decide +kernel
theorem wit_ScanOutcomes :
    let at_ (op : Nat) (b : List Nat) (cap live : Nat) : State × Nat × List Nat :=
      ((indexed (working 2 op b) cap).put (R.SCN_IDX_SIDE_LIVE 0) live).scanCommit 0 (running 2 op b)
    (at_ 3 [0, 0] 4 0).2 = (0, [0, 0, 0, 0]) ∧ (at_ 4 [64, 64] 4 0).2 = (0, [0, 1, 0, 0]) ∧ (at_ 4 [64, 64] 4 4).2 = (0x43, []) ∧
    (at_ 6 [64, 64, 3] 4 2).2 = (0x46, []) ∧ (at_ 6 [64, 64, 2] 4 2).2 = (0, [0, 1, 2, 0]) := by decide +kernel

/-- A state whose stream 3 is open for tenancy 0, with stop string "a", and whose one-token vocabulary spells "a"; the tokenizer's header
stands at 4096 of a module-owned page. -/
def texted (s : State) : State :=
  let s := (s.setPage (pageKey spModule 0) { st := 1, frame := 9 }).writeRun (key spModule 4096)
    (bytesOf [1 * 2 ^ 16, 0, 0x2000, 0x3000, 0x4000])
  let s := (s.writeRun (key spModule 0x3000) (bytesOf [2 ^ 32])).writeRun (key spModule 0x4000) [0x61]
  { s.setReg R.TXT_TAB 4096 with tx := { streams := [(3, ⟨0, true, false, [[0x61]], [], false⟩)] } }

theorem wit_Text :
    let tx (op : Nat) (b : List Nat) : State := texted (working 5 op b)
    let strm (s : State) (v : Strm) : State := { s with tx := { streams := [(3, v)] } }
    ([(made0 (exec (.txtTok 0) (tx 1 [64, 1, 1024, 4])), (0, [1, 1, 0, 0], 3)),
      (made0 (exec (.txtTok 0) (tx 1 [64, 1, 1026, 4])), (5, [], 0)),
      (made0 (exec (.txtTok 0) (tx 1 [64, 1, 1024, 0])), (0x40, [], 0)),
      (made0 (exec (.txtOpen 0) (tx 2 [4 + 2 ^ 14, 64])), (5, [], 0)),
      (made0 (exec (.txtOpen 0) (tx 2 [3, 64])), (0x41, [], 0)),
      (made0 (exec (.txtOpen 0) ((tx 2 [4 + 2 ^ 14, 64]).writeRun 64 [1])), (0, [4, 1, 0, 0], 1)),
      (made0 (exec (.txtOpen 0) (tx 2 [4 + 17 * 2 ^ 14, 64])), (5, [], 0)),
      (made0 (exec (.txtFeed 0) (tx 3 [3 + 2 ^ 12, 64, 1024, 9])), (0, [1, 1, 1, 0], 3)),
      (made0 (exec (.txtFeed 0) (tx 3 [3 + 2 ^ 12, 64, 1024, 0])), (0x45, [], 0)),
      (made0 (exec (.txtFeed 0) (tx 3 [3, 64, 1024, 9])), (5, [], 0)),
      (made0 (exec (.txtFeed 0) (tx 3 [4 + 2 ^ 12, 64, 1024, 9])), (0x42, [], 0)),
      (made0 (exec (.txtFeed 0) (strm (tx 3 [3 + 2 ^ 12, 64, 1024, 9]) ⟨1, true, false, [], [], false⟩)), (0x43, [], 0)),
      (made0 (exec (.txtFeed 0) (strm (tx 3 [3 + 2 ^ 12, 64, 1024, 9]) ⟨0, true, false, [], [], true⟩)), (0x44, [], 0)),
      (made0 (exec (.txtClose 0) (tx 4 [3, 1024, 0])), (0, [0, 0, 0, 0], 2)),
      (made0 (exec (.txtClose 0) (tx 4 [4, 1024, 0])), (0x42, [], 0)),
      (made0 (exec (.txtClose 0) (strm (tx 4 [3, 1024, 0]) ⟨0, true, false, [], [7], false⟩)), (0x45, [], 0))].all fun p => p.1 == p.2) = true := by decide +kernel
theorem wit_Feed :
    let s := texted (field 5)
    (s.feed ⟨0, true, false, [[0x61]], [], false⟩ [0]).2.2.2 = some 0 ∧ (s.feed ⟨0, true, false, [[0x62]], [], false⟩ [0]).2.2.2 = none ∧
      (s.feed ⟨0, true, false, [[0x61, 0x62]], [], false⟩ [0]).2.1.held = [0x61] := by decide +kernel

/-- That state with grammar slot 0 taken by tenancy 0, the image at page 2, and a session without a grammar at 16384. -/
def grammared (s : State) (w0 : Nat) : State :=
  ((texted s).setReg (R.TXT_GRM_SLOT 0) 1 |>.setReg (R.TXT_GRM_IMAGE 0) 0x400000).writeRun 16384 (bytesOf [w0])

theorem wit_Grammar :
    let gr (op w0 : Nat) (b : List Nat) : State := grammared (working 5 op b) w0
    made0 (exec (.grmLoad 0) (gr 0x10 0 [0x400000, 0, 64])) = (0x50, [0, 1, 0], 0) ∧
    made0 (exec (.grmLoad 0) (gr 0x10 0 [0x400001, 0, 64])) = (5, [], 0) ∧
    made0 (exec (.grmUnload 0) (gr 0x11 0 [0, 0])) = (0, [0, 0, 0, 0], 1) ∧
    made0 (exec (.grmOpen 0) (gr 0x12 0 [0x8000, 0, 0, 0, 0])) = (0, [0, 0, 0, 0], 1) ∧
    made0 (exec (.grmOpen 0) (gr 0x12 0 [0x8001, 0, 0, 0, 0])) = (5, [], 0) ∧
    made0 (exec (.grmOpen 0) (gr 0x12 0 [0x8000, 1, 0, 0, 0])) = (0x52, [], 0) ∧
    made0 (exec (.grmOpen 0) ((gr 0x12 0 [0x8000, 0, 0, 0, 0]).setReg (R.TXT_GRM_SLOT 0) 257)) = (0x53, [], 0) ∧
    made0 (exec (.grmStep 0) (gr 0x13 0x4101 [16384, 0, 0, 0x10000])) = (0x52, [], 0) ∧
    made0 (exec (.grmStep 0) (gr 0x13 0x44001 [16384, 0, 0, 0x10000])) = (0x55, [], 0) := by decide +kernel
theorem wit_GrammarSession :
    let s := grammared (working 5 0x13 [16384, 0, 0, 0x10000]) 0x4001
    let x := s.sess 0 16384
    s.sessSlotBad x 0 = none ∧ x.done = false ∧ s.sessOk (s.slotGram 0 0) 0 16384 x = true ∧
      s.maskToks (s.slotGram 0 0) s.tok.vocab x = [0] ∧ (made0 (exec (.grmStep 0) s)).1 = 0 ∧
      (made0 (exec (.grmPath 0) (grammared (working 5 0x14 [16384, 1, 0, 0x10000]) 0x4001))).1 = 0 ∧
      (made0 (exec (.grmPeek 0) (grammared (working 5 0x15 [16384, 0x10000]) 0x4001))).1 = 0 ∧
      (made0 (exec (.grmPeek 0) (grammared (working 5 0x15 [16384, 0x4040]) 0x4001))).1 = 0 := by decide +kernel

/-- A state whose embedding table 0 is enabled for tenancy 0 under version 1: rows of 16 one-byte codes, 4 rows homed here from 1024. -/
def embedded (s : State) : State :=
  let d : EmbDesc := ⟨false, 16, 4, 4, 1024, [s.ownAddr]⟩
  let s := (((s.put (R.EMB_TAB_CTL_EN 0) 1).put (R.EMB_TAB_CTL_TEN 0) 0).put (R.EMB_TAB_CTL_ADD_EN 0) 1).put (R.EMB_TAB_STS_VERSION 0) 1
  { s with em := { descs := [(2 ^ 32 * 0 + 1, d)] } }

/-- The work of an embedding command of version 1. -/
def emb (op : Nat) (b : List Nat) : State := embedded ((field 6).setCmd 0 { running 6 op b with snap := 1 })

theorem wit_Embedding :
    ([(made0 (exec (.embGather 0) (emb 1 [0, 64, 1, 2048])), (0, [1, 0, 0, 1], 1)),
      (made0 (exec (.embGather 0) (working 6 1 [0, 64, 1, 2048])), (0x41, [], 0)),
      (made0 (exec (.embGather 0) ((emb 1 [0, 64, 1, 2048]).put (R.EMB_TAB_CTL_TEN 0) 5)), (0x42, [], 0)),
      (made0 (exec (.embGather 0) (emb 1 [0, 64, 0, 2048])), (5, [], 0)),
      (made0 (exec (.embGather 0) ((emb 1 [0, 64, 1, 2048]).writeRun 64 [4])), (0x40, [], 0)),
      (made0 (exec (.embAdd 0) (emb 2 [0, 64, 1])), (0, [1, 1, 0, 1], 1)),
      (made0 (exec (.embAdd 0) (emb 2 [0, 64, 0])), (5, [], 0)),
      (made0 (exec (.embAdd 0) ((emb 2 [0, 64, 1]).put (R.EMB_TAB_CTL_ADD_EN 0) 0)), (0x43, [], 0)),
      (made0 (exec (.embAdd 0) ((emb 2 [0, 64, 1]).writeRun 64 [9])), (0x40, [], 0)),
      (made0 (exec (.embAdd 0) ((emb 2 [0, 64, 1]).writeRun 72 [0xC0, 0x7F])), (0x44, [], 0)),
      (made0 (exec (.embSwap 0) (emb 3 [0, 64])), (0x45, [], 0)), (made0 (exec (.embSwap 0) (emb 3 [0, 65])), (5, [], 0)),
      (made0 (exec (.embSwap 0) ((emb 3 [0, 64]).writeRun 64 (bytesOf [1 + 16 * 2 ^ 9 + 2 ^ 22, 4, 4, 0]))), (0, [1, 2, 0, 0], 1)),
      (made0 (exec (.embSwap 0) ((emb 3 [0, 64]).setCmd 5 { running 6 1 [0] with snap := 1, attempts := 1 })), (999, [], 0))
      ].all fun p => p.1 == p.2) = true := by decide +kernel

/-- A state with a route of one hop to module 9 by port 2. -/
def routed (s : State) : State :=
  { s.put R.FAB_STS_UP 4 with fa := { s.fa with rows := [(16 * 2 ^ 20 + 9, ⟨2, true, 1, 4⟩)] } }

theorem wit_Remote :
    ([(made0 (exec (.fabRead 0) (routed (working 10 1 [9, 0, 64, 8]))), (999, [], 0)),
      (made0 (exec (.fabRead 0) (working 10 1 [9, 0, 64, 8])), (0x40, [], 0)),
      (made0 (exec (.fabRead 0) (routed (working 10 1 [9, 0, 64, 7]))), (5, [], 0)),
      (made0 (exec (.fabAtomic 0) (routed (working 10 3 [9, 8, 1, 0]))), (0, [], 1)),
      (made0 (exec (.fabAtomic 0) (routed (working 10 3 [9, 4, 1, 0]))), (5, [], 0)),
      (made0 (exec (.netEmit 0) (routed ((field 7).setCmd 0 { running 7 1 [9, 0, 64, 8] with unit := 6 }))), (0, [8, 1], 1)),
      (made0 (exec (.netEmit 0) ((field 7).setCmd 0 { running 7 1 [9, 0, 64, 8] with unit := 6 })), (0x40, [], 0)),
      (made0 (exec (.netEmit 0) (working 7 1 [3, 0, 64, 8])), (5, [], 0)),
      (made0 (exec (.netEmit 0) (working 7 1 [3, 0, 64, 1000001])), (8, [], 0)),
      (made0 (exec (.netEmit 0) ((working 7 1 [3, 0, 64, 8]).put (R.HST_QP_STATE 0 3) 2)), (0, [8, 1], 1))
      ].all fun p => p.1 == p.2) = true ∧
    (after (exec (.fabRead 0) (routed (working 10 1 [9, 0, 64, 8])))).fa.ops.length = 1 ∧
    (after (exec (.fabWrite 0) (routed (working 10 2 [9, 0, 64, 8])))).fa.ops.length = 1 := by decide +kernel
theorem wit_Island :
    let steward (b : List Nat) (nv : Nat) : State :=
      (((field 9).setPage (pageKey 64 0) { st := 1, users := [] }).setCmd 0 { running 9 1 b with ten := 64 }).put R.PWR_STS_NV_OK nv
    ([(made0 (exec (.secQuoteCmd 0) ((working 9 2 [64, 1024]).put R.SEC_STS_LIFECYCLE 1)), (0, [0], 1)),
      (made0 (exec (.secQuoteCmd 0) ((working 9 2 [64, 1024]).put R.SEC_STS_LIFECYCLE 0)), (0x40, [], 0)),
      (made0 (exec (.secQuoteCmd 0) (working 9 2 [65, 1024])), (5, [], 0)),
      (made0 (exec (.secBfw 0) (working 9 1 [0, 0, 256])), (0x40, [], 0)),
      (made0 (exec (.secBfw 0) (steward [0, 0, 256] 1)), (0, [256], 1)), (made0 (exec (.secBfw 0) (steward [0, 0, 256] 0)), (9, [], 0)),
      (made0 (exec (.secBfw 0) (steward [0, 0, 256 + 2 ^ 13] 1)), (0, [256], 2)),
      (made0 (exec (.secBfw 0) (steward [536870912, 0, 256] 1)), (0x42, [], 0))].all fun p => p.1 == p.2) = true := by decide +kernel

/-! ## The island's registers, boot chain and stores -/

/-- What an island command leaves: FW CHK, KS CHK, KS BUSY, STAGE, the boot copy's slot to try and active slot, SVN_FLOOR, a write in
progress, the registers BFW_FAIL and KS_REFUSED. -/
def island (x : Ans) : List Nat :=
  let u := after x
  [u.get R.SEC_FW_STS_CHK, u.get R.SEC_KS_STS_CHK, u.get R.SEC_KS_STS_BUSY, u.get R.SEC_STS_STAGE, u.bootCtl.try_.getD 9, u.bootCtl.active,
    u.get R.SEC_STS_SVN_FLOOR, u.se.writing.isSome.toNat, u.get R.SEC_ERR_BFW_FAIL, u.get R.SEC_ERR_KS_REFUSED]

/-- A steward that runs from slot 0, with the island enabled and non-volatile writes permitted. -/
def secure : State :=
  (((({} : State).put R.SEC_CTL_EN 1).put R.SEC_STS_STAGE 1).put R.PWR_STS_NV_OK 1).put R.SEC_STS_FW_SVN 4

theorem wit_Security :
    let low := secure.put R.PWR_STS_NV_OK 0
    let busy : State := { secure.put R.SEC_KS_STS_BUSY 1 with se := { writing := some {} } }
    ([(island (exec (.fwStart .steward 8) secure), [0xA2, 0, 0, 1, 9, 0, 0, 0, 0, 0]), (island (exec (.fwStart .steward 8) low), [0xA1, 0, 0, 1, 9, 0, 0, 0, 0, 0]),
      (island (exec (.fwStart .steward 8) (secure.put R.HST_IMG_STS_ACTIVE 1)), [0xA7, 0, 0, 1, 9, 0, 0, 0, 0, 0]),
      (island (exec (.fwStart .steward (slotBytes + 1)) secure), [0xA2, 0, 0, 1, 9, 0, 0, 0, 0, 0]),
      (island (exec (.fwConfirm .steward) { secure with se := { boot := [{}, { seq := 3, active := 1 }] } }), [0, 0, 0, 1, 9, 0, 0, 0, 0, 0]),
      (island (exec (.fwConfirm .steward) (secure.put R.SEC_STS_STAGE 2)), [0xA7, 0, 0, 2, 9, 0, 0, 0, 0, 0]),
      (island (exec (.fwConfirm .steward) low), [0xA1, 0, 0, 1, 9, 0, 0, 0, 0, 0]),
      (island (exec (.fwAdvance .steward) secure), [0, 0, 0, 1, 9, 0, 4, 0, 0, 0]),
      (island (exec (.fwAdvance .steward) (secure.put R.SEC_STS_SLOT 1)), [0xA7, 0, 0, 1, 9, 0, 0, 0, 0, 0]),
      (island (exec (.secQuoteGo .steward) (secure.put R.SEC_STS_LIFECYCLE 1)), [0, 0, 0, 1, 9, 0, 0, 0, 0, 0]),
      (island (exec (.ksInstallSigner .steward 0) secure), [0, 0, 1, 1, 9, 0, 0, 1, 0, 0]),
      (island (exec (.ksInstallSigner .steward 9) secure), [0, 0xA9, 0, 1, 9, 0, 0, 0, 0, 1]),
      (island (exec (.ksInstallSigner .steward 0) busy), [0, 0xAA, 1, 1, 9, 0, 0, 1, 0, 1]),
      (island (exec (.ksInstallSm4 .steward 0) low), [0, 0xA8, 0, 1, 9, 0, 0, 0, 0, 1]),
      (island (exec (.ksRevoke .steward 0) secure), [0, 0xA9, 0, 1, 9, 0, 0, 0, 0, 1]),
      (island (exec (.ksWriteDone true) busy), [0, 0, 0, 1, 9, 0, 0, 0, 0, 0]),
      (island (exec (.ksWriteDone false) busy), [0, 0xA8, 0, 1, 9, 0, 0, 0, 1, 1]), (island (exec (.ksWriteDone false) secure), [0, 0, 0, 1, 9, 0, 0, 0, 0, 0]),
      (island (exec .romBoot secure), [0, 0, 0, 1, 9, 0, 0, 0, 0, 0]),
      (island (exec (.romTryClear true) { secure with se := { boot := [{}, { seq := 1, try_ := some 1 }], tryWait := some 1 } }),
        [0, 0, 0, 1, 9, 0, 0, 0, 0, 0]),
      (island (exec (.romTryClear true) secure), [0, 0, 0, 1, 9, 0, 0, 0, 0, 0])].all fun p => p.1 == p.2) = true := by decide +kernel

theorem memRun_add (m : List Host.Cell) (a n k : Nat) : memRun m a (n + k) = memRun m a n ++ memRun m (a + n) k := by
  induction n generalizing a with
  | zero => simp [memRun]
  | succ n ih => simp [Nat.succ_add, memRun, ih, Nat.add_assoc]

theorem memRun_length (m : List Host.Cell) (a n : Nat) : (memRun m a n).length = n := by
  induction n generalizing a with
  | zero => rfl
  | succ n ih => simp [memRun, ih]

theorem imgHdr_append (x y : List Byte) (h : x.length = 256) : imgHdr (x ++ y) = imgHdr x := by
  have e : List.take 64 (List.drop 192 x) = List.drop 192 x := List.take_of_length_le (by simp [h])
  simp [imgHdr, List.take_append_of_le_length, List.drop_append_of_le_length, h, e]

theorem imgHdr_memRun (m : List Host.Cell) (a n : Nat) (h : 256 ≤ n) : imgHdr (memRun m a n) = imgHdr (memRun m a 256) := by
  obtain ⟨k, rfl⟩ := Nat.exists_eq_add_of_le h
  rw [memRun_add, imgHdr_append _ _ (memRun_length ..)]

/-- A firmware image without a body at a slot of the flash. -/
def flashed (slot : Nat) (s : State) : State := s.writeRun (slotAt slot) [1, 2]

theorem firmware_bodiless (h : ∀ k d g, Config.sm2Verify k d g = true) (h3 : ∀ b, Config.sm3 b = 0) (hc : ∀ b, Config.certOk b = true)
    (hl : ∀ b, Config.certLen b = 0) (s : State) (f : s.get R.SEC_STS_SVN_FLOOR = 0) (m : List Host.Cell) (a n : Nat) (hn : 256 ≤ n)
    (e : memRun m a 256 = [1, 2] ++ List.replicate 254 0) : (s.firmware (memRun m a n)).toOption.isSome = true := by
  have e' : imgHdr (memRun m a n) = imgHdr ([1, 2] ++ List.replicate 254 0) := by rw [imgHdr_memRun _ _ _ hn, e]
  have f1 : (imgHdr ([1, 2] ++ List.replicate 254 0)).formOk 2 0 = true := by decide +kernel
  have f2 : (imgHdr ([1, 2] ++ List.replicate 254 0)).bodyLen = 0 := by decide +kernel
  have f3 : (imgHdr ([1, 2] ++ List.replicate 254 0)).enc = false := by decide +kernel
  have f4 : (imgHdr ([1, 2] ++ List.replicate 254 0)).digest = 0 := by decide +kernel
  generalize hx : imgHdr ([1, 2] ++ List.replicate 254 0) = x at *
  simp [State.firmware, e', f, f1, f2, f3, f4, Nat.not_lt.mpr hn, memRun_length, hl, hc, h, h3, sigOk, sm3, ImgHdr.plain, Except.toOption]

theorem firmware_blank (s : State) (m : List Host.Cell) (a n : Nat) (hn : 256 ≤ n)
    (e : memRun m a 256 = List.replicate 256 0) : (s.firmware (memRun m a n)).toOption = none := by
  have v : (imgHdr (memRun m a n)).ver = 0 := by rw [imgHdr_memRun _ _ _ hn, e]; decide +kernel
  simp [State.firmware, ImgHdr.formOk, v, Except.toOption]

/-- Where the cryptographic functions, which the model leaves open, accept, a slot boots; a slot without an image never does. -/
theorem wit_Slots (h : ∀ k d g, Config.sm2Verify k d g = true) (h3 : ∀ b, Config.sm3 b = 0) (hc : ∀ b, Config.certOk b = true)
    (hl : ∀ b, Config.certLen b = 0) :
    ((flashed 0 {}).firmware ((flashed 0 {}).run (slotAt 0) slotBytes)).toOption.isSome = true ∧
    ((flashed 1 {}).firmware ((flashed 1 {}).run (slotAt 1) slotBytes)).toOption.isSome = true ∧
    ((flashed 1 {}).firmware ((flashed 1 {}).run (slotAt 0) slotBytes)).toOption = none ∧
    (∀ s : State, s.get R.SEC_STS_SVN_FLOOR = 0 →
      let u := s.writeRun (key spStage 0) [1, 2]
      s.mem = [] → (u.firmware (u.run (key spStage 0) 256)).toOption.isSome = true) := by
  refine ⟨?_, ?_, ?_, ?_⟩
  · exact firmware_bodiless h h3 hc hl _ (by decide +kernel) _ _ _ (by decide) (by decide +kernel)
  · exact firmware_bodiless h h3 hc hl _ (by decide +kernel) _ _ _ (by decide) (by decide +kernel)
  · exact firmware_blank _ _ _ _ (by decide) (by decide +kernel)
  · intro s f u m
    refine firmware_bodiless h h3 hc hl u f u.mem _ _ (by decide) ?_
    show memRun (memSetRun s.mem (key spStage 0) [1, 2]) (key spStage 0) 256 = _
    rw [m]
    decide +kernel

/-- A model set of one stage of one global layer; template 0 is empty, template 1 a fixed run of nine tokens. -/
def model0 : ModelSet :=
  let m : ModelShape := ⟨0, 1, 64, 2, 1, 1, [], 0, 0, 1, 1, 1000, 4096, 0, 0, false⟩
  { principal := m, encoder := m, ranker := m, draft := m, stages := [[0]], templates := [[1], [1 + 2 ^ 8 + 2 ^ 12, 9 * 2 ^ 16, 0]]
    prefixes := [], rerank := ([1], [2], [3]), ends := [5], tokAddr := 0, e5m2 := false, act := 0, rotPairs := [(0, 1)], rotAddr := 0
    spliceIn := 0, capEntries := 8, buildTen := 0, heatAddr := 2 ^ 20, dirAddr := 2 ^ 24, storeAddr := 2 ^ 26, kvTables := 2 ^ 30
    kvPages := 2 ^ 31 }

/-- A request that splices, of a template and a budget of 8 tokens. -/
def req0 (t : Nat) : Req :=
  ⟨7, 0, false, ⟨t, true, false, 16, 1, 0, 8, 1⟩, ⟨0, true, 2, false, 1, 0, 0x3F800000, 0, 9, []⟩, none, false, false, [], none, none, [65]⟩

/-- A row of it. -/
def rowT (t : Nat) : Row := { req := req0 t, strm := ⟨0, false, false, [], [], false⟩ }

/-- A batch of one row. -/
def batchT (r : Row) : Batch :=
  { ten := 0, id := 9, qp := 3, ver := 3, level := 1, ttft := 0, tbt := 0, port := 0, stamp := 0, order := 0, rows := [r], msg := [] }

/-- A state that serves a batch under handle 0, with the message-sending pair 3 connected. -/
def serving (b : Batch) : State :=
  let s : State := { sv := { batches := [(0, b)], nextOrder := 1, model := some (model0, 77) }, fa := { credits := [(0, (100, 0))] } }
  [(R.HST_QP_STATE 0 3, 2), (R.HST_QP_VER 0 3, 3), (R.SCH_TEN_STS_STATE 0, 1), (R.SCH_TEN_LIMITS_MAX_BATCHES 0, 4), (R.PWR_STS_NV_OK, 1),
    (R.HST_CTL_BACKLOG_MAX 0, 1), (R.SCH_TEN_CTL_ROTA 0, 16)].foldl (fun (s : State) p => s.put p.1 p.2) s

/-- Row 0 of the batch under handle 0: step, fed, status, packed, places planned, the mask agreed, tokens of the prompt, tokens proposed,
feed, record, tokens generated, cancel. -/
def row0 (x : Ans) : List Nat :=
  match (after x).rowOf 0 0 with
  | some (b, r) => [b.step, b.fed.toNat, r.status, r.packed.toNat, r.plan.length, r.agreed.getD 999, r.prompt.length, r.props.length,
      r.feed.isSome.toNat, r.stepRec.isSome.toNat, r.generated, r.cancel.getD 999]
  | none => []

/-- What a splice command leaves of row 0's state of this home: the mask, the blocks fetched, whether they are placed; what it sends. -/
def kvNow (x : Ans) : List Nat :=
  match (after x).kvOf 0 with
  | some q => [q.mask.getD 999, q.fetched.length, q.placed.toNat, (after x).sv.out.length]
  | none => []

/-- The directory of the store is empty where memory is. -/
theorem dirEntries_empty (s : State) (m : ModelSet) (h : s.mem = []) : s.dirEntries m = [] := by
  have hw : ∀ k, s.word k = 0 := by
    intro k
    simp [State.word, State.run, h, memRun, memGet, unlisted, ofLe]
  simp [State.dirEntries, hw]

/-- A planned row, and a state that serves it, this stage's mask as given. -/
def planned : Row := { rowT 0 with plan := [(7, 0, 20, 20)] }
def masked (s : State) (mask : Nat) : State := s.setKv 0 { ten := 0, table := 0, plan := planned.plan, b := 16, mask := some mask }

/-- A plan of row 0 of a home's batch 0. -/
def planIn (home : Nat) : PlanIn := ⟨home, 0, 0, 0, true, 16, planned.plan⟩

/-- That state with an entry of passage 7 of 20 tokens at unit 0 of the store. -/
def spliced (s : State) : State :=
  let s := s.setPage (pageKey spModule 32) { st := 3, image := true, users := [0] }
  (s.writeRun (entryKey model0 0) (bytesOf [7 + 20 * 2 ^ 40 + 2 ^ 56, s.modelTag])).writeRun (dirSlot model0 (passageHash 7 44 % 2 ^ 20))
    (bytesOf [7 + 2 ^ 40, 20 * 2 ^ 32])

/-- A row whose gather, under ticket 4, found so many passages of one shard: index set 0 of one shard in group 0. -/
def gathered (n : Nat) : State :=
  let r : Row := { rowT 0 with req := { (req0 0) with pack := ⟨0, true, false, 16, 2, 1, 8, 0⟩ } }
  let s := ((serving (batchT r)).put R.FAB_ISET_ISET_ADDR 4096).put R.FAB_GROUP_GROUP_ADDR 8192
  let s := (s.writeRun (key spModule 4096) (bytesOf [1])).writeRun (key spModule 8192) (bytesOf [1])
  let s := (s.setPage 0 { st := 1 }).writeRun 1024 (bytesOf [1 + n * 2 ^ 32])
  s.setCmd 4 { running 2 7 [64, 1, 1024, 2, 0] with st := .committed, record := 1 }

theorem wit_Packed :
    ([(row0 (exec (.promptPack 0 0 none 0 []) (serving (batchT (rowT 0)))), [0, 0, 7, 1, 0, 999, 0, 0, 0, 0, 0, 999]),
      (row0 (exec (.promptPack 0 0 none 0 []) (serving (batchT (rowT 1)))), []),
      (row0 (exec (.promptPack 0 0 none 4 []) (gathered 1)), [0, 0, 7, 0, 0, 999, 0, 0, 0, 0, 0, 999]),
      (row0 (exec (.promptPack 0 0 none 4 [(0, [9])]) (gathered 1)), [0, 0, 7, 1, 0, 999, 0, 0, 0, 0, 0, 999]),
      (kvNow (exec (.spliceMaskSend 0 0 (planIn 0)) (serving (batchT planned))), [0, 0, 0, 0]),
      (kvNow (exec (.spliceMaskSend 0 0 (planIn 0)) (spliced (serving (batchT planned)))), [1, 1, 0, 0]),
      (kvNow (exec (.spliceMaskSend 0 0 (planIn 0)) (masked (serving (batchT planned)) 1)), [1, 0, 0, 0]),
      (row0 (exec (.spliceAgree 0 0 0 0 [] [3]) (masked (serving (batchT planned)) 1)), [0, 0, 7, 0, 1, 999, 0, 0, 0, 0, 0, 999]),
      (row0 (exec (.spliceAgree 0 0 0 0 [] []) (masked (serving (batchT planned)) 1)), [0, 0, 7, 1, 1, 1, 0, 0, 0, 0, 0, 999]),
      (row0 (exec (.spliceAgree 0 0 0 0 [] [0]) (serving (batchT planned))), [0, 0, 7, 1, 1, 0, 0, 0, 0, 0, 0, 999])].all fun p => p.1 == p.2) = true ∧
    (let far : State := { serving (batchT planned) with sv := { (serving (batchT planned)).sv with
       kv := [(kvKey 9 0 0, { ten := 0, table := 0, plan := planned.plan, b := 16, mask := some 1 })] } }
     (((after (exec (.spliceAgree 9 0 0 0 [] []) far)).kvOf (kvKey 9 0 0)).map (·.placed)) = some true) := by decide +kernel

/-- A state in which the command of ticket 4 has re-scored one candidate of index 0, whose list stands at 1024. -/
def rescored : State :=
  let s := { serving (batchT (rowT 0)) with vm := (field 2).vm }
  (s.writeRun 1024 (bytesOf [1 + 2 ^ 32])).setCmd 4 { running 2 2 [0, 0, 0, 1024] with st := .committed, record := 1 }

theorem wit_Rerank :
    let k : RankIn := ⟨0, 4, 64, none, 1, [8, 9], [0x3F800000]⟩
    (∃ c, rescored.cmd k.rescored = some c ∧ c.scanned 0 2 = true ∧ (rescored.rerankIn c 1).length = 1 ∧ k.scores.length = 1 ∧
      rescored.access .unit 0 [] [(k.slot, (rescored.rerankSlot c 1 k.scores).length)] = .ok) ∧
    (after (exec (.promptPack 0 0 (some k) 0 []) rescored)).sv.pairs = [[1, 8, 9, 2, 3]] ∧
    (after (exec (.promptPack 0 0 (some { k with perShard := 0 }) 0 []) rescored)).sv.pairs = [] := by
  refine ⟨⟨_, rfl, by decide +kernel, by decide +kernel, by decide +kernel, by decide +kernel⟩, by decide +kernel, by decide +kernel⟩

theorem wit_SpliceBuild :
    let s := serving (batchT (rowT 0))
    s.nvOk = true ∧ (s.buildPlan model0 7 65 0 none).isSome = true ∧ s.blockLen model0 65 = 260 ∧
      (s.buildPlan model0 7 64 0 none).isNone = true := by
  refine ⟨by decide +kernel, ?_, by decide +kernel, ?_⟩
  · unfold State.buildPlan
    rw [dirEntries_empty _ _ (by decide +kernel)]
    decide +kernel
  · unfold State.buildPlan
    rw [dirEntries_empty _ _ (by decide +kernel)]
    decide +kernel

/-- A fed batch whose row has its record. -/
def fedBatch (k : Option StepRec) : Batch := { batchT { rowT 0 with packed := true, stepRec := k } with fed := true, step := 1 }
def rec0 : StepRec := ⟨0, [65], 0, 0, 0, 2, 0, false, false, false, 0, 0, 0, 1, 3⟩

theorem wit_Steps :
    let ready : Batch := { batchT { rowT 0 with packed := true } with step := 1 }
    ([(row0 (exec (.stepFeedSend 0 []) (serving ready)), [1, 1, 7, 1, 0, 999, 0, 0, 0, 0, 0, 999]),
      (row0 (exec (.stepFeedSend 0 []) (serving (fedBatch none))), [1, 1, 7, 1, 0, 999, 0, 0, 0, 0, 0, 999]),
      (row0 (exec (.draftPropose 0 0 ⟨none, [[0, 0x40000000]]⟩) (serving { ready with rows := ready.rows.map fun r => { r with draftLen := 1 } })),
        [1, 0, 7, 1, 0, 999, 0, 1, 0, 0, 0, 999]),
      (row0 (exec (.sampleDecide 0 0 ⟨none, [], [⟨[0, 0x40000000], none⟩]⟩) (serving (fedBatch none))), [1, 1, 7, 1, 0, 999, 0, 0, 0, 1, 0, 999]),
      (row0 (exec (.stepCommit 0 []) (serving (fedBatch none))), [1, 1, 7, 1, 0, 999, 0, 0, 0, 0, 0, 999]),
      (row0 (exec (.stepCommit 0 []) (serving (fedBatch (some rec0)))), [2, 0, 7, 1, 0, 999, 0, 0, 0, 0, 1, 999])
      ].all fun p => p.1 == p.2) = true ∧
    (after (exec (.stepFeedSend 0 []) ((serving ready).put (R.HST_CTL_BACKLOG_MAX 0) 0))).get (R.HST_ERR_BACKLOG_HOLD 0) = 1 := by
  decide +kernel

/-- A BATCH of one section with a budget, under an identifier. -/
def batchMsg (id budget : Nat) : List Byte :=
  bytesOf [3 + 2 * 2 ^ 8 + 152 * 2 ^ 32, id, 1, 1 + 1 * 2 ^ 8, 0, 48 + 104 * 2 ^ 32,
    1, 8, 48, 64, 0, 96, 1 + 1 * 2 ^ 32, budget + 2 ^ 32, 1, 0, 0x3F800000 * 2 ^ 32, 4 * 2 ^ 32, 65]

/-- A message of a type under an identifier. -/
def hostMsg (kind id : Nat) (body : List Nat) : List Byte := bytesOf ([3 + kind * 2 ^ 8 + 24 * 2 ^ 32, id] ++ body)

/-- The types of the messages sent on pair 3, and the latest one's third word. -/
def said (x : Ans) : List Nat :=
  let p := ((after x).qpOf 3).sent
  p.map (·.kind) ++ [(p.getLast?.map fun m => nw m.words 2).getD 999]

theorem wit_Messages :
    let s := serving { batchT (rowT 0) with fed := true }
    ([(said (exec (.batch 3 0 (batchMsg 8 8)) s), [0x81, 1 + 2 ^ 16]), (said (exec (.batch 3 0 (batchMsg 8 0)) s), [0x82, 5]),
      (said (exec (.batch 3 0 (batchMsg 9 8)) s), [0x82, 4 + 0xFF * 2 ^ 8]),
      (row0 (exec (.cancel 3 (hostMsg 3 9 [1])) s), [0, 1, 7, 0, 0, 999, 0, 0, 0, 0, 0, 1]),
      (said (exec (.statusQuery 3 (hostMsg 4 9 [0])) s), [0x86, 1]), (said (exec (.statusQuery 3 (hostMsg 4 8 [0])) s), [0x86, 0]),
      (said (exec (.statusQuery 3 (hostMsg 4 9 [1])) s), [0x86, (s.reg (R.SCH_TEN_STS 0)).toNat]),
      (said (exec (.hello 3 (hostMsg 1 0 [2 + 3 * 2 ^ 8])) s), [1, 3 + 3 * 2 ^ 28]),
      (said (exec (.hello 3 (hostMsg 1 0 [2 + 3 * 2 ^ 8])) (s.put (R.HST_QP_VER 0 3) 0)), [1, 3 + 3 * 2 ^ 28]),
      (said (exec (.hello 3 (hostMsg 1 0 [3 + 2 * 2 ^ 8])) (s.put (R.HST_QP_VER 0 3) 0)), [1, 3 * 2 ^ 28])].all fun p => p.1 == p.2) = true ∧
    (after (exec (.cancel 3 (hostMsg 3 8 [1])) s)).get (R.HST_CNT1_CANCEL_MISS 0) = 1 ∧
    (after (exec (.cancel 3 (hostMsg 3 8 [1])) (s.put (R.HST_QP_VER 0 3) 2))).get (R.HST_ERR_BAD_VERSION 0) = 1 := by decide +kernel

/-- Tenancy t enabled in rota 0, with a slice of 5 µs. -/
def sliced (s : State) (t : Nat) : State :=
  [(R.SCH_TEN_STS_STATE t, 1), (R.SCH_TEN_CTL_ROTA t, 0), (R.SCH_TEN_SLICE_SLICE t, 5)].foldl (fun (s : State) p => s.put p.1 p.2) s

/-- Tenancies 0 and 1 in rota 0, 0 with its slice to 4 ns, 1 with a command Issued; port 0's time is 6 ns. -/
def rota0 : State :=
  let s := sliced (sliced {} 0) 1
  let s : State := { s with sc := { s.sc with ends := [(0, 4)] }, pt := { s.pt with meters := [(0, 6)] } }
  s.setCmd 0 { ten := 1, words := desc 3 1 [] }

/-- A batch of tenancy 1 that waits at level 0, and PREEMPT_EN. -/
def urgent : State :=
  let s := (rota0.put (R.SCH_ROTA_CTL_PREEMPT_EN 0) 1).put (R.SCH_ROTA_CTL_PREEMPT_LEVEL 0) 2
  { s with sv := { s.sv with batches := [(0, { batchT { rowT 0 with packed := true } with ten := 1 })] } }

theorem wit_Scheduler :
    ([((after (exec (.portDeadline 0 5) ({ rota0 with pt := { rota0.pt with deadlines := [(0, 5)] } }))).pt.deadlines.length, 0),
      ((after (exec (.pcsLockLost 5) ({ ({} : State) with pt := { locked := [5] } }))).pt.locked.length, 0),
      ((after (exec (.pcsLockGained 0) {})).pt.locked.length, 1), ((after (exec (.pcsLockGained 5) {})).get (R.FAB_PORT_STS_LINK 1), 1),
      (tget (after (exec (.sliceEnd 0) rota0)).sc.ends 0 0, 5004), ((after (exec (.sliceEnd 0) rota0)).get (R.SCH_ROTA_STS_HOLDER 0), 1),
      ((after (exec (.sliceEnd 0) { rota0 with x := {} })).get (R.SCH_ROTA_STS_IDLE 0), 1),
      (tget (after (exec (.sliceEnd 0) { rota0 with pt := {} })).sc.ends 0 0, 4),
      (tget (after (exec (.earlySliceEnd 0) (rota0.put (R.SCH_ROTA_CTL_PREEMPT_EN 0) 1))).sc.ends 0 0, 4),
      (tget (after (exec (.earlySliceEnd 0) urgent)).sc.ends 0 0, 5006),
      (tget (after (exec (.rotaIdleResume 0) { rota0 with sc := {} })).sc.ends 0 0, 5006),
      (tget (after (exec (.rotaIdleResume 0) { rota0 with sc := {}, x := {} })).sc.ends 0 0, 0)].all fun p => p.1 == p.2) = true := by
  decide +kernel

/-- A state in which a queue pair is bound anew to tenancy 2. -/
def binding (r : Rebind) : State := { ({} : State).put R.SCH_REBIND_STS_BUSY 1 with sc := { rebind := some r } }

theorem wit_Rebind :
    (after (exec .rebindComplete (binding ⟨6, 2, 0, 3, 1, 0, .steward⟩))).get (R.HST_QP_TEN 0 3) = 2 ∧
    (after (exec .rebindComplete (binding ⟨6, 2, 0, 3, 1, 0, .steward⟩))).get R.SCH_REBIND_STS_BUSY = 0 ∧
    (after (exec .rebindComplete ((binding ⟨2, 2, 0, 3, 1, 1, .steward⟩).setCore 0 (core0 7)))).get R.SCH_REBIND_STS_BUSY = 1 ∧
    (let s := ({ (field 3) with tx := { streams := [(4, ⟨0, false, false, [], [], false⟩)] } } : State).put (R.SCH_TEN_STS_STATE 0) 4
     (after (exec (.tenancyFree 0) s)).get (R.SCH_TEN_STS_STATE 0) = 0 ∧ (after (exec (.tenancyFree 0) s)).vm.pages = [] ∧
      (after (exec (.tenancyFree 0) s)).tx.streams = [] ∧
      (after (exec (.tenancyFree 0) (s.setCmd 0 { st := .irrevocable }))).get (R.SCH_TEN_STS_STATE 0) = 4) := by decide +kernel

/-- Pages 0 to 3 of tenancy 0, pair 3 connected in a role. -/
def hosted (role : Nat) : State := (((field 3).put (R.HST_QP_STATE 0 3) 2).put (R.HST_QP_ROLE 0 3) role).put (R.HST_KEY_KEY_SALT 0) 0

/-- What an outcome puts on the wire, and what it holds. -/
def wire (x : Ans) : List HostOut × Nat := ((after x).ho.out, (after x).ho.held.length)

theorem wit_Rdma :
    ([(wire (exec (.rdmaWrite 3 512 64 [1, 2]) (hosted 0)), ([.nak 3 1], 0)), (wire (exec (.rdmaWrite 3 200 64 [1]) (hosted 0)), ([.nak 3 1], 0)),
      (wire (exec (.rdmaReadRequest 3 512 64 2) (hosted 0)), ([.nak 3 1], 0)), (wire (exec (.rdmaWrite 3 0 64 [1, 2]) (hosted 0)), ([.ack 3], 0)),
      (wire (exec (.rdmaWrite 3 5 64 [1, 2]) (hosted 0)), ([.nak 3 1], 0)),
      (wire (exec (.rdmaWrite 3 0 64 [1, 2]) { hosted 0 with pw := { absent := [5] } }), ([], 1)),
      (wire (exec (.rdmaReadRequest 3 0 64 2) ((hosted 0).writeRun 64 [1, 2])), ([.readData 3 [1, 2]], 0)),
      (wire (exec (.rdmaReadRequest 3 5 64 2) (hosted 0)), ([.nak 3 1], 0)),
      (wire (exec (.rdmaReadRequest 3 0 64 2) ((hosted 0).setPage 0 { st := 2 })), ([], 1)),
      (wire (exec (.rdmaWrite 3 0x81 64 [1, 2]) (hosted 1)), ([.ack 3], 0)),
      (wire (exec (.rdmaWrite 3 0x80 (R.MEM_QUOTA 2) [1, 0, 0, 0, 0, 0, 0, 0]) (hosted 1)), ([.ack 3], 0)),
      (wire (exec (.cwRdmaWrite 3 0x80 (R.MEM_QUOTA 2) [1, 0, 0, 0, 0, 0, 0, 0]) (hosted 1)), ([.ack 3], 0)),
      (wire (exec (.rdmaReadRequest 3 0x80 (R.MEM_QUOTA 2) 8) ((hosted 1).setReg (R.MEM_QUOTA 2) 5)), ([.readData 3 [5, 0, 0, 0, 0, 0, 0, 0]], 0)),
      (wire (exec (.rdmaReadRequest 3 0x81 64 1) (hosted 1)), ([.readData 3 [0]], 0))].all fun p => p.1 == p.2) = true ∧
    (after (exec (.rdmaWrite 3 0 64 [1, 2]) (hosted 0))).run 64 2 = [1, 2] := by decide +kernel

/-- Pair 3 connected, two messages sent and not acknowledged. -/
def sending (f : Qp → Qp) : State :=
  (hosted 0).setQp 3 (f { next := 2, sent := [⟨0, 0x83, [], 0, [], [], false⟩, ⟨1, 0x81, [], 0, [], [], false⟩] })

/-- Pair 3 after an outcome: messages unacknowledged, retries, refusals, the timer, the rate. -/
def pairNow (x : Ans) : List Nat :=
  let p := (after x).qpOf 3
  [p.sent.length, p.retries, p.rnr, p.rnrAt.getD 999, p.rate, (after x).get (R.HST_QP_STATE 0 3), (after x).ho.out.length]

/-- The state at a port-0 time. -/
def atTime (t : Nat) (s : State) : State := { s with pt := { s.pt with meters := [(0, t)] } }

theorem wit_Pairs :
    ([(pairNow (exec (.roceAcknowledge 3 0 false) (sending id)), [1, 0, 0, 999, 200000000, 2, 0]),
      (pairNow (exec (.roceAcknowledge 3 1 true) (sending id)), [1, 0, 0, 999, 200000000, 2, 0]),
      (pairNow (exec (.roceAckTimeout 3) (atTime 131000 (sending id))), [2, 1, 0, 999, 200000000, 2, 0]),
      (pairNow (exec (.roceAckTimeout 3) (atTime 131000 (sending fun p => { p with retries := 7 }))), [0, 0, 0, 999, 200000000, 3, 0]),
      (pairNow (exec (.qpLost 3 true) (sending id)), [0, 0, 0, 999, 200000000, 3, 0]),
      (pairNow (exec (.rnrNak 3 1) (sending id)), [1, 0, 1, 0, 200000000, 2, 0]),
      (pairNow (exec (.rnrTimerExpiry 3) (atTime 10005 (sending fun p => { p with rnrAt := some 5 }))), [2, 0, 0, 999, 200000000, 2, 0]),
      (pairNow (exec (.rnrTimerExpiry 3) (atTime 9 (sending fun p => { p with rnrAt := some 5 }))), [2, 0, 0, 5, 200000000, 2, 0]),
      (pairNow (exec (.cnpReceive 3) (sending id)), [2, 0, 0, 999, 100000000, 2, 0]),
      (pairNow (exec (.ecnMarkedReceive 3) (sending id)), [2, 0, 0, 999, 200000000, 2, 1]),
      (pairNow (exec (.ecnMarkedReceive 3) (sending fun p => { p with cnpSent := some 0 })), [2, 0, 0, 999, 200000000, 2, 0]),
      (pairNow (exec (.rateRecovery 3) (atTime 55000 (sending fun p => { p with rate := 100 }))), [2, 0, 0, 999, 5000100, 2, 0]),
      (pairNow (exec (.cmRtu 3) ((sending id).put (R.HST_QP_STATE 0 3) 1)), [2, 0, 0, 999, 200000000, 2, 0]),
      (pairNow (exec (.hostFrameDrop 0 (.unsupported 3)) (sending id)), [2, 0, 0, 999, 200000000, 2, 1]),
      (pairNow (exec (.cmReq 0 77 1) ((sending id).put (R.HST_CTL_EN 0) 1)), [2, 0, 0, 999, 200000000, 2, 1])].all fun p => p.1 == p.2) = true ∧
    (after (exec (.rnrRetryExhausted 3) (sending fun p => { p with rnr := 8 }))).get (R.HST_ERR_RNR_EXHAUSTED 0) = 1 ∧
    (after (exec (.hostFrameDrop 0 .oversize) (sending id))).get (R.HST_ERR_OVERSIZE 0) = 1 ∧
    (after (exec (.pfcPauseReceive 0 ((sending id).get (R.HST_CTL_PFC_PRIO 0)) 9) ((sending id).put (R.HST_CTL_PFC_EN 0) 1))).ho.paused = [(0, 9)] ∧
    (after (exec (.pfcPauseExpiry 0) (atTime 9 { sending id with ho := { paused := [(0, 9)] } }))).ho.paused = [] := by decide +kernel

theorem wit_Connect :
    (after (exec (.cmReq 0 77 1) ((({} : State).put (R.HST_CTL_EN 0) 1).put (R.SCH_TEN_STS_STATE 0) 1))).get (R.HST_QP_STATE 0 0) = 1 ∧
    (after (exec (.cmReq 0 77 1) ((({} : State).put (R.HST_CTL_EN 0) 1).put (R.SCH_TEN_STS_STATE 0) 4))).get (R.HST_QP_STATE 0 0) = 0 := by decide +kernel

/-- A row on its ring whose consumer word is being read. -/
def ringRow (rs : List (List Byte)) : State :=
  let q := { req0 0 with ringBlk := some ⟨0, 1, 12, 0, 1⟩ }
  let r := { rowT 0 with req := q, onRing := true, consAsked := some 0, records := rs }
  { hosted 0 with sv := { batches := [(0, batchT r)] } }

theorem wit_Rings :
    (after (exec (.ringConsPoll 0 0) (atTime 2000 (ringRow [[1]])))).ho.out = [.readReq 3 1 0 8] ∧
    (after (exec (.rdmaReadResponse 0 0 64) (ringRow []))).sv.batches.map (fun p => p.2.rows.map fun r => (r.cons, r.consAsked)) = [[(64, none)]] := by
  decide +kernel

/-- A load in progress of an index image of n bytes received. -/
def loading (l : ImgLoad) : State := { ({} : State).put R.HST_IMG_LEN_BYTES 8 with ho := { img := some l } }

/-- The load after an outcome (received, ended), the last code, and the variants and programs there. -/
def loadNow (x : Ans) : List Nat :=
  let u := after x
  (match u.ho.img with
   | some l => [l.kind, l.target, l.received, l.nv.toNat, l.ended.toNat]
   | none => []) ++ [u.get R.HST_IMG_STS_CHK]

/-- A manifest of one region and no task. -/
def manifest0 : Manifest := ⟨2, 0, [], [], []⟩

theorem wit_Load :
    let l : ImgLoad := ⟨1, 2, 16, false, false⟩
    ([(loadNow (exec (.hstImgBegin .steward 1 2) {}), [1, 2, 0, 0, 0, 0]), (loadNow (exec (.hstImgBegin (.host 3) 1 2) (hosted 1)), [1, 2, 0, 0, 0, 0]),
      (loadNow (exec (.hstImgBegin .steward 1 2) (loading l)), [1, 2, 16, 0, 0, 0x7A]),
      (loadNow (exec (.hstImgChunk .steward) ((loading l).put R.PWR_STS_NV_OK 0)), [1, 2, 24, 1, 0, 0]),
      (loadNow (exec (.hstImgChunk .steward) ((loading l).put R.HST_IMG_LEN_BYTES 0)), [1, 2, 16, 0, 0, 0x7A]),
      (loadNow (exec (.hstImgEnd .steward) (loading l)), [1, 2, 16, 0, 1, 0]),
      (loadNow (exec (.imageCheckDone (.index 64 none ⟨[], [], [], []⟩)) (loading l)), [1, 2, 16, 0, 0, 0]),
      (loadNow (exec (.imageCheckDone (.index 64 none ⟨[], [], [], []⟩)) (loading { l with ended := true, nv := true })), [0xA1]),
      (loadNow (exec (.imageCheckDone (.index 64 none ⟨[], [], [], []⟩)) (loading { l with ended := true, kind := 2 })), [0xA2]),
      (loadNow (exec (.imageCheckDone (.index 64 none ⟨[], [], [], []⟩)) (loading { l with ended := true })), [0xA2])].all fun p => p.1 == p.2) = true := by
  decide +kernel

/-- An index image with an empty body, and a state whose key store holds its signer. -/
def image1 : List Byte := bytesOf ([1 + 1 * 2 ^ 8] ++ List.replicate 31 0)
def signed (s : State) : State := { s with se := { s.se with store := [{}, { signers := [(0, 7)] }] } }

/-- Where the cryptographic functions, which the model leaves open, accept, an image passes its checks. -/

theorem wit_ImagePasses (h : ∀ k d g, Config.sm2Verify k d g = true) (h3 : ∀ b, Config.sm3 b = 0) :
    ((signed {}).loadImage 1 image1 (.index 64 none ⟨[], [], [], []⟩) false).toOption.isSome = true := by
  have h1 : (signed {}).imageRefusal 1 image1 = none := by
    have a : ¬ (image1.length < 256 ∨ (!(imgHdr image1).formOk 1 (image1.drop 256).length) = true) := by decide +kernel
    have b : tfind (signed {}).keyStore.signers (imgHdr image1).signer = some 7 := by decide +kernel
    have c : (signed {}).keyStore.revoked.contains (16 + (imgHdr image1).signer) = false := by decide +kernel
    have d : (imgHdr image1).enc = false := by decide +kernel
    have e : (imgHdr image1).digest = 0 := by decide +kernel
    simp only [State.imageRefusal, if_neg a, b, c, d, e, sigOk, h, sm3, h3]
    rfl
  simp only [State.loadImage, if_neg (by decide : ¬ (1 : Nat) = 0), h1]
  rfl

theorem wit_Programs :
    let s : State := { ({} : State) with en := { variants := [(3, (0, 8))] }, sv := { batches := [(0, batchT (rowT 0))] } }
    (after (exec (.programBind 0 0 manifest0) {})).x.verdicts.map (fun v => nw v.2 0) = [0x00FFFFFFFFFF0001] ∧
    (after (exec (.programBind 0 0 { manifest0 with isaMajor := 9 }) {})).x.verdicts.map (fun v => nw v.2 0) = [0x00FFFFFFFFFF1001] ∧
    (after (exec (.programBind 0 0 manifest0) { ({} : State) with x := { cmds := [(0, { st := .irrevocable })], progs := [(0, ⟨manifest0, 0, 0, 0, []⟩)] } })).x.verdicts.length = 0 ∧
    tfind (after (exec (.variantLoad 3 0 64) {})).en.variants 3 = some (0, 64) ∧
    tfind (after (exec (.variantRemoval 3) s)).en.variants 3 = none ∧
    tfind (after (exec (.variantRemoval 3) { s with sv := { s.sv with batches := s.sv.batches.map fun p => (p.1, { p.2 with rows := p.2.rows.map fun r =>
      { r with req := { r.req with gen := { r.req.gen with variant := 3 } } } }) } })).en.variants 3 = some (0, 8) := by decide +kernel

/-- Module 7 with fabric port 2 in use and lit, in routing. -/
def fabric0 : State :=
  [(R.FAB_CTL_EN, 1), (R.FAB_CTL_ADDR, 7), (R.FAB_CTL_PORTS, 4), (R.FAB_STS_UP, 4), (R.FAB_PORT_STS_LINK 2, 1), (R.FAB_PORT_STS_LANES 2, 15),
    (R.SCH_TEN_CTL_EN 0, 1), (R.FAB_LEND_OFFER, 1), (R.MEM_CTL_EN, 1)].foldl (fun (s : State) p => s.put p.1 p.2) (routed (field 10))

/-- A CONTROL caravan from module 9 to this one. -/
def car (kind : Nat) (words : List Nat) : Car :=
  { kind := kind, cls := 0, hop := 0, ce := false, dst := 7, src := 9, lseq := 0, lack := 0, pseq := 0, oseq := 0, ten := 0, space := 0,
    words := words, data := [] }

/-- Fabric port 2's time. -/
def at2 (t : Nat) (s : State) : State := { s with pt := { s.pt with meters := [(6, t)] } }

/-- What an outcome leaves of the link: neighbours, routing, caravans sent and not acknowledged, those that wait, LSEQ expected, lanes. -/
def link (x : Ans) : List Nat :=
  let u := after x
  [u.fa.nbrs.length, u.get R.FAB_STS_UP, (tget u.fa.unacked 2 []).length, u.fa.waiting.length, tget u.fa.rx 2 0, u.get (R.FAB_PORT_STS_LANES 2)]

theorem wit_Links :
    let hello := car 1 [0x55, 9 + 3 * 2 ^ 20]
    let nbr (n : Nat) : State := { fabric0 with fa := { fabric0.fa with nbrs := [(2, ⟨0x55, 9, 3, false, n, 0⟩)] } }
    let sent : State := { fabric0 with fa := { fabric0.fa with unacked := [(2, [(0, car 1 [])])] } }
    ([(link (exec (.linkHello 2 hello) fabric0), [1, 4, 0, 0, 1, 15]),
      (link (exec (.linkHello 2 hello) ((nbr 2).put R.FAB_STS_UP 0)), [1, 4, 1, 0, 1, 15]),
      (link (exec (.linkAck 2 (car 2 [])) sent), [0, 4, 0, 0, 0, 15]), (link (exec (.topo 2 (car 3 [9 + 2 ^ 32]) 5) fabric0), [0, 4, 0, 0, 1, 15]),
      (link (exec (.credit 2 (car 4 [5 * 2 ^ 32])) fabric0), [0, 4, 0, 0, 1, 15]),
      (link (exec (.caravanForward 2 { car 0x14 [] with dst := 9 }) fabric0), [0, 4, 0, 1, 1, 15]),
      (link (exec (.caravanForward 2 { car 0x14 [] with dst := 9, hop := 7 }) fabric0), [0, 4, 0, 1, 1, 15]),
      (link (exec (.caravanForward 2 { car 0x14 [] with dst := 9, lseq := 5 }) fabric0), [0, 4, 0, 0, 0, 15]),
      (link (exec (.linkHelloTimer 2) (at2 10000 fabric0)), [0, 4, 1, 0, 0, 15]),
      (link (exec (.neighbourTimeout 2) (at2 100000 (nbr 3))), [0, 0, 0, 0, 0, 15]), (link (exec (.neighbourTimeout 2) (nbr 3)), [1, 4, 0, 0, 0, 15]),
      (link (exec (.linkSignalLoss 2) (nbr 3)), [0, 0, 0, 0, 0, 0]), (link (exec (.laneFail 2 1) (nbr 3)), [1, 0, 0, 0, 0, 0]),
      (link (exec (.laneRetrainDone 2 15) (((nbr 3).put (R.FAB_PORT_STS_LANES 2) 0).put R.FAB_STS_UP 0)), [1, 4, 1, 0, 0, 15])
      ].all fun p => p.1 == p.2) = true ∧
    (after (exec (.linkRetransmitTimer 2) (at2 2000 sent))).get R.FAB_ERR_RETRANSMIT = 1 := by decide +kernel

theorem wit_LinkTimers :
    (after (exec (.alienTimeout 2) (at2 1000000 fabric0))).get (R.FAB_PORT_STS_ALIEN 2) = 1 ∧
    (after (exec (.fabricFrameDrop 2 true) fabric0)).get R.FAB_ERR_E2E_CRC = 1 ∧
    (after (exec (.fabricFrameDrop 2 false) fabric0)).get R.FAB_ERR_FOREIGN_FRAME = 1 ∧
    (after (exec (.topo 2 (car 3 [7 + 2 ^ 32]) 0) (fabric0.setReg R.MOD_IDENT 9))).fa.withdrawn = true ∧
    (after (exec (.topo 2 (car 3 [9]) 0) { fabric0 with fa := { fabric0.fa with topo := [(9, (3, []))] } })).fa.topo = [(9, (3, []))] ∧
    (after (exec (.injectWindowGrow 9) (at2 10000 fabric0))).fa.inject = [(9, (2 ^ 20 + 65536, 2, 10000))] ∧
    (let t : State := { fabric0 with pt := { meters := [(fabric0.get R.ERR_CTL_REF_PORT, 100000000)] } }
     (after (exec .topoRefreshTimer t)).fa.topoSeq = 1 ∧ (after (exec .routeRecomputeDone (t.put R.FAB_STS_RECOMPUTING 1))).get R.FAB_STS_ROUTED = 1 ∧
      (after (exec .routeRecomputeDone ((t.put R.FAB_STS_RECOMPUTING 1).put R.FAB_CTL_ROUTE_HOST 1))).get R.FAB_STS_RECOMPUTING = 0) := by
  decide +kernel

/-- The caravans of an outcome on port 2, by TYPE; those to be taken, staged pieces, operations, bytes 64 and 65. -/
def data (x : Ans) : List Nat × List Nat :=
  let u := after x
  ((tget u.fa.unacked 2 []).map fun p => p.2.kind,
    [u.fa.selfIn.length, u.fa.staged.length, u.fa.emits.length, u.fa.ops.length, ofLe (u.run 64 2), u.fa.lent.length])

/-- A state that waits for the answers of an operation of a kind, by the command of ticket 0. -/
def asked (kind : Nat) : State :=
  { fabric0.setCmd 0 (running 10 1 [9, 0, 64, 8]) with fa := { fabric0.fa with ops := [(5, ⟨0, kind, 9, 1, 0, 2, []⟩)] } }

theorem wit_Data :
    let bytes (c : Car) : Car := { c with data := [1, 2] }
    let st : State := { fabric0 with fa := { fabric0.fa with staged := [⟨9, 5, 0, 0, false, [(64, [1, 2])]⟩] } }
    ([(data (exec (.readReq 2 (car 0x14 [64, 5, 8])) fabric0), ([0x15], [0, 0, 0, 0, 0, 0])),
      (data (exec (.readReq 2 (car 0x14 [64, 5, 8])) (fabric0.put (R.SCH_TEN_CTL_EN 0) 0)), ([0x15], [0, 0, 0, 0, 0, 0])),
      (data (exec (.readReq 2 (car 0x14 [64, 5, 8])) (fabric0.setPage 0 { st := 2 })), ([], [1, 0, 0, 0, 0, 0])),
      (data (exec (.atomic 2 (car 0x16 [64, 5, 3, 0])) fabric0), ([0x17], [0, 0, 0, 0, 3, 0])),
      (data (exec (.atomic 2 (car 0x16 [64, 5, 3, 0])) (fabric0.put (R.SCH_TEN_CTL_EN 0) 0)), ([0x17], [0, 0, 0, 0, 0, 0])),
      (data (exec (.write 2 (bytes (car 0x10 [64, 5])) false) fabric0), ([], [0, 1, 0, 0, 0, 0])),
      (data (exec (.write 2 (bytes (car 0x10 [64, 5])) true) fabric0), ([0x13], [0, 1, 0, 0, 0, 0])),
      (data (exec (.write 2 (bytes (car 0x10 [64, 5 + 2 ^ 32])) true) fabric0), ([], [0, 0, 0, 0, 513, 0])),
      (data (exec (.write 2 (bytes (car 0x10 [64, 5])) true) (fabric0.put (R.SCH_TEN_CTL_EN 0) 0)), ([0x13], [0, 0, 0, 0, 0, 0])),
      (data (exec (.writeCommit 2 (car 0x11 [5])) st), ([], [0, 0, 0, 0, 513, 0])), (data (exec (.writeCommit 2 (car 0x11 [6])) st), ([], [0, 1, 0, 0, 0, 0])),
      (data (exec (.writeDiscard 2 (car 0x12 [5])) st), ([], [0, 0, 0, 0, 0, 0])),
      (data (exec (.writeDiscard 16 (car 0x12 [5])) { st with fa := { st.fa with selfIn := [car 0x12 [5]] } }), ([], [0, 0, 0, 0, 0, 0]))
      ].all fun p => p.1 == p.2) = true := by decide +kernel

theorem wit_Answers :
    let bytes (c : Car) : Car := { c with data := [1, 2] }
    ([(made0 (exec (.writeAck 2 (car 0x13 [5])) (asked 2)), (0, [2, 1], 1)), (made0 (exec (.writeAck 2 (car 0x13 [5 + 0x41 * 2 ^ 32])) (asked 2)), (0x41, [], 0)),
      (made0 (exec (.atomicResp 2 (car 0x17 [5, 88])) (asked 3)), (0, [88, 1], 0)),
      (made0 (exec (.readResp 2 (car 0x15 [5 + 0x41 * 2 ^ 32, 0])) (asked 1)), (0x41, [], 0)),
      (made0 (exec (.readResp 2 { car 0x15 [5, 0] with data := [1] }) (asked 1)), (999, [], 0)),
      (made0 (exec (.readResp 2 (bytes (car 0x15 [5, 0]))) (asked 1)), (0, [2, 1], 1))].all fun p => p.1 == p.2) = true := by decide +kernel

theorem wit_Pool :
    let e : State := (embedded fabric0)
    ([(data (exec (.emb 2 (car 0x18 [2, 5, 0])) (asked 4)), ([], [0, 0, 0, 0, 0, 0])),
      (data (exec (.emb 2 (car 0x18 [1 + 2 ^ 8, 5, 0])) fabric0), ([0x18], [0, 0, 0, 0, 0, 0])),
      (data (exec (.emb 2 (car 0x18 [1, 5, 0])) e), ([0x18], [0, 0, 0, 0, 0, 0])),
      (data (exec (.poolFrameRequest 9 6) fabric0), ([], [0, 0, 0, 0, 0, 1])),
      (data (exec (.poolFrameReturn 9 6) { fabric0 with fa := { fabric0.fa with lent := [(6, 9)] } }), ([], [0, 0, 0, 0, 0, 0]))
      ].all fun p => p.1 == p.2) = true ∧
    (after (exec (.poolFrameRecall (9 * 2 ^ 20) 1 6) (fabric0.setPage 9 { st := 4, frame := 9 * 2 ^ 20 }))).vm.moves.length = 1 := by decide +kernel

theorem wit_StagingFull (n : Nat) (hn : 268435456 < n) :
    let s : State := { ({} : State) with fa := { staged := [⟨9, 6, 0, 0, false, [(0, List.replicate n 0)]⟩] } }
    268435456 < s.stagedBytes + (car 0x10 [64, 5]).data.length := by
  simp [State.stagedBytes, lsum, car, hn]

/-- Module 7 paired with module 9 over port 2, protected. -/
def twinned : State :=
  [(R.FAB_TWIN_TWIN, 9), (R.FAB_TWIN_TWIN_PORTS, 4), (R.FAB_TWIN_STATE, 2), (R.TWN_STS_STATE, 1), (R.TWN_CTL_EN, 1), (R.FAB_TWIN_ACK_WAIT, 50)].foldl
    (fun (s : State) p => s.put p.1 p.2) fabric0

/-- A mirror caravan of a TYPE. -/
def mir (kind : Nat) (words : List Nat) : Car := { car kind words with cls := 3, oseq := 1, pseq := 4 }

/-- What an outcome leaves: pairing, twin state, acknowledgements asked, shadows, pieces, key/value pieces, caravans sent on port 2 by TYPE. -/
def twinNow (x : Ans) : List Nat :=
  let u := after x
  [u.get R.FAB_TWIN_STATE, u.get R.TWN_STS_STATE, u.fa.mirrors.length, u.tw.batches.length, u.tw.pieces.length, u.tw.kv.length] ++
    (tget u.fa.unacked 2 []).map fun p => p.2.kind

theorem wit_Mirror :
    let shadow : State := { twinned with tw := { batches := [(0, batchT (rowT 0))] } }
    let two : State := { twinned with tw := { batches := [(0, { batchT (rowT 0) with rows := [rowT 0, rowT 0] })] } }
    let offer (tag : Nat) : Car := { car 5 [tag, 7] with dst := linkPartner }
    ([(twinNow (exec (.twinOffer 2 (offer 0) 0) (twinned.put R.FAB_TWIN_STATE 1)), [2, 1, 0, 0, 0, 0]),
      (twinNow (exec (.twinOffer 2 (offer 3) 0) (twinned.put R.FAB_TWIN_STATE 1)), [3, 1, 0, 0, 0, 0]),
      (twinNow (exec (.subst 2 (car 6 [5 + 8 * 2 ^ 20])) twinned), [2, 1, 0, 0, 0, 0]),
      (twinNow (exec (.subst 2 (car 6 [7 + 8 * 2 ^ 20])) twinned), [2, 1, 0, 0, 0, 0, 7]),
      (twinNow (exec (.substAck 2 (car 7 [])) twinned), [2, 1, 0, 0, 0, 0]),
      (twinNow (exec (.mirAdmit 2 { mir 0x20 [0] with data := [1] }) twinned), [2, 1, 0, 0, 1, 0, 0x25]),
      (twinNow (exec (.mirAdmit 2 { mir 0x20 [0] with data := batchMsg 8 8 }) twinned), [2, 1, 0, 1, 0, 0, 0x25]),
      (twinNow (exec (.mirAdmit 2 { mir 0x20 [0] with data := [1] }) (twinned.put R.FAB_TWIN_STATE 1)), [1, 1, 0, 0, 0, 0]),
      (twinNow (exec (.mirKv 2 (mir 0x21 [0])) twinned), [2, 1, 0, 0, 0, 1, 0x25]),
      (twinNow (exec (.mirStep 2 (mir 0x22 (0 :: recWords rec0))) shadow), [2, 1, 0, 1, 0, 0, 0x25]),
      (twinNow (exec (.mirCancel 2 (mir 0x23 [0, 1])) shadow), [2, 1, 0, 1, 0, 0, 0x25]),
      (twinNow (exec (.mirEnd 2 (mir 0x24 [0])) shadow), [2, 1, 0, 0, 0, 0, 0x25]),
      (twinNow (exec (.mirEnd 2 (mir 0x24 [0])) two), [2, 1, 0, 1, 0, 0, 0x25]),
      (twinNow (exec (.twinBeat 2 (mir 0x26 [])) twinned), [2, 1, 0, 0, 0, 0, 0x25]),
      (twinNow (exec (.mirAck 2 (mir 0x25 [3])) { twinned with fa := { twinned.fa with mirrors := [⟨2, 2, 0⟩, ⟨4, 2, 0⟩] } }), [2, 1, 1, 0, 0, 0])
      ].all fun p => p.1 == p.2) = true := by decide +kernel

theorem wit_Losses :
    let late : State := { at2 50 twinned with fa := { twinned.fa with mirrors := [⟨2, 2, 0⟩] } }
    let doubt : State := { twinned with tw := { suspectAt := some 0 } }
    let out : State := { doubt.put R.FAB_STS_UP 12 with pt := { meters := [(6, 2 ^ 40)] } }
    let resync (m : Bool) : State := { twinned.put R.TWN_STS_STATE 6 with sv := { batches := [(0, { batchT (rowT 0) with mirrored := m })] } }
    ([(twinNow (exec (.twinBeatTimer 2) (at2 2000 twinned)), [2, 1, 1, 0, 0, 0, 0x26]),
      (twinNow (exec .ackWaitExpiry twinned), [2, 1, 0, 0, 0, 0]), (twinNow (exec .ackWaitExpiry late), [2, 5, 1, 0, 0, 0]),
      (twinNow (exec (.confirmWaitExpiry [9]) doubt), [2, 5, 0, 0, 0, 0]), (twinNow (exec (.confirmWaitExpiry [9]) out), [2, 4, 0, 0, 0, 0]),
      (twinNow (exec (.confirmWaitExpiry [9]) { out with pt := {} }), [2, 1, 0, 0, 0, 0]),
      (twinNow (exec .resyncBatchProtect (resync true)), [2, 1, 0, 0, 0, 0]),
      (twinNow (exec .resyncBatchProtect (resync false)), [2, 1, 0, 0, 0, 0])].all fun p => p.1 == p.2) = true := by decide +kernel

/-- The headers of the three entries of 22 Table 22.6: an engine of tenancy 3 lost with its pair's spare already in service. -/
theorem test_log_of_lost_engine :
    let s : State := [(R.TWN_CTL_EN, 1), (R.ENG_CTL_EN 22, 1), (R.ENG_CTL_TEN 22, 3), (R.ENG_STS_STATE 22, 1),
      (R.ENG_STS_STATE (spareOf 22), 1)].foldl (fun (s : State) p => s.put p.1 p.2) ((field 3).setReg R.ERR_LOG_STS 9204)
    let u := after (exec (.unitErrorReport (.engine 22 0)) s)
    [52, 53, 54].map (fun i => (u.reg (R.ERR_LOG_HDR i)).toNat) = [0x0300858E, 0x0306800D, 0x4007800D] := by decide +kernel

theorem wit_Units :
    let on (c : Cmd) : State := { ((field 3).put R.TWN_CTL_EN 1).setCmd 0 { c with unit := 5 } with pt := { meters := [(0, 2 ^ 32)] } }
    ([((after (exec (.unitErrorReport (.engine 5 0)) twinned)).get (R.ENG_STS_STATE 5), 3),
      ((after (exec (.unitErrorReport (.engine 5 2)) twinned)).get (R.ENG_STS_STATE 5), 1),
      ((after (exec (.unitErrorReport (.scan 5 1)) twinned)).epochOf 2 5, 1), ((after (exec (.unitErrorReport (.scan 5 2)) twinned)).epochOf 2 5, 0),
      ((after (exec (.unitErrorReport (.core 5 2 [])) twinned)).epochOf clsCore 5, 1),
      ((after (exec (.unitErrorReport (.core 5 4 [])) twinned)).epochOf clsCore 5, 0),
      ((after (exec (.unitErrorReport (.core 5 1 [])) twinned)).epochOf clsCore 5, 0),
      ((after (exec (.unitErrorReport (.text 3 0 [])) twinned)).get R.TWN_ERR_UNIT_LOST, 1),
      ((after (exec (.unitErrorReport (.grammar 1 0 [])) twinned)).get R.TWN_ERR_UNIT_LOST, 1),
      ((after (exec (.unitErrorReport (.oasis 0 0 9 [])) twinned)).get ⟨R.OAS_ERR 0, 0, 1⟩, 1),
      ((after (exec (.unitWaitExpiry 0) (on (running 1 1 [])))).epochOf 1 5, 1), ((after (exec (.unitWaitExpiry 0) (on (running 2 1 [])))).epochOf 2 5, 1),
      ((after (exec (.unitWaitExpiry 0) { on (running 2 1 []) with pt := {} })).epochOf 2 5, 0),
      ((after (exec (.unitWaitExpiry 0) (on {}))).epochOf 1 5, 0)].all fun p => p.1 == p.2) = true := by decide +kernel

/-! ## Power, heat and clocks -/

/-- What a power command leaves: IN_LOW, NV_OK, IN_HIGH, SHUTDOWN, CAUSE, the phase, the powered domains. -/
def supply (x : Ans) : List Nat :=
  let u := after x
  [u.get R.PWR_STS_IN_LOW, u.get R.PWR_STS_NV_OK, u.get R.PWR_STS_IN_HIGH, u.get R.PWR_STS_SHUTDOWN, u.get R.PWR_STS_CAUSE, u.pw.phase,
    u.get R.PWR_DOM_STS_POWERED]

/-- A module shut down with a cause, in a phase. -/
def down (cause phase : Nat) : State :=
  { ((({} : State).put R.PWR_STS_SHUTDOWN 1).put R.PWR_STS_CAUSE cause).put R.PWR_DOM_STS_POWERED (2 ^ 48 + 2 ^ 49) with
    pw := { phase := phase, steadyAt := some (0, 0) }, pt := { meters := [(0, 10000000)] } }

theorem wit_Supply :
    let all := 2 ^ 50 - 1
    let on := 2 ^ 48 + 2 ^ 49
    let up := ({} : State).put R.PWR_STS_NV_OK 1
    let gone : State := { up with pw := { phase := 2 } }
    let short : State := { gone.setCmd 0 { st := .irrevocable } with pw := { phase := 3 } }
    ([(supply (exec (.inputLowFall 5399) up), [1, 1, 0, 0, 0, 0, all]), (supply (exec (.inputLowRise 5451) up), [0, 1, 0, 0, 0, 0, all]),
      (supply (exec (.nvCutoff 5199) up), [0, 0, 0, 0, 0, 0, all]), (supply (exec (.nvRestore 5351) ({} : State)), [0, 1, 0, 0, 0, 0, all]),
      (supply (exec (.inputHighRise 6451) up), [0, 1, 1, 0, 0, 0, all]), (supply (exec (.inputHighFall 6399) up), [0, 1, 0, 0, 0, 0, all]),
      (supply (exec (.undervoltageShutdown 4599) up), [0, 0, 0, 1, 1, 2, all]),
      (supply (exec (.overvoltageShutdown 6801) up), [0, 0, 0, 1, 2, 2, all]),
      (supply (exec (.undervoltageShutdown 4600) up), [0, 1, 0, 0, 0, 0, all]),
      (supply (exec (.overvoltageShutdown 6800) up), [0, 1, 0, 0, 0, 0, all]),
      (supply (exec .shutdownFieldGate gone), [0, 1, 0, 0, 0, 3, 1023 * 2 ^ 40]),
      (supply (exec .shutdownGateDieGate { up with pw := { phase := 3 } }), [0, 1, 0, 0, 0, 4, on]),
      (supply (exec .shutdownGateDieGate short), [0, 1, 0, 0, 0, 3, all]),
      (supply (exec (.shutdownRestart 70 70 70 70) (down 3 4)), [0, 0, 0, 0, 0, 0, all]),
      (supply (exec (.shutdownRestart 70 71 70 70) (down 3 4)), [0, 0, 0, 1, 3, 4, on]),
      (supply (exec (.shutdownRestart 99 99 99 99) (down 1 4)), [0, 0, 0, 0, 0, 0, all]),
      (supply (exec (.shutdownRestart 70 70 70 70) { down 1 4 with pt := {} }), [0, 0, 0, 1, 1, 4, on]),
      (supply (exec .railsFail up), [0, 0, 0, 0, 0, 0, 0])].all fun p => p.1 == p.2) = true := by decide +kernel

/-- What a domain command leaves: the requests that wait, the code and REFUSED bit of a gate request, whether the domain is on. -/
def gated (d : Nat) (x : Ans) : List Nat :=
  let u := after x
  [u.pw.queue.length, u.get R.PWR_GATE_STS_CHK, u.get R.PWR_ERR_GATE_REFUSED, (u.powered d).toNat, u.get R.PWR_GATE_STS_PENDING]

theorem wit_Domains :
    let wait (on : Bool) : State := { ({} : State) with pw := { queue := [(0, on)] } }
    let off : State := ({} : State).put R.PWR_DOM_STS_POWERED (2 ^ 50 - 2)
    let held : State := (wait false).setCmd 0 { running 1 1 [] with st := .irrevocable }
    ([(gated 0 (.next (({} : State).domRequest 0 false)), [1, 0, 0, 1, 0]), (gated 0 (.next (({} : State).domRequest 0 true)), [0, 0, 0, 1, 0]),
      (gated 0 (.next (off.domRequest 0 true)), [1, 0, 0, 0, 0]), (gated 48 (.next (({} : State).domRequest 48 false)), [0, 0x9B, 1, 1, 0]),
      (gated 40 (.next (({} : State).domRequest 40 false)), [0, 0x9C, 1, 1, 0]),
      (gated 0 (exec (.domainGateDone 0) (wait false)), [0, 0, 0, 0, 0]), (gated 0 (exec (.domainGateDone 0) held), [1, 0, 0, 1, 0]),
      (gated 0 (exec (.domainPowerUpDone 0) { off with pw := { queue := [(0, true)] } }), [0, 0, 0, 1, 0]),
      (gated 0 (exec (.pwrDomCtlWrite .steward (2 ^ 50 - 2)) ({} : State)), [1, 0, 0, 1, 1]),
      (gated 0 (exec (.pwrSleepWrite .steward 1) ({} : State)), [0, 0, 0, 0, 0]),
      (gated 0 (exec (.pwrSleepWrite .steward 1) (({} : State).put R.FAB_CTL_EN 1)), [0, 0, 1, 1, 0]),
      (gated 0 (exec (.pwrSleepWrite .steward 0) (down 0 0 |>.put R.PWR_CTL_SLEEP 1)), [0, 0, 0, 1, 0])].all
      fun p => p.1 == p.2) = true := by decide +kernel

/-- What a voltage or heat command leaves: VCORE, RATE, TJ and the step's peak of die 0, SHUTDOWN, the clocks absent, the ERR register. -/
def heated (x : Ans) : List Nat :=
  let u := after x
  [u.get (R.PWR_FD_STS_VCORE 0), u.get (R.PWR_FD_STS_RATE 0), u.get (R.PWR_FD_STS_TJ 0), tget u.pw.thermal 0 0, tget u.pw.capLimit 0 0,
    u.get R.PWR_STS_SHUTDOWN, u.pw.absent.length, (u.reg R.PWR_ERR).toNat]

theorem wit_Heat :
    let cool : State := { ({} : State).put (R.PWR_FD_STS_VCORE 0) 780 with pw := { thermal := [(0, 860)] } }
    let warm : State := { cool with pw := { thermal := [(0, 720)], stepAt := [(0, 0)] }, pt := { meters := [(0, 20000)] } }
    ([(heated (exec (.vcoreStep 0) warm), [770, 0, 0, 720, 0, 0, 0, 0]),
      (heated (exec (.vcoreStep 0) { warm with pt := {} }), [780, 0, 0, 720, 0, 0, 0, 0]),
      (heated (exec (.vcoreStep 0) (cool.put (R.PWR_FD_STS_VCORE 0) 770)), [780, 0, 0, 860, 0, 0, 0, 0]),
      (heated (exec (.pacerWindow 0 14490) cool), [780, 1449, 0, 860, 0, 0, 0, 2 ^ 8]),
      (heated (exec (.pacerWindow 0 14500) cool), [780, 1450, 0, 860, 0, 0, 0, 0]),
      (heated (exec (.tjHighCrossing 0 90) cool), [780, 0, 90, 720, 0, 0, 0, 0]),
      (heated (exec (.tjHighCrossing 0 84) warm), [780, 0, 84, 860, 0, 0, 0, 0]),
      (heated (exec (.tjHighCrossing 0 85) warm), [780, 0, 85, 720, 0, 0, 0, 0]),
      (heated (exec (.tjOver 0 96) cool), [780, 0, 96, 720, 0, 0, 0, 2 ^ 4]),
      (heated (exec (.thermalShutdown (.field 0) 105) cool), [780, 0, 105, 860, 0, 1, 0, 0]),
      (heated (exec (.thermalShutdown (.field 0) 104) cool), [780, 0, 104, 860, 0, 0, 0, 0]),
      (heated (exec (.thermalShutdown .gate 105) cool), [780, 0, 0, 860, 0, 1, 0, 0]),
      (heated (exec (.thermalShutdown (.stack 3) 105) cool), [780, 0, 0, 860, 0, 1, 0, 0]),
      (heated (exec (.hbmHot 3 95) cool), [780, 0, 0, 860, 0, 0, 0, 2 ^ 5]), (heated (exec (.hbmHot 3 94) cool), [780, 0, 0, 860, 0, 0, 0, 0]),
      (heated (exec (.currentStepWindow 0 2000) cool), [780, 0, 0, 860, 0, 0, 0, 2 ^ 6]),
      (heated (exec (.currentStepWindow 0 0) cool), [780, 0, 0, 860, 0, 0, 0, 0]),
      (heated (exec (.powerAverageWindow 4001) cool), [780, 0, 0, 860, 770, 0, 0, 0]),
      (heated (exec (.powerAverageWindow 4001) ((cool.put (R.PWR_FD_STS_VCORE 0) 720).put (R.PWR_FD_STS_VCORE 1) 720)),
        [720, 0, 0, 860, 0, 0, 0, 2 ^ 3]),
      (heated (exec (.powerAverageWindow 3799) cool), [780, 0, 0, 860, 860, 0, 0, 0]),
      (heated (exec (.powerAverageWindow 3800) cool), [780, 0, 0, 860, 0, 0, 0, 0]),
      (heated (exec .hostRefclkLoss cool), [780, 0, 0, 860, 0, 0, 1, 0]), (heated (exec (.fabRefclkLoss 0) cool), [780, 0, 0, 860, 0, 0, 1, 0]),
      (heated (exec (.memRefclkLoss false) cool), [780, 0, 0, 860, 0, 0, 1, 0]), (heated (exec (.memRefclkLoss true) cool), [780, 0, 0, 860, 0, 1, 1, 0]),
      (heated (exec (.refclkReturn 5) { cool with pw := { absent := [5], thermal := [(0, 860)] } }), [780, 0, 0, 860, 0, 0, 0, 0])].all
      fun p => p.1 == p.2) = true := by decide +kernel

/-! ## Register writes -/

/-- What a write leaves: the word at an offset, MOD_ERR, MOD_LASTBAD's offset, the checks that run, the writes that they hold. -/
def wrote (off : Nat) (x : Ans) : List Nat :=
  let u := after x
  [(u.reg off).toNat, (u.reg R.MOD_ERR).toNat, u.get R.MOD_LASTBAD_OFFSET, u.checks.length, ((u.checks.map fun p => p.2.held.length)).foldl (· + ·) 0]

/-- A queue pair of port 0 connected as a manager's. -/
def managed : State := (({} : State).put (qpReg R.HST_QP_STATE 3) 2).put (qpReg R.HST_QP_ROLE 3) 1

/-- The well 0 enabled for tenancy 5, or its check under way. -/
def well0At (en : Nat) : State := ({} : State).setReg (R.WEL_CTL 0) (en + 5 * 2 ^ 8)
def checking : State := { well0At 0 with checks := [(R.WEL_CTL 0, ⟨.steward, 0, [(.steward, R.WEL_BASE 0, 64)]⟩)] }

theorem wit_Writes :
    ([(wrote R.FAB_LEND (exec (.fabLendWrite .steward 9) ({} : State)), [9, 0, 0, 0, 0]),
      (wrote R.FAB_LEND (exec (.fabLendWrite (.host 3) 9) managed), [9, 0, 0, 0, 0]),
      (wrote R.FAB_LEND (exec (.fabLendWrite (.host 3) 9) ({} : State)), [0, 0, 0, 0, 0]),
      (wrote R.FAB_LEND (exec (.registerWrite .steward 8192 9) ({} : State)), [0, 2, 8192, 0, 0]),
      (wrote (R.WEL_CTL 0) (exec (.welEnable .steward 0 (5 * 2 ^ 8)) ({} : State)), [5 * 2 ^ 8, 0, 0, 1, 0]),
      (wrote (R.WEL_CTL 0) (exec (.registerWrite .steward (R.WEL_CTL 0) (1 + 6 * 2 ^ 8)) (well0At 1)), [1 + 5 * 2 ^ 8, 4, R.WEL_CTL 0, 0, 0]),
      (wrote (R.WEL_CTL 0) (exec (.unitDisable .steward (R.WEL_CTL 0) (5 * 2 ^ 8)) (well0At 1)), [5 * 2 ^ 8, 0, 0, 0, 0]),
      (wrote (R.WEL_BASE 0) (exec (.registerWrite .steward (R.WEL_BASE 0) 7) checking), [0, 0, 0, 1, 2]),
      (wrote (R.WEL_BASE 0) (exec (.consistencyCheckEnd (R.WEL_CTL 0)) checking), [0, 4, R.WEL_BASE 0, 0, 0]),
      (wrote (R.WEL_BASE 0) (exec (.consistencyCheckEnd (R.WEL_CTL 1)) checking), [0, 0, 0, 1, 1]),
      (wrote R.MOD_LASTBAD (exec (.registerWrite .steward R.MOD_IDENT 77) ({} : State)), [R.MOD_IDENT + 2 ^ 28, 8, R.MOD_IDENT, 0, 0]),
      (wrote R.MOD_ERR (exec (.registerWrite .steward R.MOD_ERR 2) (({} : State).setReg R.MOD_ERR 6)), [4, 4, 0, 0, 0]),
      (wrote (R.WEL_BASE 0) (exec (.registerWrite .steward (R.WEL_BASE 0) 7) (({} : State).put R.PWR_DOM_STS_POWERED 0)), [0, 0, 0, 0, 0]),
      (wrote R.ERR_LOG_OLD (exec (.errLogClear .steward) (({} : State).raise R.PWR_ERR_STEP none)), [1, 0, 0, 0, 0])].all
      fun p => p.1 == p.2) = true := by decide +kernel

theorem wit_Enables :
    let first (t : Nat × Instr) : Bool := match exec t.2 ({} : State) with
      | .next u => u.checks.any fun p => p.1 == t.1
      | _ => false
    ([(R.HAM_CTL 7, .hamEnable .steward 7 0), (R.ENG_CTL 103, .engEnable .steward 103 0), (R.MEM_CTL, .memEnable .steward 0),
      (R.CEL_CTL, .celEnable .steward 0), (R.SCN_CTL 15, .scnEnable .steward 15 0), (R.SCN_IDX_CTL 63, .scnIdxEnable .steward 63 0),
      (R.TXT_CTL, .txtEnable .steward 0), (R.TXT_GRM_CTL, .txtGrmEnable .steward 0), (R.SCH_CTL, .schEnable .steward 0),
      (R.SCH_TEN_CTL 63, .tenancyEnable .steward 63 0), (R.HST_CTL 3, .hstEnable .steward 3 0), (R.FAB_CTL, .fabEnable .steward 0),
      (R.EMB_CTL, .embEnable .steward 0), (R.EMB_TAB_CTL 31, .embTabEnable .steward 31 0), (R.TWN_CTL, .twnEnable .steward 0),
      (R.PWR_CTL, .pwrEnable .steward 0), (R.SEC_CTL, .secEnable .steward 0), (R.OAS_CTL 1, .oasEnable .steward 1 0)].all first) = true := by
  decide +kernel

theorem wit_Rows :
    let on (b : Nat) : State := ({} : State).put (enOf b) 1
    ([((after (exec (.hamDisable .steward 7 0) (on (R.HAM_CTL 7)))).get (enOf (R.HAM_CTL 7)), 0),
      ((after (exec (.scnIdxDisable .steward 63 0) (on (R.SCN_IDX_CTL 63)))).get (enOf (R.SCN_IDX_CTL 63)), 0),
      ((after (exec (.tenancyDisable .steward 63 0) (on (R.SCH_TEN_CTL 63)))).get (enOf (R.SCH_TEN_CTL 63)), 0),
      ((after (exec (.tenancyDrainWrite .steward 63 1) ({} : State))).get (R.SCH_TEN_CTL_DRAIN 63), 1),
      ((after (exec (.kvPagesWrite .steward 63 9) ({} : State))).get (R.SCH_TEN_LIMITS_KV_PAGES 63), 9),
      ((after (exec (.memLookupVa .steward 9) ({} : State))).get ⟨R.MEM_LOOKUP_PTE, 0, 64⟩, 0),
      ((after (exec (.fabRtRowWrite .steward 9) (({} : State).put R.FAB_CTL_ROUTE_HOST 1))).fa.rows.length, 1),
      ((after (exec (.fabPortRetry .steward 15) ({} : State))).get ⟨R.MOD_ERR, 0, 64⟩, 0),
      ((after (exec (.schRebind .steward 0) ({} : State))).get ⟨R.MOD_ERR, 0, 64⟩, 0)].all fun p => p.1 == p.2) = true := by decide +kernel

/-! ## Sideband and bring-up -/

/-- What a sideband command leaves: whether it was acknowledged, the bytes returned, the dynamic address, the TAP's instruction and register. -/
def bus (x : Ans) : List Nat :=
  let u := after x
  [u.sb.acked.toNat, u.sb.dyn.getD 999, u.sb.tap, u.sb.dr, u.se.recovery] ++ u.sb.reply

/-- A target with its supplies present, with a dynamic address or without. -/
def sided (dyn : Option Nat) : State := { ({} : State) with sb := { vddio := true, dyn := dyn, strap := 1 } }

theorem wit_Bus :
    let up := sided (some 9)
    let fail := up.put R.SEC_STS_STAGE 2
    let read := { up with sb := { up.sb with sample := some 513 } }
    ([(bus (exec (.i3cRead 9 0) up), [1, 9, 0, 0, 0]), (bus (exec (.i3cRead 0x51 0) (sided none)), [1, 999, 0, 0, 0]),
      (bus (exec (.i3cRead 0x51 0) up), [0, 9, 0, 0, 0]), (bus (exec (.i3cRead 9 4) up), [0, 9, 0, 0, 0]),
      (bus (exec (.i3cWrite 9 R.PWR_CTL 2) up), [1, 9, 0, 0, 0]), (bus (exec (.i3cWrite 9 1 2) up), [0, 9, 0, 0, 0]),
      (bus (exec (.i3cPrivateRead 9) read), [1, 9, 0, 0, 0, 1, 2, 0, 0, 0, 0, 0, 0]),
      (bus (exec (.i3cPrivateRead 9) up), [1, 9, 0, 0, 0] ++ List.replicate 8 255),
      (bus (exec (.recovData 9 [5]) fail), [1, 9, 0, 0, 1]), (bus (exec (.recovData 9 []) fail), [0, 9, 0, 0, 0]),
      (bus (exec (.recovData 9 [5]) (up.put R.SEC_STS_STAGE 1)), [0, 9, 0, 0, 0]), (bus (exec (.recovEnd 9) (up.put R.SEC_STS_STAGE 1)), [0, 9, 0, 0, 0]),
      (bus (exec (.entdaa 130) (sided none)), [1, 2, 0, 0, 0]), (bus (exec (.entdaa 130) up), [0, 9, 0, 0, 0]),
      (bus (exec (.setdasa 0x51 7) (sided none)), [1, 7, 0, 0, 0]), (bus (exec (.setdasa 0x50 7) (sided none)), [0, 999, 0, 0, 0]),
      (bus (exec .rstdaa up), [1, 999, 0, 0, 0]), (bus (exec (.setnewda 9 8) up), [1, 8, 0, 0, 0]), (bus (exec (.setnewda 8 9) up), [0, 9, 0, 0, 0]),
      (bus (exec (.getpid 9) up), [1, 9, 0, 0, 0, 0x34, 0xD6, 0x48, 0, 64, 0]), (bus (exec (.getbcr 9) up), [1, 9, 0, 0, 0, 0]),
      (bus (exec (.getdcr 9) up), [1, 9, 0, 0, 0, 0]), (bus (exec (.getmwl 9) up), [1, 9, 0, 0, 0, 1, 5]),
      (bus (exec (.getmrl 9) up), [1, 9, 0, 0, 0, 0, 8]), (bus (exec (.getmrl 8) up), [0, 9, 0, 0, 0]),
      ((bus (exec (.getstatus 9) up)).take 5, [1, 9, 0, 0, 0])].all fun p => p.1 == p.2) = true := by decide +kernel

theorem wit_Pins :
    let low : State := { sided none with pw := { rstLow := true } }
    ([(bus (exec .bypass low), [0, 999, 0, 0, 0]), (bus (exec .idcode low), [0, 999, 1, 0x14800DA5, 0]),
      (bus (exec (.samplePreload [true]) low), [0, 999, 2, 0, 0]), (bus (exec .extest low), [0, 999, 3, 0, 0]),
      (bus (exec .clamp low), [0, 999, 4, 0, 0]), (bus (exec .highz low), [0, 999, 5, 0, 0]), (bus (exec .highz (sided none)), [0, 999, 0, 0, 0]),
      (bus (exec (.vddioSbRise 6) ({} : State)), [0, 999, 0, 0, 0]),
      ([(after (exec (.vddioSbRise 6) ({} : State))).sb.strap], [2]), ([(after (exec (.hotInsertPrecharge 5000) (down 0 0))).pw.charged.toNat], [1]),
      ([(after (exec .rstNAssert (sided none))).pw.rstLow.toNat], [1]), ([(after (exec .rstNAssert (down 1 4))).pw.phase], [4]),
      ([(after (exec .rstNRelease low)).pw.rstLow.toNat], [0])].all fun p => p.1 == p.2) = true := by decide +kernel

/-- A module in a stage of bring-up, its steward as given, and what the stage's end leaves: the stage, HALTED, BLOCK, BIT, DONE. -/
def staged (n steward : Nat) : State := ((({} : State).put R.ERR_BRING_STAGE n).put R.SEC_STS_STAGE steward).put R.PWR_STS_NV_OK 1
def ended (x : Ans) : List Nat :=
  let u := after x
  [u.get R.ERR_BRING_STAGE, u.get R.ERR_BRING_HALTED, u.get R.ERR_BRING_BLOCK, u.get R.ERR_BRING_BIT, u.get R.ERR_BRING_DONE]

theorem wit_BringUp :
    let low : State := { staged 1 1 with pw := { rstLow := true } }
    let noStack := (List.range 16).foldl (fun (s : State) n => s.put (R.MEM_STACK_GROUPS_RETIRED n) 255) (staged 3 1)
    ([(ended (exec (.bringUpStageEnd {}) (staged 0 1)), [1, 0, 0, 0, 0]), (ended (exec (.bringUpStageEnd {}) (staged 0 2)), [0, 1, 2, 0, 0]), (ended (exec (.bringUpStageEnd {}) (staged 0 0)), [0, 0, 0, 0, 0]),
      (ended (exec (.bringUpStageEnd {}) (staged 1 1)), [2, 0, 0, 0, 0]), (ended (exec (.bringUpStageEnd {}) low), [1, 0, 0, 0, 0]),
      (ended (exec (.bringUpStageEnd {}) (staged 2 1)), [3, 0, 0, 0, 0]), (ended (exec (.bringUpStageEnd { written := false }) (staged 2 1)), [2, 1, 2, 3, 0]),
      (ended (exec (.bringUpStageEnd {}) ((staged 2 1).put R.PWR_STS_NV_OK 0)), [2, 0, 0, 0, 0]),
      (ended (exec (.bringUpStageEnd {}) (staged 3 1)), [4, 0, 0, 0, 0]), (ended (exec (.bringUpStageEnd {}) noStack), [3, 1, 9, 3, 0]),
      (ended (exec (.bringUpStageEnd {}) (staged 4 1)), [5, 0, 0, 0, 0]), (ended (exec (.bringUpStageEnd {}) ((staged 4 1).put R.CEL_STS_CH_FAIL (2 ^ 32 - 1))), [4, 1, 8, 5, 0]),
      (ended (exec (.bringUpStageEnd {}) (staged 5 1)), [6, 0, 0, 0, 0]), (ended (exec (.bringUpStageEnd { tokLanes := [3] }) (staged 5 1)), [6, 0, 0, 0, 0]),
      (ended (exec (.bringUpStageEnd {}) (staged 6 1)), [7, 0, 0, 0, 0]), (ended (exec (.bringUpStageEnd {}) (staged 7 1)), [7, 0, 0, 0, 1]),
      (ended (exec (.bringUpStageEnd { reserve := (14337, 0) }) (staged 7 1)), [7, 0, 0, 0, 0]), (ended (exec (.bringUpStageEnd {}) ((staged 7 1).put R.ERR_BRING_DONE 1)), [7, 0, 0, 0, 1])].all
      fun p => p.1 == p.2) = true := by decide +kernel

end Sys2Proof.Tests

set_option Elab.async true
end

section
/-!
PROOFS. The execution model (02): the step, the kills and reruns of commands, the commit of a command.
-/

namespace Sys2Proof.Machine

/-! ## Tables and folds -/

/-- What a table answers at a number is one of its entries. -/
theorem mem_of_tfind {α : Type} {t : Tab α} {i : Nat} {x : α} (h : tfind t i = some x) : (i, x) ∈ t := by
  induction t with
  | nil => simp [tfind] at h
  | cons p t ih =>
    obtain ⟨k, v⟩ := p
    unfold tfind at h
    split at h
    · simp_all
    · split at h
      · simp at h
      · exact List.mem_cons_of_mem _ (ih h)

/-- In a table whose numbers rise, every entry is what the table answers. -/
theorem tfind_of_mem {α : Type} {t : Tab α} {lo i : Nat} {x : α} (ht : tabAbove lo t = true) (h : (i, x) ∈ t) : tfind t i = some x := by
  induction t generalizing lo with
  | nil => simp at h
  | cons p t ih =>
    obtain ⟨k, v⟩ := p
    simp only [tabAbove, Bool.and_eq_true] at ht
    unfold tfind
    rcases List.mem_cons.1 h with e | h
    · obtain ⟨rfl, rfl⟩ := Prod.mk.injEq .. ▸ e
      exact if_pos rfl
    · have found := ih ht.2 h
      split
      · rename_i hk
        simp [tfind_below ht.2 (by omega : i < k + 1)] at found
      · split
        · simp [tfind_below ht.2 (by omega : i < k + 1)] at found
        · exact found

/-- A well with an entry is one of the table's entries. -/
theorem State.well_mem (s : State) (n : Nat) : s.well n = {} ∨ (n, s.well n) ∈ s.x.wells := by
  unfold State.well tget
  cases h : tfind s.x.wells n with
  | none => exact .inl rfl
  | some w => exact .inr (mem_of_tfind h)

/-! ## What a send on the fabric changes: registers, the fabric, host ports and crossings -/

/-- Whether a state differs from another at most in its registers, its fabric, its host ports and its crossings. -/
def State.onWire (s u : State) : Prop := u = { s with cw := u.cw, fa := u.fa, ho := u.ho, cx := u.cx }

theorem State.onWire_refl (s : State) : s.onWire s := rfl

theorem State.onWire_trans {s u v : State} (h : s.onWire u) (h' : u.onWire v) : s.onWire v := by
  unfold State.onWire at *
  rw [h', h]

theorem State.onWire_of_onRecord {s u : State} (h : s.onRecord u) : s.onWire u := by
  unfold State.onRecord at h
  unfold State.onWire
  rw [h]

theorem State.onWire_foldl {α : Type} {f : State → α → State} (hf : ∀ (s : State) (a : α), s.onWire (f s a)) (l : List α)
    (s : State) : s.onWire (l.foldl f s) :=
  List.foldlRecOn l f s.onWire_refl fun u h a _ => State.onWire_trans h (hf u a)

theorem State.onWire_sendOn (s : State) (n : Nat) (c : Car) : s.onWire (s.sendOn n c) := rfl

theorem State.onWire_copies (s : State) (table : Nat) (c : Car) : s.onWire (s.copies table c) := by
  unfold State.copies
  extract_lets g far portOf sent none_
  have hsent : s.onWire sent := State.onWire_foldl (fun u n => by
    dsimp only
    split
    · exact u.onWire_refl
    · exact u.onWire_sendOn _ _) _ s
  split
  · exact hsent
  · exact State.onWire_trans hsent rfl

theorem State.onWire_route (s : State) (table : Nat) (c : Car) : s.onWire (s.route table c) := by
  unfold State.route
  split
  · rfl
  · split
    · rfl
    · split
      · dsimp only
        split
        · exact s.onWire_copies _ _
        · exact State.onWire_trans (u := s.selfTake _) rfl (State.onWire_copies _ _ _)
      · split
        · split
          · exact s.onWire_sendOn _ _
          · rfl
        · rfl

theorem State.onWire_number (s : State) (c : Car) : s.onWire (s.number c).1 := by
  unfold State.number
  split
  · rfl
  · dsimp only
    split <;> rfl

theorem State.onWire_sendCar (s : State) (kind cls dst ten space : Nat) (words : List Nat) (data : List Byte) :
    s.onWire (s.sendCar kind cls dst ten space words data) :=
  State.onWire_trans (s.onWire_number _) (State.onWire_route _ _ _)

/-- The operations of a command dropped change only the fabric and what it counts. -/
theorem State.onWire_dropOps (s : State) (t : Nat) : s.onWire (s.dropOps t) := by
  unfold State.dropOps
  refine State.onWire_foldl (fun u p => ?_) _ s
  split
  · dsimp only
    split
    · exact State.onWire_trans (u := { u with fa := { u.fa with ops := tdel u.fa.ops p.1 } }) rfl (State.onWire_sendCar _ _ _ _ _ _ _ _)
    · rfl
  · exact u.onWire_refl

/-! ## Leases given up (04 R104) -/

/-- A pass over the wells that rewrites an entry without the leases a test picks, or leaves one that holds none of them, leaves none of them
live. -/
theorem State.foldl_wells_live (f : State → Nat × Well → State) (picks : Lease → Bool)
    (hother : ∀ (u : State) (p : Nat × Well) (n : Nat), n ≠ p.1 → (f u p).well n = u.well n)
    (hown : ∀ (u : State) (p : Nat × Well),
      f u p = u ∧ (∀ l ∈ p.2.live, picks l = false) ∨ ∀ l ∈ ((f u p).well p.1).live, picks l = false)
    (s : State) (n : Nat) (l : Lease) (hl : l ∈ ((s.x.wells.foldl f s).well n).live) : picks l = false := by
  have pass : ∀ (ps : Tab Well) (u : State), ((∀ l ∈ (u.well n).live, picks l = false) ∨ (n, u.well n) ∈ ps) →
      ∀ l ∈ ((ps.foldl f u).well n).live, picks l = false := by
    intro ps
    induction ps with
    | nil => exact fun u h => h.resolve_right (by simp)
    | cons p ps ih =>
      intro u h
      refine ih (f u p) ?_
      by_cases hn : n = p.1
      · subst hn
        rcases hown u p with ⟨same, none⟩ | clean
        · rw [same]
          rcases h with h | h
          · exact .inl h
          · rcases List.mem_cons.1 h with h | h
            · exact .inl (by rw [show u.well p.1 = p.2 from congrArg Prod.snd h]; exact none)
            · exact .inr h
        · exact .inl clean
      · rw [hother u p n hn]
        exact h.imp_right fun h => (List.mem_cons.1 h).resolve_left fun e => hn (congrArg Prod.fst e)
  refine pass s.x.wells s ?_ l hl
  rcases s.well_mem n with h | h
  · exact .inl (by simp [h])
  · exact .inr h

/-- After the leases of a drawer are returned, none of them is live. -/
theorem State.returnLeases_live (s : State) (mine : Drawer → Bool) (n : Nat) (l : Lease)
    (hl : l ∈ ((s.returnLeases mine).well n).live) : mine l.drawer = false := by
  refine State.foldl_wells_live _ (fun l => mine l.drawer) (fun u p n hn => ?_) (fun u p => ?_) s n l hl
  · dsimp only
    split <;> simp [hn]
  · dsimp only
    split
    · rename_i h
      exact .inl ⟨rfl, by simpa using h⟩
    · exact .inr (by simp)

/-- The return of leases changes only the wells. -/
theorem State.returnLeases_spec (s : State) (mine : Drawer → Bool) :
    s.returnLeases mine = { s with x := { s.x with wells := (s.returnLeases mine).x.wells } } := by
  unfold State.returnLeases
  refine List.foldlRecOn (motive := fun u : State => u = { s with x := { s.x with wells := u.x.wells } }) _ _ rfl fun u h p _ => ?_
  dsimp only
  split
  · exact h
  · rw [h]
    rfl

/-! ## Kills (02 R24 to R31) -/

/-- What a kill of a command discards: its leases are returned and its operations at peers dropped. -/
def State.discard (s : State) (t : Nat) : State := (s.returnLeases (Drawer.isCmd t)).dropOps t

theorem State.discard_spec (s : State) (t : Nat) : s.discard t =
    { s with x := { s.x with wells := (s.returnLeases (Drawer.isCmd t)).x.wells }, cw := (s.discard t).cw, fa := (s.discard t).fa,
             ho := (s.discard t).ho, cx := (s.discard t).cx } := by
  have wire : ∀ r u : State, r = { s with x := { s.x with wells := r.x.wells } } → r.onWire u →
      u = { s with x := { s.x with wells := r.x.wells }, cw := u.cw, fa := u.fa, ho := u.ho, cx := u.cx } := by
    intro r u hr hu
    rw [hu, hr]
  exact wire _ _ (s.returnLeases_spec _) (State.onWire_dropOps _ t)

@[simp] theorem State.discard_mem (s : State) (t : Nat) : (s.discard t).mem = s.mem := by rw [s.discard_spec t]
@[simp] theorem State.discard_cores (s : State) (t : Nat) : (s.discard t).x.cores = s.x.cores := by rw [s.discard_spec t]

/-- No lease that the command drew is live once it is discarded. -/
theorem State.discard_live (s : State) (t n : Nat) (l : Lease) (hl : l ∈ ((s.discard t).well n).live) : l.drawer ≠ .cmd t := by
  have e : (s.discard t).well n = (s.returnLeases (Drawer.isCmd t)).well n := by
    unfold State.well
    rw [s.discard_spec t]
  have h := s.returnLeases_live (Drawer.isCmd t) n l (e ▸ hl)
  intro hd
  simp [hd, Drawer.isCmd] at h

/-- A command as a kill for a cause leaves it, to be issued again (R25, R31). -/
def Cmd.killedFor (c : Cmd) (k : Cause) : Cmd :=
  { c with
    st := .killed, done := none, reads := [], far := [], patched := [], lease := none, tiles := 0, drawWait := false, lastKill := k.code,
    kills := if k.shelters then c.kills + 1 else 0, transKills := if k = .translation then c.transKills + 1 else 0,
    sheltered := c.sheltered || decide (8 ≤ if k.shelters then c.kills + 1 else 0), discarding := c.st.live }

/-- A command as an abort leaves it (04 R96). -/
def Cmd.aborted (c : Cmd) : Cmd :=
  { c with
    st := .void, done := none, reads := [], far := [], patched := [], lease := none, tiles := 0, drawWait := false, await := [] }

/-- Whether nothing kills a command: it is over, past its start point, or a controlled shutdown is under way (R35, 19 R491). -/
def State.beyondKill (s : State) (c : Cmd) : Prop := c.st.isOver = true ∨ c.st = .irrevocable ∨ s.get R.PWR_STS_SHUTDOWN = 1

section
variable {s : State} {t : Nat} {c : Cmd} (hc : s.cmd t = some c)
include hc

theorem State.killCmd_beyond (h : s.beyondKill c) (k : Cause) : s.killCmd t k = s := by
  unfold State.killCmd
  rw [hc]
  exact if_pos (by simpa [State.beyondKill, or_assoc] using h)

theorem State.killCmd_sheltered {k : Cause} (hs : c.sheltered = true) (hk : k.shelters = true) : s.killCmd t k = s := by
  unfold State.killCmd
  rw [hc]
  simp [hs, hk]

theorem State.killCmd_abort (h : ¬ s.beyondKill c) : s.killCmd t .streamAbort = (s.discard t).setCmd t c.aborted := by
  have h' : ¬ ((c.st.isOver || c.st == .irrevocable || s.get R.PWR_STS_SHUTDOWN == 1) = true) := by
    simpa [State.beyondKill, or_assoc] using h
  unfold State.killCmd
  rw [hc]
  dsimp only
  rw [if_neg h', if_neg (by simp [Cause.shelters]), if_pos rfl]
  rfl

/-- A kill that nothing shuts out: what the command made is discarded, and the sixteenth kill in a row for TRANSLATION is noted (07 R187). -/
theorem State.killCmd_kill {k : Cause} (h : ¬ s.beyondKill c) (hst : c.st ≠ .killed) (hk : k ≠ .streamAbort)
    (hs : ¬ (c.sheltered = true ∧ k.shelters = true)) :
    s.killCmd t k =
      if 16 ≤ (c.killedFor k).transKills then ((s.discard t).setCmd t (c.killedFor k)).raiseAt R.MEM_ERR_THRASH (some c.ten) 0 t
      else (s.discard t).setCmd t (c.killedFor k) := by
  have h' : ¬ ((c.st.isOver || c.st == .irrevocable || s.get R.PWR_STS_SHUTDOWN == 1) = true) := by
    simpa [State.beyondKill, or_assoc] using h
  unfold State.killCmd
  rw [hc]
  dsimp only
  rw [if_neg h', if_neg (by simpa using hs), if_neg hk, if_neg (by simpa using hst)]
  rfl

end

/-- What is left after a kill that nothing shuts out: the killed command, memory and cores as they were, none of its leases live. -/
theorem State.killCmd_kills {s : State} {t : Nat} {c : Cmd} {k : Cause} (hc : s.cmd t = some c) (h : ¬ s.beyondKill c)
    (hst : c.st ≠ .killed) (hk : k ≠ .streamAbort) (hs : ¬ (c.sheltered = true ∧ k.shelters = true)) :
    (s.killCmd t k).cmd t = some (c.killedFor k) ∧ (s.killCmd t k).mem = s.mem ∧ (s.killCmd t k).x.cores = s.x.cores ∧
      ∀ n l, l ∈ ((s.killCmd t k).well n).live → l.drawer ≠ .cmd t := by
  have hcmd : ((s.discard t).setCmd t (c.killedFor k)).cmd t = some (c.killedFor k) := by simp
  have hlive : ∀ n l, l ∈ (((s.discard t).setCmd t (c.killedFor k)).well n).live → l.drawer ≠ .cmd t := by
    simpa using s.discard_live t
  rw [State.killCmd_kill hc h hst hk hs]
  split
  · refine ⟨?_, by simp, by simp [State.setCmd], fun n l => ?_⟩
    · rwa [State.cmd, State.raiseAt_x]
    · rw [State.well, State.raiseAt_x]
      exact hlive n l
  · exact ⟨hcmd, by simp, by simp [State.setCmd], hlive⟩

/-! ## Reruns (02 R28, 07 R185) -/

theorem State.listDone_nil (s : State) (b : Bool) : s.listDone b [] = true := rfl

section
variable {s : State} {t : Nat} {c : Cmd} (hc : s.cmd t = some c)
include hc

theorem execKillComplete_cmd : execKillComplete (.cmd t) s = .next (s.setCmd t { c with discarding := false }) := by
  simp [execKillComplete, hc]

/-- A command is issued again once its kill is complete and its tenancy may run. -/
theorem execCommandRerun_cmd (hst : c.st = .killed) (hd : c.discarding = false) (hp : s.get R.PWR_STS_SHUTDOWN = 0)
    (hk : c.lastKill ≠ 2) (hr : s.mayRun c.ten = true) : execCommandRerun (.cmd t) s = .next (s.rerunCmd t c) := by
  simp [execCommandRerun, hc, hst, hd, hp, hk, hr]

theorem execCommandRerun_discarding (hd : c.discarding = true) : execCommandRerun (.cmd t) s = .next s := by
  simp [execCommandRerun, hc, hd]

/-- A command killed for TRANSLATION is issued again once the pages it waits for are resolved. -/
theorem execFaultResolvedRerun_cmd (hst : c.st = .killed) (hd : c.discarding = false) (hk : c.lastKill = 2)
    (hl : s.listDone c.writesStore c.await = true) : execFaultResolvedRerun (.cmd t) s = .next (s.rerunCmd t c) := by
  simp [execFaultResolvedRerun, hc, hst, hd, hk, hl]

theorem execFaultResolvedRerun_unresolved (hl : s.listDone c.writesStore c.await = false) :
    execFaultResolvedRerun (.cmd t) s = .next s := by
  simp [execFaultResolvedRerun, hc, hl]

end

/-! ## The bytes of a commit's writes -/

/-- The byte that a run of bytes at a key has at an address, if it reaches there. -/
def runAt (w : Nat × List Byte) (a : Nat) : Option Byte := if w.1 ≤ a then w.2[a - w.1]? else none

theorem State.byte_writeRun_runAt {s : State} (hm : memWf s.mem = true) (w : Nat × List Byte) (a : Nat) :
    (s.writeRun w.1 w.2).byte a = (runAt w a).getD (s.byte a) := by
  rw [State.byte_writeRun hm, runAt]
  split <;> rfl

/-- An address reads as a value after runs are written, if each run that reaches it holds the value there, and it read so before or some run
reaches it. -/
theorem State.byte_foldl_writeRun {s : State} (hm : memWf s.mem = true) (ws : List (Nat × List Byte)) (a : Nat) (b : Byte)
    (agree : ∀ w ∈ ws, ∀ b', runAt w a = some b' → b' = b) (found : s.byte a = b ∨ ∃ w ∈ ws, runAt w a = some b) :
    (ws.foldl (fun (u : State) w => u.writeRun w.1 w.2) s).byte a = b := by
  induction ws generalizing s with
  | nil => exact found.resolve_right (by simp)
  | cons w ws ih =>
    refine ih (State.writeRun_wf hm w.1 w.2) (fun w' hw' => agree w' (List.mem_cons_of_mem _ hw')) ?_
    rw [State.byte_writeRun_runAt hm]
    cases hr : runAt w a with
    | some b' => exact .inl (agree w List.mem_cons_self b' hr)
    | none =>
      refine found.imp_right ?_
      rintro ⟨w', hw', h'⟩
      rcases List.mem_cons.1 hw' with rfl | hw'
      · simp [hr] at h'
      · exact ⟨w', hw', h'⟩

/-- The clearing of poison marks changes only pages. -/
theorem State.clearPoison_spec (s : State) (ws : List (Nat × Nat)) : s.clearPoison ws = { s with vm := (s.clearPoison ws).vm } := by
  unfold State.clearPoison
  refine List.foldlRecOn (motive := fun u : State => u = { s with vm := u.vm }) _ _ rfl fun u h g _ => ?_
  rw [h]
  rfl

/-- Runs written change only memory. -/
theorem State.foldl_writeRun_spec (s : State) (ws : List (Nat × List Byte)) :
    ws.foldl (fun (u : State) w => u.writeRun w.1 w.2) s =
      { s with mem := (ws.foldl (fun (u : State) w => u.writeRun w.1 w.2) s).mem } := by
  refine List.foldlRecOn (motive := fun u : State => u = { s with mem := u.mem }) _ _ rfl fun u h w _ => ?_
  rw [h]
  rfl

/-- The runs of a commit in the order in which they are made. -/
def inOrderMade (ws : List (Nat × List Byte)) : List (Nat × List Byte) :=
  ws.filter (fun w => w.1 / 2 ^ 56 == spFlash) ++ ws.filter fun w => w.1 / 2 ^ 56 != spFlash

theorem mem_inOrderMade {ws : List (Nat × List Byte)} {w : Nat × List Byte} : w ∈ inOrderMade ws ↔ w ∈ ws := by
  rw [inOrderMade, List.mem_append, List.mem_filter, List.mem_filter, ← and_or_left]
  exact and_iff_left (by simp [Classical.em])

theorem State.putAll_mem (s : State) (ws : List (Nat × List Byte)) :
    (s.putAll ws).mem = ((inOrderMade ws).foldl (fun (u : State) w => u.writeRun w.1 w.2) s).mem := by
  unfold State.putAll State.commitWrites inOrderMade
  dsimp only
  rw [State.clearPoison_spec, List.foldl_append]

/-- What a commit's writes leave: memory, poison marks and the granules to copy back. -/
theorem State.putAll_spec (s : State) (ws : List (Nat × List Byte)) :
    s.putAll ws = { s with mem := (s.putAll ws).mem, vm := (s.putAll ws).vm,
                           x := { s.x with copybacks := (s.putAll ws).x.copybacks } } := by
  unfold State.putAll State.commitWrites
  dsimp only
  rw [State.clearPoison_spec, State.foldl_writeRun_spec _ (ws.filter fun w => w.1 / 2 ^ 56 != spFlash),
    State.foldl_writeRun_spec s]

theorem State.putAll_wf {s : State} (hm : memWf s.mem = true) (ws : List (Nat × List Byte)) : memWf (s.putAll ws).mem = true := by
  rw [s.putAll_mem]
  exact List.foldlRecOn (motive := fun u : State => memWf u.mem = true) _ _ hm fun u hu w _ => State.writeRun_wf hu w.1 w.2

/-- What an address reads as after a commit's writes. -/
theorem State.byte_putAll {s : State} (hm : memWf s.mem = true) (ws : List (Nat × List Byte)) (a : Nat) (b : Byte)
    (agree : ∀ w ∈ ws, ∀ b', runAt w a = some b' → b' = b) (found : s.byte a = b ∨ ∃ w ∈ ws, runAt w a = some b) :
    (s.putAll ws).byte a = b := by
  rw [State.byte, s.putAll_mem]
  refine State.byte_foldl_writeRun hm _ a b (fun w hw => agree w (mem_inOrderMade.1 hw)) (found.imp_right ?_)
  rintro ⟨w, hw, h⟩
  exact ⟨w, mem_inOrderMade.2 hw, h⟩

/-! ## Where a range of a tenancy lies -/

/-- The keys of a page's bytes run on with their addresses. -/
theorem State.dkey_add (s : State) (ten : Nat) {lo a : Nat} (h : lo ≤ a) (hp : lo / pageBytes = a / pageBytes) :
    s.dkey ten a = s.dkey ten lo + (a - lo) := by
  have hkey : ∀ sp, key sp a = key sp lo + (a - lo) := fun sp => by unfold key; omega
  have hview : (2 ^ 56 ≤ lo) = (2 ^ 56 ≤ a) := by
    unfold pageBytes at hp
    exact propext (by omega)
  unfold State.dkey State.pageOf
  simp only [hview, hp, hkey]
  split <;> rfl

/-- A byte of a range is in the run of its page. -/
theorem State.exists_runAt_spread (s : State) (ten va : Nat) (bs : List Byte) {i : Nat} (hi : i < bs.length) :
    ∃ w ∈ s.spread ten va bs, runAt w (s.dkey ten (va + i)) = bs[i]? := by
  have hin : (va + i) / pageBytes ∈ pagesIn va bs.length := by
    have h1 : va / pageBytes ≤ (va + i) / pageBytes := Nat.div_le_div_right (by omega)
    have h2 : (va + i) / pageBytes ≤ (va + bs.length - 1) / pageBytes := Nat.div_le_div_right (by omega)
    rw [pagesIn, if_neg (by omega)]
    simp only [upto, List.mem_map, List.mem_range]
    exact ⟨(va + i) / pageBytes - va / pageBytes, by omega, by omega⟩
  refine ⟨_, List.mem_map_of_mem hin, ?_⟩
  have hbelow : (va + i) / pageBytes * pageBytes ≤ va + i := Nat.div_mul_le_self _ _
  have habove : va + i < ((va + i) / pageBytes + 1) * pageBytes := Nat.lt_mul_of_div_lt (Nat.lt_succ_self _) (by decide)
  have hpage : max va ((va + i) / pageBytes * pageBytes) / pageBytes = (va + i) / pageBytes :=
    Nat.div_eq_of_lt_le (le_max_right _ _) (by omega)
  dsimp only
  generalize max va ((va + i) / pageBytes * pageBytes) = lo, hlo : max va ((va + i) / pageBytes * pageBytes) = lo at hpage
  rw [s.dkey_add ten (lo := lo) (by omega) hpage, runAt, if_pos (Nat.le_add_right _ _), Nat.add_sub_cancel_left,
    List.getElem?_take, if_pos (by omega), List.getElem?_drop]
  congr 1
  omega

/-- A run of a range holds only bytes of the range, at their keys. -/
theorem State.of_runAt_spread {s : State} {ten va a : Nat} {bs : List Byte} {b : Byte} {w : Nat × List Byte}
    (hw : w ∈ s.spread ten va bs) (h : runAt w a = some b) : ∃ i, bs[i]? = some b ∧ i < bs.length ∧ a = s.dkey ten (va + i) := by
  obtain ⟨v, -, rfl⟩ := List.mem_map.1 hw
  dsimp only [runAt] at h
  split at h
  case isFalse => simp at h
  case isTrue hle =>
    generalize hlo : max va (v * pageBytes) = lo at *
    rw [List.getElem?_take] at h
    split at h
    case isFalse => simp at h
    case isTrue hlt =>
      rw [List.getElem?_drop] at h
      have hpage : ∀ x, lo ≤ x → x < (v + 1) * pageBytes → x / pageBytes = v := fun x h1 h2 =>
        Nat.div_eq_of_lt_le (by omega) h2
      refine ⟨_, h, (List.getElem?_eq_some_iff.1 h).1, ?_⟩
      rw [s.dkey_add ten (lo := lo) (by omega) ((hpage lo (by omega) (by omega)).trans (hpage _ (by omega) (by omega)).symm)]
      omega

/-- A byte of a tenancy's range lies in the tenancy's own space or among the module's pages. -/
theorem State.dkey_space (s : State) (ten va : Nat) : s.dkey ten va = key ten va ∨ s.dkey ten va = key spModule va := by
  have space : ∀ sp, ¬ 2 ^ 56 ≤ va → pageKey sp (va / pageBytes) / 2 ^ 35 = sp := fun sp h => by
    unfold pageKey pageBytes
    omega
  unfold State.dkey State.pageOf
  by_cases hv : 2 ^ 56 ≤ va
  · exact .inl (by simp only [if_pos hv])
  · simp only [if_neg hv]
    cases s.page (pageKey ten (va / pageBytes)) with
    | some p => exact .inl (by simp only [space ten hv])
    | none =>
      cases s.page (pageKey spModule (va / pageBytes)) with
      | none => exact .inl rfl
      | some p =>
        by_cases hm : (p.users.contains ten || ten == spModule) = true
        · exact .inr (by simp only [if_pos hm, space spModule hv])
        · exact .inl (by simp only [if_neg hm])

/-- Two addresses of a tenancy's range lie apart. -/
theorem State.dkey_inj (s : State) (ten : Nat) {a b : Nat} (ha : a < 2 ^ 56) (hb : b < 2 ^ 56) (h : s.dkey ten a = s.dkey ten b) :
    a = b := by
  have offset : ∀ x, x < 2 ^ 56 → s.dkey ten x % 2 ^ 56 = x := by
    intro x hx
    rcases s.dkey_space ten x with e | e <;> rw [e] <;> unfold key <;> omega
  rw [← offset a ha, h, offset b hb]

/-- Where bytes lie depends on which pages there are and whom they are mapped to. -/
theorem State.dkey_congr {s u : State} (h : ∀ k, (u.page k).map (·.users) = (s.page k).map (·.users)) (ten va : Nat) :
    u.dkey ten va = s.dkey ten va := by
  have mapped : ∀ {k p}, s.page k = some p → ∃ p', u.page k = some p' ∧ p'.users = p.users := fun {k} _ hs =>
    Option.map_eq_some_iff.1 ((h k).trans (by rw [hs]; rfl))
  have unmapped : ∀ {k}, s.page k = none → u.page k = none := fun {k} hs =>
    Option.map_eq_none_iff.1 ((h k).trans (by rw [hs]; rfl))
  unfold State.dkey State.pageOf
  by_cases hv : 2 ^ 56 ≤ va
  · simp only [if_pos hv]
  · simp only [if_neg hv]
    cases hs : s.page (pageKey ten (va / pageBytes)) with
    | some p =>
      obtain ⟨p', hp', -⟩ := mapped hs
      simp only [hp']
    | none =>
      simp only [unmapped hs]
      cases hs' : s.page (pageKey spModule (va / pageBytes)) with
      | none => simp only [unmapped hs']
      | some p =>
        obtain ⟨p', hp', hu⟩ := mapped hs'
        simp only [hp', hu]
        by_cases hm : (p.users.contains ten || ten == spModule) = true
        · simp only [if_pos hm]
        · simp only [if_neg hm]

/-- A change of a page that keeps whom it is mapped to keeps whom every page is mapped to. -/
theorem State.users_modPage (s : State) (pk : Nat) (f : Page → Page) (hf : ∀ p, (f p).users = p.users) (k : Nat) :
    ((s.modPage pk f).page k).map (·.users) = (s.page k).map (·.users) := by
  unfold State.modPage State.page tmod
  cases hp : tfind s.vm.pages pk with
  | none => rfl
  | some p =>
    dsimp only
    rw [tfind_tset]
    split
    · rename_i hk
      rw [hk, hp, Option.map_some, Option.map_some, hf]
    · rfl

theorem State.dkey_putAll (s : State) (ws : List (Nat × List Byte)) (ten va : Nat) : (s.putAll ws).dkey ten va = s.dkey ten va := by
  refine State.dkey_congr (fun k => ?_) ten va
  have keep : ∀ (v : State) (gs : List (Nat × Nat)), v.vm = s.vm →
      ((v.clearPoison gs).page k).map (·.users) = (s.page k).map (·.users) := by
    intro v gs hv
    unfold State.clearPoison
    refine List.foldlRecOn (motive := fun u : State => (u.page k).map (·.users) = (s.page k).map (·.users)) _ _ ?_
      fun u hu g _ => ?_
    · rw [State.page, hv, State.page]
    · rwa [State.users_modPage]
      exact fun _ => rfl
  exact keep _ _ (by rw [State.foldl_writeRun_spec _ (ws.filter fun w => w.1 / 2 ^ 56 != spFlash), State.foldl_writeRun_spec s])

/-! ## What a commit leaves of a command -/

/-- Whether a state keeps what another holds of a ticket and its commit: the serial, the command, the tenancies that leave, the bytes of a
set of addresses; and no lease is live in it that was not, while the table of wells is in rising order. -/
structure State.spares (s : State) (t : Nat) (at_ : Nat → Prop) (u : State) : Prop where
  serial : u.x.serial = s.x.serial
  cmd : u.cmd t = s.cmd t
  tw : u.tw = s.tw
  wells : tabAbove 0 s.x.wells = true → tabAbove 0 u.x.wells = true ∧ ∀ n l, l ∈ (u.well n).live → l ∈ (s.well n).live
  bytes : memWf s.mem = true → memWf u.mem = true ∧ ∀ a, at_ a → u.byte a = s.byte a

section
variable {t : Nat} {at_ : Nat → Prop}

theorem State.spares_refl (s : State) : s.spares t at_ s :=
  ⟨rfl, rfl, rfl, fun h => ⟨h, fun _ _ h => h⟩, fun h => ⟨h, fun _ _ => rfl⟩⟩

theorem State.spares_trans {s u v : State} (h : s.spares t at_ u) (h' : u.spares t at_ v) : s.spares t at_ v where
  serial := h'.serial.trans h.serial
  cmd := h'.cmd.trans h.cmd
  tw := h'.tw.trans h.tw
  wells hs :=
    have ⟨hu, live⟩ := h.wells hs
    have ⟨hv, live'⟩ := h'.wells hu
    ⟨hv, fun n l hl => live n l (live' n l hl)⟩
  bytes hs :=
    have ⟨hu, same⟩ := h.bytes hs
    have ⟨hv, same'⟩ := h'.bytes hu
    ⟨hv, fun a ha => (same' a ha).trans (same a ha)⟩

theorem State.spares_foldl {α : Type} {f : State → α → State} (l : List α) (s : State)
    (hf : ∀ (u : State), ∀ a ∈ l, u.spares t at_ (f u a)) : s.spares t at_ (l.foldl f s) :=
  List.foldlRecOn l f s.spares_refl fun u h a ha => State.spares_trans h (hf u a ha)

/-- What changes neither serial, commands, wells, leaving tenancies nor memory spares every ticket. -/
theorem State.spares_of_eq {s u : State} (hs : u.x.serial = s.x.serial) (hc : u.x.cmds = s.x.cmds) (hw : u.x.wells = s.x.wells)
    (ht : u.tw = s.tw) (hm : u.mem = s.mem) : s.spares t at_ u where
  serial := hs
  cmd := by rw [State.cmd, hc, State.cmd]
  tw := ht
  wells h := by
    refine ⟨by rwa [hw], fun n l hl => ?_⟩
    rwa [State.well, hw] at hl
  bytes h := by
    refine ⟨by rwa [hm], fun a _ => ?_⟩
    rw [State.byte, hm, State.byte]

theorem State.spares_of_onWire {s u : State} (h : s.onWire u) : s.spares t at_ u :=
  State.spares_of_eq (by rw [h]) (by rw [h]) (by rw [h]) (by rw [h]) (by rw [h])

theorem State.spares_of_onRecord {s u : State} (h : s.onRecord u) : s.spares t at_ u :=
  State.spares_of_onWire (State.onWire_of_onRecord h)

theorem State.spares_ite {p : Prop} [Decidable p] {s u v : State} (hu : s.spares t at_ u) (hv : s.spares t at_ v) :
    s.spares t at_ (if p then u else v) := by
  split
  · exact hu
  · exact hv

/-- A step that may follow. -/
theorem State.spares_then {p : Prop} [Decidable p] {s u v : State} (h : s.spares t at_ u) (h' : u.spares t at_ v) :
    s.spares t at_ (if p then v else u) := State.spares_ite (State.spares_trans h h') h

theorem State.spares_setCore (s : State) (c : Nat) (k : Core) : s.spares t at_ (s.setCore c k) := State.spares_of_eq rfl rfl rfl rfl rfl

theorem State.spares_killMove (s : State) (id : Nat) : s.spares t at_ (s.killMove id) := State.spares_of_eq rfl rfl rfl rfl rfl

theorem State.spares_setCmd (s : State) {p : Nat} (h : t ≠ p) (c : Cmd) : s.spares t at_ (s.setCmd p c) where
  serial := rfl
  cmd := by rw [State.cmd_setCmd, if_neg h]
  tw := rfl
  wells hs := ⟨hs, fun _ _ hl => hl⟩
  bytes hm := ⟨hm, fun _ _ => rfl⟩

/-- A pass over the wells that only takes live leases from an entry keeps the order of the table, and no lease becomes live. -/
theorem State.foldl_wells_subset (f : State → Nat × Well → State)
    (hf : ∀ (u : State) (p : Nat × Well), f u p = u ∨
      ∃ w, (f u p).x.wells = tset u.x.wells p.1 w ∧ ∀ l ∈ w.live, l ∈ p.2.live)
    (s : State) (rises : tabAbove 0 s.x.wells = true) :
    tabAbove 0 (s.x.wells.foldl f s).x.wells = true ∧ ∀ n l, l ∈ ((s.x.wells.foldl f s).well n).live → l ∈ (s.well n).live := by
  refine List.foldlRecOn (motive := fun u : State => tabAbove 0 u.x.wells = true ∧ ∀ n l, l ∈ (u.well n).live → l ∈ (s.well n).live)
    _ _ ⟨rises, fun _ _ h => h⟩ fun u ⟨hu, live⟩ p hp => ?_
  rcases hf u p with same | ⟨w, hw, sub⟩
  · rw [same]
    exact ⟨hu, live⟩
  · refine ⟨by rw [hw]; exact tabAbove_tset hu _ _ (Nat.zero_le _), fun n l hl => ?_⟩
    rw [State.well, hw, tget_tset] at hl
    split at hl
    · rename_i hn
      have own : s.well n = p.2 := by rw [State.well, tget, hn, tfind_of_mem rises hp, Option.getD_some]
      rw [own]
      exact sub l hl
    · exact live n l hl

/-- The return of leases spares every ticket: live leases only go. -/
theorem State.spares_returnLeases (s : State) (mine : Drawer → Bool) : s.spares t at_ (s.returnLeases mine) where
  serial := by rw [State.returnLeases_spec]
  cmd := by rw [State.cmd, State.returnLeases_spec, State.cmd]
  tw := by rw [State.returnLeases_spec]
  wells rises := by
    refine State.foldl_wells_subset _ (fun u p => ?_) s rises
    dsimp only
    split
    · exact .inl rfl
    · exact .inr ⟨_, rfl, fun l hl => (List.mem_filter.1 hl).1⟩
  bytes hm := by
    rw [State.returnLeases_spec]
    exact ⟨hm, fun _ _ => rfl⟩

/-- The consumption of leases changes wells and their counters. -/
theorem State.consumeLeases_spec (s : State) (mine : Drawer → Bool) :
    s.consumeLeases mine =
      { s with cw := (s.consumeLeases mine).cw, x := { s.x with wells := (s.consumeLeases mine).x.wells } } := by
  unfold State.consumeLeases
  refine List.foldlRecOn (motive := fun u : State => u = { s with cw := u.cw, x := { s.x with wells := u.x.wells } }) _ _ rfl
    fun u h p _ => ?_
  dsimp only
  split
  · exact h
  · rw [h]
    rfl

@[simp] theorem State.consumeLeases_cmd (s : State) (mine : Drawer → Bool) (t : Nat) : (s.consumeLeases mine).cmd t = s.cmd t := by
  rw [State.cmd, State.consumeLeases_spec, State.cmd]
@[simp] theorem State.consumeLeases_mem (s : State) (mine : Drawer → Bool) : (s.consumeLeases mine).mem = s.mem := by
  rw [State.consumeLeases_spec]

theorem State.spares_consumeLeases (s : State) (mine : Drawer → Bool) : s.spares t at_ (s.consumeLeases mine) where
  serial := by rw [State.consumeLeases_spec]
  cmd := by rw [State.cmd, State.consumeLeases_spec, State.cmd]
  tw := by rw [State.consumeLeases_spec]
  wells rises := by
    refine State.foldl_wells_subset _ (fun u p => ?_) s rises
    dsimp only
    split
    · exact .inl rfl
    · exact .inr ⟨_, rfl, fun l hl => (List.mem_filter.1 hl).1⟩
  bytes hm := by
    rw [State.consumeLeases_spec]
    exact ⟨hm, fun _ _ => rfl⟩

/-- After the leases of a drawer are consumed, none of them is live. -/
theorem State.consumeLeases_live (s : State) (mine : Drawer → Bool) (n : Nat) (l : Lease)
    (hl : l ∈ ((s.consumeLeases mine).well n).live) : mine l.drawer = false := by
  refine State.foldl_wells_live _ (fun l => mine l.drawer) (fun u p n hn => ?_) (fun u p => ?_) s n l hl
  · dsimp only
    split
    · rfl
    · exact (State.well_setWell _ _ _ _).trans (if_neg hn)
  · dsimp only
    split
    · rename_i h
      exact .inl ⟨rfl, by simpa using h⟩
    · refine .inr fun l hl => ?_
      have own : l ∈ ((u.setWell p.1 { p.2 with live := p.2.live.filter fun l => !mine l.drawer }).well p.1).live := hl
      exact (show l ∈ p.2.live ∧ mine l.drawer = false by simpa using own).2

/-! ## Kills of other commands, turns and moves spare a commit -/

theorem State.onRecord_ite {p : Prop} [Decidable p] {s u v : State} (hu : s.onRecord u) (hv : s.onRecord v) :
    s.onRecord (if p then u else v) := by
  split
  · exact hu
  · exact hv

/-- What a kill of a command comes to. -/
theorem State.killCmd_cases (s : State) (p : Nat) (k : Cause) :
    s.killCmd p k = s ∨ (∃ m, s.killCmd p k = s.setCmd p m) ∨ ∃ m, ((s.discard p).setCmd p m).onRecord (s.killCmd p k) := by
  unfold State.killCmd
  split
  · exact .inl rfl
  · split
    · exact .inl rfl
    · split
      · exact .inl rfl
      · split
        · exact .inr (.inr ⟨_, State.onRecord_refl _⟩)
        · split
          · split
            · exact .inr (.inl ⟨_, rfl⟩)
            · exact .inl rfl
          · exact .inr (.inr ⟨_, State.onRecord_ite (State.onRecord_raiseAt (State.onRecord_refl _) _ _ _ _) (State.onRecord_refl _)⟩)

theorem State.spares_killCmd (s : State) {p : Nat} (h : t ≠ p) (k : Cause) : s.spares t at_ (s.killCmd p k) := by
  rcases s.killCmd_cases p k with e | ⟨m, e⟩ | ⟨m, e⟩
  · rw [e]
    exact s.spares_refl
  · rw [e]
    exact s.spares_setCmd h m
  · have dropped : s.spares t at_ (s.discard p) :=
      State.spares_trans (s.spares_returnLeases _) (State.spares_of_onWire (State.onWire_dropOps _ p))
    exact State.spares_trans (State.spares_trans dropped (State.spares_setCmd _ h m)) (State.spares_of_onRecord e)

/-- A run written spares the addresses that it does not reach. -/
theorem State.spares_writeRun (s : State) (k : Nat) (bs : List Byte) (h : ∀ a, at_ a → a < k) : s.spares t at_ (s.writeRun k bs) where
  serial := rfl
  cmd := rfl
  tw := rfl
  wells rises := ⟨rises, fun _ _ hl => hl⟩
  bytes hm := by
    refine ⟨State.writeRun_wf hm k bs, fun a ha => ?_⟩
    rw [State.byte_writeRun hm, if_neg (Nat.not_le.2 (h a ha))]

section
variable (home : ∀ a, at_ a → a < key 128 0)
include home

/-- Scratch lines put back spare every address below the scratch banks. -/
theorem State.spares_restoreLines (s : State) (bank : Nat) (kept : Tab (BitVec 512)) : s.spares t at_ (s.restoreLines bank kept) :=
  State.spares_foldl _ s fun u p _ => u.spares_writeRun _ _ fun a ha => by
    refine Nat.lt_of_lt_of_le (home a ha) ?_
    unfold key spScratch
    omega

theorem State.spares_killTurns (s : State) (c i : Nat) (k : Cause) : s.spares t at_ (s.killTurns c i k) := by
  unfold State.killTurns
  dsimp only
  split
  · exact s.spares_refl
  · rename_i tn _
    split
    · exact s.spares_refl
    · have restored := State.spares_trans (s.spares_returnLeases (t := t) (at_ := at_) (Drawer.isTurnFrom c tn.num))
        (State.spares_foldl (f := fun u (x : Turn) => u.restoreLines (s.core c).bank x.kept) ((s.core c).turns.drop i).reverse _
          fun u x _ => u.spares_restoreLines home _ x.kept)
      have held := fun m => State.spares_trans restored (State.spares_setCore _ c m)
      exact State.spares_ite (State.spares_trans (held _) (State.spares_of_onRecord (State.onRecord_raiseAt (State.onRecord_refl _) _ _ _ _)))
        (held _)

/-- The readers that a command's commit kills are others. -/
theorem State.spares_clash (s : State) (gs : List Nat) : s.spares t at_ (s.clash (.cmd t) gs) := by
  unfold State.clash
  dsimp only
  refine State.spares_trans (State.spares_foldl _ s fun u p _ => ?_)
    (State.spares_trans (State.spares_foldl _ _ fun u p _ => ?_) (State.spares_foldl _ _ fun u p _ => ?_))
  · split
    · rename_i h
      simp only [ne_eq, Bool.and_eq_true, decide_eq_true_eq, Ref.cmd.injEq] at h
      exact u.spares_killCmd h.1.1 _
    · exact u.spares_refl
  · split
    · exact u.spares_refl
    · split
      · exact u.spares_killTurns home _ _ _
      · exact u.spares_refl
  · exact State.spares_ite (u.spares_killMove p.1) u.spares_refl

end

/-! ## The rest of a commit -/

theorem State.spares_charge (s : State) (ten n : Nat) : s.spares t at_ (s.charge ten n) := by
  unfold State.charge
  dsimp only
  split
  · exact State.spares_ite (State.spares_of_eq rfl rfl rfl rfl rfl) (State.spares_of_eq rfl rfl rfl rfl rfl)
  · exact State.spares_of_eq rfl rfl rfl rfl rfl

theorem State.spares_overrun (s : State) (ref : Ref) (sheltered : Bool) : s.spares t at_ (s.overrun ref sheltered) := by
  unfold State.overrun
  dsimp only
  refine State.spares_trans (State.spares_foldl _ s fun u p _ => ?_) (State.spares_of_eq rfl rfl rfl rfl rfl)
  have noted : u.spares t at_ (if (sheltered && decide (0 < u.time (u.tenPort p.ten) - p.finish)) = true then
      u.raise R.SCH_ERR_SHELTER_OVERRUN (some p.ten) else u) :=
    State.spares_ite (State.spares_of_onRecord (State.onRecord_raise u.onRecord_refl _ _)) u.spares_refl
  exact State.spares_ite (State.spares_trans noted (State.spares_charge _ _ _)) noted

/-- A caravan or a message sent changes only what a send changes. -/
theorem State.onWire_sendEff (s : State) (e : Effect) : s.onWire (s.sendEff e) := by
  cases e with
  | send port c =>
    cases port with
    | none => exact State.onWire_trans (s.onWire_number c) (State.onWire_route _ _ _)
    | some n =>
      unfold State.sendEff
      dsimp only
      split
      · exact State.onWire_trans (s.onWire_number _) (State.onWire_sendOn _ _ _)
      · exact State.onWire_trans (s.onWire_number _) (State.onWire_route _ _ _)
  | msg q ws => exact State.onWire_of_onRecord (State.onRecord_sendMsg s.onRecord_refl _ _ _)
  | _ => exact s.onWire_refl

theorem State.spares_applyEff (s : State) (e : Effect) : s.spares t at_ (s.applyEff e) := by
  cases e with
  | wellFill n base limit step => exact State.spares_of_eq rfl rfl rfl rfl rfl
  | stream n v => exact State.spares_of_eq rfl rfl rfl rfl rfl
  | count reg lo w n => exact State.spares_of_eq rfl rfl rfl rfl rfl
  | embSwap table addr d => exact State.spares_of_eq rfl rfl rfl rfl rfl
  | send port c => exact State.spares_of_onWire (s.onWire_sendEff (.send port c))
  | msg q ws => exact State.spares_of_onWire (s.onWire_sendEff (.msg q ws))
  | write k bs => exact s.spares_refl
  | fill k n p => exact s.spares_refl
  | work reg lo w n => exact s.spares_refl
  | late => exact s.spares_refl

/-- A commit's writes spare every address that no run reaches. -/
theorem State.spares_putAll (s : State) (ws : List (Nat × List Byte)) (h : ∀ a, at_ a → ∀ w ∈ ws, runAt w a = none) :
    s.spares t at_ (s.putAll ws) where
  serial := by rw [State.putAll_spec]
  cmd := by rw [State.cmd, State.putAll_spec, State.cmd]
  tw := by rw [State.putAll_spec]
  wells rises := by
    refine ⟨by rwa [State.putAll_spec], fun n l hl => ?_⟩
    rwa [State.well, State.putAll_spec] at hl
  bytes hm := by
    refine ⟨State.putAll_wf hm ws, fun a ha => State.byte_putAll hm ws a _ (fun w hw b' hb => ?_) (.inl rfl)⟩
    simp [h a ha w hw] at hb

/-! ## The commit of a command -/

/-- The state with the commit's serial taken (02 R20). -/
def State.serialTaken (s : State) : State := { s with x := { s.x with serial := s.x.serial + 1 } }

/-- A command as its commit leaves it, with its record's first word. -/
def Cmd.committed (c : Cmd) (w0 : Nat) : Cmd :=
  { c with
    st := .committed, record := w0, done := none, reads := [], far := [], tiles := 0, await := [], sheltered := false, kills := 0,
    transKills := 0 }

/-- The first word of the record with which a command commits. -/
def Cmd.word0 (c : Cmd) (status : Nat) : Nat := recordWord status c.attempts c.lastKill (dTag c.words)

/-- The lease that a record tells of: the value drawn, or all ones. -/
def Cmd.leaseWord (c : Cmd) : Nat := match c.lease with
  | some l => l.2
  | none => 2 ^ 64 - 1

/-- The runs of the record with which a command commits (04 R93). -/
def State.recordRuns (s : State) (t : Nat) (c : Cmd) (q : Queue) (status : Nat) (res : List Nat) : List (Nat × List Byte) :=
  s.recordWrites q t (recordWords (c.word0 status) t s.x.serial c.leaseWord res)

/-- A command's record written, the command Committed and its leases consumed. -/
def State.recorded (s : State) (t : Nat) (c : Cmd) (q : Queue) (status : Nat) (res : List Nat) : State :=
  ((s.putAll (s.recordRuns t c q status res)).setCmd t (c.committed (c.word0 status))).consumeLeases (Drawer.isCmd t)

theorem State.recorded_tw (s : State) (t : Nat) (c : Cmd) (q : Queue) (status : Nat) (res : List Nat) :
    (s.recorded t c q status res).tw = s.tw := by
  rw [State.recorded, State.consumeLeases_spec, State.putAll_spec]
  rfl

theorem State.settleLeaving_stays {s : State} {ten : Nat} (h : s.tw.leaving.contains ten = false) : s.settleLeaving ten = s := by
  unfold State.settleLeaving
  rw [h]
  rfl

theorem State.spares_settleLeaving {s u : State} {ten : Nat} (h : s.spares t at_ u) (hs : s.tw.leaving.contains ten = false) :
    s.spares t at_ (u.settleLeaving ten) := by
  rwa [State.settleLeaving_stays (by rwa [h.tw])]

/-- What a commit does once its record is written: holds and operations end, the readers of the granules written are killed, the refusal is
noted, and a slice's overrun and a tenancy's leaving are settled. -/
def State.afterRecord (s : State) (t : Nat) (c : Cmd) (status : Nat) (gs : List Nat) : State :=
  let s := (s.endOps t).unhold (.cmd t)
  let s : State := { s with em := { s.em with released := s.em.released.erase t } }
  let s := s.clash (.cmd t) gs
  let s := if dClass c.words = 0x0B ∧ status = stWellBusy then
    s.raiseAt (R.WEL_ERR_BUSY_FILL (bits (c.body 0) 0 7)) (some c.ten) (bits (c.body 0) 0 7) t else s
  let s := if 1 ≤ status ∧ status < 0x40 then (s.logKind 10 (dClass c.words) 1 status (some c.ten) (dTag c.words) t false).1 else s
  (s.overrun (.cmd t) c.sheltered).settleLeaving c.ten

/-- A commit is its effects, its record, and what follows the record. -/
theorem State.commitCmd_eq {s u : State} {c : Cmd} {d : Done} {status : Nat} {res gs : List Nat} (q : Queue)
    (he : s.serialTaken.effects t c (s.serialTaken.doneNow t c d) = (u, status, res, gs)) :
    s.commitCmd t c q d =
      (u.recorded t c q status res).afterRecord t c status ((gs ++ granulesOf (u.recordRuns t c q status res)).foldl addNew []) := by
  unfold State.commitCmd
  extract_lets _ v d' lease
  have hl : lease = c.leaseWord := rfl
  clear_value lease
  rw [show v.effects t c d' = (u, status, res, gs) from he, hl]
  unfold State.afterRecord State.recorded State.recordRuns Cmd.word0 Cmd.committed
  rfl

/-- What follows the record spares the command, the serial and every address below the scratch banks. -/
theorem State.spares_afterRecord (home : ∀ a, at_ a → a < key 128 0) (s : State) (c : Cmd) (status : Nat) (gs : List Nat)
    (h : s.tw.leaving.contains c.ten = false) : s.spares t at_ (s.afterRecord t c status gs) := by
  unfold State.afterRecord
  extract_lets ended eff released clashed busy noted
  have hreleased : s.spares t at_ released := State.spares_of_eq rfl rfl rfl rfl rfl
  have hclashed : s.spares t at_ clashed := State.spares_trans hreleased (State.spares_clash home _ _)
  have hbusy : s.spares t at_ busy :=
    State.spares_then hclashed (State.spares_of_onRecord (State.onRecord_raiseAt (State.onRecord_refl _) _ _ _ _))
  have hnoted : s.spares t at_ noted :=
    State.spares_then hbusy (State.spares_of_onRecord (State.onRecord_logKind (State.onRecord_refl _) _ _ _ _ _ _ _ _))
  exact State.spares_settleLeaving (State.spares_trans hnoted (State.spares_overrun _ _ _)) h

end

/-! ## The grant of a command (02 R18 to R20, 04 R91 to R94) -/

theorem bytesOf_length (ws : List Nat) : (bytesOf ws).length = 8 * ws.length := by
  have word : ∀ n x, (leBytes n x).length = n := by
    intro n
    induction n with
    | zero => exact fun _ => rfl
    | succ n ih => exact fun x => by rw [leBytes, List.length_cons, ih]
  rw [bytesOf, List.length_flatMap]
  simp [word, Nat.mul_comm]

/-- A record is 64 bytes. -/
theorem recordWords_length (w0 t serial lease : Nat) (res : List Nat) : (bytesOf (recordWords w0 t serial lease res)).length = 64 := by
  rw [bytesOf_length]
  rfl

/-- The effects of a command whose class decides nothing at the commit: its writes, then its other effects. -/
theorem State.effects_of_made {s : State} {t : Nat} {c : Cmd} {d : Done} (h : d.effs.contains .late = false) :
    s.effects t c d = (d.effs.foldl State.applyEff (s.putAll (s.allWrites d.effs)), d.status, d.res,
      granulesOf ((s.allWrites d.effs).filter fun w => w.1 / 2 ^ 56 != spFlash)) := by
  unfold State.effects
  rw [if_neg (by rw [h]; decide)]

section
variable {s : State} {t : Nat} {c : Cmd} {q : Queue} {d : Done}

/-- What a command made ready stands at its commit, where it names no grammar slot and fills no well and nothing that it waited for is void; a
swap's results alone are told anew (17 R456). -/
theorem State.doneNow_stands (hdeps : (dDeps c.words).any s.isVoid = false) (hhalo : s.haloVoid t c = false)
    (hgrm : dClass c.words ≠ 0x05) (hwell : dClass c.words ≠ 0x0B) :
    (s.doneNow t c d).status = d.status ∧ (s.doneNow t c d).effs = d.effs := by
  have hvoid : s.voidDep t c d = d := by simp [State.voidDep, hdeps, hhalo]
  have hbusy : s.fillBusy c d = false := by simp [State.fillBusy, hwell]
  unfold State.doneNow
  simp only [hvoid, hbusy, hgrm, false_and, and_false, if_false, Bool.false_eq_true]
  split <;> exact ⟨rfl, rfl⟩

section
variable (hc : s.cmd t = some c) (hq : s.queue (qOf t) = some q) (hst : c.st = .ready)
include hc hq hst

theorem execCommitGrant_cmd : execCommitGrant (.cmd t) s = .next (s.grantCmd t c q) := by
  simp [execCommitGrant, hc, hq, Cmd.waits, hst]

variable (hd : c.done = some d)
include hd

/-- The first clause of O28: a command that waits for another, for its unit's epoch or in a controlled shutdown is not granted. -/
theorem commitGrant_waits
    (h : s.commitReady t c = false ∨ c.epoch ≠ s.epochOf (dClass c.words) c.unit ∨ s.get R.PWR_STS_SHUTDOWN = 1) :
    exec (.commitGrant (.cmd t)) s = .next s := by
  refine (execCommitGrant_cmd hc hq hst).trans (congrArg Host.Outcome.next ?_)
  have refused : (s.commitState c && s.commitReady t c) = false := by
    rcases h with h | h | h <;> simp [State.commitState, hst, h]
  simp [State.grantCmd, hd, refused]

/-- The second clause of O28: a command that may commit and whose record's page can be written commits. -/
theorem commitGrant_commits (hready : s.commitReady t c = true) (hepoch : c.epoch = s.epochOf (dClass c.words) c.unit)
    (hpower : s.get R.PWR_STS_SHUTDOWN = 0) (hmem : s.pw.absent.contains 5 = false)
    (hpage : ∀ ps, s.access .unit q.ten [] [(q.slot (seqOf t), 64)] ≠ .fault ps) (hgrm : s.grmStale c d = false) (htrim : s.trimAway c = []) :
    exec (.commitGrant (.cmd t)) s = .next (s.commitCmd t c q d) := by
  refine (execCommitGrant_cmd hc hq hst).trans (congrArg Host.Outcome.next ?_)
  have granted : (s.commitState c && s.commitReady t c) = true := by simp [State.commitState, hst, hready, hepoch, hpower]
  unfold State.grantCmd
  simp only [hd, granted, hmem, hgrm, htrim]
  cases ha : s.access .unit q.ten [] [(q.slot (seqOf t), 64)] with
  | fault ps => exact absurd ha (hpage ps)
  | _ => rfl

end

section
variable (hdeps : (dDeps c.words).any s.isVoid = false) (hhalo : s.haloVoid t c = false) (hstay : s.tw.leaving.contains c.ten = false)
  (hgrm : dClass c.words ≠ 0x05) (hwell : dClass c.words ≠ 0x0B) (hlate : d.effs.contains .late = false)

/-- The state in which a command's record is written: its serial taken, its effects made. -/
def State.effectsMade (s : State) (es : List Effect) : State :=
  es.foldl State.applyEff (s.serialTaken.putAll (s.serialTaken.allWrites es))

theorem State.spares_effectsMade (s : State) (t : Nat) (es : List Effect) : s.serialTaken.spares t (fun _ => False) (s.effectsMade es) :=
  State.spares_trans (State.spares_putAll _ _ fun _ h => h.elim) (State.spares_foldl _ _ fun u e _ => u.spares_applyEff e)

include hdeps hhalo hstay hgrm hwell hlate in
/-- A commit spares what its record leaves. -/
theorem State.recorded_spares_commitCmd (q : Queue) (at_ : Nat → Prop) (home : ∀ a, at_ a → a < key 128 0) :
    ∃ res, ((s.effectsMade d.effs).recorded t c q d.status res).spares t at_ (s.commitCmd t c q d) := by
  obtain ⟨hstatus, heffs⟩ : (s.serialTaken.doneNow t c d).status = d.status ∧ (s.serialTaken.doneNow t c d).effs = d.effs :=
    State.doneNow_stands hdeps hhalo hgrm hwell
  have he := State.effects_of_made (s := s.serialTaken) (t := t) (c := c) (d := s.serialTaken.doneNow t c d) (by rw [heffs]; exact hlate)
  rw [hstatus, heffs] at he
  refine ⟨(s.serialTaken.doneNow t c d).res, ?_⟩
  rw [State.commitCmd_eq q he]
  refine State.spares_afterRecord home _ c _ _ ?_
  rw [State.recorded_tw, (s.spares_effectsMade t d.effs).tw]
  exact hstay

end
end

/-! ## What a record leaves -/

section
variable (u : State) (t : Nat) (c : Cmd) (q : Queue) (status : Nat) (res : List Nat)

theorem State.recorded_serial : (u.recorded t c q status res).x.serial = u.x.serial := by
  rw [State.recorded, State.consumeLeases_spec, State.putAll_spec]
  rfl

theorem State.recorded_cmd : (u.recorded t c q status res).cmd t = some (c.committed (c.word0 status)) := by
  rw [State.recorded, State.consumeLeases_cmd, State.cmd_setCmd, if_pos rfl]

/-- No lease of a recorded command is live. -/
theorem State.recorded_live (n : Nat) (l : Lease) (hl : l ∈ ((u.recorded t c q status res).well n).live) : l.drawer ≠ .cmd t := by
  intro hd
  have h := State.consumeLeases_live _ (Drawer.isCmd t) n l hl
  simp [hd, Drawer.isCmd] at h

theorem State.recorded_wells (rises : tabAbove 0 u.x.wells = true) : tabAbove 0 (u.recorded t c q status res).x.wells = true := by
  refine ((State.spares_consumeLeases (t := t) (at_ := fun _ => False) _ _).wells ?_).1
  rw [State.putAll_spec]
  exact rises

theorem State.recorded_mem : (u.recorded t c q status res).mem = (u.putAll (u.recordRuns t c q status res)).mem := by
  rw [State.recorded, State.consumeLeases_mem, State.setCmd_mem]

/-- A byte outside a command's slot of its completion ring is as before its record. -/
theorem State.byte_recorded (hm : memWf u.mem = true) (a : Nat) (h : ∀ i, i < 64 → u.dkey q.ten (q.slot (seqOf t) + i) ≠ a) :
    (u.recorded t c q status res).byte a = u.byte a := by
  rw [State.byte, State.recorded_mem]
  refine State.byte_putAll hm _ a _ (fun w hw b' hb => ?_) (.inl rfl)
  obtain ⟨i, -, hi, ha⟩ := State.of_runAt_spread hw hb
  rw [recordWords_length] at hi
  exact absurd ha.symm (h i hi)

end

/-! ## One write made at a commit -/

section
variable {s : State} {ten va : Nat} {bs : List Byte} (hten : ten < 64) (hva : va + bs.length ≤ cwVa)
include hten hva

/-- A write of a tenancy's range is made where its pages lie. -/
theorem State.allWrites_write : s.allWrites [.write (key ten va) bs] = s.spread ten va bs := by
  have hspace : key ten va / 2 ^ 56 = ten := by
    unfold key
    unfold cwVa at hva
    omega
  have hoff : key ten va % 2 ^ 56 = va := by
    unfold key
    unfold cwVa at hva
    omega
  have write : s.effWrites (key ten va) bs = s.spread ten va bs := by rw [State.effWrites, hspace, hoff, if_pos hten]
  simp [State.allWrites, write]

/-- A byte of the range lies below the scratch banks. -/
theorem State.dkey_home {i : Nat} (hi : i < bs.length) : s.dkey ten (va + i) < key 128 0 := by
  unfold cwVa at hva
  rcases s.dkey_space ten (va + i) with h | h <;> rw [h] <;> unfold key
  · omega
  · unfold spModule
    omega

/-- After the write each byte of the range reads as the run's. -/
theorem State.byte_effectsMade_write (hm : memWf s.mem = true) {i : Nat} (hi : i < bs.length) :
    (s.effectsMade [.write (key ten va) bs]).byte (s.dkey ten (va + i)) = bs.getD i 0 := by
  have made : s.effectsMade [.write (key ten va) bs] = s.serialTaken.putAll (s.serialTaken.spread ten va bs) :=
    congrArg s.serialTaken.putAll (State.allWrites_write hten hva)
  rw [made]
  refine State.byte_putAll (s := s.serialTaken) hm _ _ _ (fun w hw b hb => ?_) (.inr ?_)
  · obtain ⟨j, hb, hj, same⟩ := State.of_runAt_spread hw hb
    have hij : va + i = va + j := by
      unfold cwVa at hva
      exact s.dkey_inj ten (by omega) (by omega) same
    obtain rfl : i = j := Nat.add_left_cancel hij
    rw [List.getD_eq_getElem?_getD, hb, Option.getD_some]
  · obtain ⟨w, hw, h⟩ := s.serialTaken.exists_runAt_spread ten va bs hi
    exact ⟨w, hw, h.trans (by simp [hi])⟩

end

/-! ## A granted commit, where each well is listed once -/

/-- The third clause of O28 holds of every state whose table of wells is in rising order, an order that the empty table has and `tset` keeps
(`tabAbove_tset`): the refutation below rests on a table without it. -/
theorem commitGrant_commitsOnce_of_wells_rise {s : State} {t : Nat} {c : Cmd} {q : Queue} {d : Done}
    (rises : tabAbove 0 s.x.wells = true) (hc : s.cmd t = some c) (hq : s.queue (qOf t) = some q) (hd : c.done = some d)
    (hst : c.st = .ready) (hready : s.commitReady t c = true) (hepoch : c.epoch = s.epochOf (dClass c.words) c.unit)
    (hpower : s.get R.PWR_STS_SHUTDOWN = 0) (hmem : s.pw.absent.contains 5 = false)
    (hpage : ∀ ps, s.access .unit q.ten [] [(q.slot (seqOf t), 64)] ≠ .fault ps) (hdeps : (dDeps c.words).any s.isVoid = false)
    (hhalo : s.haloVoid t c = false) (hstay : s.tw.leaving.contains c.ten = false) (hgrm : dClass c.words ≠ 0x05)
    (hwell : dClass c.words ≠ 0x0B) (htrim : s.trimAway c = []) (hlate : d.effs.contains .late = false) :
    ∃ u m, exec (.commitGrant (.cmd t)) s = .next u ∧ u.x.serial = s.x.serial + 1 ∧ u.cmd t = some m ∧ m.st = .committed ∧
      m.record = 1 + d.status * 2 ^ 8 + c.attempts * 2 ^ 16 + c.lastKill * 2 ^ 24 + dTag c.words * 2 ^ 32 ∧ m.done = none ∧
      m.kills = 0 ∧ m.sheltered = false ∧ m.words = c.words ∧ (∀ n l, l ∈ (u.well n).live → l.drawer ≠ .cmd t) ∧
      (∀ va bs, d.effs = [.write (key c.ten va) bs] → c.ten < 64 → memWf s.mem = true → va + bs.length ≤ cwVa →
        (∀ i, i < 64 → ∀ j, j < bs.length → s.dkey q.ten (q.slot (seqOf t) + i) ≠ s.dkey c.ten (va + j)) →
        ∀ i, i < bs.length → u.byte (s.dkey c.ten (va + i)) = bs.getD i 0) := by
  have hslot : s.grmStale c d = false := by simp [State.grmStale, hgrm]
  have spared := State.recorded_spares_commitCmd hdeps hhalo hstay hgrm hwell hlate q
  obtain ⟨res, h⟩ := spared (fun _ => False) fun _ h => h.elim
  refine ⟨_, _, commitGrant_commits hc hq hst hd hready hepoch hpower hmem hpage hslot htrim, ?_,
    h.cmd.trans (State.recorded_cmd _ t c q _ res), rfl, rfl, rfl, rfl, rfl, rfl, fun n l hl => ?_, ?_⟩
  · rw [h.serial, State.recorded_serial, (s.spares_effectsMade t d.effs).serial]
    rfl
  · have hrises := State.recorded_wells _ t c q d.status res ((s.spares_effectsMade t d.effs).wells rises).1
    exact State.recorded_live _ t c q _ res n l ((h.wells hrises).2 n l hl)
  · intro va bs heffs hten hm hva hapart i hi
    obtain ⟨res, h⟩ := spared (fun a => a = s.dkey c.ten (va + i)) fun _ ha => ha ▸ State.dkey_home hten hva hi
    have hm' := ((s.spares_effectsMade t d.effs).bytes hm).1
    have hmade : ∀ a, (s.effectsMade d.effs).dkey q.ten a = s.dkey q.ten a := fun a => by
      rw [heffs]
      exact s.serialTaken.dkey_putAll _ q.ten a
    have hrec : memWf ((s.effectsMade d.effs).recorded t c q d.status res).mem = true := by
      rw [State.recorded_mem]
      exact State.putAll_wf hm' _
    have houtside : ∀ j, j < 64 → (s.effectsMade d.effs).dkey q.ten (q.slot (seqOf t) + j) ≠ s.dkey c.ten (va + i) := fun j hj => by
      rw [hmade]
      exact hapart j hj i hi
    rw [(h.bytes hrec).2 _ rfl, State.byte_recorded _ t c q _ res hm' _ houtside, heffs]
    exact State.byte_effectsMade_write hten hva hm hi

/-! ## The obligations -/

/-- Settles O1: the step runs exec of the front command by its definition. -/
theorem stepRunsFrontCommand : Obligations.StepRunsFrontCommand := fun _ _ _ => rfl

/-- Settles O26, clause by clause from what `killCmd` and the rerun rows do in each case. -/
theorem killsDiscardAndRerunsIssueAgain : Obligations.KillsDiscardAndRerunsIssueAgain := by
  intro s t c hc safe
  refine ⟨fun k h => ?beyond, fun k hs hk => ?sheltered, fun k h hst hk hs => ?kill, fun h => ?abort, execKillComplete_cmd hc,
    fun hst hd hp hk hr => execCommandRerun_cmd hc hst hd hp hk hr, fun hd => execCommandRerun_discarding hc hd,
    fun hst hd hk hl => execFaultResolvedRerun_cmd hc hst hd hk hl, fun _ hl => execFaultResolvedRerun_unresolved hc hl,
    s.listDone_nil⟩
  case beyond => exact congrArg Host.Outcome.next (State.killCmd_beyond hc h k)
  case sheltered => exact congrArg Host.Outcome.next (State.killCmd_sheltered hc hs hk)
  case kill =>
    obtain ⟨hcmd, hmem, hcores, hlive⟩ := State.killCmd_kills hc h hst hk hs
    exact ⟨_, _, rfl, hcmd, rfl, rfl, rfl, rfl, rfl, rfl, rfl, rfl, rfl, rfl, rfl, rfl, rfl, rfl, hmem, hcores, hlive⟩
  case abort =>
    have e : exec (.commandKill (.cmd t) .streamAbort) s = .next ((s.discard t).setCmd t c.aborted) :=
      congrArg Host.Outcome.next (State.killCmd_abort hc h)
    exact ⟨_, _, e, by rw [State.cmd_setCmd, if_pos rfl], rfl, rfl, by simp⟩

/-! ## A commit that leaves its lease live -/

/-- A Ready `cart.copy` whose effects are made: ticket 0. -/
def readyCopy : Cmd := { words := [0x1030501, 0, 0, 64, 4], st := .ready, done := some ⟨0, [], []⟩ }

/-- A Running command that has read the granule of the record of ticket 0: ticket 1. -/
def recordReader : Cmd := { words := [0x1030501, 0, 0, 64, 4], st := .running, reads := [96] }

/-- The queue of both. -/
def copyQueue : Queue := ⟨0, 0, 3, [0], 0x600000, 64, 4⟩

/-- A state that lists well 0 twice, the second time with a lease of either ticket. -/
def wellListedTwice : State :=
  { x := {
      queues := [(0, copyQueue)], cmds := [(0, readyCopy), (1, recordReader)],
      wells := [(0, {}), (0, { live := [⟨5, .cmd 0, 0, 0⟩, ⟨6, .cmd 1, 0, 0⟩] })] } }

/-- The commit consumes the lease of ticket 0 in the entry that counts; the reader that its record kills returns its own lease from the
other entry, and with it the lease of ticket 0 stands again. -/
theorem commitGrant_wellListedTwice :
    ∃ u, exec (.commitGrant (.cmd 0)) wellListedTwice = .next u ∧ (u.well 0).live = [⟨5, .cmd 0, 0, 0⟩] :=
  ⟨_, rfl, by decide +kernel⟩

/-- Refutes O28: the third clause asks of every state that no lease of the committed command stay live, also of one whose table of wells lists a
well twice; with the table in rising order it holds (`commitGrant_commitsOnce_of_wells_rise`). -/
theorem not_commitGrantCommitsOnce : ¬ Obligations.CommitGrantCommitsOnce := by
  intro h
  obtain ⟨-, -, commits⟩ := h wellListedTwice 0 readyCopy copyQueue ⟨0, [], []⟩ rfl rfl rfl rfl
  have access : wellListedTwice.access .unit 0 [] [(copyQueue.slot 0, 64)] = .prot := by decide +kernel
  obtain ⟨u, m, hu, -, -, -, -, -, -, -, -, hlive, -⟩ :=
    commits (by decide +kernel) rfl (by decide +kernel) rfl (fun _ e => AccRes.noConfusion (access.symm.trans e)) (by decide +kernel)
      (by decide +kernel) rfl (by decide +kernel)
  obtain ⟨u', hu', hl⟩ := commitGrant_wellListedTwice
  obtain rfl : u = u' := by simpa using hu.symm.trans hu'
  exact hlive 0 ⟨5, .cmd 0, 0, 0⟩ (by simp [hl]) rfl

end Sys2Proof.Machine
end

section
/-!
PROOFS. The encoding of a core's instructions (03 R59, R60): the fields of a packed word, the codes of each table, the round trip.
-/

namespace Sys2Proof
open BitVec (extractLsb'_append_eq_left extractLsb'_append_eq_right extractLsb'_append_eq_of_le extractLsb'_append_eq_of_add_le)

/-! ## The fields of a packed word (03 Table 3.2) -/

section
variable (major : BitVec 6) (d a b : Reg) (low : BitVec 11)

@[simp] theorem majorOf_packA : majorOf (packA major d a b low) = major.toNat := by
  rw [majorOf, packA, extractLsb'_append_eq_of_le (by omega), extractLsb'_append_eq_of_le (by omega),
    extractLsb'_append_eq_of_le (by omega), extractLsb'_append_eq_left]

@[simp] theorem extractLsb'_packA_d : (packA major d a b low).extractLsb' 21 5 = d := by
  rw [packA, extractLsb'_append_eq_of_le (by omega), extractLsb'_append_eq_of_le (by omega),
    extractLsb'_append_eq_of_le (by omega), extractLsb'_append_eq_right]

@[simp] theorem extractLsb'_packA_a : (packA major d a b low).extractLsb' 16 5 = a := by
  rw [packA, extractLsb'_append_eq_of_le (by omega), extractLsb'_append_eq_of_le (by omega), extractLsb'_append_eq_right]

@[simp] theorem extractLsb'_packA_b : (packA major d a b low).extractLsb' 11 5 = b := by
  rw [packA, extractLsb'_append_eq_of_le (by omega), extractLsb'_append_eq_right]

@[simp] theorem extractLsb'_packA_low (len : Nat) (h : len ≤ 11) : (packA major d a b low).extractLsb' 0 len = low.extractLsb' 0 len := by
  rw [packA, extractLsb'_append_eq_of_add_le (by omega)]

end

section
variable (major : BitVec 6) (d a : Reg) (i : BitVec 16)

@[simp] theorem majorOf_packI : majorOf (packI major d a i) = major.toNat := by
  rw [majorOf, packI, extractLsb'_append_eq_of_le (by omega), extractLsb'_append_eq_of_le (by omega), extractLsb'_append_eq_left]

@[simp] theorem extractLsb'_packI_d : (packI major d a i).extractLsb' 21 5 = d := by
  rw [packI, extractLsb'_append_eq_of_le (by omega), extractLsb'_append_eq_of_le (by omega), extractLsb'_append_eq_right]

@[simp] theorem extractLsb'_packI_a : (packI major d a i).extractLsb' 16 5 = a := by
  rw [packI, extractLsb'_append_eq_of_le (by omega), extractLsb'_append_eq_right]

@[simp] theorem extractLsb'_packI_i : (packI major d a i).extractLsb' 0 16 = i := by
  rw [packI, extractLsb'_append_eq_right]

end

section
variable (major : BitVec 6) (r base : Reg) (sp : Space) (off : BitVec 14)

@[simp] theorem majorOf_packM : majorOf (packM major r base sp off) = major.toNat := by
  rw [majorOf, packM, extractLsb'_append_eq_of_le (by omega), extractLsb'_append_eq_of_le (by omega),
    extractLsb'_append_eq_of_le (by omega), extractLsb'_append_eq_left]

@[simp] theorem extractLsb'_packM_r : (packM major r base sp off).extractLsb' 21 5 = r := by
  rw [packM, extractLsb'_append_eq_of_le (by omega), extractLsb'_append_eq_of_le (by omega),
    extractLsb'_append_eq_of_le (by omega), extractLsb'_append_eq_right]

@[simp] theorem extractLsb'_packM_base : (packM major r base sp off).extractLsb' 16 5 = base := by
  rw [packM, extractLsb'_append_eq_of_le (by omega), extractLsb'_append_eq_of_le (by omega), extractLsb'_append_eq_right]

@[simp] theorem extractLsb'_packM_space : (packM major r base sp off).extractLsb' 14 2 = sp.code := by
  rw [packM, extractLsb'_append_eq_of_le (by omega), extractLsb'_append_eq_right]

@[simp] theorem extractLsb'_packM_off : (packM major r base sp off).extractLsb' 0 14 = off := by
  rw [packM, extractLsb'_append_eq_right]

end

section
variable (major : BitVec 6) (vd va vb : Reg) (m : BitVec 3) (t : ETy) (minor : BitVec 4)

@[simp] theorem majorOf_packV : majorOf (packV major vd va vb m t minor) = major.toNat := by
  rw [majorOf, packV, extractLsb'_append_eq_of_le (by omega), extractLsb'_append_eq_of_le (by omega),
    extractLsb'_append_eq_of_le (by omega), extractLsb'_append_eq_of_le (by omega), extractLsb'_append_eq_of_le (by omega),
    extractLsb'_append_eq_left]

/-- A field of vd, or the low bits of it. -/
@[simp] theorem extractLsb'_packV_vd (len : Nat) (h : len ≤ 5) :
    (packV major vd va vb m t minor).extractLsb' 21 len = vd.extractLsb' 0 len := by
  rw [packV, extractLsb'_append_eq_of_le (by omega), extractLsb'_append_eq_of_le (by omega),
    extractLsb'_append_eq_of_le (by omega), extractLsb'_append_eq_of_le (by omega), extractLsb'_append_eq_of_le (by omega),
    extractLsb'_append_eq_of_add_le (by omega)]

@[simp] theorem extractLsb'_packV_va (len : Nat) (h : len ≤ 5) :
    (packV major vd va vb m t minor).extractLsb' 16 len = va.extractLsb' 0 len := by
  rw [packV, extractLsb'_append_eq_of_le (by omega), extractLsb'_append_eq_of_le (by omega),
    extractLsb'_append_eq_of_le (by omega), extractLsb'_append_eq_of_le (by omega), extractLsb'_append_eq_of_add_le (by omega)]

@[simp] theorem extractLsb'_packV_vb (len : Nat) (h : len ≤ 5) :
    (packV major vd va vb m t minor).extractLsb' 11 len = vb.extractLsb' 0 len := by
  rw [packV, extractLsb'_append_eq_of_le (by omega), extractLsb'_append_eq_of_le (by omega),
    extractLsb'_append_eq_of_le (by omega), extractLsb'_append_eq_of_add_le (by omega)]

@[simp] theorem extractLsb'_packV_m : (packV major vd va vb m t minor).extractLsb' 8 3 = m := by
  rw [packV, extractLsb'_append_eq_of_le (by omega), extractLsb'_append_eq_of_le (by omega), extractLsb'_append_eq_right]

@[simp] theorem extractLsb'_packV_t : (packV major vd va vb m t minor).extractLsb' 4 4 = t.code := by
  rw [packV, extractLsb'_append_eq_of_le (by omega), extractLsb'_append_eq_right]

@[simp] theorem extractLsb'_packV_minor : (packV major vd va vb m t minor).extractLsb' 0 4 = minor := by
  rw [packV, extractLsb'_append_eq_right]

end

/-! ## Codes of fields (03 Tables 3.3 to 3.8) -/

@[simp] theorem ETy.ofCode_code (t : ETy) : ETy.ofCode t.code.toNat = some t := by cases t <;> rfl
@[simp] theorem Space.ofCode_code (sp : Space) : Space.ofCode sp.code.toNat = some sp := by cases sp <;> rfl
@[simp] theorem IntFn.ofMinor_minor (f : IntFn) : IntFn.ofMinor f.minor.toNat = some f := by cases f <;> rfl
@[simp] theorem VopFn.ofMinor_minor (f : VopFn) : VopFn.ofMinor f.minor.toNat = f := by cases f <;> rfl
@[simp] theorem RedFn.ofMinor_minor (f : RedFn) : RedFn.ofMinor f.minor.toNat = some f := by cases f <;> rfl
@[simp] theorem PermFn.ofMinor_minor (f : PermFn) : PermFn.ofMinor f.minor.toNat = some f := by cases f <;> rfl
@[simp] theorem CmpFn.ofMinor_minor (f : CmpFn) : CmpFn.ofMinor f.minor.toNat = some f := by cases f <;> rfl
@[simp] theorem MskFn.ofMinor_minor (f : MskFn) : MskFn.ofMinor f.minor.toNat = some f := by cases f <;> rfl

/-- A field's low bits, where the field holds a narrower one (format V's mask registers). -/
theorem extractLsb'_zeroExtend {n w : Nat} (x : BitVec n) (h : n ≤ w) : (x.zeroExtend w).extractLsb' 0 n = x := by
  rw [← BitVec.setWidth_eq_extractLsb' h, BitVec.zeroExtend, BitVec.setWidth_setWidth_of_le _ h, BitVec.setWidth_eq]

theorem majorOf_append (major : BitVec 6) (low : BitVec 26) : majorOf (major ++ low) = major.toNat := by
  rw [majorOf, extractLsb'_append_eq_left]

theorem extractLsb'_append_low (major : BitVec 6) (low : BitVec 26) : (major ++ low : BitVec 32).extractLsb' 0 26 = low :=
  extractLsb'_append_eq_right

/-! ## The obligation -/

/-- Settles O11, instruction by instruction: the decoder reads back the fields that the encoder packed. -/
theorem coreEncodingRoundTrips : Obligations.CoreEncodingRoundTrips := by
  intro op h
  cases op with
  | int f d a b =>
    simp [encodeCore, decodeCore, orIllegal, extractLsb'_zeroExtend]
  | imm f d a i => cases f <;> simp [encodeCore, decodeCore, ImmFn.major]
  | movl d i => simpa [encodeCore, decodeCore] using BitVec.extractLsb'_append_extractLsb' (w := 16) (len := 32) (x := i)
  | ld f d b sp o => cases f <;> simp [encodeCore, decodeCore, decodeMem, LdFn.major, orIllegal]
  | st f s b sp o => cases f <;> simp [encodeCore, decodeCore, decodeMem, StFn.major, orIllegal]
  | vld d b sp o | vst s b sp o | touch b sp o => simp [encodeCore, decodeCore, decodeMem, orIllegal]
  | br f a b o => cases f <;> simp [encodeCore, decodeCore, BrFn.major]
  | call o => simp [encodeCore, decodeCore, majorOf_append, extractLsb'_append_low]
  | jr d a => simp [encodeCore, decodeCore]
  | vop f t m vd va vb | vred f t m vd va | vcmp f t m md va vb =>
    simp only [CoreOp.wf] at h
    simp [encodeCore, decodeCore, decodeVec, orIllegal, h, extractLsb'_zeroExtend]
  | vcvt src dst m vd va => simp [encodeCore, decodeCore, decodeVec, orIllegal]
  | vperm f t m vd va vb => simp [encodeCore, decodeCore, decodeVec, orIllegal]
  | vmsk f t d ma mb => simp [encodeCore, decodeCore, decodeVec, orIllegal, extractLsb'_zeroExtend]
  | issue | wait | waitAll | abort | draw | bar | commit | halt | sysRd | sysWr | sysBreak =>
    simp [encodeCore, decodeCore, decodeSys]
  | illegal => decide

end Sys2Proof
end

section
/-!
PROOFS. A core's instructions (03 R59 to R62, R72, R79): what a row does with the instruction it fetches, the scalar computations, the branches.
-/

namespace Sys2Proof.Machine
open Sys2Proof.Claims

/-! ## A row that runs its instruction (03 R53, R59) -/

section
variable {s : State} {c : Nat} {op : CoreOp} (h : runs s c op = true)
include h

/-- A core that runs an instruction is one of the module's, can step, fetches it, and has room for it in its turn. -/
theorem of_runs : c < 256 ∧ s.canStep c = true ∧ (s.core c).fetch = some op ∧
    ∃ t, (s.core c).turn = some t ∧ t.retired < retireMax := by
  simp only [runs, Bool.and_eq_true, decide_eq_true_eq, beq_iff_eq] at h
  obtain ⟨⟨⟨hc, hstep⟩, hfetch⟩, hroom⟩ := h
  split at hroom
  next t ht => exact ⟨hc, hstep, hfetch, t, ht, of_decide_eq_true hroom⟩
  next => exact absurd hroom (by decide)

theorem coreRow_of_runs {act : CoreOp → Option (State → State)} {f : State → State} (ha : act op = some f) :
    s.coreRow c act = .next (f s) := by
  obtain ⟨hc, hstep, hfetch, -⟩ := of_runs h
  rw [State.coreRow_run s c act op hc hstep hfetch, ha, Option.getD_some]

theorem inRoom_of_runs (f : State → State) : s.inRoom c (fun _ => false) f = f s := by
  obtain ⟨-, -, -, t, ht, hr⟩ := of_runs h
  exact State.inRoom_roomy s c _ f t ht rfl hr

/-- An instruction that asks no more than its room in the turn is carried out there. -/
theorem coreRow_inRoom {act : CoreOp → Option (State → State)} {f : State → State}
    (ha : act op = some fun s => s.inRoom c (fun _ => false) f) : s.coreRow c act = .next (f s) :=
  (coreRow_of_runs h ha).trans (congrArg Host.Outcome.next (inRoom_of_runs h f))

/-- An instruction that changes only registers leaves the core a step on. -/
theorem coreRow_compute {act : CoreOp → Option (State → State)} {f : Core → Core} (ha : act op = some (State.compute c f)) :
    s.coreRow c act = .next (s.setCore c (stepped (f (s.core c)))) :=
  coreRow_inRoom h ha

end

/-! ## Immediate instructions (03 R60) -/

theorem immRow_of_runs {s : State} {c : Nat} {f : ImmFn} {d a : Reg} {i : BitVec 16} (h : runs s c (.imm f d a i) = true) :
    immRow c f s = .next (s.setCore c (stepped ((s.core c).wr d (immFn f ((s.core c).rd a) i)))) :=
  coreRow_compute (f := fun k => k.wr d (immFn f (k.rd a) i)) h (if_pos rfl)

theorem execMovL_of_runs {s : State} {c : Nat} {d : Reg} {i : BitVec 48} (h : runs s c (.movl d i) = true) :
    execMovL c s = .next (s.setCore c (wentOn ((s.core c).wr d (i.signExtend 64)) ((s.core c).pc + 2))) :=
  (coreRow_inRoom h rfl).trans rfl

theorem execMemTouch_of_runs {s : State} {c : Nat} {b : Reg} {sp : Space} {off : BitVec 14} (h : runs s c (.touch b sp off) = true) :
    execMemTouch c s = .next (s.setCore c (stepped (s.core c))) :=
  coreRow_compute (f := id) h rfl

theorem bool1_eq (b : Bool) : bool1 b = if b = true then 1 else 0 := rfl

/-- A comparison with a sign-extended immediate compares the signed values. -/
theorem immFn_slti (a : Word) (i : BitVec 16) : immFn .slti a i = if a.toInt < i.toInt then 1 else 0 := by
  simp [immFn, bool1_eq, BitVec.slt, BitVec.toInt_signExtend_of_le]

/-- A comparison with a zero-extended immediate compares the unsigned values. -/
theorem immFn_sltui (a : Word) (i : BitVec 16) : immFn .sltui a i = if a.toNat < i.toNat then 1 else 0 := by
  have hi : i.toNat % 2 ^ 64 = i.toNat := Nat.mod_eq_of_lt (by omega)
  simp only [immFn, bool1_eq, BitVec.ult, BitVec.toNat_setWidth, hi, decide_eq_true_eq]

/-- Settles O5: an immediate row computes `immFn`, and the two comparisons are those of the values. -/
theorem immediateInstructionsWriteTheirResult : Obligations.ImmediateInstructionsWriteTheirResult := by
  refine ⟨fun s c d a i => ⟨fun h => immRow_of_runs h, fun h => immRow_of_runs h, fun h => immRow_of_runs h, fun h => immRow_of_runs h,
    fun h => ?slti, fun h => ?sltui, fun h => immRow_of_runs h, fun h => immRow_of_runs h, fun h => immRow_of_runs h,
    fun h => immRow_of_runs h⟩, fun s c d i h => execMovL_of_runs h, fun s c b sp off h => execMemTouch_of_runs h⟩
  case slti =>
    rw [← immFn_slti]
    exact immRow_of_runs h
  case sltui =>
    rw [← immFn_sltui]
    exact immRow_of_runs h

/-! ## Integer minors (03 R61, Table 3.4) -/

theorem execIntRegOp_of_runs {s : State} {c : Nat} {f : IntFn} {d a b : Reg} (h : runs s c (.int f d a b) = true) :
    execIntRegOp c s = .next (s.setCore c (stepped ((s.core c).wr d (intFn f ((s.core c).rd a) ((s.core c).rd b))))) :=
  coreRow_compute (f := fun k => k.wr d (intFn f (k.rd a) (k.rd b))) h rfl

section
variable (a b : Word)

theorem toNat_intFn_sub : (intFn .sub a b).toNat = (a.toNat + 2 ^ 64 - b.toNat) % 2 ^ 64 := by
  rw [intFn, BitVec.toNat_sub]
  omega

theorem toNat_intFn_mulhu : (intFn .mulhu a b).toNat = a.toNat * b.toNat / 2 ^ 64 := by
  rw [intFn, BitVec.toNat_ofNat]
  exact Nat.mod_eq_of_lt (Nat.div_lt_of_lt_mul (Nat.mul_lt_mul'' a.isLt b.isLt))

/-- The high half of a signed product is a word: a product's magnitude is at most 2^126. -/
theorem toInt_intFn_mulh : (intFn .mulh a b).toInt = a.toInt * b.toInt / 2 ^ 64 := by
  have magnitude : (a.toInt * b.toInt).natAbs ≤ 2 ^ 63 * 2 ^ 63 := by
    rw [Int.natAbs_mul]
    have ha := a.le_toInt; have ha' := a.toInt_lt
    have hb := b.le_toInt; have hb' := b.toInt_lt
    exact Nat.mul_le_mul (by omega) (by omega)
  rw [intFn]
  exact BitVec.toInt_ofInt_eq_self (by decide) (by omega) (by omega)

section
variable (hb : b ≠ 0)
include hb

/-- Truncated division gives a word but for -2^63 by -1. -/
theorem toInt_intFn_div (h : ¬ (a.toInt = -2 ^ 63 ∧ b.toInt = -1)) : (intFn .div a b).toInt = a.toInt.tdiv b.toInt := by
  have apart : a ≠ BitVec.intMin 64 ∨ b ≠ -1#64 := by
    by_contra both
    push Not at both
    exact h (by rw [both.1, both.2]; decide)
  rw [intFn, if_neg hb, ← BitVec.toInt_sdiv_of_ne_or_ne a b apart, BitVec.ofInt_toInt]

theorem toInt_intFn_rem : (intFn .rem a b).toInt = a.toInt.tmod b.toInt := by
  rw [intFn, if_neg hb, ← BitVec.toInt_srem, BitVec.ofInt_toInt]

theorem toNat_intFn_divu : (intFn .divu a b).toNat = a.toNat / b.toNat := by
  rw [intFn, if_neg hb, BitVec.toNat_udiv]

theorem toNat_intFn_remu : (intFn .remu a b).toNat = a.toNat % b.toNat := by
  rw [intFn, if_neg hb, BitVec.toNat_umod]

end

theorem toInt_intFn_min : (intFn .min a b).toInt = min a.toInt b.toInt := by
  simp only [intFn, BitVec.slt, decide_eq_true_eq]
  split <;> omega

theorem toInt_intFn_max : (intFn .max a b).toInt = max a.toInt b.toInt := by
  simp only [intFn, BitVec.slt, decide_eq_true_eq]
  split <;> omega

theorem intFn_slt : intFn .slt a b = if a.toInt < b.toInt then 1 else 0 := by
  simp only [intFn, bool1_eq, BitVec.slt, decide_eq_true_eq]

theorem intFn_sltu : intFn .sltu a b = if a.toNat < b.toNat then 1 else 0 := by
  simp only [intFn, bool1_eq, BitVec.ult, decide_eq_true_eq]

end

/-- Settles O6: the row computes `intFn`, whose minors are the operations on the words' values. -/
theorem integerArithmeticWrapsWithoutException : Obligations.IntegerArithmeticWrapsWithoutException := by
  refine ⟨⟨fun s c f d a b h => execIntRegOp_of_runs h, fun a b => ?wraps, fun a => ?byZero, by decide, by decide⟩, fun a b => ?values⟩
  case wraps => exact ⟨BitVec.toNat_add a b, toNat_intFn_sub a b, BitVec.toNat_mul a b⟩
  case byZero => simp [intFn]
  case values =>
    exact ⟨rfl, rfl, rfl, rfl, rfl, rfl, toNat_intFn_mulhu a b, toInt_intFn_mulh a b,
      fun hb => ⟨toNat_intFn_divu a b hb, toNat_intFn_remu a b hb⟩,
      fun hb h => ⟨toInt_intFn_div a b hb h, toInt_intFn_rem a b hb⟩,
      toInt_intFn_min a b, toInt_intFn_max a b, intFn_slt a b, intFn_sltu a b⟩

/-! ## Branches (03 R62) -/

section
variable {s : State} {c : Nat}

theorem execBrCompare_of_runs {f : BrFn} {a b : Reg} {off : BitVec 16} (h : runs s c (.br f a b off) = true) :
    execBrCompare c s = .next (s.setCore c (wentOn (s.core c)
      (if brFn f ((s.core c).rd a) ((s.core c).rd b) then (s.core c).pc + off.signExtend 64 else (s.core c).pc + 1))) :=
  (coreRow_inRoom h rfl).trans rfl

theorem execBrCall_of_runs {off : BitVec 26} (h : runs s c (.call off) = true) :
    execBrCall c s = .next (s.setCore c (wentOn ((s.core c).wr 31 ((s.core c).pc + 1)) ((s.core c).pc + off.signExtend 64))) :=
  (coreRow_inRoom h rfl).trans rfl

theorem execBrJr_of_runs {d a : Reg} (h : runs s c (.jr d a) = true) :
    execBrJr c s = .next (s.setCore c (wentOn ((s.core c).wr d ((s.core c).pc + 1)) ((s.core c).rd a))) :=
  (coreRow_inRoom h rfl).trans rfl

end

/-- A fetch at or past the end of the instruction store gives nothing. -/
theorem Core.fetch_outside {k : Core} (h : 16384 ≤ k.pc.toNat) : k.fetch = none := if_pos h

/-- Settles O7: `brFn` compares the registers' values, and a row whose fetch gives nothing raises FETCH_RANGE. -/
theorem branchesGoWhereTheyName : Obligations.BranchesGoWhereTheyName := by
  intro s c k
  refine ⟨fun f a b off h => ?branch, fun off h => execBrCall_of_runs h, fun d a h => execBrJr_of_runs h, fun hc hstep hpc => ?outside⟩
  case branch =>
    refine (execBrCompare_of_runs h).trans ?_
    cases f <;> simp [brFn, BitVec.slt, BitVec.ult, k]
  case outside =>
    have leaves := fun act => State.coreRow_fetchRange s c act hc hstep (Core.fetch_outside hpc)
    exact ⟨leaves _, leaves _, leaves _⟩

end Sys2Proof.Machine
end

section
/-!
PROOFS. A core's vector instructions (03 R66 to R71): the elements of a register, the bits of a mask, one element's value, reductions.
-/

namespace Sys2Proof.Machine
open Sys2Proof.Claims

/-! ## Numbers made of fields -/

/-- The number whose fields of w bits, from the lowest, are the low bits of f 0, f 1, ... -/
def fieldSum (w n : Nat) (f : Nat → Nat) : Nat := lsum ((List.range n).map fun i => f i % 2 ^ w * 2 ^ (i * w))

theorem lsum_eq_sum (l : List Nat) : lsum l = l.sum := List.sum_eq_foldl.symm

theorem fieldSum_succ (w n : Nat) (f : Nat → Nat) : fieldSum w (n + 1) f = fieldSum w n f + f n % 2 ^ w * 2 ^ (n * w) := by
  simp [fieldSum, lsum_eq_sum, List.range_succ]

theorem fieldSum_lt (w n : Nat) (f : Nat → Nat) : fieldSum w n f < 2 ^ (n * w) := by
  induction n with
  | zero => simp [fieldSum, lsum]
  | succ n ih =>
    have hf : f n % 2 ^ w + 1 ≤ 2 ^ w := Nat.mod_lt _ (Nat.two_pow_pos w)
    calc
      fieldSum w (n + 1) f < 2 ^ (n * w) + f n % 2 ^ w * 2 ^ (n * w) := by rw [fieldSum_succ]; omega
      _ = (f n % 2 ^ w + 1) * 2 ^ (n * w) := by ring
      _ ≤ 2 ^ w * 2 ^ (n * w) := Nat.mul_le_mul_right _ hf
      _ = 2 ^ ((n + 1) * w) := by rw [← Nat.pow_add]; congr 1; ring

/-- Each field reads back as the low bits of its value. -/
theorem bits_fieldSum (w : Nat) (f : Nat → Nat) {i n : Nat} (hi : i < n) : bits (fieldSum w n f) (i * w) w = f i % 2 ^ w := by
  induction n with
  | zero => omega
  | succ n ih =>
    rw [fieldSum_succ, bits]
    by_cases h : i = n
    · subst h
      rw [Nat.add_mul_div_right _ _ (Nat.two_pow_pos _), Nat.div_eq_of_lt (fieldSum_lt w i f), Nat.zero_add, Nat.mod_mod]
    · obtain ⟨k, rfl⟩ : ∃ k, n = i + 1 + k := ⟨n - (i + 1), by omega⟩
      have above : f (i + 1 + k) % 2 ^ w * 2 ^ ((i + 1 + k) * w) = f (i + 1 + k) % 2 ^ w * 2 ^ (k * w) * 2 ^ w * 2 ^ (i * w) := by
        rw [show (i + 1 + k) * w = k * w + w + i * w by ring, Nat.pow_add, Nat.pow_add]
        ring
      rw [above, Nat.add_mul_div_right _ _ (Nat.two_pow_pos _), Nat.add_mul_mod_self_right]
      exact ih (by omega)

/-! ## Elements and mask bits -/

theorem eCount_mul_eWidth (t : ETy) : eCount t * eWidth t = 512 := by cases t <;> rfl

theorem eCount_le (t : ETy) : eCount t ≤ 64 := by cases t <;> decide

theorem eCount_pos (t : ETy) : 0 < eCount t := by cases t <;> decide

theorem eWidth_pos (t : ETy) : 0 < eWidth t := by cases t <;> decide

theorem elem_lt (t : ETy) (v : Vec) (i : Nat) : elem t v i < 2 ^ eWidth t := Nat.mod_lt _ (Nat.two_pow_pos _)

theorem elem_mod (t : ETy) (v : Vec) (i : Nat) : elem t v i % 2 ^ eWidth t = elem t v i := Nat.mod_eq_of_lt (elem_lt t v i)

/-- An element of a register made from its elements. -/
theorem elem_mkVec (t : ETy) (f : Nat → Nat) {i : Nat} (hi : i < eCount t) :
    elem t (mkVec (eWidth t) (eCount t) f) i = f i % 2 ^ eWidth t := by
  have small : fieldSum (eWidth t) (eCount t) f < 2 ^ 512 := eCount_mul_eWidth t ▸ fieldSum_lt _ _ f
  rw [elem, mkVec, BitVec.toNat_ofNat, ← fieldSum, Nat.mod_eq_of_lt small, bits_fieldSum _ _ hi]

/-- An element of a register written under a mask (R67). -/
theorem elem_masked (t : ETy) (m : Word) (old : Vec) (f : Nat → Nat) {i : Nat} (hi : i < eCount t) :
    elem t (masked t m old f) i = if m.getLsbD i then f i % 2 ^ eWidth t else elem t old i := by
  rw [masked, elem_mkVec t _ hi, apply_ite (· % 2 ^ eWidth t), elem_mod]

/-- A bit of a mask made from its bits. -/
theorem getLsbD_mkMask {n : Nat} (f : Nat → Bool) {i : Nat} (hi : i < 64) :
    (mkMask n f).getLsbD i = (decide (i < n) && f i) := by
  have ones : lsum ((List.range n).map fun i => if f i then 2 ^ i else 0) = fieldSum 1 n fun i => (f i).toNat := by
    unfold fieldSum
    congr 1
    refine List.map_congr_left fun i _ => ?_
    cases h : f i <;> simp [h]
  rw [mkMask, BitVec.getLsbD_ofNat, ones, decide_eq_true hi, Bool.true_and]
  by_cases h : i < n
  · have field := bits_fieldSum 1 (fun i => (f i).toNat) h
    rw [bits, Nat.mul_one, Nat.pow_one] at field
    rw [Nat.testBit_eq_decide_div_mod_eq, field]
    cases f i <;> simp [h]
  · have small : fieldSum 1 n (fun i => (f i).toNat) < 2 ^ i :=
      lt_of_lt_of_le (fieldSum_lt 1 n _) (Nat.pow_le_pow_right (by decide) (by omega))
    simp [Nat.testBit_lt_two_pow small, h]

/-! ## Signed values of fields -/

theorem unsigned_lt (w : Nat) (z : Int) : unsigned w z < 2 ^ w := by
  have h := Int.emod_lt_of_pos z (b := ((2 ^ w : Nat) : Int)) (by exact_mod_cast Nat.two_pow_pos w)
  have h' := Int.emod_nonneg z (b := ((2 ^ w : Nat) : Int)) (by exact_mod_cast (Nat.two_pow_pos w).ne')
  unfold unsigned
  omega

/-- What an integer leaves in a field is what a number congruent to it leaves. -/
theorem unsigned_of_modEq {w n : Nat} {z : Int} (h : z ≡ n [ZMOD (2 ^ w : Nat)]) : unsigned w z = n % 2 ^ w := by
  rw [unsigned, h.eq]
  exact_mod_cast Int.toNat_natCast (n % 2 ^ w)

theorem signed_modEq (w x : Nat) : signed w x ≡ x [ZMOD (2 ^ w : Nat)] := by
  have low : ((x % 2 ^ w : Nat) : Int) ≡ x [ZMOD (2 ^ w : Nat)] := by exact_mod_cast Int.mod_modEq (x : Int) (2 ^ w : Nat)
  unfold signed
  dsimp only
  split
  · exact low
  · simpa using low.sub (Int.modEq_zero_iff_dvd.2 (dvd_refl ((2 ^ w : Nat) : Int)))

theorem unsigned_signed (w x : Nat) : unsigned w (signed w x) = x % 2 ^ w := unsigned_of_modEq (signed_modEq w x)

/-- The signed values of w bits. -/
theorem signed_bounds {w : Nat} (hw : 0 < w) (x : Nat) :
    -((2 ^ (w - 1) : Nat) : Int) ≤ signed w x ∧ signed w x ≤ ((2 ^ (w - 1) : Nat) : Int) - 1 := by
  obtain ⟨k, rfl⟩ : ∃ k, w = k + 1 := ⟨w - 1, by omega⟩
  have hx : x % 2 ^ (k + 1) < 2 ^ (k + 1) := Nat.mod_lt _ (Nat.two_pow_pos _)
  have hp : 2 ^ (k + 1) = 2 * 2 ^ k := by ring
  unfold signed
  simp only [Nat.add_sub_cancel]
  split <;> omega

/-! ## One element of `vec.op` (R66, Table 3.6) -/

/-- What the integer minors leave in an element of w bits, from the elements as numbers. -/
def vopElem (f : VopFn) (w a b d : Nat) : Nat :=
  match f with
  | .add => a + b
  | .sub => a + 2 ^ w - b
  | .mul => a * b
  | .fma => a * b + d
  | .min => if signed w a ≤ signed w b then a else b
  | .max => if signed w a ≤ signed w b then b else a
  | .and => a &&& b
  | .or => a ||| b
  | .xor => a ^^^ b
  | .shl => a * 2 ^ (b % w)
  | .shr => a / 2 ^ (b % w)
  | .sra => unsigned w (signed w a / 2 ^ (b % w))
  | .adds => unsigned w (max (-2 ^ (w - 1)) (min (signed w a + signed w b) (2 ^ (w - 1) - 1)))
  | .subs => unsigned w (max (-2 ^ (w - 1)) (min (signed w a - signed w b) (2 ^ (w - 1) - 1)))
  | .exp2 | .recip => 0

/-- An element of an integer type, computed on signed values, is the one computed on the numbers modulo 2^w. -/
theorem vopInt_mod {f : VopFn} (w a b d : Nat) (hb : b < 2 ^ w) (he : f ≠ .exp2) (hr : f ≠ .recip) :
    vopInt f w a b d % 2 ^ w = vopElem f w a b d % 2 ^ w := by
  have ha := signed_modEq w a
  have hb' := signed_modEq w b
  have whole {z : Int} {n : Nat} (h : z ≡ n [ZMOD (2 ^ w : Nat)]) : unsigned w z % 2 ^ w = n % 2 ^ w := by
    rw [unsigned_of_modEq h, Nat.mod_mod]
  cases f with
  | add => exact whole (by simpa [vopElem] using ha.add hb')
  | sub =>
    refine whole ?_
    have turn : ((2 ^ w : Nat) : Int) ≡ 0 [ZMOD (2 ^ w : Nat)] := Int.modEq_zero_iff_dvd.2 (dvd_refl _)
    rw [vopElem, Nat.cast_sub (by omega), Nat.cast_add]
    simpa using (ha.add turn.symm).sub hb'
  | mul => exact whole (by simpa [vopElem] using ha.mul hb')
  | fma => exact whole (by simpa [vopElem] using (ha.mul hb').add (signed_modEq w d))
  | min =>
    simp only [vopInt, vopElem, min_def]
    split <;> rw [unsigned_signed, Nat.mod_mod]
  | max =>
    simp only [vopInt, vopElem, max_def]
    split <;> rw [unsigned_signed, Nat.mod_mod]
  | and | or | xor | shl | shr => rfl
  | sra | adds | subs => simp [vopInt, vopElem, clampS]
  | exp2 => exact absurd rfl he
  | recip => exact absurd rfl hr

/-! ## Reductions (R70) -/

section
variable {α : Type} {op : α → α → α} {R : List α → α → Prop}

theorem length_pairUp (op : α → α → α) (l : List α) : (treeGo.pairUp op l).length = (l.length + 1) / 2 := by
  induction l using treeGo.pairUp.induct with
  | case1 x y l ih => simp [treeGo.pairUp, ih]; omega
  | case2 l h =>
    match l with
    | [] | [_] => simp [treeGo.pairUp]
    | x :: y :: l => exact absurd rfl (h x y l)

/-- A tree of k rounds over at most 2^k values ends in one, of which holds what each round hands on. -/
theorem treeGo_singleton (one : ∀ x, R [x] x) (round : ∀ l r, R (treeGo.pairUp op l) r → R l r) (k : Nat) (l : List α)
    (hl : 0 < l.length) (hk : l.length ≤ 2 ^ k) : ∃ r, treeGo op k l = [r] ∧ R l r := by
  induction k generalizing l with
  | zero =>
    obtain ⟨x, rfl⟩ := List.length_eq_one_iff.1 (Nat.le_antisymm hk hl)
    exact ⟨x, rfl, one x⟩
  | succ k ih =>
    have hlen := length_pairUp op l
    obtain ⟨r, hr, h⟩ := ih (treeGo.pairUp op l) (by omega) (by omega)
    exact ⟨r, hr, round l r h⟩

/-- A round that picks one of each pair, below both, keeps the members and the bounds. -/
theorem pairUp_picks {le : α → α → Prop} (refl : ∀ x, le x x) (trans : ∀ x y z, le x y → le y z → le x z)
    (picks : ∀ x y, (op x y = x ∨ op x y = y) ∧ le (op x y) x ∧ le (op x y) y) (l : List α) (r : α)
    (h : r ∈ treeGo.pairUp op l ∧ ∀ x ∈ treeGo.pairUp op l, le r x) : r ∈ l ∧ ∀ x ∈ l, le r x := by
  have members : ∀ l : List α, ∀ z ∈ treeGo.pairUp op l, z ∈ l := fun l => by
    induction l using treeGo.pairUp.induct with
    | case1 x y l ih =>
      intro z hz
      rcases List.mem_cons.1 hz with rfl | hz
      · rcases (picks x y).1 with e | e <;> simp [e]
      · simp [ih z hz]
    | case2 l h => intro z hz; rwa [treeGo.pairUp.eq_2 op l h] at hz
  have below : ∀ l : List α, ∀ x ∈ l, ∃ z ∈ treeGo.pairUp op l, le z x := fun l => by
    induction l using treeGo.pairUp.induct with
    | case1 x y l ih =>
      intro z hz
      rw [treeGo.pairUp]
      obtain ⟨-, hx, hy⟩ := picks x y
      rcases List.mem_cons.1 hz with rfl | hz
      · exact ⟨_, List.mem_cons_self, hx⟩
      · rcases List.mem_cons.1 hz with rfl | hz
        · exact ⟨_, List.mem_cons_self, hy⟩
        · obtain ⟨u, hu, hle⟩ := ih z hz
          exact ⟨u, List.mem_cons_of_mem _ hu, hle⟩
    | case2 l h => intro x hx; exact ⟨x, by rwa [treeGo.pairUp.eq_2 op l h], refl x⟩
  refine ⟨members l r h.1, fun x hx => ?_⟩
  obtain ⟨z, hz, hle⟩ := below l x hx
  exact trans _ _ _ (h.2 z hz) hle

end

section
variable {t : ETy} (m : Word) (a : Vec)

/-- A reduction leaves zeros above element 0. -/
theorem elem_vecRed_rest (f : RedFn) {i : Nat} (h1 : 1 ≤ i) (hi : i < eCount t) : elem t (vecRed f t m a) i = 0 := by
  unfold vecRed
  rw [elem_mkVec t _ hi, if_neg (by omega), Nat.zero_mod]

/-- The signed values that a reduction of an integer type takes in, the identity for an element masked off. -/
def redInputs (t : ETy) (m : Word) (a : Vec) (ident : Int) : List Int :=
  (List.range (eCount t)).map fun i => if m.getLsbD i then signed (eWidth t) (elem t a i) else ident

theorem length_redInputs (t : ETy) (m : Word) (a : Vec) (ident : Int) : (redInputs t m a ident).length = eCount t := by
  simp [redInputs]

/-- What a reduction of signed values of w bits gives for an element masked off. -/
def redIdent (f : RedFn) (w : Nat) : Int :=
  match f with
  | .sum => 0
  | .min => (2 ^ (w - 1) : Nat) - 1
  | .max => -(2 ^ (w - 1) : Nat)

/-- How a reduction combines two signed values of w bits. -/
def redOp (f : RedFn) (w : Nat) : Int → Int → Int :=
  match f with
  | .sum => fun x y => signed w (unsigned w (x + y))
  | .min => min
  | .max => max

/-- Element 0 of a reduction of an integer type is the field of what its tree ends in. -/
theorem elem_vecRed_zero (ht : eFmt t = none) {f : RedFn} {r : Int}
    (hr : treeGo (redOp f (eWidth t)) 6 (redInputs t m a (redIdent f (eWidth t))) = [r]) :
    elem t (vecRed f t m a) 0 = unsigned (eWidth t) r := by
  unfold vecRed
  rw [elem_mkVec t _ (eCount_pos t), if_pos rfl, ← Nat.mod_eq_of_lt (unsigned_lt (eWidth t) r)]
  congr 1
  rw [ht]
  cases f <;>
  · simp only [redInputs, redOp, redIdent] at hr
    simp only [hr]

/-- The sum is modulo 2^w. -/
theorem elem_vecRed_sum (ht : eFmt t = none) : elem t (vecRed .sum t m a) 0 =
    lsum ((List.range (eCount t)).map fun i => if m.getLsbD i then elem t a i else 0) % 2 ^ eWidth t := by
  have field (x y : Int) : signed (eWidth t) (unsigned (eWidth t) (x + y)) ≡ x + y [ZMOD (2 ^ eWidth t : Nat)] := by
    refine (signed_modEq _ _).trans ?_
    rw [unsigned, Int.toNat_of_nonneg (Int.emod_nonneg _ (by exact_mod_cast (Nat.two_pow_pos _).ne'))]
    exact Int.mod_modEq _ _
  have round (l : List Int) : (treeGo.pairUp (fun x y => signed (eWidth t) (unsigned (eWidth t) (x + y))) l).sum ≡ l.sum
      [ZMOD (2 ^ eWidth t : Nat)] := by
    induction l using treeGo.pairUp.induct with
    | case1 x y l ih =>
      rw [treeGo.pairUp, List.sum_cons, List.sum_cons, List.sum_cons, ← Int.add_assoc]
      exact (field x y).add ih
    | case2 l h => rw [treeGo.pairUp.eq_2 _ l h]
  obtain ⟨r, hr, hsum⟩ := treeGo_singleton (R := fun l r => r ≡ l.sum [ZMOD (2 ^ eWidth t : Nat)])
    (fun x => by simp) (fun l r h => h.trans (round l)) 6 (redInputs t m a 0)
    (by rw [length_redInputs]; exact eCount_pos t) (by rw [length_redInputs]; exact eCount_le t)
  have inputs (l : List Nat) : (l.map fun i => if m.getLsbD i then signed (eWidth t) (elem t a i) else 0).sum ≡
      ((l.map fun i => if m.getLsbD i then elem t a i else 0).sum : Nat) [ZMOD (2 ^ eWidth t : Nat)] := by
    induction l with
    | nil => simp
    | cons i l ih =>
      simp only [List.map_cons, List.sum_cons, Nat.cast_add]
      refine Int.ModEq.add ?_ ih
      split
      · exact signed_modEq _ _
      · simp
  rw [elem_vecRed_zero m a ht (f := .sum) hr, lsum_eq_sum]
  exact unsigned_of_modEq (hsum.trans (inputs _))

/-- A tree that picks, of an identity that no signed value passes, ends in the value of an element that counts, below them all. -/
theorem treeGo_picks {op : Int → Int → Int} {le : Int → Int → Prop} {ident : Int} (refl : ∀ x, le x x)
    (trans : ∀ x y z, le x y → le y z → le x z) (antisymm : ∀ x y, le x y → le y x → x = y)
    (picks : ∀ x y, (op x y = x ∨ op x y = y) ∧ le (op x y) x ∧ le (op x y) y) (bound : ∀ x, le (signed (eWidth t) x) ident)
    (some_on : ∃ i, i < eCount t ∧ m.getLsbD i = true) :
    ∃ r, treeGo op 6 (redInputs t m a ident) = [r] ∧ (∃ i, i < eCount t ∧ m.getLsbD i = true ∧ r = signed (eWidth t) (elem t a i)) ∧
      ∀ i, i < eCount t → m.getLsbD i = true → le r (signed (eWidth t) (elem t a i)) := by
  obtain ⟨r, hr, hmem, hbelow⟩ := treeGo_singleton (R := fun l r => r ∈ l ∧ ∀ x ∈ l, le r x)
    (fun x => by simp [refl]) (pairUp_picks refl trans picks) 6 (redInputs t m a ident)
    (by rw [length_redInputs]; exact eCount_pos t) (by rw [length_redInputs]; exact eCount_le t)
  have below (i : Nat) (hi : i < eCount t) (hon : m.getLsbD i = true) : le r (signed (eWidth t) (elem t a i)) :=
    hbelow _ (List.mem_map.2 ⟨i, List.mem_range.2 hi, if_pos hon⟩)
  refine ⟨r, hr, ?_, below⟩
  obtain ⟨i, hi, e⟩ := List.mem_map.1 hmem
  split at e
  next hon => exact ⟨i, List.mem_range.1 hi, hon, e.symm⟩
  next =>
    obtain ⟨j, hj, hon⟩ := some_on
    exact ⟨j, hj, hon, antisymm _ _ (below j hj hon) (e ▸ bound _)⟩

variable (ht : eFmt t = none) (some_on : ∃ i, i < eCount t ∧ m.getLsbD i = true)
include ht some_on

/-- A minimum is an element that counts, above none of them. -/
theorem elem_vecRed_min : (∃ i, i < eCount t ∧ m.getLsbD i = true ∧ elem t (vecRed .min t m a) 0 = elem t a i) ∧
    ∀ i, i < eCount t → m.getLsbD i = true →
      signed (eWidth t) (elem t (vecRed .min t m a) 0) ≤ signed (eWidth t) (elem t a i) := by
  obtain ⟨r, hr, ⟨i, hi, hon, rfl⟩, below⟩ := treeGo_picks (le := (· ≤ ·)) m a (fun _ => le_refl _) (fun _ _ _ => le_trans)
    (fun _ _ => le_antisymm) (fun x y => ⟨min_choice x y, min_le_left x y, min_le_right x y⟩)
    (fun x => (signed_bounds (eWidth_pos t) x).2) some_on
  have zero : elem t (vecRed .min t m a) 0 = elem t a i := by
    rw [elem_vecRed_zero m a ht (f := .min) hr, unsigned_signed, elem_mod]
  exact ⟨⟨i, hi, hon, zero⟩, by rwa [zero]⟩

/-- A maximum is an element that counts, below none of them. -/
theorem elem_vecRed_max : (∃ i, i < eCount t ∧ m.getLsbD i = true ∧ elem t (vecRed .max t m a) 0 = elem t a i) ∧
    ∀ i, i < eCount t → m.getLsbD i = true →
      signed (eWidth t) (elem t a i) ≤ signed (eWidth t) (elem t (vecRed .max t m a) 0) := by
  obtain ⟨r, hr, ⟨i, hi, hon, rfl⟩, above⟩ := treeGo_picks (le := (· ≥ ·)) m a (fun _ => le_refl _) (fun _ _ _ h h' => le_trans h' h)
    (fun _ _ h h' => le_antisymm h' h) (fun x y => ⟨max_choice x y, le_max_left x y, le_max_right x y⟩)
    (fun x => (signed_bounds (eWidth_pos t) x).1) some_on
  have zero : elem t (vecRed .max t m a) 0 = elem t a i := by
    rw [elem_vecRed_zero m a ht (f := .max) hr, unsigned_signed, elem_mod]
  exact ⟨⟨i, hi, hon, zero⟩, by rwa [zero]⟩

end

/-! ## Comparisons and mask registers (R71) -/

/-- A comparison of two elements of w bits as signed values. -/
def cmpSigned (f : CmpFn) (w x y : Nat) : Bool :=
  match f with
  | .eq => decide (x = y)
  | .ne => decide (x ≠ y)
  | .lt => decide (signed w x < signed w y)
  | .le => decide (signed w x ≤ signed w y)
  | .gt => decide (signed w y < signed w x)
  | .ge => decide (signed w y ≤ signed w x)

/-- A comparison of an integer type compares the signed values. -/
theorem cmpElem_int {t : ETy} (ht : eFmt t = none) (f : CmpFn) (v u : Vec) (i : Nat) :
    cmpElem f t (elem t v i) (elem t u i) = cmpSigned f (eWidth t) (elem t v i) (elem t u i) := by
  have same : elem t v i = elem t u i ↔ signed (eWidth t) (elem t v i) = signed (eWidth t) (elem t u i) := by
    refine ⟨congrArg _, fun h => ?_⟩
    rw [← elem_mod t v, ← elem_mod t u, ← unsigned_signed, h, unsigned_signed]
  simp only [cmpElem, cmpSigned, ht, same, ne_eq]
  cases f <;> rw [Bool.eq_iff_iff] <;> simp [compare_lt_iff_lt, compare_gt_iff_gt]

/-- A comparison of a floating-point type with a NaN holds only for ne. -/
theorem cmpElem_nan {t : ETy} {e : FFmt} (ht : eFmt t = some e) (f : CmpFn) (x y : Nat) :
    (if (decodeF e x).isNan || (decodeF e y).isNan then decide (f = .ne) else cmpElem f t x y) = cmpElem f t x y := by
  simp only [cmpElem, ht]
  split <;> rfl

/-- The population count of the low bits of a number counts the bits set. -/
theorem popCount_eq (n x : Nat) : popCount n x = (List.range n).countP fun i => x.testBit i := by
  induction n generalizing x with
  | zero => rfl
  | succ n ih =>
    have low : x % 2 = if x.testBit 0 = true then 1 else 0 := by
      rw [Nat.testBit_zero]
      rcases Nat.mod_two_eq_zero_or_one x with h | h <;> simp [h]
    rw [popCount, ih, List.range_succ_eq_map, List.countP_cons, List.countP_map, low, Nat.add_comm]
    simp only [Function.comp_def, Nat.testBit_succ]

/-- A bit of the mask results of `vec.msk`. -/
theorem getLsbD_vecMsk (f : MskFn) (t : ETy) (a b : Word) {i : Nat} (hi : i < 64) :
    (vecMsk f t a b).getLsbD i = (decide (i < eCount t) && match f with
      | .and => a.getLsbD i && b.getLsbD i
      | .or => a.getLsbD i || b.getLsbD i
      | .xor => a.getLsbD i != b.getLsbD i
      | .andn => a.getLsbD i && !b.getLsbD i
      | .popc => false) := by
  unfold vecMsk
  rw [getLsbD_mkMask _ hi]
  cases f <;> simp [hi]

theorem vecPopc_eq (t : ETy) (a : Word) : vecPopc t a = BitVec.ofNat 64 ((List.range (eCount t)).countP a.getLsbD) := by
  rw [vecPopc, popCount_eq]
  rfl

/-- A bit of a comparison's mask: the comparison where the mask is set, the old bit elsewhere. -/
theorem getLsbD_vecCmp (f : CmpFn) (t : ETy) (m old : Word) (a b : Vec) {i : Nat} (hi : i < 64) :
    (vecCmp f t m old a b).getLsbD i =
      (decide (i < eCount t) && if m.getLsbD i then cmpElem f t (elem t a i) (elem t b i) else old.getLsbD i) :=
  getLsbD_mkMask _ hi

/-- A compressed register holds the elements that count, then zeros. -/
theorem elem_compress (t : ETy) (m : Word) (old a b : Vec) (ga gb : Word) {i : Nat} (hi : i < eCount t) :
    elem t (vecPerm .compress t m old a b ga gb) i =
      nth (((List.range (eCount t)).filter fun i => m.getLsbD i).map (elem t a)) i 0 := by
  unfold vecPerm
  rw [elem_mkVec t _ hi]
  refine Nat.mod_eq_of_lt ?_
  unfold nw
  cases h : ((((List.range (eCount t)).filter fun i => m.getLsbD i).map (elem t a))[i]?) with
  | none => exact Nat.two_pow_pos _
  | some x =>
    obtain ⟨j, -, rfl⟩ := List.mem_map.1 (List.mem_of_getElem? h)
    exact elem_lt t a j

/-! ## The rows (R66 to R71) -/

section
variable {s : State} {c : Nat} {t : ETy} {m : BitVec 3} {vd va vb : Reg}

theorem execVecOp_of_runs {f : VopFn} (h : runs s c (.vop f t m vd va vb) = true) :
    execVecOp c s = .next (s.setCore c (stepped ((s.core c).vwr vd
      (vecOp f t ((s.core c).mrd m) ((s.core c).vrd vd) ((s.core c).vrd va) ((s.core c).vrd vb))))) :=
  (coreRow_compute h rfl).trans rfl

theorem execVecCvt_of_runs {ty : ETy} (h : runs s c (.vcvt t ty m vd va) = true) :
    execVecCvt c s = .next (s.setCore c (stepped ((s.core c).vwr vd
      (vecCvt t ty ((s.core c).mrd m) ((s.core c).vrd vd) ((s.core c).vrd va))))) :=
  (coreRow_compute h rfl).trans rfl

theorem execVecRed_of_runs {f : RedFn} (h : runs s c (.vred f t m vd va) = true) :
    execVecRed c s = .next (s.setCore c (stepped ((s.core c).vwr vd (vecRed f t ((s.core c).mrd m) ((s.core c).vrd va))))) :=
  (coreRow_compute h rfl).trans rfl

theorem execVecPerm_of_runs {f : PermFn} (h : runs s c (.vperm f t m vd va vb) = true) (hf : f ≠ .extract) :
    execVecPerm c s = .next (s.setCore c (stepped ((s.core c).vwr vd
      (vecPerm f t ((s.core c).mrd m) ((s.core c).vrd vd) ((s.core c).vrd va) ((s.core c).vrd vb)
        ((s.core c).rd va) ((s.core c).rd vb))))) := by
  refine (coreRow_compute h rfl).trans ?_
  cases f
  case extract => exact absurd rfl hf
  all_goals rfl

theorem execVecPerm_extract (h : runs s c (.vperm .extract t m vd va vb) = true) :
    execVecPerm c s = .next (s.setCore c (stepped ((s.core c).wr vd (vecExtract t ((s.core c).vrd va) ((s.core c).rd vb))))) :=
  (coreRow_compute h rfl).trans rfl

theorem execVecCmp_of_runs {f : CmpFn} {md : BitVec 3} (h : runs s c (.vcmp f t m md va vb) = true) :
    execVecCmp c s = .next (s.setCore c (stepped ((s.core c).mwr md
      (vecCmp f t ((s.core c).mrd m) ((s.core c).mrd md) ((s.core c).vrd va) ((s.core c).vrd vb))))) :=
  (coreRow_compute h rfl).trans rfl

theorem execVecMsk_of_runs {f : MskFn} {ma mb : BitVec 3} (h : runs s c (.vmsk f t vd ma mb) = true) (hf : f ≠ .popc) :
    execVecMsk c s = .next (s.setCore c (stepped ((s.core c).mwr (vd.extractLsb' 0 3)
      (vecMsk f t ((s.core c).mrd ma) ((s.core c).mrd mb))))) := by
  refine (coreRow_compute h rfl).trans ?_
  cases f
  case popc => exact absurd rfl hf
  all_goals rfl

theorem execVecMsk_popc {ma mb : BitVec 3} (h : runs s c (.vmsk .popc t vd ma mb) = true) :
    execVecMsk c s = .next (s.setCore c (stepped ((s.core c).wr vd (vecPopc t ((s.core c).mrd ma))))) :=
  (coreRow_compute h rfl).trans rfl

end

/-! ## The obligations -/

/-- Settles O9: a `vec.op` writes its elements under the mask. -/
theorem maskedOffElementsKeepTheirValue : Obligations.MaskedOffElementsKeepTheirValue := by
  intro f t m old a b i hi hm
  rw [vecOp, elem_masked t m old _ hi, if_neg (by rw [BitVec.getLsbD, hm]; decide)]

/-- Settles O8: each row writes the register of its function, whose elements or bits are read off one by one. -/
theorem vectorInstructionsWriteTheirResult : Obligations.VectorInstructionsWriteTheirResult := by
  intro s c t m vd va vb k n w next on a b d sgn sat gives masks
  refine ⟨fun f h => ⟨fun ht he hr => ?opInt, fun e ht => ?opFloat⟩, fun ty h => ?cvt, fun f h => ?red, fun f h => ?perm,
    fun f md h => ?cmp, fun f ma mb h => ?msk⟩
  case opInt =>
    refine ⟨_, execVecOp_of_runs h, fun i hi => ?_⟩
    rw [vecOp, elem_masked t _ _ _ hi]
    simp only [ht]
    rw [vopInt_mod _ _ _ _ (elem_lt t _ i) he hr]
    rfl
  case opFloat =>
    refine ⟨_, execVecOp_of_runs h, fun i hi => ?_⟩
    rw [vecOp, elem_masked t _ _ _ hi]
    simp only [ht]
    cases f <;> rfl
  case cvt => exact ⟨_, execVecCvt_of_runs h, fun i hi => elem_masked ty _ _ _ hi⟩
  case red =>
    refine ⟨_, execVecRed_of_runs h, fun i h1 hi => elem_vecRed_rest _ _ f h1 hi, ?_, ?_, ?_, fun _ => rfl⟩
    · rintro ht rfl
      exact elem_vecRed_sum _ _ ht
    · rintro ht rfl
      exact elem_vecRed_min _ _ ht
    · rintro ht rfl
      exact elem_vecRed_max _ _ ht
  case perm =>
    have moved (hf : f ≠ .extract) := execVecPerm_of_runs h hf
    refine ⟨?bcast, ?insert, ?move, ?shuffle, ?compress, ?extract⟩ <;> rintro rfl
    case bcast | insert | move | shuffle => exact ⟨_, moved (by decide), fun i hi => elem_masked t _ _ _ hi⟩
    case compress => exact ⟨_, moved (by decide), fun i hi => elem_compress t _ _ _ _ _ _ hi⟩
    case extract =>
      refine (execVecPerm_extract h).trans ?_
      cases t <;> rfl
  case cmp =>
    refine ⟨_, execVecCmp_of_runs h, fun i hi => ?_⟩
    rw [getLsbD_vecCmp _ _ _ _ _ _ hi]
    cases ht : eFmt t with
    | none =>
      rw [cmpElem_int ht]
      cases f <;> rfl
    | some e =>
      rw [← cmpElem_nan ht]
  case msk =>
    have masked (hf : f ≠ .popc) := execVecMsk_of_runs h hf
    refine ⟨?maskAnd, ?maskOr, ?maskXor, ?maskAndn, ?count⟩ <;> rintro rfl
    case maskAnd | maskOr | maskXor | maskAndn => exact ⟨_, masked (by decide), fun i hi => getLsbD_vecMsk _ t _ _ hi⟩
    case count =>
      rw [← vecPopc_eq]
      exact execVecMsk_popc h

end Sys2Proof.Machine
end

section
/-!
PROOFS. A core's loads and stores (03 R63 to R65): the rows, the scratch bank, the virtual range.
-/

namespace Sys2Proof.Machine
open Sys2Proof.Claims

theorem length_leBytes (n x : Nat) : (leBytes n x).length = n := by
  induction n generalizing x with
  | zero => rfl
  | succ n ih => rw [leBytes, List.length_cons, ih]

theorem getElem?_leBytes {n i : Nat} (h : i < n) (x : Nat) : (leBytes n x)[i]? = some (BitVec.ofNat 8 (x / 256 ^ i % 256)) := by
  induction n generalizing i x with
  | zero => omega
  | succ n ih =>
    cases i with
    | zero => simp [leBytes]
    | succ i => rw [leBytes, List.getElem?_cons_succ, ih (by omega), Nat.div_div_eq_div_mul, Nat.pow_succ', Nat.mul_comm]

/-! ## The rows (R63) -/

section
variable {s : State} {c : Nat} {r b : Reg} {sp : Space} {off : BitVec 14}

theorem execMemLd_of_runs {f : LdFn} {dram : Dram} (h : runs s c (.ld f r b sp off) = true) :
    execMemLd c dram s = .next (s.load c sp (memAddr ((s.core c).rd b) off f.size) f.size (f == .d64) dram.corrected dram.parity
      fun k bs => k.wr r (f.extend bs)) :=
  (coreRow_inRoom h rfl).trans rfl

theorem execMemVld_of_runs {dram : Dram} (h : runs s c (.vld r b sp off) = true) :
    execMemVld c dram s = .next (s.load c sp (memAddr ((s.core c).rd b) off 64) 64 true dram.corrected dram.parity
      fun k bs => k.vwr r (BitVec.ofNat 512 (ofLe bs))) :=
  (coreRow_inRoom h rfl).trans rfl

theorem execMemSt_of_runs {f : StFn} (h : runs s c (.st f r b sp off) = true) :
    execMemSt c s = .next (s.store c sp (memAddr ((s.core c).rd b) off f.size) (leBytes f.size ((s.core c).rd r).toNat)) :=
  (coreRow_inRoom h rfl).trans rfl

theorem execMemVst_of_runs (h : runs s c (.vst r b sp off) = true) :
    execMemVst c s = .next (s.store c sp (memAddr ((s.core c).rd b) off 64) (leBytes 64 ((s.core c).vrd r).toNat)) :=
  (coreRow_inRoom h rfl).trans rfl

end

/-! ## What a load comes to -/

section
variable {s : State} {c size corr : Nat} {sp : Space} {va : Word} {wide parity : Bool} {put : Core → List Byte → Core}

theorem State.load_misaligned (h : va.toNat % size ≠ 0) : s.load c sp va size wide corr parity put = s.exception c .misaligned := by
  unfold State.load
  exact if_pos h

section
variable (ha : va.toNat % size = 0)
include ha

theorem State.load_scratch_outside (h : 0x40000 < va.toNat + size) :
    s.load c .scratch va size wide corr parity put = s.exception c .scratchRange := by
  unfold State.load
  rw [if_neg (not_not.2 ha)]
  exact if_pos h

theorem State.load_scratch (h : va.toNat + size ≤ 0x40000) :
    s.load c .scratch va size wide corr parity put = s.setCore c (stepped (put (s.core c) (s.scratch c va.toNat size))) := by
  unfold State.load
  rw [if_neg (not_not.2 ha)]
  exact if_neg (Nat.not_lt.2 h)

variable (hw : va.toNat < cwVa) (hm : s.pw.absent.contains 5 = false)
include hw hm

theorem State.load_virt_prot (h : s.access .unit (s.core c).ten [(va.toNat, size)] [] = .prot) :
    s.load c .virt va size wide corr parity put = s.exception c .protection := by
  unfold State.load
  rw [if_neg (not_not.2 ha)]
  simp only [Nat.not_le.2 hw, false_and, if_false, hm, Bool.false_eq_true, h]

theorem State.load_virt_fault {ps : List Nat} (h : s.access .unit (s.core c).ten [(va.toNat, size)] [] = .fault ps) :
    s.load c .virt va size wide corr parity put = s.coreFault c .translation ps := by
  unfold State.load
  rw [if_neg (not_not.2 ha)]
  simp only [Nat.not_le.2 hw, false_and, if_false, hm, Bool.false_eq_true, h]

/-- A load of a shared pool page asks its peer for the first part that has not been sent (02 R23). -/
theorem State.load_virt_ask (h : s.access .unit (s.core c).ten [(va.toNat, size)] [] = .ok) {p : Nat × Nat} {ps : List (Nat × Nat)}
    (hp : (s.poolParts .unit (s.core c).ten [(va.toNat, size)]).filter (fun p => (s.core c).pool != some p) = p :: ps) :
    s.load c .virt va size wide corr parity put = (s.askPeer noTicket 8 c (s.core c).ten p).1.setCore c
      { s.core c with wait := .pool (s.askPeer noTicket 8 c (s.core c).ten p).2 } := by
  unfold State.load
  rw [if_neg (not_not.2 ha)]
  simp only [Nat.not_le.2 hw, false_and, if_false, hm, Bool.false_eq_true, h, hp]

/-- What the granary has noted of a core's read of the virtual range. -/
def State.readNoted (s : State) (c a size corr : Nat) (parity : Bool) : State :=
  (s.coreRead c (s.core c).ten a size).2.corrected (s.core c).ten a corr parity

theorem State.load_virt (h : s.access .unit (s.core c).ten [(va.toNat, size)] [] = .ok)
    (hp : (s.poolParts .unit (s.core c).ten [(va.toNat, size)]).filter (fun p => (s.core c).pool != some p) = []) :
    s.load c .virt va size wide corr parity put = (s.readNoted c va.toNat size corr parity).setCore c
      (stepped (put { (s.readNoted c va.toNat size corr parity).core c with pool := none }
        (s.coreRead c (s.core c).ten va.toNat size).1)) := by
  unfold State.load
  rw [if_neg (not_not.2 ha)]
  simp only [Nat.not_le.2 hw, false_and, if_false, hm, Bool.false_eq_true, h, hp]
  rfl

end

end

/-! ## What a store comes to -/

section
variable {s : State} {c : Nat} {sp : Space} {va : Word} {bs : List Byte}

theorem State.store_misaligned (h : va.toNat % bs.length ≠ 0) : s.store c sp va bs = s.exception c .misaligned := by
  unfold State.store
  exact if_pos h

section
variable (ha : va.toNat % bs.length = 0)
include ha

theorem State.store_scratch_outside (h : 0x40000 < va.toNat + bs.length) :
    s.store c .scratch va bs = s.exception c .scratchRange := by
  unfold State.store
  rw [if_neg (not_not.2 ha)]
  exact if_pos h

variable {tn : Turn} (ht : (s.core c).turn = some tn) (hr : tn.retired < retireMax)
include ht hr

/-- A scratch store with room for its line among those kept writes its bytes. -/
theorem State.store_scratch (h : va.toNat + bs.length ≤ 0x40000)
    (roomy : (tfind tn.kept (va.toNat / 64)).isSome = true ∨ tn.kept.length < 512) :
    s.store c .scratch va bs = (s.scratchWrite c va.toNat bs).setCore c (stepped ((s.scratchWrite c va.toNat bs).core c)) := by
  have room : ((tfind tn.kept (va.toNat / 64)).isNone && decide (512 ≤ tn.kept.length)) = false := by
    rcases roomy with h | h
    · simp [Option.isNone_eq_false_iff.2 h]
    · simp [Nat.not_le.2 h]
  unfold State.store
  rw [if_neg (not_not.2 ha)]
  exact (if_neg (Nat.not_lt.2 h)).trans (State.inRoom_roomy s c _ _ tn ht room hr)

/-- A store to the virtual range whose access reaches is deferred in its turn, with room for its line. -/
theorem State.store_virt (hw : va.toNat < cwVa) (reaches : s.access .unit (s.core c).ten [] [(va.toNat, bs.length)] = .ok)
    (roomy : tn.lines.length < 1024) :
    s.store c .virt va bs = (s.coreWrite c (s.core c).ten va.toNat bs).setCore c
      (stepped ((s.coreWrite c (s.core c).ten va.toNat bs).core c)) := by
  unfold State.store
  rw [if_neg (not_not.2 ha)]
  simp only [Nat.not_le.2 hw, false_and, if_false, reaches]
  exact State.inRoom_roomy s c _ _ tn ht (by simp [Nat.not_le.2 roomy]) hr

end

section
variable (ha : va.toNat % bs.length = 0) (hw : va.toNat < cwVa)
include ha hw

theorem State.store_virt_prot (h : s.access .unit (s.core c).ten [] [(va.toNat, bs.length)] = .prot) :
    s.store c .virt va bs = s.exception c .protection := by
  unfold State.store
  rw [if_neg (not_not.2 ha)]
  simp only [Nat.not_le.2 hw, false_and, if_false, h]

theorem State.store_virt_fault {ps : List Nat} (h : s.access .unit (s.core c).ten [] [(va.toNat, bs.length)] = .fault ps) :
    s.store c .virt va bs = s.coreFault c .translation ps := by
  unfold State.store
  rw [if_neg (not_not.2 ha)]
  simp only [Nat.not_le.2 hw, false_and, if_false, h]

end

end

/-! ## Answers by the address -/

section
variable {s : State} {c size corr : Nat} {va : Word} {x : Ans}

section
variable {wide parity : Bool} {put : Core → List Byte → Core}

/-- A scratch load takes its bytes, or raises what its address asks for. -/
theorem answers_scratchLoad (hx : x = .next (s.load c .scratch va size wide corr parity put)) :
    (va.toNat % size = 0 ∧ va.toNat + size ≤ 0x40000 →
      x = .next (s.setCore c (stepped (put (s.core c) (s.scratch c va.toNat size))))) ∧
    (va.toNat % size ≠ 0 → x = .next (s.exception c .misaligned)) ∧
    (va.toNat % size = 0 → 0x40000 < va.toNat + size → x = .next (s.exception c .scratchRange)) := by
  subst hx
  exact ⟨fun hf => congrArg _ (State.load_scratch hf.1 hf.2), fun ha => congrArg _ (State.load_misaligned ha),
    fun ha ho => congrArg _ (State.load_scratch_outside ha ho)⟩

/-- A load of the virtual range takes its bytes, asks a peer for them, or is what its access comes to. -/
theorem answers_virtLoad (hx : x = .next (s.load c .virt va size wide corr parity put))
    (hp : va.toNat % size = 0 ∧ va.toNat < cwVa ∧ s.pw.absent.contains 5 = false) :
    (s.access .unit (s.core c).ten [(va.toNat, size)] [] = .ok →
      (s.poolParts .unit (s.core c).ten [(va.toNat, size)]).filter (fun p => (s.core c).pool != some p) = [] →
      x = .next ((s.readNoted c va.toNat size corr parity).setCore c
        (stepped (put { (s.readNoted c va.toNat size corr parity).core c with pool := none }
          (s.coreRead c (s.core c).ten va.toNat size).1)))) ∧
    (∀ p ps, s.access .unit (s.core c).ten [(va.toNat, size)] [] = .ok →
      (s.poolParts .unit (s.core c).ten [(va.toNat, size)]).filter (fun p => (s.core c).pool != some p) = p :: ps →
      x = .next ((s.askPeer noTicket 8 c (s.core c).ten p).1.setCore c
        { s.core c with wait := .pool (s.askPeer noTicket 8 c (s.core c).ten p).2 })) ∧
    (s.access .unit (s.core c).ten [(va.toNat, size)] [] = .prot → x = .next (s.exception c .protection)) ∧
    (∀ ps, s.access .unit (s.core c).ten [(va.toNat, size)] [] = .fault ps → x = .next (s.coreFault c .translation ps)) := by
  obtain ⟨ha, hw, hm⟩ := hp
  subst hx
  exact ⟨fun hok hparts => congrArg _ (State.load_virt ha hw hm hok hparts),
    fun p ps hok hparts => congrArg _ (State.load_virt_ask ha hw hm hok hparts),
    fun hprot => congrArg _ (State.load_virt_prot ha hw hm hprot), fun ps hf => congrArg _ (State.load_virt_fault ha hw hm hf)⟩

end

section
variable {bs : List Byte} (hlen : bs.length = size)
include hlen

/-- A scratch store writes its bytes, or raises what its address asks for. -/
theorem answers_scratchStore (hx : x = .next (s.store c .scratch va bs)) :
    (va.toNat % size = 0 ∧ va.toNat + size ≤ 0x40000 → (∃ tn, (s.core c).turn = some tn ∧ tn.retired < retireMax ∧
        ((tfind tn.kept (va.toNat / 64)).isSome = true ∨ tn.kept.length < 512)) →
      x = .next ((s.scratchWrite c va.toNat bs).setCore c (stepped ((s.scratchWrite c va.toNat bs).core c)))) ∧
    (va.toNat % size ≠ 0 → x = .next (s.exception c .misaligned)) ∧
    (va.toNat % size = 0 → 0x40000 < va.toNat + size → x = .next (s.exception c .scratchRange)) := by
  subst hx hlen
  refine ⟨fun hf ⟨tn, ht, hret, room⟩ => congrArg _ (State.store_scratch hf.1 ht hret hf.2 room),
    fun ha => congrArg _ (State.store_misaligned ha), fun ha ho => congrArg _ (State.store_scratch_outside ha ho)⟩

/-- A store to the virtual range is deferred, or is what its access comes to. -/
theorem answers_virtStore (hx : x = .next (s.store c .virt va bs))
    (hp : va.toNat % size = 0 ∧ va.toNat < cwVa ∧ s.pw.absent.contains 5 = false) :
    (s.access .unit (s.core c).ten [] [(va.toNat, size)] = .ok →
      (∃ tn, (s.core c).turn = some tn ∧ tn.retired < retireMax ∧ tn.lines.length < 1024) →
      x = .next ((s.coreWrite c (s.core c).ten va.toNat bs).setCore c
        (stepped ((s.coreWrite c (s.core c).ten va.toNat bs).core c)))) ∧
    (s.access .unit (s.core c).ten [] [(va.toNat, size)] = .prot → x = .next (s.exception c .protection)) ∧
    (∀ ps, s.access .unit (s.core c).ten [] [(va.toNat, size)] = .fault ps → x = .next (s.coreFault c .translation ps)) := by
  obtain ⟨ha, hw, -⟩ := hp
  subst hx hlen
  exact ⟨fun hok ⟨tn, ht, hret, room⟩ => congrArg _ (State.store_virt ha ht hret hw hok room),
    fun hprot => congrArg _ (State.store_virt_prot ha hw hprot), fun ps hf => congrArg _ (State.store_virt_fault ha hw hf)⟩

end

end

/-- The turn of a core that runs an instruction, with what is known of it. -/
theorem exists_turn_of_runs {s : State} {c : Nat} {op : CoreOp} (h : runs s c op = true) {p : Turn → Prop}
    (hp : match (s.core c).turn with
      | some t => p t
      | none => False) : ∃ tn, (s.core c).turn = some tn ∧ tn.retired < retireMax ∧ p tn := by
  obtain ⟨-, -, -, tn, ht, hret⟩ := of_runs h
  exact ⟨tn, ht, hret, by rwa [ht] at hp⟩

/-! ## The obligations -/

/-- Settles O12: a row is its load or store, which raises, reads or writes by the address. -/
theorem scratchAccessesLoadAndStore : Obligations.ScratchAccessesLoadAndStore := by
  intro s c corr parity r b off k addr fits roomy stored bad
  refine ⟨fun f h => answers_scratchLoad (execMemLd_of_runs h), fun f h => ?st, fun h => answers_scratchLoad (execMemVld_of_runs h),
    fun h => ?vst⟩
  case st =>
    obtain ⟨stores, raises⟩ := answers_scratchStore (length_leBytes _ _) (execMemSt_of_runs h)
    exact ⟨fun hf hr => stores hf (exists_turn_of_runs h hr), raises⟩
  case vst =>
    obtain ⟨stores, raises⟩ := answers_scratchStore (length_leBytes _ _) (execMemVst_of_runs h)
    exact ⟨fun hf hr => stores hf (exists_turn_of_runs h hr), raises⟩

/-- Settles O13: a scratch store is one run of bytes written at its address of the bank. -/
theorem scratchStoreChangesOnlyItsBytes : Obligations.ScratchStoreChangesOnlyItsBytes := by
  intro s c f r b off tn k a lo h hm ht hkept ha hfit
  have hlen := length_leBytes f.size (k.rd r).toNat
  obtain ⟨-, -, -, tn', ht', hret⟩ := of_runs h
  obtain rfl : tn = tn' := Option.some.inj (ht.symm.trans ht')
  have stores := (execMemSt_of_runs h).trans
    (congrArg Host.Outcome.next (State.store_scratch (hlen.symm ▸ ha) ht hret (hlen.symm ▸ hfit) (.inr hkept)))
  have written (x : Nat) : (s.scratchWrite c a (leBytes f.size (k.rd r).toNat)).byte x =
      if lo ≤ x then ((leBytes f.size (k.rd r).toNat)[x - lo]?).getD (s.byte x) else s.byte x :=
    State.byte_writeRun (s := s.setCore c _) hm lo x _
  refine ⟨_, stores, State.writeRun_wf (s := s.setCore c _) hm lo _, fun x h1 h2 => ?_, fun x hx => ?_, fun d hd => ?_, rfl, rfl, rfl⟩
  · rw [State.setCore_byte, written, if_pos h1, getElem?_leBytes (by omega), Option.getD_some]
  · rw [State.setCore_byte, written]
    split
    · rw [List.getElem?_eq_none (by omega), Option.getD_none]
    · rfl
  · rw [State.core_setCore, if_neg hd]
    exact (State.core_setCore s c d _).trans (if_neg hd)

/-- Settles O14: a row is its load or store, which is what the access of the pages comes to. -/
theorem virtualAccessesReachOrKill : Obligations.VirtualAccessesReachOrKill := by
  intro s c corr parity r b off k addr plain loaded parts asks stored roomy kills rd wr
  refine ⟨fun f h hp => answers_virtLoad (execMemLd_of_runs h) hp, fun f h hp => ?st,
    fun h hp => answers_virtLoad (execMemVld_of_runs h) hp, fun h hp => ?vst⟩
  case st =>
    obtain ⟨stores, stops⟩ := answers_virtStore (length_leBytes _ _) (execMemSt_of_runs h) hp
    exact ⟨fun hok hr => stores hok (exists_turn_of_runs h hr), stops⟩
  case vst =>
    obtain ⟨stores, stops⟩ := answers_virtStore (length_leBytes _ _) (execMemVst_of_runs h) hp
    exact ⟨fun hok hr => stores hok (exists_turn_of_runs h hr), stops⟩

end Sys2Proof.Machine
end

section
/-!
PROOFS. Turns, waits and core state registers (03 R51 to R56, R77 to R79, 04 R97).
-/

namespace Sys2Proof.Machine
open Sys2Proof.Claims

/-! ## Entries set twice -/

theorem tset_tset {α : Type} (t : Tab α) (i : Nat) (x y : α) : tset (tset t i x) i y = tset t i y := by
  induction t with
  | nil => simp [tset]
  | cons p t ih =>
    obtain ⟨k, v⟩ := p
    by_cases h1 : i = k
    · simp [tset, h1]
    · by_cases h2 : i < k
      · simp [tset, h1, h2]
      · simp [tset, h1, h2, ih]

/-- A core set twice is as set last. -/
theorem State.setCore_setCore (s : State) (c : Nat) (k k' : Core) : (s.setCore c k).setCore c k' = s.setCore c k' := by
  simp only [State.setCore, tset_tset]

theorem State.core_setCore_same (s : State) (c : Nat) (k : Core) : (s.setCore c k).core c = k := by
  rw [State.core_setCore, if_pos rfl]

/-! ## The ends of a turn (03 R52, R54, R72) -/

section
variable {s : State} {c : Nat}

/-- A core that completes an instruction and changes with it. -/
theorem State.retireNext_setCore (k : Core) (f : Core → Core) :
    (s.retireNext c k).setCore c (f ((s.retireNext c k).core c)) = s.setCore c (f (stepped k)) := by
  change (s.setCore c (stepped k)).setCore c (f ((s.setCore c (stepped k)).core c)) = _
  rw [State.core_setCore_same, State.setCore_setCore]

theorem execSyncCommit_of_runs (h : runs s c .commit = true) :
    execSyncCommit c s = .next (s.setCore c ((stepped (s.core c)).endTurn .plain).startTurn) :=
  ((coreRow_inRoom h rfl).trans rfl).trans
    (congrArg _ (State.retireNext_setCore (s.core c) fun k => (k.endTurn .plain).startTurn))

theorem execSyncHalt_of_runs (h : runs s c .halt = true) :
    execSyncHalt c s = .next (s.setCore c ((stepped (s.core c)).endTurn .halt)) :=
  ((coreRow_inRoom h rfl).trans rfl).trans (congrArg _ (State.retireNext_setCore (s.core c) fun k => k.endTurn .halt))

section
variable {a : Reg} (h : runs s c (.bar a) = true)
include h

theorem execSyncBar_held (hb : (s.core c).bars.contains (c / 32, ((s.core c).rd a).toNat) = true) :
    execSyncBar c s = .next (s.setCore c { (stepped (s.core c)).endTurn (.barrier (c / 32) ((s.core c).rd a).toNat) with
      mode := .waiting, wait := .barrier (c / 32) ((s.core c).rd a).toNat }) := by
  refine (coreRow_inRoom h rfl).trans ?_
  simp only [hb, Bool.not_true, Bool.false_eq_true, if_false]
  exact congrArg _ (State.retireNext_setCore (s.core c) fun k => { k.endTurn (.barrier (c / 32) ((s.core c).rd a).toNat) with
    mode := .waiting, wait := .barrier (c / 32) ((s.core c).rd a).toNat })

theorem execSyncBar_foreign (hb : (s.core c).bars.contains (c / 32, ((s.core c).rd a).toNat) = false) :
    execSyncBar c s = .next (s.exception c .handle) := by
  refine (coreRow_inRoom h rfl).trans ?_
  simp only [hb, Bool.not_false, if_true]

end

end

/-- Settles O15: each row ends the turn as its rule says, and a stalled core begins its turn where there is room. -/
theorem turnsEndAndBegin : Obligations.TurnsEndAndBegin := by
  intro s c k
  refine ⟨execSyncCommit_of_runs, execSyncHalt_of_runs, fun a h => ⟨execSyncBar_held h, execSyncBar_foreign h⟩,
    fun hc hw hl => ?_⟩
  refine (if_neg (Nat.not_le.2 hc)).trans (if_pos ⟨hw, hl⟩)

/-! ## Waits and aborts (03 R77, R78, 04 R97) -/

section
variable {s : State} {c : Nat}

/-- A core that ends its turn and waits. -/
theorem State.waitFor_eq (w : Wait) : s.waitFor c w =
    (s.setCore c (stepped (s.core c))).setCore c { (stepped (s.core c)).endTurn .plain with mode := .waiting, wait := w } := by
  change (s.setCore c (stepped (s.core c))).setCore c { ((s.setCore c (stepped (s.core c))).core c).endTurn .plain with
    mode := .waiting, wait := w } = _
  rw [State.core_setCore_same]

theorem Core.rangeBad_iff (k : Core) (f l : Nat) : k.rangeBad f l = true ↔
    qOf f ≠ qOf l ∨ k.handles.contains (qOf f) = false ∨ (seqOf f ≤ seqOf l ∧ k.issued l = false) := by
  simp [Core.rangeBad, or_assoc]

theorem execCmdWait_of_runs {d a : Reg} (h : runs s c (.wait d a) = true) :
    execCmdWait c s = .next (if (s.core c).issued ((s.core c).rd a).toNat then s.waitFor c (.ticket d.toNat ((s.core c).rd a).toNat)
      else s.exception c .handle) :=
  (coreRow_inRoom h rfl).trans rfl

theorem execCmdWaitall_of_runs {d a b : Reg} (h : runs s c (.waitAll d a b) = true) :
    execCmdWaitall c s = .next (if (s.core c).rangeBad ((s.core c).rd a).toNat ((s.core c).rd b).toNat then s.exception c .handle
      else s.waitFor c (.range d.toNat ((s.core c).rd a).toNat ((s.core c).rd b).toNat)) :=
  (coreRow_inRoom h rfl).trans rfl

/-- A core with an abort of a range of tickets deferred in its turn. -/
def Core.deferAbort (k : Core) (f l : Nat) : Core := k.onTurn fun t => { t with aborts := t.aborts ++ [(f, l)] }

theorem execCmdAbort_of_runs {a b : Reg} (h : runs s c (.abort a b) = true) :
    execCmdAbort c s = .next (if (s.core c).rangeBad ((s.core c).rd a).toNat ((s.core c).rd b).toNat then s.exception c .handle
      else (s.setCore c (stepped ((s.core c).deferAbort ((s.core c).rd a).toNat ((s.core c).rd b).toNat))).setCore c
        ((stepped ((s.core c).deferAbort ((s.core c).rd a).toNat ((s.core c).rd b).toNat)).endTurn .plain).startTurn) := by
  refine (coreRow_inRoom h rfl).trans (congrArg _ ?_)
  refine ite_congr rfl (fun _ => rfl) fun _ => ?_
  rw [State.setCore_setCore]
  exact State.retireNext_setCore _ fun k => (k.endTurn .plain).startTurn

/-- A wait whose result is there returns it. -/
theorem execCmdWaitReturn_result (hc : c < 256) (hm : (s.core c).mode = .waiting) {d x : Nat}
    (hr : s.waitResult (s.core c).wait = some (d, x)) : execCmdWaitReturn c s = .next (s.setCore c
      ({ s.core c with mode := .running, wait := .none }.wr (BitVec.ofNat 5 d) (BitVec.ofNat 64 x)).startTurn) := by
  unfold execCmdWaitReturn
  rw [if_neg (Nat.not_le.2 hc)]
  simp only [hm, ne_eq, not_true_eq_false, if_false, hr]

theorem execCmdWaitReturn_none (hc : c < 256) (hr : s.waitResult (s.core c).wait = none) : execCmdWaitReturn c s = .next s := by
  unfold execCmdWaitReturn
  rw [if_neg (Nat.not_le.2 hc)]
  simp only [hr, ite_self]

/-- What a wait on a ticket returns. -/
theorem State.waitResult_ticket {d t : Nat} {m : Cmd} (hc : s.cmd t = some m) : s.waitResult (.ticket d t) =
    if m.st = .committed then some (d, m.record) else if m.st = .void then some (d, voidWord) else none := by
  simp only [State.waitResult, hc]

/-- What a wait on a range returns. -/
theorem State.waitResult_range (d f l : Nat) : s.waitResult (.range d f l) =
    if seqOf l < seqOf f then some (d, 0) else if (upto f (l - f + 1)).all s.isOver then some (d, l - f + 1) else none := rfl

end

/-- Settles O19: the checks of R77 and R97 decide between the exception and the end of the turn, and a wait returns its result once it has one. -/
theorem waitsEndTheTurnAndReturn : Obligations.WaitsEndTheTurnAndReturn := by
  intro s c d a b k f l badRange waits back
  have range : k.rangeBad f l = true ↔ badRange := k.rangeBad_iff f l
  refine ⟨fun h => ⟨fun hi => ?wait, fun hi => ?waitBad⟩, fun h => ⟨fun hg => ?waitAll, fun hb => ?waitAllBad⟩,
    fun h => ⟨fun hb => ?abortBad, fun hg => ?abort⟩, fun hc hm => ⟨fun r t m hw ht hst => ?ticket, fun r f l hw hl => ?empty,
      fun r f l hw hl hall => ?range, fun r t m hw ht hst hst' => ?pending⟩⟩
  case wait => exact (execCmdWait_of_runs h).trans (congrArg _ ((if_pos hi).trans (State.waitFor_eq _)))
  case waitBad => exact (execCmdWait_of_runs h).trans (congrArg _ (if_neg (by rw [show (s.core c).issued _ = _ from hi]; decide)))
  case waitAll => exact (execCmdWaitall_of_runs h).trans (congrArg _ ((if_neg (mt range.1 hg)).trans (State.waitFor_eq _)))
  case waitAllBad => exact (execCmdWaitall_of_runs h).trans (congrArg _ (if_pos (range.2 hb)))
  case abortBad => exact (execCmdAbort_of_runs h).trans (congrArg _ (if_pos (range.2 hb)))
  case abort => exact (execCmdAbort_of_runs h).trans (congrArg _ (if_neg (mt range.1 hg)))
  case ticket =>
    refine execCmdWaitReturn_result hc hm ?_
    rw [show (s.core c).wait = _ from hw, State.waitResult_ticket ht, if_pos hst]
  case empty =>
    refine execCmdWaitReturn_result hc hm ?_
    rw [show (s.core c).wait = _ from hw, State.waitResult_range, if_pos hl]
  case range =>
    refine execCmdWaitReturn_result hc hm ?_
    rw [show (s.core c).wait = _ from hw, State.waitResult_range, if_neg (Nat.not_lt.2 hl), if_pos hall]
  case pending =>
    refine execCmdWaitReturn_none hc ?_
    rw [show (s.core c).wait = _ from hw, State.waitResult_ticket ht, if_neg hst, if_neg hst']

/-! ## Core state registers (03 R79, Table 3.9) -/

section
variable {s : State} {c : Nat}

theorem State.sysReg_unlisted {n : Nat} (h : 6 ≤ n) : s.sysReg c n = none := by
  obtain ⟨m, rfl⟩ : ∃ m, n = m + 6 := ⟨n - 6, by omega⟩
  rfl

theorem execSysRd_listed {d a : Reg} (h : runs s c (.sysRd d a) = true) {x : Word} (hx : s.sysReg c ((s.core c).rd a).toNat = some x) :
    execSysRd c s = .next (s.setCore c (stepped ((s.core c).wr d x))) := by
  refine (coreRow_inRoom h rfl).trans ?_
  simp only [hx]
  rfl

theorem execSysRd_unlisted {d a : Reg} (h : runs s c (.sysRd d a) = true) (hx : s.sysReg c ((s.core c).rd a).toNat = none) :
    execSysRd c s = .next (s.exception c .illegal) := by
  refine (coreRow_inRoom h rfl).trans ?_
  simp only [hx]

theorem execSysWr_of_runs {a b : Reg} (h : runs s c (.sysWr a b) = true) : execSysWr c s = .next (
    if 6 ≤ ((s.core c).rd a).toNat then s.exception c .illegal
    else if ((s.core c).rd a).toNat = 4 then s.setCore c (stepped ((s.core c).onTurn fun t => { t with arg := some ((s.core c).rd b) }))
    else s.setCore c (stepped (s.core c))) :=
  (coreRow_inRoom h rfl).trans rfl

end

/-- Settles O22: the number named picks the register, the exception or, for a write, whether it is TASK_ARG. -/
theorem coreStateRegistersReadAndWrite : Obligations.CoreStateRegistersReadAndWrite := by
  intro s c d a b k n
  refine ⟨fun h => ⟨fun x hx => execSysRd_listed h hx, fun hn => execSysRd_unlisted h (State.sysReg_unlisted hn)⟩,
    ⟨rfl, rfl, rfl, rfl, rfl⟩, fun h => ⟨fun hn => ?arg, fun hn hn' => ?readOnly, fun hn => ?unlisted⟩⟩
  case arg => exact (execSysWr_of_runs h).trans (congrArg _ ((if_neg (show ¬ 6 ≤ n by omega)).trans (if_pos hn)))
  case readOnly => exact (execSysWr_of_runs h).trans (congrArg _ ((if_neg (show ¬ 6 ≤ n by omega)).trans (if_neg hn')))
  case unlisted => exact (execSysWr_of_runs h).trans (congrArg _ (if_pos hn))

end Sys2Proof.Machine
end

section
/-!
PROOFS. Command issue and barriers (03 R72, R75, R76, 04 R85).
-/

namespace Sys2Proof.Machine
open Sys2Proof.Claims

/-! ## What an update of a core leaves alone -/

section
variable (k : Core)

/-- A change of the latest turn changes only the turns. -/
theorem Core.onTurn_spec (f : Turn → Turn) : k.onTurn f = { k with turns := (k.onTurn f).turns } := by
  unfold Core.onTurn
  split <;> rfl

@[simp] theorem Core.onTurn_g (f : Turn → Turn) : (k.onTurn f).g = k.g := by rw [k.onTurn_spec f]
@[simp] theorem Core.onTurn_counts (f : Turn → Turn) : (k.onTurn f).counts = k.counts := by rw [k.onTurn_spec f]
@[simp] theorem Core.wentOn_g (pc : Word) : (wentOn k pc).g = k.g := Core.onTurn_g _ _
@[simp] theorem Core.wentOn_counts (pc : Word) : (wentOn k pc).counts = k.counts := Core.onTurn_counts _ _
@[simp] theorem Core.endTurn_g (e : TurnEnd) : (k.endTurn e).g = k.g := k.onTurn_g _
@[simp] theorem Core.endTurn_counts (e : TurnEnd) : (k.endTurn e).counts = k.counts := k.onTurn_counts _

@[simp] theorem Core.startTurn_g : k.startTurn.g = k.g := by
  unfold Core.startTurn
  split <;> rfl

@[simp] theorem Core.startTurn_counts : k.startTurn.counts = k.counts := by
  unfold Core.startTurn
  split <;> rfl

/-- A core that begins a turn waits for nothing, or for its older turn. -/
theorem Core.startTurn_wait : k.startTurn.wait = .none ∨ k.startTurn.wait = .turn := by
  unfold Core.startTurn
  split
  · exact .inl rfl
  · exact .inr rfl

@[simp] theorem Core.wr_counts (r : Reg) (x : Word) : (k.wr r x).counts = k.counts := by
  unfold Core.wr
  split <;> rfl

theorem Core.rd_congr {k k' : Core} (h : k.g = k'.g) (r : Reg) : k.rd r = k'.rd r := by simp only [Core.rd, h]

theorem Core.rd_wr {r : Reg} (h : r ≠ 0) (x : Word) : (k.wr r x).rd r = x := by
  simp only [Core.rd, Core.wr, if_neg h, tget_tset, if_true]

end

/-! ## Commands outstanding (04 R85) -/

/-- What a list of a table's entries comes to is as before when an entry is set to a value that comes to the same. -/
theorem map_tset {α β : Type} {f : Nat × α → β} {t : Tab α} {i : Nat} {v x : α} (h : tfind t i = some v) (hf : f (i, x) = f (i, v)) :
    (tset t i x).map f = t.map f := by
  induction t with
  | nil => simp [tfind] at h
  | cons p t ih =>
    obtain ⟨k, w⟩ := p
    unfold tfind at h
    unfold tset
    split at h
    · rename_i hk
      obtain rfl := Option.some.inj h
      rw [if_pos hk, List.map_cons, List.map_cons, hf, hk]
    · rename_i hk
      split at h
      · simp at h
      · rename_i hl
        rw [if_neg hk, if_neg hl, List.map_cons, List.map_cons, ih h]

/-- The commands of a queue that are outstanding depend on a listed core's turns only. -/
theorem State.outstanding_setCore (s : State) {c : Nat} {k k' : Core} (q : Nat) (h : tfind s.x.cores c = some k)
    (ht : k'.turns = k.turns) : (s.setCore c k').outstanding q = s.outstanding q := by
  unfold State.outstanding State.setCore
  rw [map_tset h (by rw [ht])]

/-! ## cmd.issue (03 R75, R76) -/

section
variable {s : State} {c : Nat} {d a b : Reg}

theorem execCmdIssue_of_runs (h : runs s c (.issue d a b) = true) : execCmdIssue c s = .next (s.issue c d a b) :=
  (coreRow_inRoom h rfl).trans rfl

/-- A core with the next ticket of a queue in d and its command's issue deferred in the turn. -/
def Core.deferIssue (k : Core) (d : Reg) (q : Nat) (ws : List Nat) : Core :=
  ({ k with wait := .none, counts := tset k.counts q (tget k.counts q 0 + 1) }.onTurn fun t =>
    { t with issues := t.issues ++ [PendIssue.mk q (tget k.counts q 0) ws ((dDeps ws).any fun t => !k.issued t)] }).wr d
    (BitVec.ofNat 64 (ticket q (tget k.counts q 0)))

theorem State.issue_error {e : Exc} (h : s.issueCheck c ((s.core c).rd b).toNat ((s.core c).rd a).toNat = .error e) :
    s.issue c d a b = s.exception c e := by
  unfold State.issue
  simp only [h]

section
variable {ws : List Nat} (h : s.issueCheck c ((s.core c).rd b).toNat ((s.core c).rd a).toNat = .ok ws) {qu : Queue}
  (hq : s.queue ((s.core c).rd b).toNat = some qu)
include h hq

theorem State.issue_stall (hfull : qu.maxOut ≤ s.outstanding ((s.core c).rd b).toNat) :
    s.issue c d a b = s.setCore c { s.core c with wait := .issue } := by
  unfold State.issue
  simp only [h, hq, Nat.not_lt.2 hfull, decide_false, Bool.not_false, if_true]

theorem State.issue_room (hroom : s.outstanding ((s.core c).rd b).toNat < qu.maxOut) :
    s.issue c d a b =
      s.setCore c ((stepped ((s.core c).deferIssue d ((s.core c).rd b).toNat ws)).endTurn .plain).startTurn := by
  unfold State.issue
  simp only [h, hq, hroom, decide_true, Bool.not_true, Bool.false_eq_true, if_false]
  exact State.retireNext_setCore _ fun k => (k.endTurn .plain).startTurn

end

section
variable {q at_ : Nat}

theorem State.issueCheck_foreign (hh : (s.core c).handles.contains q = false) : s.issueCheck c q at_ = .error .handle := by
  unfold State.issueCheck
  simp only [hh, Bool.not_false, if_true]

variable (hh : (s.core c).handles.contains q = true)
include hh

theorem State.issueCheck_misaligned (ha : at_ % 8 ≠ 0) : s.issueCheck c q at_ = .error .misaligned := by
  unfold State.issueCheck
  simp only [hh, ha, Bool.not_true, Bool.false_eq_true, if_false, ne_eq, not_false_eq_true, if_true]

variable (ha : at_ % 8 = 0)
include ha

theorem State.issueCheck_outside
    (ho : 0x40000 < at_ + 8 ∨ 0x40000 < at_ + 8 * bits (ofLe (s.scratch c at_ 8)) 8 8) :
    s.issueCheck c q at_ = .error .scratchRange := by
  unfold State.issueCheck scratchBytes
  simp only [hh, ha, Bool.not_true, Bool.false_eq_true, if_false, ne_eq, not_true_eq_false]
  split
  · rfl
  · rw [if_pos (ho.resolve_left ‹_›)]

variable (hfit : at_ + 8 ≤ 0x40000) (hfit' : at_ + 8 * bits (ofLe (s.scratch c at_ 8)) 8 8 ≤ 0x40000)
include hfit hfit'

theorem State.issueCheck_eq : s.issueCheck c q at_ =
    if ofLe (s.scratch c at_ 8) % 256 ≠ 1 ∨ bits (ofLe (s.scratch c at_ 8)) 8 8 < 2 ∨ 64 < bits (ofLe (s.scratch c at_ 8)) 8 8
    then .error .descriptor
    else .ok (wordsOf (bits (ofLe (s.scratch c at_ 8)) 8 8) (s.scratch c at_ (8 * bits (ofLe (s.scratch c at_ 8)) 8 8))) := by
  unfold State.issueCheck scratchBytes
  simp only [hh, ha, Bool.not_true, Bool.false_eq_true, if_false, ne_eq, not_true_eq_false, Nat.not_lt.2 hfit, Nat.not_lt.2 hfit']

end

/-- A core that no longer stalls. -/
def Core.awake (k : Core) : Core := { k with wait := .none }

/-- A core that waits is listed. -/
theorem State.listed_of_wait (h : (s.core c).wait ≠ .none) : tfind s.x.cores c = some (s.core c) := by
  unfold State.core tget at h ⊢
  cases hf : tfind s.x.cores c with
  | some k => rfl
  | none => simp [hf] at h

/-- A core that no longer stalls issues as it would have with room at first. -/
theorem State.issue_awake {ws : List Nat} {qu : Queue}
    (h : s.issueCheck c ((s.core c).rd b).toNat ((s.core c).rd a).toNat = .ok ws) (hq : s.queue ((s.core c).rd b).toNat = some qu)
    (listed : tfind s.x.cores c = some (s.core c)) (hroom : s.outstanding ((s.core c).rd b).toNat < qu.maxOut) :
    (s.setCore c (s.core c).awake).issue c d a b =
      s.setCore c ((stepped ((s.core c).deferIssue d ((s.core c).rd b).toNat ws)).endTurn .plain).startTurn := by
  have hcore := s.core_setCore_same c (s.core c).awake
  have checks : ∀ q at_, (s.setCore c (s.core c).awake).issueCheck c q at_ = s.issueCheck c q at_ := fun q at_ => by
    simp only [State.issueCheck, State.scratch, hcore]
    rfl
  have issued := State.issue_room (s := s.setCore c (s.core c).awake) (c := c) (d := d) (a := a) (b := b) (ws := ws) (qu := qu)
  rw [hcore, checks, s.outstanding_setCore (k' := (s.core c).awake) _ listed rfl, State.setCore_setCore] at issued
  exact issued h hq hroom

/-- A stalled issue goes on once its queue has room. -/
theorem execCmdIssueStallEnd_room (hc : c < 256) (hw : (s.core c).wait = .issue) (hf : (s.core c).fetch = some (.issue d a b)) {qu : Queue}
    (hq : s.queue ((s.core c).rd b).toNat = some qu) (hroom : s.outstanding ((s.core c).rd b).toNat < qu.maxOut) :
    execCmdIssueStallEnd c s = .next ((s.setCore c (s.core c).awake).issue c d a b) := by
  unfold execCmdIssueStallEnd
  rw [if_neg (Nat.not_le.2 hc)]
  simp only [hw, ne_eq, not_true_eq_false, if_false, hf, hq, hroom, if_true]
  rfl

end

/-- Settles O18: the checks of R75 one by one, then the stall or the issue; a stall's end issues from the same core, which waits no more. -/
theorem issueChecksThenDefers : Obligations.IssueChecksThenDefers := by
  intro s c d a b qu k q at_ w0 len seq words bad done ok
  have checked (h : ok) : s.issueCheck c q at_ = .ok words := by
    obtain ⟨hh, ha, hfit, hver, hlen, hlen'⟩ := h
    rw [State.issueCheck_eq hh ha (by omega) (show at_ + 8 * len ≤ 0x40000 by omega)]
    exact if_neg (show ¬ (w0 % 256 ≠ 1 ∨ len < 2 ∨ 64 < len) by omega)
  refine ⟨fun h => ⟨fun hh => ?foreign, fun hh ha => ?misaligned, fun hh ha ho => ?outside, fun hh ha hfit hfit' hbad => ?descriptor,
    fun hok hq hfull => ?stall, fun hok hq hroom => ?room⟩, fun hc hw hf hok hq hroom => ?stallEnd⟩
  case foreign => exact (execCmdIssue_of_runs h).trans (congrArg _ (State.issue_error (State.issueCheck_foreign hh)))
  case misaligned => exact (execCmdIssue_of_runs h).trans (congrArg _ (State.issue_error (State.issueCheck_misaligned hh ha)))
  case outside => exact (execCmdIssue_of_runs h).trans (congrArg _ (State.issue_error (State.issueCheck_outside hh ha ho)))
  case descriptor =>
    exact (execCmdIssue_of_runs h).trans
      (congrArg _ (State.issue_error ((State.issueCheck_eq hh ha hfit hfit').trans (if_pos hbad))))
  case stall => exact (execCmdIssue_of_runs h).trans (congrArg _ (State.issue_stall (checked hok) hq hfull))
  case room =>
    refine (execCmdIssue_of_runs h).trans (congrArg _ ((State.issue_room (checked hok) hq hroom).trans ?_))
    rw [State.setCore_setCore]
    rfl
  case stallEnd =>
    have listed : tfind s.x.cores c = some k := State.listed_of_wait (by rw [show (s.core c).wait = _ from hw]; decide)
    refine ⟨_, (execCmdIssueStallEnd_room hc hw hf hq hroom).trans
      (congrArg _ (State.issue_awake (checked hok) hq listed hroom)), ?_, ?_, fun hd => ?_, rfl, rfl, rfl⟩
    · rw [State.core_setCore_same]
      rcases Core.startTurn_wait ((stepped (k.deferIssue d q words)).endTurn .plain) with h | h <;> exact h ▸ by decide
    · rw [State.core_setCore_same]
      simp [stepped, Core.deferIssue, tget_tset, q, seq, k]
    · rw [State.core_setCore_same, Core.rd_congr (k' := k.deferIssue d q words) (by simp [stepped, k, q])]
      exact Core.rd_wr _ hd _

end Sys2Proof.Machine
end

section
/-!
PROOFS. Barriers and wells (03 R72, R73, 04 R103, R107).
-/

namespace Sys2Proof.Machine
open Sys2Proof.Claims

/-! ## The release of a barrier (03 R72) -/

section
variable (ham num : Nat)

/-- A core that waits at a barrier goes on in a new turn; any other stands. -/
def State.releaseCore (s : State) (c : Nat) : State :=
  if (s.core c).wait = .barrier ham num then s.setCore c ({ s.core c with mode := .running } : Core).startTurn else s

theorem State.releaseCore_eq_setCore (s : State) (c : Nat) : ∃ k, s.releaseCore ham num c = s.setCore c k ∨ s.releaseCore ham num c = s := by
  unfold State.releaseCore
  split
  · exact ⟨_, .inl rfl⟩
  · exact ⟨s.core c, .inr rfl⟩

theorem State.core_releaseCore_other (s : State) {c d : Nat} (h : d ≠ c) : (s.releaseCore ham num c).core d = s.core d := by
  obtain ⟨k, hk | hk⟩ := s.releaseCore_eq_setCore ham num c
  · rw [hk, State.core_setCore, if_neg h]
  · rw [hk]

theorem State.core_releaseCore_same (s : State) {c : Nat} (h : (s.core c).wait = .barrier ham num) :
    (s.releaseCore ham num c).core c = ({ s.core c with mode := .running } : Core).startTurn := by
  rw [State.releaseCore, if_pos h, State.core_setCore_same]

/-- Cores released one after another change only cores. -/
theorem State.foldl_releaseCore_spec (l : List Nat) (s : State) :
    ∃ cs, l.foldl (State.releaseCore ham num) s = { s with x := { s.x with cores := cs } } := by
  induction l generalizing s with
  | nil => exact ⟨_, rfl⟩
  | cons c l ih =>
    obtain ⟨cs, hcs⟩ := ih (s.releaseCore ham num c)
    obtain ⟨k, hk | hk⟩ := s.releaseCore_eq_setCore ham num c
    · exact ⟨cs, by rw [List.foldl_cons, hcs, hk]; rfl⟩
    · exact ⟨cs, by rw [List.foldl_cons, hcs, hk]⟩

theorem State.core_foldl_releaseCore_other {l : List Nat} {d : Nat} (h : d ∉ l) (s : State) :
    (l.foldl (State.releaseCore ham num) s).core d = s.core d := by
  induction l generalizing s with
  | nil => rfl
  | cons c l ih =>
    obtain ⟨hc, hl⟩ := not_or.1 (mt List.mem_cons.2 h)
    rw [List.foldl_cons, ih hl, State.core_releaseCore_other ham num s hc]

theorem State.core_foldl_releaseCore_mem {l : List Nat} (nodup : l.Nodup) {d : Nat} (h : d ∈ l) {s : State}
    (hw : (s.core d).wait = .barrier ham num) :
    (l.foldl (State.releaseCore ham num) s).core d = ({ s.core d with mode := .running } : Core).startTurn := by
  induction l generalizing s with
  | nil => simp at h
  | cons c l ih =>
    obtain ⟨hc, hl⟩ := List.nodup_cons.1 nodup
    rw [List.foldl_cons]
    by_cases hd : d = c
    · subst hd
      rw [State.core_foldl_releaseCore_other ham num hc, State.core_releaseCore_same ham num s hw]
    · have same := State.core_releaseCore_other ham num s hd
      rw [ih hl ((List.mem_cons.1 h).resolve_left hd) (by rw [same]; exact hw), same]

end

/-- A state with a barrier emptied. -/
def State.emptyBar (s : State) (i : Nat) (b : Bar) : State := { s with x := { s.x with bars := tset s.x.bars i { b with arrived := [] } } }

section
variable {s : State} {ham num : Nat} {b : Bar} (hh : ham < 8) (hn : num < 16)
  (hb : tfind s.x.bars (barKey (s.get (R.HAM_CTL_TEN ham)) ham num) = some b)
include hh hn hb

theorem execBarrierRelease_eq : execBarrierRelease ham num s = .next (if b.arrived.length < b.count then s else
    b.arrived.foldl (State.releaseCore ham num) (s.emptyBar (barKey (s.get (R.HAM_CTL_TEN ham)) ham num) b)) := by
  unfold execBarrierRelease
  rw [if_neg (by omega)]
  simp only [hb]
  split <;> rfl

end

/-- Settles O17: while too few have arrived the row does nothing; then it empties the barrier and releases the cores one by one, each of which
is touched once. -/
theorem barrierReleasesAllWhenCountArrives : Obligations.BarrierReleasesAllWhenCountArrives := by
  intro s ham num b hh hn key hb
  have released := execBarrierRelease_eq hh hn hb
  refine ⟨fun few => released.trans (congrArg _ (if_pos few)), fun enough nodup => ?_⟩
  obtain ⟨cs, hcs⟩ := State.foldl_releaseCore_spec ham num b.arrived (s.emptyBar key b)
  refine ⟨_, released.trans (congrArg _ (if_neg (Nat.not_lt.2 enough))), ?_, fun c hc hw => ?_, fun c hc => ?_, ?_, ?_, ?_⟩
  · rw [hcs]
    exact (tfind_tset _ _ _ _).trans (if_pos rfl)
  · exact State.core_foldl_releaseCore_mem ham num nodup hc (s := s.emptyBar key b) hw
  · exact State.core_foldl_releaseCore_other ham num hc (s.emptyBar key b)
  all_goals
    rw [hcs]
    rfl

/-! ## The draw of a core (03 R73) -/

section
variable {s : State} {c : Nat} {d a : Reg}

theorem State.coreDraw_unlisted (h : 128 ≤ ((s.core c).rd a).toNat) : s.coreDraw c d a = s.exception c .handle := if_pos h

section
variable (h : ((s.core c).rd a).toNat < 128)
include h

theorem State.coreDraw_foreign (hm : s.wellMine ((s.core c).rd a).toNat (s.core c).ten = false) : s.coreDraw c d a =
    (s.raiseAt (R.WEL_ERR_FOREIGN ((s.core c).rd a).toNat) (some (s.core c).ten) ((s.core c).rd a).toNat noTicket).exception c .handle :=
  (if_neg (Nat.not_le.2 h)).trans (if_pos (by rw [hm]; rfl))

variable (hm : s.wellMine ((s.core c).rd a).toNat (s.core c).ten = true)
include hm

theorem State.coreDraw_notHeld (hw : (s.core c).wells.contains ((s.core c).rd a).toNat = false) :
    s.coreDraw c d a = s.exception c .handle :=
  (if_neg (Nat.not_le.2 h)).trans ((if_neg (by rw [hm]; decide)).trans (if_pos (by rw [hw]; rfl)))

/-- A core that takes what its draw gives. -/
def State.tookDraw (s : State) (c : Nat) (d : Reg) (v : Word) : State :=
  s.setCore c (stepped (({ s.core c with wait := .none }.onTurn fun t => { t with draws := t.draws + 1 }).wr d v))

/-- What a draw's answer does to the core that drew. -/
def State.answerDraw (s : State) (c : Nat) (d : Reg) : DrawRes → State
  | .value v s' => s'.tookDraw c d (BitVec.ofNat 64 v)
  | .exhausted => s.tookDraw c d (BitVec.allOnes 64)
  | .wait => s.setCore c { s.core c with wait := .draw }

theorem State.coreDraw_held (hw : (s.core c).wells.contains ((s.core c).rd a).toNat = true) {tn : Turn} (ht : (s.core c).turn = some tn)
    (hd : tn.draws < 8) (hr : tn.retired < retireMax) : s.coreDraw c d a = s.answerDraw c d
      (s.draw ((s.core c).rd a).toNat (.turn c tn.num) (unitKey clsCore c) (s.core c).epoch) := by
  refine (if_neg (Nat.not_le.2 h)).trans ((if_neg (by rw [hm]; decide)).trans ((if_neg (by rw [hw]; decide)).trans
    ((State.inRoom_roomy s c _ _ tn ht (decide_eq_false (Nat.not_le.2 hd)) hr).trans ?_)))
  simp only [ht]
  cases s.draw ((s.core c).rd a).toNat (.turn c tn.num) (unitKey clsCore c) (s.core c).epoch <;> rfl

end

end

theorem execWellDrawRetry_turn {s : State} {c : Nat} {d a : Reg} (hw : (s.core c).wait = .draw) (hf : (s.core c).fetch = some (.draw d a)) :
    execWellDrawRetry (.turn c) s = .next (s.coreDraw c d a) := by
  simp only [execWellDrawRetry, hw, hf, if_true]

theorem execWellDrawRetry_cmd {s : State} {t : Nat} {m : Cmd} {q : Queue} (hm : s.cmd t = some m) (hq : s.queue (qOf t) = some q) :
    execWellDrawRetry (.cmd t) s =
      if m.st = .issued ∧ m.drawWait ∧ s.unitTakes q.cls m.unit m.ten ∧ s.mayRun m.ten then
        .next (s.leave t m.unit q { m with drawWait := false }) else .next s := by
  simp only [execWellDrawRetry, hm, hq]

/-! ## The draw of a well (04 R103) -/

theorem least_mem : ∀ {l : List Nat}, l ≠ [] → least l ∈ l
  | [x], _ => List.mem_singleton.2 rfl
  | x :: y :: l, _ => by
    change min x (least (y :: l)) ∈ _
    rcases Nat.le_total x (least (y :: l)) with h | h
    · rw [Nat.min_eq_left h]
      exact List.mem_cons_self
    · rw [Nat.min_eq_right h]
      exact List.mem_cons_of_mem _ (least_mem (List.cons_ne_nil y l))

theorem least_le : ∀ {l : List Nat} {x : Nat}, x ∈ l → least l ≤ x
  | [y], x, h => Nat.le_of_eq (List.mem_singleton.1 h).symm
  | y :: z :: l, x, h => by
    change min y (least (z :: l)) ≤ x
    rcases List.mem_cons.1 h with rfl | h
    · exact Nat.min_le_left _ _
    · exact (Nat.min_le_right _ _).trans (least_le h)

section
variable (s : State) (n v u e : Nat) (dr : Drawer)

theorem State.well_recordLease :
    (s.recordLease n v dr u e).well n = { s.well n with live := (s.well n).live ++ [⟨v, dr, u, e⟩] } := by
  change ((s.setWell n _).put _ _).well n = _
  exact (s.well_setWell n n _).trans (if_pos rfl)

/-- A lease changes of a well's registers the count of draws. -/
theorem State.reg_recordLease {off : Nat} (h : off ≠ R.WEL_CNT n) : (s.recordLease n v dr u e).reg off = s.reg off :=
  State.reg_put_other _ _ _ _ h

/-- What the draw of a well whose leases leave room comes to. -/
theorem State.draw_returned (hl : (s.well n).live.length < 256) (hr : (s.well n).returned ≠ []) :
    s.draw n dr u e = .value (least (s.well n).returned)
      ((s.setWell n { s.well n with returned := (s.well n).returned.erase (least (s.well n).returned) }).recordLease n
        (least (s.well n).returned) dr u e) :=
  (if_neg (Nat.not_le.2 hl)).trans (if_pos hr)

/-- The register WEL_NEXT past a draw of it. -/
def State.wellNext (s : State) (n : Nat) : Nat :=
  if 2 ^ 64 ≤ (s.reg (R.WEL_NEXT n)).toNat + s.get (R.WEL_STEP_STEP n) then (s.reg (R.WEL_LIMIT n)).toNat
  else (s.reg (R.WEL_NEXT n)).toNat + s.get (R.WEL_STEP_STEP n)

theorem State.wellNext_lt : s.wellNext n < 2 ^ 64 := by
  unfold State.wellNext
  split
  · exact (s.reg (R.WEL_LIMIT n)).isLt
  · exact Nat.not_le.1 ‹_›

section
variable (hl : (s.well n).live.length < 256) (hr : (s.well n).returned = [])
include hl hr

theorem State.draw_fresh (hn : (s.reg (R.WEL_NEXT n)).toNat < (s.reg (R.WEL_LIMIT n)).toNat) :
    s.draw n dr u e = .value (s.reg (R.WEL_NEXT n)).toNat
      ((s.setReg (R.WEL_NEXT n) (s.wellNext n)).recordLease n (s.reg (R.WEL_NEXT n)).toNat dr u e) :=
  (if_neg (Nat.not_le.2 hl)).trans ((if_neg (not_not.2 hr)).trans (if_pos hn))

theorem State.draw_spent (hn : (s.reg (R.WEL_LIMIT n)).toNat ≤ (s.reg (R.WEL_NEXT n)).toNat) :
    s.draw n dr u e = if (s.well n).live.any fun l => !s.leaseMine dr l then .wait else .exhausted :=
  (if_neg (Nat.not_le.2 hl)).trans ((if_neg (not_not.2 hr)).trans (if_neg (Nat.not_lt.2 hn)))

end

end

/-- Settles O21: the checks of R73 in their order, then the answer of R103; and R103's own cases. -/
theorem wellDrawGivesValueOrWaits : Obligations.WellDrawGivesValueOrWaits := by
  refine ⟨fun s c d a tn => ?core, fun s n u e dr => ?well⟩
  case core =>
    intro k n took drawn
    have held : drawn (.next (s.coreDraw c d a)) := fun hw h hm ht hd hr => by
      have answered : (Host.Outcome.next : State → Ans) _ = _ := congrArg (Host.Outcome.next : State → Ans) (State.coreDraw_held (d := d) h hm hw ht hd hr)
      exact ⟨fun v s' hv => answered.trans (by rw [hv]; rfl), fun hx => answered.trans (by rw [hx]; rfl),
        fun hx => answered.trans (by rw [hx]; rfl)⟩
    refine ⟨fun h => ?_, fun hw hf => ?_, fun t m q hm hq hst hdw hu hr => ?_⟩
    · have drew : execWellDraw c s = .next (s.coreDraw c d a) := (coreRow_of_runs h rfl).trans rfl
      change (_ → execWellDraw c s = _) ∧ (_ → _ → execWellDraw c s = _) ∧ drawn (execWellDraw c s)
      rw [drew]
      refine ⟨fun hno => congrArg _ ?_, fun hn hm => congrArg _ (State.coreDraw_foreign hn hm), held⟩
      rcases hno with hn | ⟨hm, hw⟩
      · exact State.coreDraw_unlisted hn
      · rcases Nat.lt_or_ge n 128 with hn | hn
        · exact State.coreDraw_notHeld hn hm hw
        · exact State.coreDraw_unlisted hn
    · change drawn (execWellDrawRetry (.turn c) s)
      rw [execWellDrawRetry_turn hw hf]
      exact held
    · exact (execWellDrawRetry_cmd hm hq).trans (if_pos ⟨hst, hdw, hu, hr⟩)
  case well =>
    intro w next limit step
    refine ⟨fun hl => if_pos hl, fun hl hr => ?returned, fun hl hr hn _ => ?fresh, fun hl hr hn => ⟨fun ha => ?wait, fun ha => ?exhausted⟩⟩
    case returned =>
      refine ⟨_, _, s.draw_returned n u e dr hl hr, least_mem hr, fun x hx => least_le hx, ?_, ?_⟩
      all_goals simp [State.well_recordLease, w]
    case fresh =>
      refine ⟨_, s.draw_fresh n u e dr hl hr hn, ?_, ?_, ?_⟩
      · rw [State.reg_recordLease _ _ _ _ _ _ (by simp only [R.WEL_NEXT, R.WEL_CNT]; omega), State.reg_setReg, if_pos rfl, word_toNat,
          Nat.mod_eq_of_lt (s.wellNext_lt n)]
        rfl
      · rw [State.well_recordLease]
        rfl
      · rw [State.well_recordLease]
        exact hr
    case wait => exact (s.draw_spent n u e dr hl hr hn).trans (if_pos ha)
    case exhausted => exact (s.draw_spent n u e dr hl hr hn).trans (if_neg (by rw [show (w.live.any _) = false from ha]; decide))

end Sys2Proof.Machine
end

section
/-!
PROOFS. Kills of turns (02 R28, 03 R54, R55).
-/

namespace Sys2Proof.Machine
open Sys2Proof.Claims

/-! ## The marks of killed turns (02 R31) -/

/-- The marks of turns after one more kill of each. -/
def killMarks (m : Tab TurnMark) (ts : List Turn) (cause : Cause) : Tab TurnMark :=
  ts.foldl (fun m t => tset m t.num ((tget m t.num {}).after cause)) m

theorem tget_killMarks_other {ts : List Turn} {n : Nat} (h : ∀ t ∈ ts, t.num ≠ n) (m : Tab TurnMark) (cause : Cause) :
    tget (killMarks m ts cause) n {} = tget m n {} := by
  induction ts generalizing m with
  | nil => rfl
  | cons t ts ih =>
    obtain ⟨ht, hts⟩ := List.forall_mem_cons.1 h
    exact (ih hts _).trans ((tget_tset _ _ _ _ _).trans (if_neg ht.symm))

theorem tget_killMarks_head {tn : Turn} {ts : List Turn} (h : ∀ t ∈ ts, t.num ≠ tn.num) (m : Tab TurnMark) (cause : Cause) :
    tget (killMarks m (tn :: ts) cause) tn.num {} = (tget m tn.num {}).after cause :=
  (tget_killMarks_other h _ _).trans ((tget_tset _ _ _ _ _).trans (if_pos rfl))

/-- A mark shelters from the eighth kill in a row on. -/
theorem TurnMark.after_eq (m : TurnMark) (cause : Cause) : m.after cause = {
    kills := if cause.shelters then m.kills + 1 else 0, trans := if cause = .translation then m.trans + 1 else 0
    sheltered := m.sheltered || decide (cause.shelters = true ∧ 7 ≤ m.kills) } := by
  cases h : cause.shelters <;> simp [TurnMark.after, h]

/-! ## The kept lines put back (03 R55) -/

/-- A line put back. -/
def State.restoreLine (s : State) (bank : Nat) (p : Nat × BitVec 512) : State :=
  s.writeRun (key (spScratch bank) (64 * p.1)) (leBytes 64 p.2.toNat)

theorem State.restoreLines_cons (s : State) (bank : Nat) (p : Nat × BitVec 512) (kept : Tab (BitVec 512)) :
    s.restoreLines bank (p :: kept) = (s.restoreLine bank p).restoreLines bank kept := by
  unfold State.restoreLines State.restoreLine
  rw [List.foldl_cons]

/-- The lines of turns put back, one turn after the other. -/
def State.restoreTurns (s : State) (bank : Nat) (ts : List Turn) : State := ts.foldl (fun s t => s.restoreLines bank t.kept) s

section
variable (s : State) (bank : Nat)

theorem State.restoreLine_spec (p : Nat × BitVec 512) : ∃ m, s.restoreLine bank p = { s with mem := m } := ⟨_, rfl⟩

theorem State.restoreLines_spec (kept : Tab (BitVec 512)) : ∃ m, s.restoreLines bank kept = { s with mem := m } := by
  induction kept generalizing s with
  | nil => exact ⟨s.mem, rfl⟩
  | cons p kept ih =>
    obtain ⟨m, hm⟩ := s.restoreLine_spec bank p
    obtain ⟨m', hm'⟩ := ih (s.restoreLine bank p)
    exact ⟨m', (s.restoreLines_cons bank p kept).trans (hm'.trans (by rw [hm]))⟩

/-- Lines put back change only memory. -/
theorem State.restoreTurns_spec (ts : List Turn) : ∃ m, s.restoreTurns bank ts = { s with mem := m } := by
  induction ts generalizing s with
  | nil => exact ⟨s.mem, rfl⟩
  | cons t ts ih =>
    obtain ⟨m, hm⟩ := s.restoreLines_spec bank t.kept
    obtain ⟨m', hm'⟩ := ih (s.restoreLines bank t.kept)
    exact ⟨m', hm'.trans (by rw [hm])⟩

end

section
variable {s : State} {bank a : Nat}

/-- A line put back leaves a byte of another line. -/
theorem State.byte_restoreLine_other (hm : memWf s.mem = true) (ha : key (spScratch bank) 0 ≤ a) {p : Nat × BitVec 512}
    (hp : p.1 ≠ (a - key (spScratch bank) 0) / 64) : (s.restoreLine bank p).byte a = s.byte a := by
  rw [State.restoreLine, State.byte_writeRun hm]
  split
  · have past : (leBytes 64 p.2.toNat).length ≤ a - key (spScratch bank) (64 * p.1) := by
      rw [length_leBytes]
      unfold key at *
      omega
    rw [List.getElem?_eq_none past, Option.getD_none]
  · rfl

theorem State.restoreLine_wf (hm : memWf s.mem = true) (p : Nat × BitVec 512) : memWf (s.restoreLine bank p).mem = true :=
  State.writeRun_wf hm _ _

theorem State.restoreLines_wf (hm : memWf s.mem = true) (kept : Tab (BitVec 512)) : memWf (s.restoreLines bank kept).mem = true := by
  induction kept generalizing s with
  | nil => exact hm
  | cons p kept ih =>
    rw [State.restoreLines_cons]
    exact ih (State.restoreLine_wf hm p)

theorem State.byte_restoreLines_other (hm : memWf s.mem = true) (ha : key (spScratch bank) 0 ≤ a) {kept : Tab (BitVec 512)}
    (h : ∀ p ∈ kept, p.1 ≠ (a - key (spScratch bank) 0) / 64) : (s.restoreLines bank kept).byte a = s.byte a := by
  induction kept generalizing s with
  | nil => rfl
  | cons p kept ih =>
    obtain ⟨hp, hkept⟩ := List.forall_mem_cons.1 h
    rw [State.restoreLines_cons, ih (State.restoreLine_wf hm p) hkept, State.byte_restoreLine_other hm ha hp]

/-- A byte of a line that no turn kept reads as before. -/
theorem State.byte_restoreTurns_other (hm : memWf s.mem = true) (ha : key (spScratch bank) 0 ≤ a) {ts : List Turn}
    (h : ∀ t ∈ ts, ∀ p ∈ t.kept, p.1 ≠ (a - key (spScratch bank) 0) / 64) : (s.restoreTurns bank ts).byte a = s.byte a := by
  induction ts generalizing s with
  | nil => rfl
  | cons t ts ih =>
    obtain ⟨ht, hts⟩ := List.forall_mem_cons.1 h
    exact (ih (State.restoreLines_wf hm _) hts).trans (State.byte_restoreLines_other hm ha ht)

theorem length_memRun (m : List Host.Cell) (a n : Nat) : (memRun m a n).length = n := by
  induction n generalizing a with
  | zero => rfl
  | succ n ih => rw [memRun, List.length_cons, ih]

/-- A run of bytes just written reads back. -/
theorem State.run_writeRun (hm : memWf s.mem = true) (k : Nat) (bs : List Byte) : (s.writeRun k bs).run k bs.length = bs := by
  refine List.ext_getElem? fun i => ?_
  rcases Nat.lt_or_ge i bs.length with hi | hi
  · rw [State.run, State.run_getElem _ _ _ _ hi]
    change some ((s.writeRun k bs).byte (k + i)) = _
    rw [State.byte_writeRun hm, if_pos (Nat.le_add_right k i), Nat.add_sub_cancel_left, List.getElem?_eq_getElem hi, Option.getD_some]
  · rw [List.getElem?_eq_none hi, List.getElem?_eq_none (by rw [State.run, length_memRun]; exact hi)]

/-- A line put back reads as it was kept. -/
theorem State.run_restoreLine (hm : memWf s.mem = true) (p : Nat × BitVec 512) :
    (s.restoreLine bank p).run (key (spScratch bank) (64 * p.1)) 64 = leBytes 64 p.2.toNat := by
  have back := State.run_writeRun hm (key (spScratch bank) (64 * p.1)) (leBytes 64 p.2.toNat)
  rwa [length_leBytes] at back

theorem State.restoreTurns_single {t : Turn} {p : Nat × BitVec 512} (h : t.kept = [p]) :
    s.restoreTurns bank [t] = s.restoreLine bank p := by
  rw [State.restoreTurns, List.foldl_cons, List.foldl_nil, h, State.restoreLines_cons]
  rfl

end

/-! ## A kill of turns -/

/-- A core with its turns killed from one on. -/
def Core.killed (k : Core) (i : Nat) (tn : Turn) (cause : Cause) : Core := { k with
  g := tn.ckpt.g, v := tn.ckpt.v, m := tn.ckpt.m, pc := tn.ckpt.pc, counts := tn.ckpt.counts,
  turns := k.turns.take i, turnNum := tn.num, wait := .none, mode := .running, marks := killMarks k.marks (k.turns.drop i) cause,
  held := true, discarding := true, lastKill := cause.code, pool := none }

/-- A state whose core has lost its turns from one on: their leases are returned and their lines put back. -/
def State.withoutTurns (s : State) (c i : Nat) (tn : Turn) (cause : Cause) : State :=
  (((s.returnLeases (Drawer.isTurnFrom c tn.num)).restoreTurns (s.core c).bank ((s.core c).turns.drop i).reverse).setCore c
    ((s.core c).killed i tn cause))

/-- A kill of turns changes their core, the wells and memory. -/
theorem State.withoutTurns_spec (s : State) (c i : Nat) (tn : Turn) (cause : Cause) : s.withoutTurns c i tn cause = { s with
    mem := (s.withoutTurns c i tn cause).mem
    x := { s.x with wells := (s.withoutTurns c i tn cause).x.wells, cores := tset s.x.cores c ((s.core c).killed i tn cause) } } := by
  obtain ⟨m, hm⟩ := State.restoreTurns_spec (s.returnLeases (Drawer.isTurnFrom c tn.num)) (s.core c).bank ((s.core c).turns.drop i).reverse
  rw [State.withoutTurns, hm, s.returnLeases_spec]
  rfl

section
variable {s : State} {c i : Nat} {cause : Cause}

theorem State.killTurns_beyond (h : (s.core c).turns[i]? = none) : s.killTurns c i cause = s := by
  unfold State.killTurns
  simp only [h]

variable {tn : Turn} (h : (s.core c).turns[i]? = some tn)
include h

theorem State.killTurns_withheld (hs : (((s.core c).shelters tn.num && cause.shelters) || s.get R.PWR_STS_SHUTDOWN == 1) = true) :
    s.killTurns c i cause = s := by
  unfold State.killTurns
  simp only [h, hs, if_true]

section
variable (hs : (((s.core c).shelters tn.num && cause.shelters) || s.get R.PWR_STS_SHUTDOWN == 1) = false)
include hs

/-- A kill that a shelter mark does not shut out loses the turns, and raises THRASH from the sixteenth TRANSLATION kill in a row on. -/
theorem State.killTurns_eq : s.killTurns c i cause =
    if 16 ≤ (tget (killMarks (s.core c).marks ((s.core c).turns.drop i) cause) tn.num {}).trans then
      (s.withoutTurns c i tn cause).raiseAt R.MEM_ERR_THRASH (some (s.core c).ten) 0 noTicket
    else s.withoutTurns c i tn cause := by
  unfold State.killTurns
  simp only [h, hs, Bool.false_eq_true, if_false]
  rfl

theorem State.killTurns_lost : (s.withoutTurns c i tn cause).onRecord (s.killTurns c i cause) := by
  rw [State.killTurns_eq h hs]
  exact State.onRecord_ite (State.onRecord_raiseAt (State.onRecord_refl _) _ _ _ _) (State.onRecord_refl _)

end

end

/-- A record of causes changes neither the cores, nor the commands, nor memory. -/
theorem State.onRecord_keeps {s u : State} (h : s.onRecord u) : u.x = s.x ∧ u.mem = s.mem := by
  rw [h]
  exact ⟨rfl, rfl⟩

section
variable {s : State} {c : Nat}

theorem execKillComplete_turn : execKillComplete (.turn c) s = .next (s.setCore c { s.core c with discarding := false }) := rfl

theorem execCommandRerun_turn (hh : (s.core c).held = true) (hd : (s.core c).discarding = false) (hl : (s.core c).lastKill ≠ 2)
    (hr : s.mayRun (s.core c).ten = true) (hp : s.get R.PWR_STS_SHUTDOWN = 0) :
    execCommandRerun (.turn c) s = .next (s.rerunTurn c) := by
  unfold execCommandRerun
  rw [if_neg (by rw [hp]; decide)]
  exact if_pos ⟨hh, by rw [hd]; decide, hl, hr⟩

theorem execFaultResolvedRerun_turn (hh : (s.core c).held = true) (hd : (s.core c).discarding = false) (hl : (s.core c).lastKill = 2)
    (ha : s.listDone false (s.core c).await = true) : execFaultResolvedRerun (.turn c) s = .next (s.rerunTurn c) :=
  if_pos ⟨hh, by rw [hd]; decide, hl, ha⟩

end

/-- Settles O27: the kill sets the core to the checkpoint of its oldest turn and puts the lines back, latest turn first. -/
theorem killedTurnsRestoreTheirCheckpoint : Obligations.KilledTurnsRestoreTheirCheckpoint := by
  intro s c cause tn rest hturns mark
  have first : (s.core c).turns[0]? = some tn := by rw [hturns]; rfl
  refine ⟨fun hm hs => congrArg _ (State.killTurns_withheld first ?_), fun hno hp => ?_, execKillComplete_turn,
    execCommandRerun_turn, execFaultResolvedRerun_turn⟩
  · rw [Core.shelters, show (tget _ _ _ : TurnMark).sheltered = true from hm, hs]
    rfl
  · have lost := State.onRecord_keeps (State.killTurns_lost (cause := cause) first (by
      rw [hp, Bool.or_eq_false_iff]
      exact ⟨by rw [Bool.eq_false_iff]; exact fun h => hno (by simpa [Core.shelters] using h), rfl⟩))
    obtain ⟨hx, hmem⟩ := lost
    have core : (s.killTurns c 0 cause).core c = (s.core c).killed 0 tn cause := by
      rw [State.core, hx]
      exact State.core_setCore_same _ c _
    have bytes : ∀ a, (s.killTurns c 0 cause).byte a =
        ((s.returnLeases (Drawer.isTurnFrom c tn.num)).restoreTurns (s.core c).bank (tn :: rest).reverse).byte a := fun a => by
      rw [State.byte, hmem, ← hturns]
      rfl
    have wf (hm : memWf s.mem = true) : memWf (s.returnLeases (Drawer.isTurnFrom c tn.num)).mem = true := by
      rw [s.returnLeases_spec]
      exact hm
    refine ⟨s.killTurns c 0 cause, rfl, ?_⟩
    rw [core, hx, s.withoutTurns_spec]
    refine ⟨rfl, rfl, rfl, rfl, rfl, rfl, rfl, rfl, rfl, rfl, rfl, rfl, fun hnum => ?marks, rfl, rfl, rfl, rfl,
      fun hm a ha ha' hkept => ?others, fun hm hrest l v hkept => ?kept⟩
    case marks =>
      rw [Core.killed, List.drop_zero, hturns, tget_killMarks_head hnum, TurnMark.after_eq]
    case others =>
      rw [bytes, State.byte_restoreTurns_other (wf hm) ha fun t ht => hkept t (List.mem_reverse.1 ht), State.byte, s.returnLeases_spec]
      rfl
    case kept =>
      rw [State.run, hmem, State.withoutTurns, State.setCore_mem, hturns, hrest]
      change ((s.returnLeases _).restoreTurns _ [tn]).run _ 64 = _
      rw [State.restoreTurns_single hkept]
      exact State.run_restoreLine (wf hm) (l, v)

end Sys2Proof.Machine
end

section
/-!
PROOFS. At most two turns of a core are outstanding: an invariant of every instruction of a core (03 R54).
-/

namespace Sys2Proof.Machine
open Sys2Proof.Claims

/-! ## How an update of a core changes the number of its turns -/

section
variable (k : Core)

@[simp] theorem Core.length_onTurn (f : Turn → Turn) : (k.onTurn f).turns.length = k.turns.length := by
  unfold Core.onTurn
  split
  next t ht =>
    have : k.turns ≠ [] := fun h => by simp [h] at ht
    have := List.length_pos_iff.2 this
    simp only [List.length_append, List.length_dropLast, List.length_singleton]
    omega
  next => rfl

@[simp] theorem Core.length_endTurn (e : TurnEnd) : (k.endTurn e).turns.length = k.turns.length := k.length_onTurn _
@[simp] theorem Core.length_wentOn (pc : Word) : (wentOn k pc).turns.length = k.turns.length := Core.length_onTurn _ _

@[simp] theorem Core.wr_turns (r : Reg) (x : Word) : (k.wr r x).turns = k.turns := by
  unfold Core.wr
  split <;> rfl

@[simp] theorem Core.vwr_turns (r : Reg) (x : Vec) : (k.vwr r x).turns = k.turns := rfl

@[simp] theorem Core.mwr_turns (r : BitVec 3) (x : Word) : (k.mwr r x).turns = k.turns := by
  unfold Core.mwr
  split <;> rfl

variable {k} (h : k.turns.length ≤ 2)
include h

/-- A turn begins only where fewer than two are outstanding. -/
theorem Core.length_startTurn_le : k.startTurn.turns.length ≤ 2 := by
  unfold Core.startTurn
  split
  next hroom =>
    rw [List.length_append]
    exact hroom
  next => exact h

theorem Core.length_endStart_le (e : TurnEnd) : (k.endTurn e).startTurn.turns.length ≤ 2 :=
  Core.length_startTurn_le (by rwa [Core.length_endTurn])

end

/-! ## The invariant -/

/-- Whether at most two turns of each core are outstanding. -/
def State.twoTurns (s : State) : Prop := ∀ d, (s.core d).turns.length ≤ 2

/-- Whether an effect keeps the invariant. -/
def keepsTwo (f : State → State) : Prop := ∀ s, s.twoTurns → (f s).twoTurns

/-- Whether an instruction keeps it. -/
def rowKeepsTwo (f : State → Ans) : Prop := ∀ s t, s.twoTurns → f s = .next t → t.twoTurns

section
variable {s u : State} {c : Nat}

theorem State.twoTurns_of_cores (hs : s.twoTurns) (h : u.x.cores = s.x.cores) : u.twoTurns := fun d => by
  rw [State.core, h]
  exact hs d

theorem State.twoTurns_of_x (hs : s.twoTurns) (h : u.x = s.x) : u.twoTurns := State.twoTurns_of_cores hs (by rw [h])

theorem State.twoTurns_ite {p : Prop} [Decidable p] (hs : s.twoTurns) (hu : u.twoTurns) : (if p then s else u).twoTurns := by
  split
  · exact hs
  · exact hu

variable (hs : s.twoTurns)
include hs

theorem State.twoTurns_setCore {k : Core} (hk : k.turns.length ≤ 2) : (s.setCore c k).twoTurns := fun d => by
  rw [State.core_setCore]
  split
  · exact hk
  · exact hs d

theorem State.twoTurns_exception (e : Exc) : (s.exception c e).twoTurns :=
  State.twoTurns_setCore hs (by rw [Core.length_endTurn]; exact hs c)

theorem State.twoTurns_retire {k : Core} (hk : k.turns.length ≤ 2) (pc : Word) : (s.retire c k pc).twoTurns :=
  State.twoTurns_setCore hs (by rwa [Core.length_onTurn])

theorem State.twoTurns_retireNext {k : Core} (hk : k.turns.length ≤ 2) : (s.retireNext c k).twoTurns :=
  State.twoTurns_retire hs hk _

theorem State.twoTurns_endStart (e : TurnEnd) : (s.setCore c ((s.core c).endTurn e).startTurn).twoTurns :=
  State.twoTurns_setCore hs (Core.length_endStart_le (hs c) e)

end

theorem keepsTwo_inRoom {act : State → State} (h : keepsTwo act) (c : Nat) (full : Turn → Bool) :
    keepsTwo fun s => s.inRoom c full act := fun s hs => by
  have next := State.twoTurns_endStart (c := c) hs .plain
  dsimp only [State.inRoom]
  split
  · exact hs
  · split
    · split
      · exact next
      · exact h _ next
    · exact h s hs

theorem keepsTwo_compute {f : Core → Core} (h : ∀ k, (f k).turns = k.turns) (c : Nat) : keepsTwo (State.compute c f) :=
  keepsTwo_inRoom (fun s hs => State.twoTurns_retireNext hs (by rw [h]; exact hs c)) _ _

/-- A row of a core keeps the invariant if what it does for each instruction does. -/
theorem rowKeepsTwo_coreRow {c : Nat} {act : CoreOp → Option (State → State)} (h : ∀ op f, act op = some f → keepsTwo f) :
    rowKeepsTwo fun s => s.coreRow c act := fun s t hs ht => by
  dsimp only [State.coreRow] at ht
  split at ht
  · cases ht
  · split at ht
    · cases ht
      exact hs
    · split at ht
      · cases ht
        exact State.twoTurns_exception hs _
      · split at ht
        next f hf =>
          cases ht
          exact h _ f hf s hs
        next =>
          cases ht
          exact hs

/-! ## Instructions that compute or branch -/

section
variable {c : Nat}

theorem immRow_keepsTwo (f : ImmFn) : rowKeepsTwo (immRow c f) := rowKeepsTwo_coreRow fun op g hg => by
  split at hg
  · split at hg
    · cases hg
      exact keepsTwo_compute (fun k => k.wr_turns _ _) c
    · cases hg
  · cases hg

theorem execIntRegOp_keepsTwo : rowKeepsTwo (execIntRegOp c) := rowKeepsTwo_coreRow fun op g hg => by
  split at hg
  · cases hg
    exact keepsTwo_compute (fun k => k.wr_turns _ _) c
  · cases hg

theorem execMovL_keepsTwo : rowKeepsTwo (execMovL c) := rowKeepsTwo_coreRow fun op g hg => by
  split at hg
  · cases hg
    exact keepsTwo_inRoom (fun s hs => State.twoTurns_retire hs (by rw [Core.wr_turns]; exact hs c) _) _ _
  · cases hg

theorem execMemTouch_keepsTwo : rowKeepsTwo (execMemTouch c) := rowKeepsTwo_coreRow fun op g hg => by
  split at hg
  · cases hg
    exact keepsTwo_compute (fun k => rfl) c
  · cases hg

theorem execBrCompare_keepsTwo : rowKeepsTwo (execBrCompare c) := rowKeepsTwo_coreRow fun op g hg => by
  split at hg
  · cases hg
    exact keepsTwo_inRoom (fun s hs => State.twoTurns_retire hs (hs c) _) _ _
  · cases hg

theorem execBrCall_keepsTwo : rowKeepsTwo (execBrCall c) := rowKeepsTwo_coreRow fun op g hg => by
  split at hg
  · cases hg
    exact keepsTwo_inRoom (fun s hs => State.twoTurns_retire hs (by rw [Core.wr_turns]; exact hs c) _) _ _
  · cases hg

theorem execBrJr_keepsTwo : rowKeepsTwo (execBrJr c) := rowKeepsTwo_coreRow fun op g hg => by
  split at hg
  · cases hg
    exact keepsTwo_inRoom (fun s hs => State.twoTurns_retire hs (by rw [Core.wr_turns]; exact hs c) _) _ _
  · cases hg

theorem execVecOp_keepsTwo : rowKeepsTwo (execVecOp c) := rowKeepsTwo_coreRow fun op g hg => by
  split at hg
  · cases hg
    exact keepsTwo_compute (fun k => k.vwr_turns _ _) c
  · cases hg

theorem execVecCvt_keepsTwo : rowKeepsTwo (execVecCvt c) := rowKeepsTwo_coreRow fun op g hg => by
  split at hg
  · cases hg
    exact keepsTwo_compute (fun k => k.vwr_turns _ _) c
  · cases hg

theorem execVecRed_keepsTwo : rowKeepsTwo (execVecRed c) := rowKeepsTwo_coreRow fun op g hg => by
  split at hg
  · cases hg
    exact keepsTwo_compute (fun k => k.vwr_turns _ _) c
  · cases hg

theorem execVecPerm_keepsTwo : rowKeepsTwo (execVecPerm c) := rowKeepsTwo_coreRow fun op g hg => by
  split at hg
  · cases hg
    refine keepsTwo_compute (fun k => ?_) c
    split
    · exact k.wr_turns _ _
    all_goals exact k.vwr_turns _ _
  · cases hg

theorem execVecCmp_keepsTwo : rowKeepsTwo (execVecCmp c) := rowKeepsTwo_coreRow fun op g hg => by
  split at hg
  · cases hg
    exact keepsTwo_compute (fun k => k.mwr_turns _ _) c
  · cases hg

theorem execVecMsk_keepsTwo : rowKeepsTwo (execVecMsk c) := rowKeepsTwo_coreRow fun op g hg => by
  split at hg
  · cases hg
    refine keepsTwo_compute (fun k => ?_) c
    split
    · exact k.wr_turns _ _
    · exact k.mwr_turns _ _
  · cases hg

end

/-! ## Loads and stores -/

/-- A page's heat changes no core. -/
theorem State.accessHeat_x (s : State) (gs : List Nat) (n : Nat) : (s.accessHeat gs n).x = s.x := by rw [s.accessHeat_spec]

/-- A request to a peer changes no core. -/
theorem State.askPeer_x (s : State) (t kind hops ten : Nat) (part : Nat × Nat) : (s.askPeer t kind hops ten part).1.x = s.x := by
  unfold State.askPeer
  dsimp only
  rw [State.onWire_sendCar]
  rfl

/-- A report of the granary changes no core. -/
theorem State.corrected_x (s : State) (ten va n : Nat) (parity : Bool) : (s.corrected ten va n parity).x = s.x := by
  unfold State.corrected
  split
  · split
    · dsimp only
      split <;> split <;> simp
    · rfl
  · rfl

/-- A fault met changes no core. -/
theorem State.faulted_x (s : State) (pages : List Nat) : (s.faulted pages).x = s.x := by
  unfold State.faulted State.noteStalls
  split
  · rfl
  · exact (State.onRecord_keeps (State.onRecord_raise (State.onRecord_refl _) _ _)).1

section
variable {s : State} {c : Nat} (hs : s.twoTurns)
include hs

theorem State.twoTurns_killTurns (i : Nat) (cause : Cause) : (s.killTurns c i cause).twoTurns := by
  cases h : (s.core c).turns[i]? with
  | none => rwa [State.killTurns_beyond h]
  | some tn =>
    cases hw : ((s.core c).shelters tn.num && cause.shelters) || s.get R.PWR_STS_SHUTDOWN == 1 with
    | true => rwa [State.killTurns_withheld h hw]
    | false =>
      refine State.twoTurns_of_x (s := s.withoutTurns c i tn cause) ?_ (State.onRecord_keeps (State.killTurns_lost h hw)).1
      refine State.twoTurns_of_cores (State.twoTurns_setCore (c := c) (k := (s.core c).killed i tn cause) hs ?_) ?_
      · exact ((s.core c).turns.length_take_le' i).trans (hs c)
      · rw [State.withoutTurns_spec]
        rfl

theorem State.twoTurns_coreFault (cause : Cause) (await : List Nat) : (s.coreFault c cause await).twoTurns := by
  have killed := State.twoTurns_killTurns (c := c) hs ((s.core c).turns.length - 1) cause
  have waits := State.twoTurns_setCore (c := c) (k := { (s.killTurns c ((s.core c).turns.length - 1) cause).core c with
    await := await }) killed (killed c)
  unfold State.coreFault
  dsimp only
  split
  · exact State.twoTurns_of_x waits (State.faulted_x _ _)
  · exact waits

theorem State.twoTurns_onTurn (f : Turn → Turn) : (s.setCore c ((s.core c).onTurn f)).twoTurns :=
  State.twoTurns_setCore hs (by rw [Core.length_onTurn]; exact hs c)

theorem State.twoTurns_coreRead (ten va n : Nat) : (s.coreRead c ten va n).2.twoTurns :=
  State.twoTurns_of_x (State.twoTurns_onTurn hs _) (State.accessHeat_x _ _ _)

theorem State.twoTurns_coreWrite (ten va : Nat) (bs : List Byte) : (s.coreWrite c ten va bs).twoTurns :=
  State.twoTurns_of_x (State.twoTurns_onTurn hs _) (State.accessHeat_x _ _ _)

theorem State.twoTurns_scratchWrite (a : Nat) (bs : List Byte) : (s.scratchWrite c a bs).twoTurns :=
  State.twoTurns_of_x (State.twoTurns_onTurn hs _) rfl

theorem State.twoTurns_load (sp : Space) (va : Word) (size : Nat) (wide : Bool) (corr : Nat) (parity : Bool)
    {put : Core → List Byte → Core} (hput : ∀ k bs, (put k bs).turns = k.turns) :
    (s.load c sp va size wide corr parity put).twoTurns := by
  have goesOn (bs : List Byte) : (s.retireNext c (put (s.core c) bs)).twoTurns :=
    State.twoTurns_retireNext hs (by rw [hput]; exact hs c)
  unfold State.load
  dsimp only
  split
  · exact State.twoTurns_exception hs _
  · split
    · split
      · exact State.twoTurns_exception hs _
      · exact goesOn _
    · split
      · split
        · exact goesOn _
        · exact State.twoTurns_exception hs _
      · split
        · exact hs
        · split
          · exact State.twoTurns_exception hs _
          · exact State.twoTurns_coreFault hs _ _
          · exact State.twoTurns_coreFault hs _ _
          · split
            · exact State.twoTurns_setCore (State.twoTurns_of_x hs (State.askPeer_x _ _ _ _ _ _)) (hs c)
            · have read := State.twoTurns_of_x (State.twoTurns_coreRead (c := c) hs (s.core c).ten va.toNat size)
                (State.corrected_x _ (s.core c).ten va.toNat corr parity)
              exact State.twoTurns_retireNext read (by rw [hput]; exact read c)

theorem State.twoTurns_store (sp : Space) (va : Word) (bs : List Byte) : (s.store c sp va bs).twoTurns := by
  unfold State.store
  dsimp only
  split
  · exact State.twoTurns_exception hs _
  · split
    · split
      · exact State.twoTurns_exception hs _
      · refine keepsTwo_inRoom (fun u hu => ?_) c _ s hs
        have written := State.twoTurns_scratchWrite (c := c) hu va.toNat bs
        exact State.twoTurns_retireNext written (written c)
    · split
      · exact State.twoTurns_exception hs _
      · split
        · exact State.twoTurns_exception hs _
        · exact State.twoTurns_coreFault hs _ _
        · exact State.twoTurns_coreFault hs _ _
        · refine keepsTwo_inRoom (fun u hu => ?_) c _ s hs
          have written := State.twoTurns_coreWrite (c := c) hu (s.core c).ten va.toNat bs
          exact State.twoTurns_retireNext written (written c)

end

section
variable {c : Nat}

theorem execMemLd_keepsTwo (dram : Dram) : rowKeepsTwo (execMemLd c dram) := rowKeepsTwo_coreRow fun op g hg => by
  split at hg
  · cases hg
    exact keepsTwo_inRoom (fun s hs => State.twoTurns_load hs _ _ _ _ _ _ fun k bs => k.wr_turns _ _) _ _
  · cases hg

theorem execMemSt_keepsTwo : rowKeepsTwo (execMemSt c) := rowKeepsTwo_coreRow fun op g hg => by
  split at hg
  · cases hg
    exact keepsTwo_inRoom (fun s hs => State.twoTurns_store hs _ _ _) _ _
  · cases hg

theorem execMemVld_keepsTwo (dram : Dram) : rowKeepsTwo (execMemVld c dram) := rowKeepsTwo_coreRow fun op g hg => by
  split at hg
  · cases hg
    exact keepsTwo_inRoom (fun s hs => State.twoTurns_load hs _ _ _ _ _ _ fun k bs => k.vwr_turns _ _) _ _
  · cases hg

theorem execMemVst_keepsTwo : rowKeepsTwo (execMemVst c) := rowKeepsTwo_coreRow fun op g hg => by
  split at hg
  · cases hg
    exact keepsTwo_inRoom (fun s hs => State.twoTurns_store hs _ _ _) _ _
  · cases hg

end

/-! ## The ends of a turn, waits and stalls -/

section
variable {c : Nat}

theorem execIllegalInstruction_keepsTwo : rowKeepsTwo (execIllegalInstruction c) := rowKeepsTwo_coreRow fun op g hg => by
  split at hg
  · cases hg
    exact fun s hs => State.twoTurns_exception hs _
  · cases hg

theorem execSysBreak_keepsTwo : rowKeepsTwo (execSysBreak c) := rowKeepsTwo_coreRow fun op g hg => by
  split at hg
  · cases hg
    exact fun s hs => State.twoTurns_exception hs _
  · cases hg

theorem execSyncCommit_keepsTwo : rowKeepsTwo (execSyncCommit c) := rowKeepsTwo_coreRow fun op g hg => by
  split at hg
  · cases hg
    exact keepsTwo_inRoom (fun s hs => State.twoTurns_endStart (State.twoTurns_retireNext hs (hs c)) _) _ _
  · cases hg

theorem execSyncHalt_keepsTwo : rowKeepsTwo (execSyncHalt c) := rowKeepsTwo_coreRow fun op g hg => by
  split at hg
  · cases hg
    exact keepsTwo_inRoom (fun s hs => State.twoTurns_onTurn (State.twoTurns_retireNext hs (hs c)) _) _ _
  · cases hg

/-- A core that ends its turn and waits has no more turns than before. -/
theorem State.twoTurns_endWait {s : State} (hs : s.twoTurns) (e : TurnEnd) (w : Wait) :
    ((s.retireNext c (s.core c)).setCore c
      { ((s.retireNext c (s.core c)).core c).endTurn e with mode := .waiting, wait := w }).twoTurns := by
  have retired := State.twoTurns_retireNext (c := c) hs (hs c)
  exact State.twoTurns_setCore retired ((Core.length_endTurn _ e).trans_le (retired c))

theorem execSyncBar_keepsTwo : rowKeepsTwo (execSyncBar c) := rowKeepsTwo_coreRow fun op g hg => by
  split at hg
  · cases hg
    refine keepsTwo_inRoom (fun s hs => ?_) _ _
    dsimp only
    split
    · exact State.twoTurns_exception hs _
    · exact State.twoTurns_endWait hs _ _
  · cases hg

theorem execCmdWait_keepsTwo : rowKeepsTwo (execCmdWait c) := rowKeepsTwo_coreRow fun op g hg => by
  split at hg
  · cases hg
    refine keepsTwo_inRoom (fun s hs => ?_) _ _
    dsimp only
    split
    · exact State.twoTurns_endWait hs _ _
    · exact State.twoTurns_exception hs _
  · cases hg

theorem execCmdWaitall_keepsTwo : rowKeepsTwo (execCmdWaitall c) := rowKeepsTwo_coreRow fun op g hg => by
  split at hg
  · cases hg
    refine keepsTwo_inRoom (fun s hs => ?_) _ _
    dsimp only
    split
    · exact State.twoTurns_exception hs _
    · exact State.twoTurns_endWait hs _ _
  · cases hg

theorem execCmdAbort_keepsTwo : rowKeepsTwo (execCmdAbort c) := rowKeepsTwo_coreRow fun op g hg => by
  split at hg
  · cases hg
    refine keepsTwo_inRoom (fun s hs => ?_) _ _
    dsimp only
    split
    · exact State.twoTurns_exception hs _
    · exact State.twoTurns_endStart (State.twoTurns_retireNext hs (by rw [Core.length_onTurn]; exact hs c)) _
  · cases hg

theorem State.twoTurns_issue {s : State} (hs : s.twoTurns) (d a b : Reg) : (s.issue c d a b).twoTurns := by
  unfold State.issue
  dsimp only
  split
  · exact State.twoTurns_exception hs _
  · refine State.twoTurns_ite (State.twoTurns_setCore hs (hs c)) (State.twoTurns_endStart (State.twoTurns_retireNext hs ?_) _)
    rw [Core.wr_turns, Core.length_onTurn]
    exact hs c

theorem execCmdIssue_keepsTwo : rowKeepsTwo (execCmdIssue c) := rowKeepsTwo_coreRow fun op g hg => by
  split at hg
  · cases hg
    exact keepsTwo_inRoom (fun s hs => State.twoTurns_issue hs _ _ _) _ _
  · cases hg

theorem execCmdIssueStallEnd_keepsTwo : rowKeepsTwo (execCmdIssueStallEnd c) := fun s t hs ht => by
  have awake : (s.setCore c { s.core c with wait := .none }).twoTurns := State.twoTurns_setCore hs (hs c)
  unfold execCmdIssueStallEnd at ht
  split at ht
  · cases ht
  · dsimp only at ht
    split at ht
    · cases ht
      exact hs
    · split at ht
      · split at ht
        · split at ht
          · cases ht
            exact State.twoTurns_issue awake _ _ _
          · cases ht
            exact hs
        · cases ht
          exact hs
      · cases ht
        exact hs

theorem execTurnStallEnd_keepsTwo : rowKeepsTwo (execTurnStallEnd c) := fun s t hs ht => by
  unfold execTurnStallEnd at ht
  split at ht
  · cases ht
  · dsimp only at ht
    split at ht
    · cases ht
      exact State.twoTurns_setCore hs (Core.length_startTurn_le (hs c))
    · cases ht
      exact hs

theorem execCmdWaitReturn_keepsTwo : rowKeepsTwo (execCmdWaitReturn c) := fun s t hs ht => by
  unfold execCmdWaitReturn at ht
  split at ht
  · cases ht
  · dsimp only at ht
    split at ht
    · cases ht
      exact hs
    · split at ht
      · cases ht
        exact State.twoTurns_setCore hs (Core.length_startTurn_le (by rw [Core.wr_turns]; exact hs c))
      · cases ht
        exact hs

end

/-! ## Wells and core state registers -/

section
variable {c : Nat}

/-- A draw changes no core. -/
theorem State.draw_cores {s u : State} {n v unit epoch : Nat} {dr : Drawer} (h : s.draw n dr unit epoch = .value v u) :
    u.x.cores = s.x.cores := by
  unfold State.draw at h
  dsimp only at h
  split at h
  · cases h
  · split at h
    · cases h
      rfl
    · split at h
      · cases h
        rfl
      · split at h <;> cases h

/-- What a draw's answer does to a core leaves its turns. -/
theorem State.twoTurns_tookDraw {s : State} (hs : s.twoTurns) (d : Reg) (v : Word) : (s.tookDraw c d v).twoTurns := by
  refine State.twoTurns_setCore hs ((Core.length_wentOn _ _).trans_le ?_)
  rw [Core.wr_turns, Core.length_onTurn]
  exact hs c

theorem State.twoTurns_coreDraw {s : State} (hs : s.twoTurns) (d a : Reg) : (s.coreDraw c d a).twoTurns := by
  unfold State.coreDraw
  dsimp only
  split
  · exact State.twoTurns_exception hs _
  · split
    · exact State.twoTurns_exception (State.twoTurns_of_x hs (State.raiseAt_x _ _ _ _ _)) _
    · split
      · exact State.twoTurns_exception hs _
      · refine keepsTwo_inRoom (fun u hu => ?_) c _ s hs
        split
        · exact hu
        · split
          next hdraw => exact State.twoTurns_tookDraw (State.twoTurns_of_cores hu (State.draw_cores hdraw)) _ _
          next => exact State.twoTurns_tookDraw hu _ _
          next => exact State.twoTurns_setCore hu (hu c)

theorem execWellDraw_keepsTwo : rowKeepsTwo (execWellDraw c) := rowKeepsTwo_coreRow fun op g hg => by
  split at hg
  · cases hg
    exact fun s hs => State.twoTurns_coreDraw hs _ _
  · cases hg

theorem execSysRd_keepsTwo : rowKeepsTwo (execSysRd c) := rowKeepsTwo_coreRow fun op g hg => by
  split at hg
  · cases hg
    refine keepsTwo_inRoom (fun s hs => ?_) _ _
    dsimp only
    split
    · exact State.twoTurns_retireNext hs (by rw [Core.wr_turns]; exact hs c)
    · exact State.twoTurns_exception hs _
  · cases hg

theorem execSysWr_keepsTwo : rowKeepsTwo (execSysWr c) := rowKeepsTwo_coreRow fun op g hg => by
  split at hg
  · cases hg
    refine keepsTwo_inRoom (fun s hs => ?_) _ _
    dsimp only
    split
    · exact State.twoTurns_exception hs _
    · split
      · exact State.twoTurns_retireNext hs (by rw [Core.length_onTurn]; exact hs c)
      · exact State.twoTurns_retireNext hs (hs c)
  · cases hg

end

/-- Settles O16: row by row, a turn begins only where fewer than two are outstanding, and no other part of a row adds one. -/
theorem atMostTwoTurnsOutstanding : Obligations.AtMostTwoTurnsOutstanding := by
  intro s t i c n p hi hs ht
  refine (?_ : ∀ j ∈ _, rowKeepsTwo (exec j)) i hi s t hs ht
  simp only [List.forall_mem_cons]
  exact ⟨execIntRegOp_keepsTwo, immRow_keepsTwo .addi, immRow_keepsTwo .andi, immRow_keepsTwo .ori, immRow_keepsTwo .xori, immRow_keepsTwo
    .slti, immRow_keepsTwo .sltui, immRow_keepsTwo .hi, immRow_keepsTwo .shli, immRow_keepsTwo .shri, immRow_keepsTwo .srai,
    execMovL_keepsTwo, execMemLd_keepsTwo _, execMemSt_keepsTwo, execMemVld_keepsTwo _, execMemVst_keepsTwo, execMemTouch_keepsTwo,
    execBrCompare_keepsTwo, execBrCall_keepsTwo, execBrJr_keepsTwo, execVecOp_keepsTwo, execVecCvt_keepsTwo, execVecRed_keepsTwo,
    execVecPerm_keepsTwo, execVecCmp_keepsTwo, execVecMsk_keepsTwo, execIllegalInstruction_keepsTwo, execCmdIssue_keepsTwo,
    execCmdWait_keepsTwo, execCmdWaitall_keepsTwo, execCmdAbort_keepsTwo, execWellDraw_keepsTwo, execSyncBar_keepsTwo,
    execSyncCommit_keepsTwo, execSyncHalt_keepsTwo, execSysRd_keepsTwo, execSysWr_keepsTwo, execSysBreak_keepsTwo,
    execTurnStallEnd_keepsTwo, execCmdWaitReturn_keepsTwo, execCmdIssueStallEnd_keepsTwo, fun _ h => absurd h List.not_mem_nil⟩

end Sys2Proof.Machine
end

section
/-!
PROOFS. Exceptions: the end of the turn, and what the turn's commit leaves of the halt that it reports (03 R80, R81, 22 R546, R551).
-/

namespace Sys2Proof.Machine
open Sys2Proof.Claims

/-! ## What keeps the hamlets' error registers -/

/-- Whether the hamlets' error registers of a state stand as in another. -/
def State.keepsHalts (s u : State) : Prop := ∀ h, u.reg (R.HAM_ERR h) = s.reg (R.HAM_ERR h)

/-- Whether an offset is no hamlet's error register, by its place below them all or its place in the registers of a block. -/
def noHalt (off : Nat) : Prop := off < 0x1800000 ∨ off % 64 ≠ 16

theorem R.HAM_ERR_ne {off : Nat} (h : noHalt off) (n : Nat) : R.HAM_ERR n ≠ off := by
  unfold noHalt at h
  unfold R.HAM_ERR
  omega

theorem noHalt_below {off : Nat} (h : off < 0x1800000) : noHalt off := .inl h

theorem State.keepsHalts_of_cw {s u : State} (h : u.cw = s.cw) : s.keepsHalts u := fun n => by
  unfold State.reg
  rw [h]

theorem State.keepsHalts_refl (s : State) : s.keepsHalts s := fun _ => rfl

theorem State.keepsHalts_trans {s t u : State} (h : s.keepsHalts t) (h' : t.keepsHalts u) : s.keepsHalts u := fun n =>
  (h' n).trans (h n)

theorem State.keepsHalts_ite {p : Prop} [Decidable p] {s u v : State} (hu : s.keepsHalts u) (hv : s.keepsHalts v) :
    s.keepsHalts (if p then u else v) := by
  split
  · exact hu
  · exact hv

theorem State.keepsHalts_foldl {α : Type} {f : State → α → State} (l : List α) (s : State) (hf : ∀ u : State, ∀ a ∈ l, u.keepsHalts (f u a)) :
    s.keepsHalts (l.foldl f s) :=
  List.foldlRecOn l f s.keepsHalts_refl fun u h a ha => State.keepsHalts_trans h (hf u a ha)

theorem State.keepsHalts_setReg (s : State) {off : Nat} (h : noHalt off) (v : Nat) : s.keepsHalts (s.setReg off v) := fun n => by
  rw [State.reg_setReg, if_neg (R.HAM_ERR_ne h n)]

theorem State.keepsHalts.thenSetReg {s u : State} (h : s.keepsHalts u) {off : Nat} (ho : noHalt off) (v : Nat) :
    s.keepsHalts (u.setReg off v) := State.keepsHalts_trans h (u.keepsHalts_setReg ho v)

theorem State.keepsHalts_put (s : State) {f : Field} (h : noHalt f.reg) (v : Nat) : s.keepsHalts (s.put f v) :=
  s.keepsHalts_setReg h _

theorem State.keepsHalts_bump (s : State) {f : Field} (h : noHalt f.reg) (n : Nat) : s.keepsHalts (s.bump f n) :=
  s.keepsHalts_put h _

/-! ### The error record and messages to hosts -/

theorem noHalt_eventLost (n : Nat) : noHalt (R.HST_CNT1_EVENT_LOST n).reg := .inr (by
  change (0x400030 + 0x10000 * n) % 64 ≠ 16
  omega)

theorem State.keepsHalts_sendMsg (s : State) (q kind : Nat) (ws : List Nat) : s.keepsHalts (s.sendMsg q kind ws) :=
  State.keepsHalts_of_cw rfl

theorem State.keepsHalts_sendEvent (s : State) (kind reason : Nat) (ten : Option Nat) (stamp : Nat) (detail : List Nat) :
    s.keepsHalts (s.sendEvent kind reason ten stamp detail) := by
  unfold State.sendEvent
  split
  · split
    · exact s.keepsHalts_sendMsg _ _ _
    · exact s.keepsHalts_bump (noHalt_eventLost _) 1
  · split
    · exact s.keepsHalts_bump (noHalt_eventLost _) 1
    · exact State.keepsHalts_foldl _ s fun u q _ => u.keepsHalts_sendMsg _ _ _

/-- An entry of the log lies below the hamlets' registers. -/
theorem noHalt_logEntry {base i : Nat} (h : base ≤ 0x302000) (hi : i < 64) : noHalt (base + 0x40 * i) := .inl (by omega)

theorem State.keepsHalts_logCause (s : State) (block inst kind code : Nat) (ten : Option Nat) (d0 d1 : Nat) :
    s.keepsHalts (s.logCause block inst kind code ten d0 d1).1 := by
  have entry {base i : Nat} (h : base ≤ 0x302000) : noHalt (base + 0x40 * (i % 64)) := noHalt_logEntry h (Nat.mod_lt _ (by decide))
  unfold State.logCause
  dsimp only
  split
  · exact (s.keepsHalts_put (f := R.ERR_LOG_HDR_REPEAT _) (entry (by decide)) _).thenSetReg (entry (by decide)) _
  · exact ((((((((s.keepsHalts_refl.thenSetReg (entry (by decide)) _).thenSetReg (entry (by decide)) _).thenSetReg (entry (by decide))
      _).thenSetReg (entry (by decide)) _).thenSetReg (entry (by decide)) _).thenSetReg (entry (by decide)) _).thenSetReg
      (noHalt_below (by decide)) _).thenSetReg (noHalt_below (by decide)) _)

theorem State.keepsHalts_logKind (s : State) (block inst kind code : Nat) (ten : Option Nat) (d0 d1 : Nat) (own : Bool) :
    s.keepsHalts (s.logKind block inst kind code ten d0 d1 own).1 :=
  State.keepsHalts_ite (State.keepsHalts_trans (s.keepsHalts_logCause _ _ _ _ _ _ _) (State.keepsHalts_sendEvent _ _ _ _ _ _))
    (s.keepsHalts_logCause _ _ _ _ _ _ _)

theorem State.keepsHalts_raiseAt (s : State) {f : Field} (h : noHalt f.reg) (ten : Option Nat) (d0 d1 : Nat) :
    s.keepsHalts (s.raiseAt f ten d0 d1) := by
  unfold State.raiseAt State.raiseSeq
  split
  · exact s.keepsHalts_refl
  · have bit := s.keepsHalts_put h 1
    dsimp only
    split
    · exact bit
    · rename_i b n _
      have logged := State.keepsHalts_trans bit (State.keepsHalts_logCause _ b n 0 f.lo ten d0 d1)
      exact State.keepsHalts_ite (State.keepsHalts_trans logged (State.keepsHalts_sendEvent _ _ _ _ _ _)) logged

/-! ### The fabric -/

theorem State.adaptive_lt {s : State} {mask n : Nat} (h : s.adaptive mask = some n) : n < 16 := by
  have below : ∀ m ∈ s.adaptive mask, m < 16 := by
    unfold State.adaptive
    refine List.foldlRecOn (motive := fun b : Option Nat => ∀ m ∈ b, m < 16) _ _ (by simp) fun b hb p hp => ?_
    have hp : p < 16 := List.mem_range.1 (List.mem_of_mem_filter hp)
    cases b with
    | none => exact fun m hm => Option.some.inj hm ▸ hp
    | some q =>
      dsimp only
      split
      · exact fun m hm => Option.some.inj hm ▸ hp
      · exact hb
  exact below n h

/-- A caravan leaves by one of the sixteen ports. -/
theorem State.egress_lt {s : State} {r : RtRow} {cls n : Nat} (h : s.egress r cls = some n) : n < 16 := by
  dsimp only [State.egress] at h
  split at h
  · cases h
  · split at h
    · exact State.adaptive_lt h
    · split at h
      next hbit =>
        have up := s.get_lt R.FAB_STS_UP
        refine Nat.lt_of_not_le fun hn => ?_
        rw [Option.some.inj h, Nat.testBit_and, Nat.testBit_lt_two_pow (up.trans_le (Nat.pow_le_pow_right (by decide) hn)),
          Bool.and_false] at hbit
        cases hbit
      next => exact List.mem_range.1 (List.mem_of_mem_filter (List.mem_of_head? h))

theorem State.keepsHalts_sendOn (s : State) {n : Nat} (h : n < 16) (c : Car) : s.keepsHalts (s.sendOn n c) := by
  unfold State.sendOn
  extract_lets q ce car numbered crossed
  refine State.keepsHalts_trans (t := crossed) (State.keepsHalts_of_cw rfl) (State.keepsHalts_bump _ (noHalt_below ?_) 1)
  change 0x501010 + 0x20 * n < 0x1800000
  omega

theorem State.keepsHalts_copies (s : State) (table : Nat) (c : Car) : s.keepsHalts (s.copies table c) := by
  unfold State.copies
  extract_lets g far portOf sent none_
  have hsent : s.keepsHalts sent := State.keepsHalts_foldl _ s fun u n hn => by
    exact State.keepsHalts_ite u.keepsHalts_refl (u.keepsHalts_sendOn (List.mem_range.1 hn) _)
  exact State.keepsHalts_ite hsent (State.keepsHalts_trans hsent (State.keepsHalts_of_cw rfl))

theorem State.keepsHalts_route (s : State) (table : Nat) (c : Car) : s.keepsHalts (s.route table c) := by
  have held : s.keepsHalts (s.holdCar table c) := State.keepsHalts_of_cw rfl
  unfold State.route
  split
  · exact State.keepsHalts_of_cw rfl
  · split
    · exact held
    · split
      · refine State.keepsHalts_trans (t := _) ?_ (State.keepsHalts_copies _ _ _)
        exact State.keepsHalts_ite s.keepsHalts_refl (State.keepsHalts_of_cw rfl)
      · split
        · split
          next h => exact s.keepsHalts_sendOn (State.egress_lt h) _
          next => exact held
        · exact held

theorem State.number_cw (s : State) (c : Car) : (s.number c).1.cw = s.cw := by
  unfold State.number
  split
  · rfl
  · dsimp only
    split <;> rfl

theorem State.keepsHalts_sendCar (s : State) (kind cls dst ten space : Nat) (words : List Nat) (data : List Byte) :
    s.keepsHalts (s.sendCar kind cls dst ten space words data) :=
  State.keepsHalts_trans (State.keepsHalts_of_cw (s.number_cw _)) (State.keepsHalts_route _ _ _)

theorem State.keepsHalts_dropOps (s : State) (t : Nat) : s.keepsHalts (s.dropOps t) :=
  State.keepsHalts_foldl _ s fun u p _ => by
    refine State.keepsHalts_ite ?_ u.keepsHalts_refl
    have dropped : u.keepsHalts { u with fa := { u.fa with ops := tdel u.fa.ops p.1 } } := State.keepsHalts_of_cw rfl
    exact State.keepsHalts_ite (State.keepsHalts_trans dropped (State.keepsHalts_sendCar _ _ _ _ _ _ _ _)) dropped

/-! ## What leaves the cores, memory, the serial and the hamlets' error registers -/

/-- Whether the serial, the cores, memory and the hamlets' error registers of a state stand as in another. -/
structure State.calm (s u : State) : Prop where
  serial : u.x.serial = s.x.serial
  cores : u.x.cores = s.x.cores
  mem : u.mem = s.mem
  halts : s.keepsHalts u

theorem State.calm_refl (s : State) : s.calm s := ⟨rfl, rfl, rfl, s.keepsHalts_refl⟩

theorem State.calm_trans {s t u : State} (h : s.calm t) (h' : t.calm u) : s.calm u :=
  ⟨h'.serial.trans h.serial, h'.cores.trans h.cores, h'.mem.trans h.mem, State.keepsHalts_trans h.halts h'.halts⟩

theorem State.calm_ite {p : Prop} [Decidable p] {s u v : State} (hu : s.calm u) (hv : s.calm v) : s.calm (if p then u else v) := by
  split
  · exact hu
  · exact hv

theorem State.calm_foldl {α : Type} {f : State → α → State} (l : List α) (s : State) (hf : ∀ u : State, ∀ a ∈ l, u.calm (f u a)) :
    s.calm (l.foldl f s) :=
  List.foldlRecOn l f s.calm_refl fun u h a ha => State.calm_trans h (hf u a ha)

theorem State.calm_of_onWire {s u : State} (h : s.onWire u) (hh : s.keepsHalts u) : s.calm u :=
  ⟨by rw [h], by rw [h], by rw [h], hh⟩

theorem State.calm_raiseAt (s : State) {f : Field} (h : noHalt f.reg) (ten : Option Nat) (d0 d1 : Nat) :
    s.calm (s.raiseAt f ten d0 d1) :=
  State.calm_of_onWire (State.onWire_of_onRecord (State.onRecord_raiseAt s.onRecord_refl _ _ _ _)) (s.keepsHalts_raiseAt h _ _ _)

theorem State.calm_put (s : State) {f : Field} (h : noHalt f.reg) (v : Nat) : s.calm (s.put f v) :=
  ⟨rfl, rfl, rfl, s.keepsHalts_put h v⟩

theorem State.calm_setCmd (s : State) (t : Nat) (c : Cmd) : s.calm (s.setCmd t c) :=
  ⟨rfl, rfl, rfl, State.keepsHalts_of_cw rfl⟩

theorem State.calm_killMove (s : State) (id : Nat) : s.calm (s.killMove id) := ⟨rfl, rfl, rfl, State.keepsHalts_of_cw rfl⟩

theorem State.calm_returnLeases (s : State) (mine : Drawer → Bool) : s.calm (s.returnLeases mine) := by
  rw [s.returnLeases_spec]
  exact ⟨rfl, rfl, rfl, State.keepsHalts_of_cw rfl⟩

/-- A command killed leaves the cores. -/
theorem State.calm_killCmd (s : State) (t : Nat) (cause : Cause) : s.calm (s.killCmd t cause) := by
  have dropped : s.calm ((s.returnLeases (Drawer.isCmd t)).dropOps t) :=
    State.calm_trans (s.calm_returnLeases _) (State.calm_of_onWire (State.onWire_dropOps _ t) (State.keepsHalts_dropOps _ t))
  have lost (c : Cmd) := State.calm_trans dropped (State.calm_setCmd _ t c)
  unfold State.killCmd
  split
  · exact s.calm_refl
  · refine State.calm_ite s.calm_refl (State.calm_ite s.calm_refl (State.calm_ite (lost _) (State.calm_ite ?_ ?_)))
    · exact State.calm_ite (s.calm_setCmd _ _) s.calm_refl
    · exact State.calm_ite (State.calm_trans (lost _) (State.calm_raiseAt _ (noHalt_below (by decide)) _ _ _)) (lost _)

/-- The aborts of a turn leave the cores. -/
theorem State.calm_abortAll (s : State) (as : List (Nat × Nat)) : s.calm (s.abortAll as) :=
  State.calm_foldl _ s fun u _ _ => State.calm_foldl _ u fun v _ _ => State.calm_ite (v.calm_killCmd _ _) v.calm_refl

theorem noHalt_overrun (ten : Nat) : noHalt (R.SCH_TEN_OVERRUN ten) := .inr (by
  unfold R.SCH_TEN_OVERRUN
  omega)

theorem State.calm_charge (s : State) (ten n : Nat) : s.calm (s.charge ten n) := by
  unfold State.charge
  extract_lets total sched noted told r
  have htold : s.calm told :=
    State.calm_trans (t := noted) ⟨rfl, rfl, rfl, State.keepsHalts_of_cw rfl⟩ (noted.calm_put (noHalt_overrun ten) _)
  have counted (v : Nat) := State.calm_trans htold (told.calm_put (f := R.SCH_TEN_OVERRUN_CHARGE ten) (noHalt_overrun ten) v)
  split
  · rename_i now _ e _
    refine State.calm_ite (State.calm_trans (counted (told.get (R.SCH_TEN_OVERRUN_CHARGE ten) + (now - (e - n)))) ?_) (counted _)
    exact ⟨rfl, rfl, rfl, State.keepsHalts_of_cw rfl⟩
  · exact counted _

/-- A commit past its slice's end leaves the cores. -/
theorem State.calm_overrun (s : State) (ref : Ref) (sheltered : Bool) : s.calm (s.overrun ref sheltered) := by
  unfold State.overrun
  dsimp only
  refine State.calm_trans (State.calm_foldl _ s fun u p _ => ?_) ⟨rfl, rfl, rfl, State.keepsHalts_of_cw rfl⟩
  have noted : u.calm (if (sheltered && decide (0 < u.time (u.tenPort p.ten) - p.finish)) = true then
      u.raise R.SCH_ERR_SHELTER_OVERRUN (some p.ten) else u) :=
    State.calm_ite (u.calm_raiseAt (noHalt_below (by decide)) _ _ _) u.calm_refl
  exact State.calm_ite (State.calm_trans noted (State.calm_charge _ _ _)) noted

/-! ## What leaves one core and its halt -/

/-- Whether the serial, one core and the hamlets' error registers of a state stand as in another. -/
structure State.sparesCore (c : Nat) (s u : State) : Prop where
  serial : u.x.serial = s.x.serial
  core : u.core c = s.core c
  halts : s.keepsHalts u

section
variable {c : Nat}

theorem State.sparesCore_of_calm {s u : State} (h : s.calm u) : s.sparesCore c u :=
  ⟨h.serial, by rw [State.core, h.cores, State.core], h.halts⟩

theorem State.sparesCore_refl (s : State) : s.sparesCore c s := State.sparesCore_of_calm s.calm_refl

theorem State.sparesCore_trans {s t u : State} (h : s.sparesCore c t) (h' : t.sparesCore c u) : s.sparesCore c u :=
  ⟨h'.serial.trans h.serial, h'.core.trans h.core, State.keepsHalts_trans h.halts h'.halts⟩

theorem State.sparesCore_foldl {α : Type} {f : State → α → State} (l : List α) (s : State)
    (hf : ∀ u : State, ∀ a ∈ l, u.sparesCore c (f u a)) : s.sparesCore c (l.foldl f s) :=
  List.foldlRecOn l f s.sparesCore_refl fun u h a ha => State.sparesCore_trans h (hf u a ha)

/-- A kill of another core's turns. -/
theorem State.sparesCore_killTurns (s : State) {p : Nat} (hp : c ≠ p) (i : Nat) (cause : Cause) :
    s.sparesCore c (s.killTurns p i cause) := by
  cases h : (s.core p).turns[i]? with
  | none =>
    rw [State.killTurns_beyond h]
    exact s.sparesCore_refl
  | some tn =>
    cases hw : ((s.core p).shelters tn.num && cause.shelters) || s.get R.PWR_STS_SHUTDOWN == 1 with
    | true =>
      rw [State.killTurns_withheld h hw]
      exact s.sparesCore_refl
    | false =>
      have lost : s.sparesCore c (s.withoutTurns p i tn cause) := by
        rw [s.withoutTurns_spec]
        exact ⟨rfl, (tget_tset _ _ _ _ _).trans (if_neg hp), State.keepsHalts_of_cw rfl⟩
      rw [State.killTurns_eq h hw]
      split
      · exact State.sparesCore_trans lost (State.sparesCore_of_calm (State.calm_raiseAt _ (noHalt_below (by decide)) _ _ _))
      · exact lost

/-- The readers that a turn's commit kills are on other cores. -/
theorem State.sparesCore_clash (s : State) (gs : List Nat) : s.sparesCore c (s.clash (.turn c) gs) := by
  unfold State.clash
  dsimp only
  refine State.sparesCore_trans (State.sparesCore_of_calm (State.calm_foldl _ s fun u p _ => ?_))
    (State.sparesCore_trans (State.sparesCore_foldl _ _ fun u p _ => ?_)
      (State.sparesCore_of_calm (State.calm_foldl _ _ fun u p _ => ?_)))
  · exact State.calm_ite (u.calm_killCmd _ _) u.calm_refl
  · split
    · exact u.sparesCore_refl
    · rename_i hc
      split
      · exact u.sparesCore_killTurns (fun h => hc (by rw [h])) _ _
      · exact u.sparesCore_refl
  · exact State.calm_ite (u.calm_killMove _) u.calm_refl

end

theorem foldl_const {α β : Type} {f : β → α → β} (h : ∀ b a, f b a = b) (l : List α) (b : β) : l.foldl f b = b := by
  induction l generalizing b with
  | nil => rfl
  | cons a l ih => rw [List.foldl_cons, h, ih]

/-- A commit that writes nothing kills no reader. -/
theorem State.clash_nil (s : State) (who : Ref) : s.clash who [] = s := by
  unfold State.clash
  dsimp only
  rw [foldl_const (l := s.x.cmds) (fun u p => by simp), foldl_const (l := s.x.cores) (fun u p => ?_), foldl_const (fun u p => by simp)]
  have none_ : (u.core p.1).clashing [] = none := by simp [Core.clashing, List.findIdx?_eq_none_iff]
  rw [none_, ite_self]

/-! ## The report of a halt -/

/-- The halt reported: the hamlet's bit is set and stays, and no core, nor memory, nor the serial changes. -/
theorem State.reportHalt_spec (s : State) (c code pc : Nat) :
    (s.reportHalt c code pc).x = s.x ∧ (s.reportHalt c code pc).mem = s.mem ∧
      (s.put (R.HAM_ERR_EXC (c / 32)) 1).keepsHalts (s.reportHalt c code pc) := by
  unfold State.reportHalt
  dsimp only
  have logged := State.onRecord_logKind (s.put (R.HAM_ERR_EXC (c / 32)) 1).onRecord_refl 16 (c / 32) 2 code
    (some (s.core c).ten) (coreId c) pc true
  have halts := State.keepsHalts_logKind (s.put (R.HAM_ERR_EXC (c / 32)) 1) 16 (c / 32) 2 code (some (s.core c).ten) (coreId c) pc true
  obtain ⟨hx, hmem⟩ := State.onRecord_keeps (State.onRecord_sendEvent logged 0x02 code (some (s.core c).ten) _ _)
  exact ⟨hx, hmem, State.keepsHalts_trans halts (State.keepsHalts_sendEvent _ _ _ _ _ _)⟩

/-! ## The commit of a turn that ended in an exception -/

/-- What a turn's commit makes of its own before what it ended in: its stores, its core's state, its issues; its leases are consumed. -/
def State.turnMade (s : State) (c : Nat) (tn : Turn) (rest : List Turn) : State :=
  (((({ s with x := { s.x with serial := s.x.serial + 1 } } : State).putAll tn.writes).setCore c ((s.core c).afterTurn tn rest)).issueAll c
    (s.core c).ten tn.issues).noteContention.consumeLeases (Drawer.isTurn c tn.num) |>.unhold (.turn c tn.num)

theorem State.issueAll_spec (s : State) (c ten : Nat) (is : List PendIssue) :
    s.issueAll c ten is = { s with x := { s.x with cmds := (s.issueAll c ten is).x.cmds } } := by
  unfold State.issueAll
  refine List.foldlRecOn (motive := fun u : State => u = { s with x := { s.x with cmds := u.x.cmds } }) _ _ rfl fun u h i _ => ?_
  rw [h]
  rfl

theorem State.noteContention_keeps (s : State) : s.noteContention.x = s.x ∧ s.noteContention.mem = s.mem :=
  State.onRecord_keeps (State.onRecord_ite (State.onRecord_raise s.onRecord_refl _ _) s.onRecord_refl)

theorem State.putAll_nil_mem (s : State) : (s.putAll []).mem = s.mem := by
  change (State.clearPoison s []).mem = _
  rw [State.clearPoison_spec]

section
variable (s : State) (c : Nat) (tn : Turn) (rest : List Turn)

theorem State.turnMade_spec : (s.turnMade c tn rest).x.serial = s.x.serial + 1 ∧
    (s.turnMade c tn rest).x.cores = tset s.x.cores c ((s.core c).afterTurn tn rest) ∧
    (s.turnMade c tn rest).mem = (({ s with x := { s.x with serial := s.x.serial + 1 } } : State).putAll tn.writes).mem := by
  unfold State.turnMade State.unhold
  dsimp only
  obtain ⟨hx, hm⟩ := State.noteContention_keeps ((((({ s with x := { s.x with serial := s.x.serial + 1 } } : State).putAll
    tn.writes).setCore c ((s.core c).afterTurn tn rest)).issueAll c (s.core c).ten tn.issues))
  rw [State.consumeLeases_spec]
  dsimp only
  rw [hx, hm, State.issueAll_spec]
  dsimp only [State.setCore]
  rw [State.putAll_spec]
  exact ⟨rfl, rfl, rfl⟩

/-- What a turn's commit does after the report of what it ended in. -/
def State.turnSettled (s : State) (c : Nat) (tn : Turn) (sheltered : Bool) : State :=
  ((s.clash (.turn c) (granulesOf tn.writes)).abortAll tn.aborts).overrun (.turn c) sheltered

theorem State.sparesCore_turnSettled (sheltered : Bool) : s.sparesCore c (s.turnSettled c tn sheltered) :=
  State.sparesCore_trans (s.sparesCore_clash _)
    (State.sparesCore_of_calm (State.calm_trans (State.calm_abortAll _ _) (State.calm_overrun _ _ _)))

/-- The commit of a turn without stores leaves the cores and memory. -/
theorem State.calm_turnSettled (h : tn.stores = []) (sheltered : Bool) : s.calm (s.turnSettled c tn sheltered) := by
  have none_ : granulesOf tn.writes = [] := by rw [Turn.writes, h]; rfl
  rw [State.turnSettled, none_, State.clash_nil]
  exact State.calm_trans (State.calm_abortAll _ _) (State.calm_overrun _ _ _)

variable {s c tn rest}

theorem State.commitTurn_exception {code pc : Nat} (hfin : tn.fin = .exception code pc) (hend : (s.core c).ending = false) :
    s.commitTurn c tn rest =
      ((s.turnMade c tn rest).reportHalt c code pc).turnSettled c tn ((s.core c).shelters tn.num) := by
  unfold State.commitTurn
  simp only [hfin, hend, Bool.false_eq_true, if_false]
  rfl

theorem Core.afterTurn_exception {k : Core} {code pc : Nat} (hfin : tn.fin = .exception code pc) : k.afterTurn tn rest =
    { k with arg := tn.arg.getD k.arg, turnsDone := k.turnsDone + 1, turns := rest, marks := tdel k.marks tn.num
             mode := .excHalted, exc := code, excPc := pc } := by
  unfold Core.afterTurn
  simp only [hfin]

theorem execCommitGrant_turn (hc : c < 256) (ht : (s.core c).turns = tn :: rest) (hr : s.turnReady c tn = true) :
    execCommitGrant (.turn c) s = .next (s.commitTurn c tn rest) := by
  unfold execCommitGrant
  simp only [Nat.not_le.2 hc, if_false, ht, hr, if_true]

end

theorem State.get_of_reg {s u : State} {f : Field} (h : u.reg f.reg = s.reg f.reg) : u.get f = s.get f := by
  unfold State.get
  rw [h]

/-- Settles O23: the exception ends the turn; its commit halts the core, and what follows the report of the halt spares the core and the
hamlet's error register. -/
theorem exceptionsHaltTheCore : Obligations.ExceptionsHaltTheCore := by
  intro s c k ends
  refine ⟨fun h => (coreRow_of_runs h rfl).trans rfl, fun h => (coreRow_of_runs h rfl).trans rfl,
    fun tn rest code pc hc ht hfin hr hend => ?_⟩
  obtain ⟨hserial, hcores, hmem⟩ := s.turnMade_spec c tn rest
  obtain ⟨hx, hmem', hhalts⟩ := State.reportHalt_spec (s.turnMade c tn rest) c code pc
  have spared := State.sparesCore_turnSettled ((s.turnMade c tn rest).reportHalt c code pc) c tn (k.shelters tn.num)
  have core : ((((s.turnMade c tn rest).reportHalt c code pc).turnSettled c tn (k.shelters tn.num)).core c) = k.afterTurn tn rest := by
    rw [spared.core, State.core, hx, hcores]
    exact State.core_setCore_same s c _
  refine ⟨_, (execCommitGrant_turn hc ht hr).trans (congrArg _ (State.commitTurn_exception hfin hend)), ?_⟩
  rw [core, Core.afterTurn_exception hfin]
  refine ⟨rfl, rfl, rfl, rfl, rfl, rfl, rfl, rfl, ?bit, ?serial, fun hst => ?mem, fun hst d hd => ?others⟩
  case bit =>
    rw [State.get_of_reg ((spared.halts _).trans (hhalts (c / 32)))]
    exact State.get_put_same _ (R.HAM_ERR_EXC (c / 32)) 1 (by change 0 + 1 ≤ 64; decide)
  case serial => rw [spared.serial, hx, hserial]
  case mem =>
    rw [(State.calm_turnSettled _ c tn hst _).mem, hmem', hmem, Turn.writes, hst]
    exact State.putAll_nil_mem _
  case others =>
    rw [State.core, (State.calm_turnSettled _ c tn hst _).cores, hx, hcores]
    exact (State.core_setCore s c d _).trans (if_neg hd)

end Sys2Proof.Machine
end

section
/-!
PROOFS. Well-formed commands answer a next state (00 Table 0.4, 01 Table 1.1): the tree of a row's tests, the rows that many commands share,
the rows that look something up, the offsets of the units' CTL registers, and every command.
-/

namespace Sys2Proof.Machine
open Sys2Proof.Claims

/-! ## The tree of a row's tests -/

section
variable {x y : Ans}

theorem isNext_of_next (h : ∃ u, x = .next u) : isNext x = true := by
  obtain ⟨u, rfl⟩ := h
  rfl

theorem exists_next_of_isNext (h : isNext x = true) : ∃ u, x = .next u := by
  cases x with
  | next u => exact ⟨u, rfl⟩
  | fault r => exact Bool.noConfusion h
  | refused r => exact Bool.noConfusion h

theorem isNext_ite {p : Prop} [Decidable p] (hx : isNext x = true) (hy : isNext y = true) : isNext (if p then x else y) = true := by
  split
  · exact hx
  · exact hy

/-- A row whose operands name units that the module has goes past its check of them. -/
theorem isNext_guard {p : Prop} [Decidable p] {r : Fault} (hp : ¬ p) (hx : isNext x = true) :
    isNext (if p then .fault r else x) = true := by
  rw [if_neg hp]
  exact hx

theorem isNext_below {a b : Nat} {r : Fault} (h : a < b) (hx : isNext x = true) : isNext (if b ≤ a then .fault r else x) = true :=
  isNext_guard (Nat.not_le.2 h) hx

end

/-! ## The rows that many commands share -/

section
variable (s : State)

theorem State.opRow_isNext (t cls op : Nat) (acc : Accessor) (plan : Cmd → Plan) : isNext (s.opRow t cls op acc plan) = true :=
  isNext_of_next (s.opRow_next t cls op acc plan)

/-- A pass's row counts what its work did (05 R130). -/
theorem State.runPass_isNext (t : Nat) (corr : List (Nat × Nat × Bool)) : isNext (s.runPass t corr) = true := by
  obtain ⟨u, hu⟩ := s.opRow_next t 0x01 0x01 .unit fun c => s.passPlan t c
  unfold State.runPass
  rw [hu]
  rfl

theorem State.startRemote_isNext (t : Nat) (c : Cmd) (rds wrs : List (Nat × Nat)) (go : State → State) :
    isNext (s.startRemote t c rds wrs go) = true := by
  fun_cases State.startRemote <;> rfl

theorem State.fabRow_isNext (t op : Nat) (bad : Cmd → Bool) {go : Cmd → Nat → Ans} (hgo : ∀ c n, isNext (go c n) = true) :
    isNext (s.fabRow t op bad go) = true := by
  fun_cases State.fabRow
  case case4 => exact hgo _ _
  all_goals rfl

theorem State.mirRow_isNext {port : Nat} (h : port ≤ 16) (kind : Nat) (c : Car) (act : State → Car → State) :
    isNext (State.mirRow kind port c s act) = true :=
  isNext_of_next (State.carRow_next _ _ _ _ _ h)

theorem State.writeRow_isNext {via : Via} (h : viaOk via = true) (off v : Nat) : isNext (s.writeRow via off v) = true :=
  isNext_of_next (s.writeRow_next via off v h)

theorem State.enRow_isNext {b : Blk} {n ctl : Nat} {via : Via} (hn : n < copyCount b) (hc : ctlAt b n = some ctl) (h : viaOk via = true)
    (on v : Nat) : isNext (s.enRow b n on via v) = true := by
  rw [s.enRow_write b n on via v ctl hn hc]
  exact s.writeRow_isNext h _ _

end

/-! ## Cores, turns and commands (02, 03, 04) -/

section
variable {s : State} {t c : Nat} {r : Ref}

theorem execBarrierRelease_isNext {ham num : Nat} (hh : ham < 8) (hn : num < 16) : isNext (execBarrierRelease ham num s) = true := by
  fun_cases execBarrierRelease
  case case1 => omega
  all_goals rfl

theorem execCmdIssueStallEnd_isNext (h : c < 256) : isNext (execCmdIssueStallEnd c s) = true := by
  fun_cases execCmdIssueStallEnd
  case case1 => omega
  all_goals rfl

theorem execCmdWaitReturn_isNext (h : c < 256) : isNext (execCmdWaitReturn c s) = true := by
  fun_cases execCmdWaitReturn
  case case1 => omega
  all_goals rfl

theorem execCommandLeaveIssued_isNext {unit : Nat} : isNext (execCommandLeaveIssued t unit s) = true := by
  fun_cases execCommandLeaveIssued <;> rfl

theorem execWellDrawRetry_isNext : isNext (execWellDrawRetry r s) = true := by fun_cases execWellDrawRetry <;> rfl

theorem execCommandReady_isNext {r : Noted Ref} : isNext (execCommandReady r s) = true := by fun_cases execCommandReady <;> rfl

theorem execCommandKill_isNext {cause : Cause} : isNext (execCommandKill r cause s) = true := by fun_cases execCommandKill <;> rfl

theorem execKillComplete_isNext : isNext (execKillComplete r s) = true := by fun_cases execKillComplete <;> rfl

theorem execCommandRerun_isNext : isNext (execCommandRerun r s) = true := by fun_cases execCommandRerun <;> rfl

theorem execNkStartPoint_isNext : isNext (execNkStartPoint t s) = true := by fun_cases execNkStartPoint <;> rfl

theorem execArrayProgramDone_isNext : isNext (execArrayProgramDone t s) = true := by fun_cases execArrayProgramDone <;> rfl

theorem execCommitGrant_isNext (h : refOk r = true) : isNext (execCommitGrant r s) = true := by
  fun_cases execCommitGrant
  case case4 c hc => exact absurd (of_decide_eq_true h) (Nat.not_lt.2 hc)
  all_goals rfl

theorem execQueueJoin_isNext : isNext (execQueueJoin t s) = true := State.opRow_isNext ..

theorem execWellFill_isNext : isNext (execWellFill t s) = true := by
  fun_cases execWellFill
  · rfl
  · exact State.opRow_isNext ..

end

/-! ## Engines, memory and the text unit (05, 07, 12) -/

section
variable {s : State} {t : Nat} {r : Ref}

theorem execEngPass_isNext {t : Noted Nat} : isNext (execEngPass t s) = true := by
  fun_cases execEngPass
  case case2 => exact State.runPass_isNext ..
  all_goals rfl

theorem execAccTileWaitEnd_isNext {t : Noted Nat} : isNext (execAccTileWaitEnd t s) = true := by
  fun_cases execAccTileWaitEnd
  case case2 => exact State.runPass_isNext ..
  all_goals rfl

theorem execEngEw_isNext : isNext (execEngEw t s) = true := by
  unfold execEngEw
  split
  · rfl
  · rename_i hne
    obtain ⟨u, hu⟩ := exists_next_of_isNext (State.opRow_isNext _ _ _ _ _ _)
    exact absurd hu (hne u)

theorem execDriftMove_isNext {page toSt toFrame : Nat} {granule : Option Nat} {why : MoveWhy} :
    isNext (execDriftMove page granule toSt toFrame why s) = true := by
  fun_cases execDriftMove <;> rfl

theorem execFaultResolvedRerun_isNext : isNext (execFaultResolvedRerun r s) = true := by fun_cases execFaultResolvedRerun <;> rfl

theorem execPageHoldExpiry_isNext {page : Nat} : isNext (execPageHoldExpiry page s) = true := by fun_cases execPageHoldExpiry <;> rfl

theorem execGranulePoison_isNext {granule : Nat} : isNext (execGranulePoison granule r s) = true := by fun_cases execGranulePoison <;> rfl

theorem execPoisonRebuild_isNext {granule : Nat} : isNext (execPoisonRebuild granule s) = true := by fun_cases execPoisonRebuild <;> rfl

theorem execCellarMediaEvent_isNext {e : MediaEvent} : isNext (execCellarMediaEvent e s) = true := by fun_cases execCellarMediaEvent <;> rfl

theorem execGrmUnload_isNext : isNext (execGrmUnload t s) = true := State.opRow_isNext ..

theorem execGrmPeek_isNext : isNext (execGrmPeek t s) = true := State.opRow_isNext ..

end

/-! ## The fabric, embedding tables and twin mode (16, 17, 18) -/

section
variable {s : State} {t port : Nat}

theorem execLinkRetransmitTimer_isNext (h : port < 16) : isNext (execLinkRetransmitTimer port s) = true := by
  fun_cases execLinkRetransmitTimer
  case case1 => omega
  all_goals rfl

theorem execNeighbourTimeout_isNext (h : port < 16) : isNext (execNeighbourTimeout port s) = true := by
  fun_cases execNeighbourTimeout
  case case1 => omega
  all_goals rfl

theorem execPoolFrameRecall_isNext {frame toSt toFrame : Nat} : isNext (execPoolFrameRecall frame toSt toFrame s) = true := by
  fun_cases execPoolFrameRecall <;> rfl

theorem execFabRead_isNext : isNext (execFabRead t s) = true := State.fabRow_isNext _ _ _ _ fun _ _ => State.startRemote_isNext ..

theorem execFabWrite_isNext : isNext (execFabWrite t s) = true := State.fabRow_isNext _ _ _ _ fun _ _ => State.startRemote_isNext ..

theorem execFabAtomic_isNext : isNext (execFabAtomic t s) = true := State.fabRow_isNext _ _ _ _ fun _ _ => rfl

theorem execEmbGather_isNext : isNext (execEmbGather t s) = true := by
  fun_cases execEmbGather
  case case7 | case8 | case9 => exact State.startRemote_isNext ..
  all_goals rfl

theorem execEmbAdd_isNext : isNext (execEmbAdd t s) = true := by
  fun_cases execEmbAdd
  case case8 => exact State.startRemote_isNext ..
  all_goals rfl

theorem execConfirmWaitExpiry_isNext {pipe : List Nat} : isNext (execConfirmWaitExpiry pipe s) = true := by
  fun_cases execConfirmWaitExpiry <;> rfl

theorem execResyncBatchProtect_isNext : isNext (execResyncBatchProtect s) = true := by fun_cases execResyncBatchProtect <;> rfl

theorem execUnitWaitExpiry_isNext : isNext (execUnitWaitExpiry t s) = true := by fun_cases execUnitWaitExpiry <;> rfl

/-- A report of a unit's error is checked for just what a well-formed one names. -/
theorem execUnitErrorReport_isNext {err : UnitErr} (h : unitErrOk err = true) : isNext (execUnitErrorReport err s) = true := by
  fun_cases execUnitErrorReport
  case case1 | case3 | case5 | case7 | case9 | case11 | case13 =>
    simp only [unitErrOk, coreOk, Bool.and_eq_true, Bool.or_eq_true, decide_eq_true_eq] at h
    omega
  all_goals rfl

end

/-! ## Requests and batches (10, 13, 14, 15) -/

section
variable {s : State} {batch row qp : Nat} {msg : List Byte}

theorem execPromptPack_isNext {rank : Option RankIn} {gather : Nat} {arrived : List (Nat × List Nat)} :
    isNext (execPromptPack batch row rank gather arrived s) = true := by
  fun_cases execPromptPack <;> rfl

theorem execSpliceMaskSend_isNext {plan : PlanIn} : isNext (execSpliceMaskSend batch row plan s) = true := by
  fun_cases execSpliceMaskSend <;> rfl

theorem execSpliceAgree_isNext {home ten : Nat} {stages masks : List Nat} :
    isNext (execSpliceAgree home batch row ten stages masks s) = true := by
  fun_cases execSpliceAgree <;> rfl

theorem execSpliceBuild_isNext {passage tokens : Nat} {place : BuildAt} {data : List Byte} :
    isNext (execSpliceBuild passage tokens place data s) = true := by
  fun_cases execSpliceBuild <;> rfl

theorem execStepFeedSend_isNext {grms : List (Nat × Nat)} : isNext (execStepFeedSend batch grms s) = true := by
  fun_cases execStepFeedSend <;> rfl

theorem execDraftPropose_isNext {draft : DraftIn} : isNext (execDraftPropose batch row draft s) = true := by
  fun_cases execDraftPropose <;> rfl

theorem execSampleDecide_isNext {d : DecideIn} : isNext (execSampleDecide batch row d s) = true := by fun_cases execSampleDecide <;> rfl

theorem execStepCommit_isNext {recs : List StepRec} : isNext (execStepCommit batch recs s) = true := by fun_cases execStepCommit <;> rfl

theorem execBatch_isNext {ahead : Nat} (h : qp < 1024) : isNext (execBatch qp ahead msg s) = true := by
  fun_cases execBatch
  case case1 => omega
  all_goals rfl

theorem execCancel_isNext (h : qp < 1024) : isNext (execCancel qp msg s) = true := by
  fun_cases execCancel
  case case1 => omega
  all_goals rfl

theorem execStatusQuery_isNext (h : qp < 1024) : isNext (execStatusQuery qp msg s) = true := by
  fun_cases execStatusQuery
  case case1 => omega
  all_goals rfl

end

/-! ## The loader and the scheduler (06, 14) -/

section
variable {s : State} {rota : Nat}

theorem execProgramBind_isNext {ten port : Nat} {m : Manifest} (ht : ten < 64) (hp : port < 4) :
    isNext (execProgramBind ten port m s) = true := by
  fun_cases execProgramBind
  case case1 => omega
  all_goals rfl

theorem execVariantLoad_isNext {v base size : Nat} (h1 : 1 ≤ v) (h2 : v ≤ 256) : isNext (execVariantLoad v base size s) = true := by
  fun_cases execVariantLoad
  case case1 => omega
  all_goals rfl

theorem execSliceEnd_isNext (h : rotaOk rota = true) : isNext (execSliceEnd rota s) = true := by
  fun_cases execSliceEnd
  case case1 hr => simp [show isRota rota = true from h] at hr
  all_goals rfl

theorem execEarlySliceEnd_isNext (h : rota < 16) : isNext (execEarlySliceEnd rota s) = true := by
  fun_cases execEarlySliceEnd
  case case1 => omega
  all_goals rfl

theorem execRotaIdleResume_isNext (h : rotaOk rota = true) : isNext (execRotaIdleResume rota s) = true := by
  fun_cases execRotaIdleResume
  case case1 hr => simp [show isRota rota = true from h] at hr
  all_goals rfl

theorem execRebindComplete_isNext : isNext (execRebindComplete s) = true := by fun_cases execRebindComplete <;> rfl

end

/-! ## Host ports (15) -/

section
variable {s : State} {qp port order row : Nat}

theorem execRnrNak_isNext {seq : Nat} (h : qp < 1024) : isNext (execRnrNak qp seq s) = true := by
  fun_cases execRnrNak
  case case1 => omega
  all_goals rfl

theorem execRnrTimerExpiry_isNext (h : qp < 1024) : isNext (execRnrTimerExpiry qp s) = true := by
  fun_cases execRnrTimerExpiry
  case case1 => omega
  all_goals rfl

theorem execRnrRetryExhausted_isNext (h : qp < 1024) : isNext (execRnrRetryExhausted qp s) = true := by
  fun_cases execRnrRetryExhausted
  case case1 => omega
  all_goals rfl

theorem execRingConsPoll_isNext : isNext (execRingConsPoll order row s) = true := by fun_cases execRingConsPoll <;> rfl

theorem execRdmaReadResponse_isNext {value : Nat} : isNext (execRdmaReadResponse order row value s) = true := by
  fun_cases execRdmaReadResponse <;> rfl

theorem execCmReq_isNext {remote priv : Nat} (h : port < 4) : isNext (execCmReq port remote priv s) = true := by
  fun_cases execCmReq
  case case1 => omega
  all_goals rfl

theorem execHostFrameDrop_isNext {why : HostDrop} (h : port < 4) : isNext (execHostFrameDrop port why s) = true := by
  fun_cases execHostFrameDrop
  case case1 => omega
  all_goals rfl

theorem execPfcPauseExpiry_isNext (h : port < 4) : isNext (execPfcPauseExpiry port s) = true := by
  fun_cases execPfcPauseExpiry
  case case1 => omega
  all_goals rfl

end

/-! ## Power, the security island and bring-up (19, 20, 25) -/

section
variable {s : State} {dom : Nat}

theorem execDomainGateDone_isNext (h : dom < 50) : isNext (execDomainGateDone dom s) = true := by
  fun_cases execDomainGateDone
  case case1 => omega
  all_goals rfl

theorem execDomainPowerUpDone_isNext (h : dom < 50) : isNext (execDomainPowerUpDone dom s) = true := by
  fun_cases execDomainPowerUpDone
  case case1 => omega
  all_goals rfl

theorem execThermalShutdown_isNext {sensor : Sensor} {temp : Nat} (h : sensorOk sensor = true) :
    isNext (execThermalShutdown sensor temp s) = true := by
  cases sensor with
  | field d => exact isNext_below (of_decide_eq_true h) rfl
  | gate => rfl
  | stack n => exact isNext_below (of_decide_eq_true h) rfl

theorem execRomTryClear_isNext {written : Bool} : isNext (execRomTryClear written s) = true := by fun_cases execRomTryClear <;> rfl

theorem execKsWriteDone_isNext {written : Bool} : isNext (execKsWriteDone written s) = true := by fun_cases execKsWriteDone <;> rfl

theorem execImageCheckDone_isNext {content : ImgContent} : isNext (execImageCheckDone content s) = true := by
  fun_cases execImageCheckDone <;> rfl

theorem execBringUpStageEnd_isNext {r : StageRes} : isNext (execBringUpStageEnd r s) = true := by fun_cases execBringUpStageEnd <;> rfl

end

/-! ## The units' CTL registers (21 R523) -/

/-- The numbers that an offset in an array names are in the array's bounds. -/
theorem matchDims_bounds {r : Nat} {dims : List (Nat × Nat)} {ix : List Nat} (h : matchDims r dims = some ix) :
    List.Forall₂ (fun d i => i < d.2) dims ix := by
  induction dims generalizing r ix with
  | nil =>
    unfold matchDims at h
    split at h
    · cases h
      exact .nil
    · cases h
  | cons d ds ih =>
    unfold matchDims at h
    split at h
    case isTrue hr =>
      obtain ⟨js, hjs, rfl⟩ := Option.map_eq_some_iff.1 h
      exact .cons hr (ih hjs)
    case isFalse => cases h

/-- What the map finds at an offset is one of its registers, and a copy that it has. -/
theorem regIn_spec {ds : List RegDef} {off : Nat} {d : RegDef} {ix : List Nat} (h : regIn ds off = some (d, ix)) :
    d ∈ ds ∧ List.Forall₂ (fun e i => i < e.2) d.dims ix := by
  fun_induction regIn ds off with
  | case1 => cases h
  | case2 off e es hlt ih => exact ⟨.tail _ (ih h).1, (ih h).2⟩
  | case3 off e es hlt js hjs =>
    cases h
    exact ⟨.head _, matchDims_bounds hjs⟩
  | case4 off e es hlt hno ih => exact ⟨.tail _ (ih h).1, (ih h).2⟩

/-- A copy's number, made of numbers in bounds, is below the number of copies. -/
theorem copies_lt {dims : List (Nat × Nat)} {ix : List Nat} (h : List.Forall₂ (fun d i => i < d.2) dims ix)
    (k : Nat) {a n : Nat} (ha : a < n) :
    ((dims.take k).zip ix).foldl (fun a p => a * p.1.2 + p.2) a < (dims.take k).foldl (fun n d => n * d.2) n := by
  induction h generalizing k a n with
  | nil => simpa using ha
  | @cons d i ds js hi hs ih =>
    cases k with
    | zero => simpa using ha
    | succ k =>
      refine ih k ?_
      calc a * d.2 + i < a * d.2 + d.2 := Nat.add_lt_add_left hi _
        _ = (a + 1) * d.2 := (Nat.succ_mul a d.2).symm
        _ ≤ n * d.2 := Nat.mul_le_mul_right _ ha

/-- Every register of a block's copies has no more of them than the block. -/
theorem regMap_copies : ∀ d ∈ R.regMap, (d.dims.take d.udims).foldl (fun n e => n * e.2) 1 ≤ copyCount d.blk := by decide +kernel

theorem copyNumber_lt {off : Nat} {d : RegDef} {ix : List Nat} (h : findReg off = some (d, ix)) : copyNumber d ix < copyCount d.blk := by
  obtain ⟨hd, hix⟩ := regIn_spec h
  exact Nat.lt_of_lt_of_le (copies_lt hix d.udims Nat.one_pos) (regMap_copies d hd)

/-- A unit found at an offset is a copy that its block has, with its CTL register there. -/
theorem unitAt_spec {ctl n : Nat} {b : Blk} (h : unitAt ctl = some (b, n)) : n < copyCount b ∧ ctlAt b n = some ctl := by
  unfold unitAt at h
  split at h
  case h_1 d ix hf =>
    split at h
    case isTrue hc =>
      cases h
      exact ⟨copyNumber_lt hf, hc⟩
    case isFalse => cases h
  case h_2 => cases h

theorem execUnitDisable_isNext {via : Via} {ctl v : Nat} {s : State} (hv : viaOk via = true) (h : ctlOk ctl = true) :
    isNext (execUnitDisable via ctl v s) = true := by
  fun_cases execUnitDisable
  case case1 hu => simp [ctlOk, hu] at h
  case case2 b n hu =>
    obtain ⟨hn, hc⟩ := unitAt_spec hu
    exact s.enRow_isNext hn hc hv 0 v

theorem execConsistencyCheckEnd_isNext {ctl : Nat} {s : State} (h : ctlOk ctl = true) : isNext (execConsistencyCheckEnd ctl s) = true := by
  fun_cases execConsistencyCheckEnd
  case case1 hu => simp [ctlOk, hu] at h
  all_goals rfl

/-! ## Every command -/

/-- Every command whose operands name units that the module has answers a next state: its row is one that many commands share, or a chain of
tests, or one of those above. -/
theorem exec_isNext (i : Instr) (s : State) (h : i.wf = true) : isNext (exec i s) = true := by
  cases i with
  -- instructions of a core
  | intRegOp | intAddi | intAndi | intOri | intXori | intSlti | intSltui | intHi | intShli | intShri | intSrai | movL | memLd | memSt
  | memVld | memVst | memTouch | brCompare | brCall | brJr | vecOp | vecCvt | vecRed | vecPerm | vecCmp | vecMsk | illegalInstruction
  | cmdIssue | cmdWait | cmdWaitall | cmdAbort | wellDraw | syncBar | syncCommit | syncHalt | sysRd | sysWr | sysBreak =>
    exact isNext_of_next (State.coreRow_next _ _ _ (of_decide_eq_true h))
  -- operations of a queue
  | cartCopy | cartGather | cartScatter | cartFill | cartStride | driftMap | driftUnmap | driftPin | driftUnpin | driftHint | driftSettle
  | celGather | celProg | celTrim | scanProbe | scanRescore | scanSnap | scanInsert | scanDelete | scanFold | scanGather | txtTok | txtOpen
  | txtFeed | txtClose | grmLoad | grmOpen | grmStep | grmPath | embSwap | netEmit | secBfw | secQuoteCmd =>
    exact State.opRow_isNext ..
  -- received caravans
  | linkHello | linkAck | topo | credit | twinOffer | subst | substAck | write | writeCommit | writeDiscard | writeAck | readReq | readResp
  | atomic | atomicResp | emb | mirAck =>
    exact isNext_of_next (State.carRow_next _ _ _ _ _ (of_decide_eq_true h))
  | mirAdmit | mirKv | mirStep | mirCancel | mirEnd | twinBeat => exact s.mirRow_isNext (of_decide_eq_true h) _ _ _
  -- writes of registers
  | registerWrite | schRebind | memLookupVa | fabRtRowWrite | fabLendWrite | hstImgBegin | hstImgChunk | hstImgEnd | pwrDomCtlWrite
  | pwrSleepWrite | fwStart | fwConfirm | fwAdvance | secQuoteGo | ksInstallSm4 | ksInstallSigner | ksRevoke | errLogClear =>
    exact s.writeRow_isNext h _ _
  | tenancyDrainWrite | kvPagesWrite | fabPortRetry =>
    obtain ⟨hv, hn⟩ := Bool.and_eq_true_iff.1 h
    exact isNext_below (of_decide_eq_true hn) (s.writeRow_isNext hv _ _)
  | memEnable => exact s.enRow_isNext (b := .mem) (n := 0) Nat.one_pos rfl h _ _
  | celEnable => exact s.enRow_isNext (b := .cel) (n := 0) Nat.one_pos rfl h _ _
  | txtEnable => exact s.enRow_isNext (b := .txt) (n := 0) Nat.one_pos rfl h _ _
  | txtGrmEnable => exact s.enRow_isNext (b := .grm) (n := 0) Nat.one_pos rfl h _ _
  | schEnable => exact s.enRow_isNext (b := .sch) (n := 0) Nat.one_pos rfl h _ _
  | fabEnable => exact s.enRow_isNext (b := .fab) (n := 0) Nat.one_pos rfl h _ _
  | embEnable => exact s.enRow_isNext (b := .emb) (n := 0) Nat.one_pos rfl h _ _
  | twnEnable => exact s.enRow_isNext (b := .twn) (n := 0) Nat.one_pos rfl h _ _
  | pwrEnable => exact s.enRow_isNext (b := .pwr) (n := 0) Nat.one_pos rfl h _ _
  | secEnable => exact s.enRow_isNext (b := .sec) (n := 0) Nat.one_pos rfl h _ _
  | hamEnable | hamDisable | welEnable | engEnable | scnEnable | scnIdxEnable | scnIdxDisable | tenancyEnable | tenancyDisable | hstEnable
  | embTabEnable | oasEnable =>
    obtain ⟨hv, hn⟩ := Bool.and_eq_true_iff.1 h
    exact s.enRow_isNext (of_decide_eq_true hn) rfl hv _ _
  | unitDisable =>
    obtain ⟨hv, hc⟩ := Bool.and_eq_true_iff.1 h
    exact execUnitDisable_isNext hv hc
  -- rows without a test, and chains of tests
  | shadowCopybackDone | hotInsertPrecharge | hostRefclkLoss | memRefclkLoss | railsFail | bypass | idcode | samplePreload | extest | clamp
  | highz => rfl
  | eraAdvance | topoRefreshTimer | injectWindowGrow | poolFrameRequest | poolFrameReturn | variantRemoval | inputLowFall | inputLowRise
  | nvCutoff | nvRestore | undervoltageShutdown | inputHighRise | inputHighFall | overvoltageShutdown | shutdownFieldGate
  | shutdownGateDieGate | shutdownRestart | romBoot | ackWaitExpiry | rstNRelease | vddioSbRise | i3cRead | i3cWrite | i3cPrivateRead
  | recovData | recovEnd | entdaa | setdasa | rstdaa | setnewda | getpid | getbcr | getdcr | getstatus | getmwl | getmrl =>
    exact isNext_ite rfl rfl
  | routeRecomputeDone | rstNAssert => exact isNext_ite rfl (isNext_ite rfl rfl)
  | powerAverageWindow => exact isNext_ite (isNext_ite rfl rfl) (isNext_ite rfl rfl)
  | pacerWindow | tjHighCrossing | currentStepWindow | fabRefclkLoss | refclkReturn | cellarChannelFail =>
    exact isNext_below (of_decide_eq_true h) rfl
  | turnStallEnd | portDeadline | pcsLockLost | pcsLockGained | fabricFrameDrop | linkHelloTimer | alienTimeout | twinBeatTimer
  | laneRetrainDone | idleFillStart | idleFillTaper | idleFillStop | tjOver | hbmHot | qpLost | cmRtu | cnpReceive | rateRecovery =>
    exact isNext_below (of_decide_eq_true h) (isNext_ite rfl rfl)
  | hello | tenancyFree | linkSignalLoss | cwRdmaWrite | roceAcknowledge | roceAckTimeout | ecnMarkedReceive =>
    exact isNext_below (of_decide_eq_true h) (isNext_ite rfl (isNext_ite rfl rfl))
  | vcoreStep => exact isNext_below (of_decide_eq_true h) (isNext_ite rfl (isNext_ite rfl (isNext_ite rfl rfl)))
  | caravanForward | rdmaWrite | rdmaReadRequest =>
    exact isNext_below (of_decide_eq_true h) (isNext_ite rfl (isNext_ite rfl (isNext_ite rfl (isNext_ite rfl (isNext_ite rfl rfl)))))
  | pfcPauseReceive =>
    obtain ⟨hp, _⟩ := Bool.and_eq_true_iff.1 h
    exact isNext_below (of_decide_eq_true hp) (isNext_ite rfl (isNext_ite rfl rfl))
  | frameRetire | channelGroupRetire | laneFail =>
    simp only [Instr.wf, Bool.and_eq_true, decide_eq_true_eq] at h
    exact isNext_guard (by omega) (isNext_ite rfl rfl)
  -- rows that look something up
  | queueJoin => exact execQueueJoin_isNext
  | wellFill => exact execWellFill_isNext
  | grmUnload => exact execGrmUnload_isNext
  | grmPeek => exact execGrmPeek_isNext
  | cmdIssueStallEnd => exact execCmdIssueStallEnd_isNext (of_decide_eq_true h)
  | cmdWaitReturn => exact execCmdWaitReturn_isNext (of_decide_eq_true h)
  | wellDrawRetry => exact execWellDrawRetry_isNext
  | barrierRelease =>
    obtain ⟨hh, hn⟩ := Bool.and_eq_true_iff.1 h
    exact execBarrierRelease_isNext (of_decide_eq_true hh) (of_decide_eq_true hn)
  | commandLeaveIssued => exact execCommandLeaveIssued_isNext
  | commandReady => exact execCommandReady_isNext
  | commitGrant => exact execCommitGrant_isNext h
  | commandKill => exact execCommandKill_isNext
  | killComplete => exact execKillComplete_isNext
  | commandRerun => exact execCommandRerun_isNext
  | nkStartPoint => exact execNkStartPoint_isNext
  | arrayProgramDone => exact execArrayProgramDone_isNext
  | engPass => exact execEngPass_isNext
  | accTileWaitEnd => exact execAccTileWaitEnd_isNext
  | engEw => exact execEngEw_isNext
  | driftMove => exact execDriftMove_isNext
  | faultResolvedRerun => exact execFaultResolvedRerun_isNext
  | pageHoldExpiry => exact execPageHoldExpiry_isNext
  | granulePoison => exact execGranulePoison_isNext
  | poisonRebuild => exact execPoisonRebuild_isNext
  | cellarMediaEvent => exact execCellarMediaEvent_isNext
  | linkRetransmitTimer => exact execLinkRetransmitTimer_isNext (of_decide_eq_true h)
  | neighbourTimeout => exact execNeighbourTimeout_isNext (of_decide_eq_true h)
  | poolFrameRecall => exact execPoolFrameRecall_isNext
  | fabRead => exact execFabRead_isNext
  | fabWrite => exact execFabWrite_isNext
  | fabAtomic => exact execFabAtomic_isNext
  | embGather => exact execEmbGather_isNext
  | embAdd => exact execEmbAdd_isNext
  | confirmWaitExpiry => exact execConfirmWaitExpiry_isNext
  | resyncBatchProtect => exact execResyncBatchProtect_isNext
  | unitWaitExpiry => exact execUnitWaitExpiry_isNext
  | unitErrorReport => exact execUnitErrorReport_isNext h
  | promptPack => exact execPromptPack_isNext
  | spliceMaskSend => exact execSpliceMaskSend_isNext
  | spliceAgree => exact execSpliceAgree_isNext
  | spliceBuild => exact execSpliceBuild_isNext
  | stepFeedSend => exact execStepFeedSend_isNext
  | draftPropose => exact execDraftPropose_isNext
  | sampleDecide => exact execSampleDecide_isNext
  | stepCommit => exact execStepCommit_isNext
  | batch => exact execBatch_isNext (of_decide_eq_true h)
  | cancel => exact execCancel_isNext (of_decide_eq_true h)
  | statusQuery => exact execStatusQuery_isNext (of_decide_eq_true h)
  | programBind =>
    obtain ⟨ht, hp⟩ := Bool.and_eq_true_iff.1 h
    exact execProgramBind_isNext (of_decide_eq_true ht) (of_decide_eq_true hp)
  | variantLoad =>
    obtain ⟨h1, h2⟩ := Bool.and_eq_true_iff.1 h
    exact execVariantLoad_isNext (of_decide_eq_true h1) (of_decide_eq_true h2)
  | sliceEnd => exact execSliceEnd_isNext h
  | earlySliceEnd => exact execEarlySliceEnd_isNext (of_decide_eq_true h)
  | rotaIdleResume => exact execRotaIdleResume_isNext h
  | rebindComplete => exact execRebindComplete_isNext
  | consistencyCheckEnd => exact execConsistencyCheckEnd_isNext h
  | rnrNak => exact execRnrNak_isNext (of_decide_eq_true h)
  | rnrTimerExpiry => exact execRnrTimerExpiry_isNext (of_decide_eq_true h)
  | rnrRetryExhausted => exact execRnrRetryExhausted_isNext (of_decide_eq_true h)
  | ringConsPoll => exact execRingConsPoll_isNext
  | rdmaReadResponse => exact execRdmaReadResponse_isNext
  | cmReq => exact execCmReq_isNext (of_decide_eq_true h)
  | hostFrameDrop => exact execHostFrameDrop_isNext (of_decide_eq_true h)
  | pfcPauseExpiry => exact execPfcPauseExpiry_isNext (of_decide_eq_true h)
  | domainGateDone => exact execDomainGateDone_isNext (of_decide_eq_true h)
  | domainPowerUpDone => exact execDomainPowerUpDone_isNext (of_decide_eq_true h)
  | thermalShutdown => exact execThermalShutdown_isNext h
  | romTryClear => exact execRomTryClear_isNext
  | ksWriteDone => exact execKsWriteDone_isNext
  | imageCheckDone => exact execImageCheckDone_isNext
  | bringUpStageEnd => exact execBringUpStageEnd_isNext

/-- Settles O3, row by row. -/
theorem wellFormedCommandsAnswerNext : Obligations.WellFormedCommandsAnswerNext := exec_isNext

end Sys2Proof.Machine
end

section
/-!
PROOFS. The life of a command (02, 04): void tickets, and a command leaving Issued.
-/

namespace Sys2Proof.Machine
open Sys2Proof.Claims

/-! ## Void tickets (04 R98) -/

theorem State.waitResult_void {s : State} {d t : Nat} {m : Cmd} (hc : s.cmd t = some m) (hst : m.st = .void) :
    s.waitResult (.ticket d t) = some (d, voidWord) := by
  rw [State.waitResult_ticket hc, hst]
  rfl

theorem State.isOver_void {s : State} {t : Nat} {m : Cmd} (hc : s.cmd t = some m) (hst : m.st = .void) : s.isOver t = true := by
  simp [State.isOver, hc, hst, CmdSt.isOver]

/-- Settles O20: the result of a wait on a void ticket is the word of R98. -/
theorem voidTicketReturnsAtOnce : Obligations.VoidTicketReturnsAtOnce := fun _s _c _r _t _m hc hm ht hst =>
  ⟨fun hw => execCmdWaitReturn_result hc hm (hw ▸ State.waitResult_void ht hst), State.isOver_void ht hst⟩

/-! ## A command leaving Issued (04 R84 to R91) -/

section
variable {s : State} {t unit : Nat} {c : Cmd} {q : Queue}

/-- What lets a command leave Issued on a unit: the unit serves its queue and takes the tenancy's commands in its slice, and its start
dependencies and the place of its halo allow it. -/
def State.leavesIssued (s : State) (t unit : Nat) (q : Queue) (c : Cmd) : Prop :=
  s.mayServe q c.ten unit = true ∧ s.unitTakes q.cls unit c.ten = true ∧ s.mayRun c.ten = true ∧ s.startReady t c = true ∧
    s.haloUnit t c q unit = true

section
variable (hc : s.cmd t = some c) (hq : s.queue (qOf t) = some q)
include hc hq

theorem execCommandLeaveIssued_leaves (hst : c.st = .issued) (hd : c.drawWait = false) (h : s.leavesIssued t unit q c) :
    execCommandLeaveIssued t unit s = .next (s.leave t unit q c).noteContention := by
  unfold execCommandLeaveIssued
  rw [hc, hq]
  exact if_pos ⟨hst, by rw [hd]; rfl, h⟩

theorem execCommandLeaveIssued_stays (h : ¬ s.leavesIssued t unit q c) : execCommandLeaveIssued t unit s = .next s := by
  unfold execCommandLeaveIssued
  rw [hc, hq]
  exact if_neg fun ⟨_, _, h'⟩ => h h'

end

/-! ### The checks of Tables 4.3 and 4.5, in their order -/

/-- The class and operation of a command are those of its queue (R84). -/
def Cmd.sound (c : Cmd) (q : Queue) : Prop := (dClass c.words = 0 ∨ dClass c.words = q.cls) ∧ opExists (dClass c.words) (dOp c.words) = true

/-- The header fields of a command are in bounds (R88, Table 4.3). -/
def Cmd.shaped (c : Cmd) : Prop :=
  dNdep c.words ≤ 4 ∧ 2 + dNdep c.words ≤ dLen c.words ∧
    (dWellEn c.words = true → 2 + dNdep c.words ≤ dPatch c.words ∧ dPatch c.words < dLen c.words)

theorem State.leaveStatus_unsound (h : ¬ c.sound q) : s.leaveStatus q c = some stBadClass := by
  refine if_pos ?_
  rcases Decidable.not_and_iff_or_not.1 h with hcls | hop
  · exact .inl (not_or.1 hcls)
  · exact .inr (by simpa using hop)

/-- The checks after that of class and operation. -/
theorem State.leaveStatus_sound (h : c.sound q) : s.leaveStatus q c =
    if 4 < dNdep c.words ∨ dLen c.words < 2 + dNdep c.words then some stBadField
    else if dWellEn c.words ∧ (dPatch c.words < 2 + dNdep c.words ∨ dLen c.words ≤ dPatch c.words) then some stBadField
    else if c.depBad then some stDepBad
    else if (dDeps c.words).any s.isVoid then some stDepVoid
    else none := by
  obtain ⟨hcls, hop⟩ := h
  refine if_neg ?_
  rintro (hno | hno)
  · exact hcls.elim hno.1 hno.2
  · simp [hop] at hno

theorem State.leaveStatus_misshapen (h : c.sound q) (hs : ¬ c.shaped) : s.leaveStatus q c = some stBadField := by
  rw [State.leaveStatus_sound h]
  by_cases hn : 4 < dNdep c.words ∨ dLen c.words < 2 + dNdep c.words
  · exact if_pos hn
  · rw [if_neg hn, if_pos]
    simp only [Cmd.shaped] at hs
    grind

/-- The checks of dependencies, after those of the header. -/
theorem State.leaveStatus_shaped (h : c.sound q) (hs : c.shaped) : s.leaveStatus q c =
    if c.depBad then some stDepBad else if (dDeps c.words).any s.isVoid then some stDepVoid else none := by
  obtain ⟨hn, hl, hw⟩ := hs
  rw [State.leaveStatus_sound h, if_neg (by omega), if_neg]
  rintro ⟨hen, hp⟩
  have := hw hen
  omega

/-! ### What a command does as it leaves Issued (R88, R89) -/

theorem State.leave_refused {status : Nat} (h : s.leaveStatus q c = some status) : s.leave t unit q c = s.refuse t unit c status := by
  unfold State.leave
  rw [h]

section
variable (h : s.leaveStatus q c = none)
include h

theorem State.leave_start (hw : dWellEn c.words = false) : s.leave t unit q c = s.start t unit c none c.words := by
  unfold State.leave
  simp only [h, hw, Bool.not_false, if_true]

variable (hw : dWellEn c.words = true)
include hw

theorem State.leave_foreign (hm : s.wellMine (dWell c.words) c.ten = false) : s.leave t unit q c =
    (s.raiseAt (R.WEL_ERR_FOREIGN (dWell c.words)) (some c.ten) (dWell c.words) t).refuse t unit c stBadField := by
  unfold State.leave
  simp only [h, hw, hm, Bool.not_true, Bool.not_false, Bool.false_eq_true, if_false, if_true]

section
variable (hm : s.wellMine (dWell c.words) c.ten = true)
include hm

theorem State.leave_value {v : Nat} {u : State}
    (hdraw : s.draw (dWell c.words) (.cmd t) (unitKey (dClass c.words) unit) (s.epochOf (dClass c.words) unit) = .value v u) :
    s.leave t unit q c =
      u.start t unit c (some (dWell c.words, v)) (lset c.words (dPatch c.words) ((nw c.words (dPatch c.words) + v) % 2 ^ 64)) := by
  unfold State.leave
  simp only [h, hw, hm, hdraw, Bool.not_true, Bool.false_eq_true, if_false]

theorem State.leave_exhausted
    (hdraw : s.draw (dWell c.words) (.cmd t) (unitKey (dClass c.words) unit) (s.epochOf (dClass c.words) unit) = .exhausted) :
    s.leave t unit q c = s.refuse t unit c stWellEmpty := by
  unfold State.leave
  simp only [h, hw, hm, hdraw, Bool.not_true, Bool.false_eq_true, if_false]

theorem State.leave_wait
    (hdraw : s.draw (dWell c.words) (.cmd t) (unitKey (dClass c.words) unit) (s.epochOf (dClass c.words) unit) = .wait) :
    s.leave t unit q c = s.setCmd t { c with drawWait := true, unit := unit } := by
  unfold State.leave
  simp only [h, hw, hm, hdraw, Bool.not_true, Bool.false_eq_true, if_false]

end

end

/-- A pass received by an engine takes its place among those that wait for tiles (06 R139). -/
theorem State.received_eq : s.received t unit c =
    if dClass c.words = 1 ∧ dOp c.words = 1 then s.setTileQueue unit ((tget s.en.tileWait unit []).filter (· != t) ++ [t]) else s := by
  unfold State.received
  simp only [Cmd.isPass, Bool.and_eq_true, beq_iff_eq]

end

/-- Settles O24: the checks refuse in their order, and a command that none refuses does what its draw, if any, comes to. -/
theorem commandsLeaveIssuedToRun : Obligations.CommandsLeaveIssuedToRun := by
  intro s t unit c q hc hq hst hd w begun goes with_ got runs_ sound shaped
  have leaves {u : State} (h : goes) (hu : s.leave t unit q c = u) : exec (.commandLeaveIssued t unit) s = .next u.noteContention :=
    hu ▸ execCommandLeaveIssued_leaves hc hq hst hd h
  have refused {status : Nat} (h : goes) (hs : s.leaveStatus q c = some status) : exec (.commandLeaveIssued t unit) s = with_ status :=
    leaves h (State.leave_refused hs)
  have starts {u : State} {lease : Option (Nat × Nat)} {p : List Nat} (h : goes) (hs : s.leave t unit q c = u.start t unit c lease p) :
      exec (.commandLeaveIssued t unit) s = runs_ u lease p :=
    (leaves h hs).trans (by rw [State.start, State.received_eq])
  have sifted (hs : sound) (hw : shaped) (hb : c.depBad = false) (hv : (dDeps w).any s.isVoid = false) : s.leaveStatus q c = none := by
    rw [State.leaveStatus_shaped hs hw, hb, hv]
    rfl
  refine ⟨fun h => execCommandLeaveIssued_stays hc hq h, fun h hs => refused h (State.leaveStatus_unsound hs),
    fun h hs hw => refused h (State.leaveStatus_misshapen hs hw), fun h hs hw hb => refused h ?depBad, fun h hs hw hb hv => refused h ?depVoid,
    fun h hs hw hb hv hen => starts h (State.leave_start (sifted hs hw hb hv) hen),
    fun h hs hw hb hv hen hm v u hdraw => starts h (State.leave_value (sifted hs hw hb hv) hen hm hdraw),
    fun h hs hw hb hv hen => ⟨fun hm => leaves h (State.leave_foreign (sifted hs hw hb hv) hen hm),
      fun hm hdraw => leaves h (State.leave_exhausted (sifted hs hw hb hv) hen hm hdraw),
      fun hm hdraw => leaves h (State.leave_wait (sifted hs hw hb hv) hen hm hdraw)⟩⟩
  case depBad => exact (State.leaveStatus_shaped hs hw).trans (if_pos hb)
  case depVoid => exact (State.leaveStatus_shaped hs hw).trans ((if_neg (by rw [hb]; decide)).trans (if_pos hv))

end Sys2Proof.Machine
end

section
/-!
PROOFS. Carts, joins and well fills (04 R92, R99 to R107).
-/

namespace Sys2Proof.Machine
open Sys2Proof.Claims

/-! ## A queue's operation at work: refused, waiting or made ready -/

/-- What a command reads of no range is sent by no peer. -/
@[simp] theorem State.toFetch_nil (s : State) (c : Cmd) (a : Accessor) : s.toFetch c a [] [] = [] := by
  simp [State.toFetch, State.poolParts]

/-- Accesses that do not all reach: the reads that do are tried, and the attempt stops at the rest. -/
theorem State.opGo_stops (s : State) (t : Nat) (c : Cmd) (a : Accessor) (rds wrs : List (Nat × Nat)) (d : Done)
    (hclock : s.pw.absent.contains 5 = false) (h : s.access a c.ten rds wrs ≠ .ok) :
    s.opGo t c a [] [] rds wrs d = .next ((s.tried a c.ten [] rds).accStop t c (s.access a c.ten rds wrs)) := by
  rw [State.opGo, if_neg (by rw [hclock]; decide)]
  cases ha : s.access a c.ten rds wrs
  case ok => exact absurd ha h
  all_goals rfl

theorem State.bump_cw {s u : State} (h : u.cw = s.cw) (f : Field) (n : Nat) : (u.bump f n).cw = (s.bump f n).cw := by
  simp only [State.bump, State.put, State.get, State.setReg, State.reg, h]

/-- What counters come to depends on the registers alone. -/
theorem State.countWork_cw (es : List Effect) {s u : State} (h : u.cw = s.cw) : (u.countWork es).cw = (s.countWork es).cw := by
  induction es generalizing s u with
  | nil => exact h
  | cons e es ih =>
    cases e
    case work reg lo w n => exact ih (State.bump_cw h ⟨reg, lo, w⟩ n)
    all_goals exact ih h

section
variable {s : State} {t cls op : Nat} {c : Cmd} {plan : Cmd → Plan}

theorem atWork_running (hw : atWork s t cls op c) :
    c.st = .running ∧ c.done = none ∧ dClass c.words = cls ∧ dOp c.words = op ∧ (!s.fetching t) = true := by
  obtain ⟨-, hst, hdone, hcls, hop, hfetch⟩ := hw
  exact ⟨hst, hdone, hcls, hop, by rw [hfetch]; rfl⟩

variable (hw : atWork s t cls op c)
include hw

theorem refusal_of_refuse {a : Accessor} {status : Nat} (hp : plan c = .refuse status) :
    s.opRow t cls op a plan = refusal s t c status :=
  (s.opRow_run t cls op a plan c hw.1 (atWork_running hw) (by rw [hp]; exact s.toFetch_nil c a)).trans (by rw [hp]; rfl)

theorem opRow_of_wait {a : Accessor} (hp : plan c = .wait) : s.opRow t cls op a plan = .next s :=
  (s.opRow_run t cls op a plan c hw.1 (atWork_running hw) (by rw [hp]; exact s.toFetch_nil c a)).trans (by rw [hp])

theorem opRow_of_go {a : Accessor} {rds wrs : List (Nat × Nat)} {d : Done} (hp : plan c = .go rds wrs d) (hn : near s a c rds) :
    s.opRow t cls op a plan = s.opGo t c a [] [] rds wrs d :=
  (s.opRow_run t cls op a plan c hw.1 (atWork_running hw) (by rw [hp]; exact hn)).trans (by rw [hp])

/-- An operation whose accesses all reach makes its command ready. -/
theorem made_of_go {a : Accessor} {rds wrs : List (Nat × Nat)} {d : Done} (hp : plan c = .go rds wrs d) (hr : reach s a c rds wrs) :
    made s t c d (s.opRow t cls op a plan) := by
  obtain ⟨hclock, hacc, hnear⟩ := hr
  obtain ⟨gs, n, rs, fs, ps, hgo⟩ := s.opGo_ok t c a [] [] rds wrs d hclock (by rw [hacc]; rfl)
  let m : Cmd := { c with reads := rs, far := fs, pages := ps, done := some d.deferred }
  have hspec := ((s.accessHeat gs n).setCmd t m).countWork_spec d.effs
  have hx : (((s.accessHeat gs n).setCmd t m).countWork d.effs).x = (s.setCmd t m).x := by
    rw [hspec, s.accessHeat_spec gs n]
    rfl
  have hcmd (t' : Nat) : (((s.accessHeat gs n).setCmd t m).countWork d.effs).cmd t' = if t' = t then some m else s.cmd t' := by
    rw [State.cmd, hx]
    exact s.cmd_setCmd t t' m
  refine ⟨_, m, (opRow_of_go hw hp hnear).trans hgo, ?_, rfl, ?_, ?_, ?_, ?_, fun t' ht => ?_⟩
  · exact (hcmd t).trans (if_pos rfl)
  · rw [hspec, s.accessHeat_spec gs n]
    rfl
  · exact State.countWork_cw _ (by rw [s.accessHeat_spec gs n]; rfl)
  · rw [hx]
    rfl
  · rw [hx]
    rfl
  · exact (hcmd t').trans (if_neg ht)

variable {a : Accessor} {rds wrs : List (Nat × Nat)} {d : Done} (hp : plan c = .go rds wrs d)
  (hclock : s.pw.absent.contains 5 = false) (hn : near s a c rds)
include hp hclock hn

/-- An access that Table 7.3 does not allow is a refusal (04 Table 4.5), after the reads that it tried. -/
theorem refusal_of_prot (ha : s.access a c.ten rds wrs = .prot) :
    s.opRow t cls op a plan = refusal (s.tried a c.ten [] rds) t c stProtection := by
  rw [opRow_of_go hw hp hn, s.opGo_stops t c a rds wrs d hclock (by rw [ha]; decide), ha]
  rfl

/-- A page that an access does not reach kills the attempt for TRANSLATION; its rerun waits for the pages (07 R183, R184). -/
theorem killed_of_fault {pages : List Nat} (ha : s.access a c.ten rds wrs = .fault pages) (hs : s.get R.PWR_STS_SHUTDOWN = 0) :
    ∃ u m, s.opRow t cls op a plan = .next u ∧ u.cmd t = some m ∧ m.st = .killed ∧ m.lastKill = Cause.translation.code ∧
      m.await = pages := by
  have hvm : s.tried a c.ten [] rds = { s with vm := (s.tried a c.ten [] rds).vm } := s.accessHeat_spec _ _
  have hc : (s.tried a c.ten [] rds).cmd t = some c := by
    rw [hvm]
    exact hw.1
  have hget : (s.tried a c.ten [] rds).get R.PWR_STS_SHUTDOWN = 0 := by
    rw [hvm]
    exact hs
  have hsafe : ¬ (s.tried a c.ten [] rds).beyondKill c := by
    rw [State.beyondKill, hw.2.1, hget]
    decide
  obtain ⟨hkill, -, -, -⟩ := State.killCmd_kills (k := .translation) hc hsafe (by rw [hw.2.1]; decide) (by decide)
    (fun h => absurd h.2 (by decide))
  have hmet : (((s.tried a c.ten [] rds).killCmd t .translation).faulted pages).cmd t = some (c.killedFor .translation) := by
    rw [State.cmd, State.faulted_x]
    exact hkill
  refine ⟨(((s.tried a c.ten [] rds).killCmd t .translation).faulted pages).setCmd t { c.killedFor .translation with await := pages },
    { c.killedFor .translation with await := pages }, ?_, by simp, rfl, rfl, rfl⟩
  rw [opRow_of_go hw hp hn, s.opGo_stops t c a rds wrs d hclock (by rw [ha]; exact AccRes.noConfusion), ha]
  simp only [State.accStop, hmet]

end

/-! ## Joins and carts (04 R92, R99 to R101) -/

/-- A gather or a scatter that has read its list: the checks of R100 and R101 in their order, then what it goes on to. -/
def listPlan (list : Nat × Nat) (n : Nat) (rs : List (Nat × Nat)) (clash : Prop) [Decidable clash] (goes : Plan) : Plan :=
  if !recordsOk 16777216 rs then .refuseRead [list] stBadField
  else if beatCap < ceilDiv (lsum (rs.map (·.2))) 64 + n then .refuseRead [list] stLength
  else if clash then .refuseRead [list] stOverlap
  else goes

section
variable {list : Nat × Nat} {n : Nat} {rs : List (Nat × Nat)} {clash : Prop} [Decidable clash] {goes : Plan}

theorem listPlan_badRecords (h : recordsOk 16777216 rs = false) : listPlan list n rs clash goes = .refuseRead [list] stBadField :=
  if_pos (congrArg not h)

variable (h : recordsOk 16777216 rs = true)
include h

theorem listPlan_inBounds : listPlan list n rs clash goes =
    if beatCap < ceilDiv (lsum (rs.map (·.2))) 64 + n then .refuseRead [list] stLength
    else if clash then .refuseRead [list] stOverlap else goes :=
  if_neg (ne_true_of_eq_false (congrArg not h))

theorem listPlan_long (hlong : beatCap < ceilDiv (lsum (rs.map (·.2))) 64 + n) :
    listPlan list n rs clash goes = .refuseRead [list] stLength :=
  (listPlan_inBounds h).trans (if_pos hlong)

variable (hlen : ceilDiv (lsum (rs.map (·.2))) 64 + n ≤ beatCap)
include hlen

theorem listPlan_clash (hclash : clash) : listPlan list n rs clash goes = .refuseRead [list] stOverlap :=
  (listPlan_inBounds h).trans ((if_neg hlen.not_gt).trans (if_pos hclash))

theorem listPlan_goes (hclash : ¬ clash) : listPlan list n rs clash goes = goes :=
  (listPlan_inBounds h).trans ((if_neg hlen.not_gt).trans (if_neg hclash))

end

/-- A gather whose list has been read (R100, R101). -/
def State.listGatherPlan (s : State) (c : Cmd) : Plan :=
  let n := bits (c.body 2) 0 32
  let rs := s.listRecords c.ten (c.body 0) n
  listPlan (c.body 0, 16 * n) n rs (c.body 3 < footprint rs ∨ anyOverlap [(c.body 1, footprint rs)] ((c.body 0, 16 * n) :: rs) = true)
    (.go ((c.body 0, 16 * n) :: rs) [(c.body 1, footprint rs)]
      ⟨stDone, [lsum (rs.map (·.2)), footprint rs], [.write (key c.ten (c.body 1)) (s.packed c.ten rs)]⟩)

/-- A scatter whose list has been read (R100, R101). -/
def State.listScatterPlan (s : State) (c : Cmd) : Plan :=
  let n := bits (c.body 2) 0 32
  let rs := s.listRecords c.ten (c.body 1) n
  let srcs := (packRecords 0 rs).map fun p => (c.body 0 + p.1, p.2.2)
  listPlan (c.body 1, 16 * n) n rs (selfOverlap rs = true ∨ anyOverlap rs ((c.body 1, 16 * n) :: srcs) = true)
    (.go ((c.body 1, 16 * n) :: srcs) rs ⟨stDone, [lsum (rs.map (·.2)), footprint rs],
      (packRecords 0 rs).map fun p => .write (key c.ten p.2.1) (s.vrun c.ten (c.body 0 + p.1) p.2.2)⟩)

/-- The field check of a gather and a scatter: the list and the packed side aligned, and one to 65,536 records (R100). -/
def listBad (list packed n : Nat) : Prop := list % 16 ≠ 0 ∨ packed % 64 ≠ 0 ∨ n = 0 ∨ 65536 < n

/-- The field check of a copy (R99, R100). -/
def copyBad (src dst n : Nat) : Prop := src % 4 ≠ 0 ∨ dst % 4 ≠ 0 ∨ n % 4 ≠ 0 ∨ n < 4 ∨ cartMax < n

section
variable {s : State} {t : Nat} {c : Cmd} {rds wrs : List (Nat × Nat)} {d : Done}

section
variable (hw : atWork s t 3 2 c)
include hw

theorem cartGather_refuses (hbad : listBad (c.body 0) (c.body 1) (bits (c.body 2) 0 32)) :
    exec (.cartGather t) s = refusal s t c stBadField :=
  refusal_of_refuse hw (if_pos hbad)

theorem cartGather_made (hok : ¬ listBad (c.body 0) (c.body 1) (bits (c.body 2) 0 32))
    (hlist : s.access .unit c.ten [(c.body 0, 16 * bits (c.body 2) 0 32)] [] = .ok) (hp : s.listGatherPlan c = .go rds wrs d)
    (hr : reach s .unit c rds wrs) : made s t c d (exec (.cartGather t) s) :=
  made_of_go hw ((if_neg hok).trans (by rw [hlist]; exact hp)) hr

end

section
variable (hw : atWork s t 3 3 c)
include hw

theorem cartScatter_refuses (hbad : listBad (c.body 1) (c.body 0) (bits (c.body 2) 0 32)) :
    exec (.cartScatter t) s = refusal s t c stBadField :=
  refusal_of_refuse hw (if_pos hbad)

theorem cartScatter_made (hok : ¬ listBad (c.body 1) (c.body 0) (bits (c.body 2) 0 32))
    (hlist : s.access .unit c.ten [(c.body 1, 16 * bits (c.body 2) 0 32)] [] = .ok) (hp : s.listScatterPlan c = .go rds wrs d)
    (hr : reach s .unit c rds wrs) : made s t c d (exec (.cartScatter t) s) :=
  made_of_go hw ((if_neg hok).trans (by rw [hlist]; exact hp)) hr

end

section
variable (hw : atWork s t 3 1 c)
include hw

theorem cartCopy_refuses (hbad : copyBad (c.body 0) (c.body 1) (bits (c.body 2) 0 32)) :
    exec (.cartCopy t) s = refusal s t c stBadField :=
  refusal_of_refuse hw (if_pos hbad)

variable (hok : ¬ copyBad (c.body 0) (c.body 1) (bits (c.body 2) 0 32))
include hok

theorem cartCopy_overlaps (hlap : overlaps (c.body 0) (bits (c.body 2) 0 32) (c.body 1) (bits (c.body 2) 0 32) = true) :
    exec (.cartCopy t) s = refusal s t c stOverlap :=
  refusal_of_refuse hw ((if_neg hok).trans (if_pos hlap))

variable (hapart : overlaps (c.body 0) (bits (c.body 2) 0 32) (c.body 1) (bits (c.body 2) 0 32) = false)
  (hclock : s.pw.absent.contains 5 = false) (hn : near s .unit c [(c.body 0, bits (c.body 2) 0 32)])
include hapart hclock hn

theorem cartCopy_made
    (ha : s.access .unit c.ten [(c.body 0, bits (c.body 2) 0 32)] [(c.body 1, bits (c.body 2) 0 32)] = .ok) :
    made s t c ⟨0, [bits (c.body 2) 0 32, 0], [.write (key c.ten (c.body 1)) (s.vrun c.ten (c.body 0) (bits (c.body 2) 0 32))]⟩
      (exec (.cartCopy t) s) :=
  made_of_go hw ((if_neg hok).trans (if_neg (ne_true_of_eq_false hapart))) ⟨hclock, ha, hn⟩

theorem cartCopy_prot
    (ha : s.access .unit c.ten [(c.body 0, bits (c.body 2) 0 32)] [(c.body 1, bits (c.body 2) 0 32)] = .prot) :
    exec (.cartCopy t) s = refusal (s.tried .unit c.ten [] [(c.body 0, bits (c.body 2) 0 32)]) t c stProtection :=
  refusal_of_prot hw ((if_neg hok).trans (if_neg (ne_true_of_eq_false hapart))) hclock hn ha

theorem cartCopy_killed {pages : List Nat} (hs : s.get R.PWR_STS_SHUTDOWN = 0)
    (ha : s.access .unit c.ten [(c.body 0, bits (c.body 2) 0 32)] [(c.body 1, bits (c.body 2) 0 32)] = .fault pages) :
    ∃ u m, exec (.cartCopy t) s = .next u ∧ u.cmd t = some m ∧ m.st = .killed ∧ m.lastKill = 2 ∧ m.await = pages :=
  killed_of_fault hw ((if_neg hok).trans (if_neg (ne_true_of_eq_false hapart))) hclock hn ha hs

end

theorem queueJoin_made (hw : atWork s t 0 0 c) (hr : reach s .unit c [] []) : made s t c ⟨0, [], []⟩ (exec (.queueJoin t) s) :=
  made_of_go (plan := fun _ => .go [] [] ⟨stDone, [], []⟩) hw rfl hr

end

/-! ## Filling a well (04 R106, R107) -/

section
variable {s : State} {t : Nat} {c : Cmd} {d : Done}

/-- A refill sets a well's registers and has its next value at its base. -/
theorem State.refill_regs (s : State) (n base limit step : Nat) :
    let u := s.refill n base limit step
    u.reg (R.WEL_BASE n) = Machine.word base ∧ u.reg (R.WEL_LIMIT n) = Machine.word limit ∧
      u.get (R.WEL_STEP_STEP n) = step % 2 ^ 32 ∧ u.reg (R.WEL_NEXT n) = Machine.word base ∧ u.reg (R.WEL_CNT n) = 0 := by
  refine ⟨?_, ?_, ?_, ?_, ?_⟩
  · simp [State.refill, State.put, R.WEL_BASE, R.WEL_LIMIT, R.WEL_STEP_STEP, R.WEL_STEP, R.WEL_NEXT, R.WEL_CNT]
  · simp [State.refill, State.put, R.WEL_LIMIT, R.WEL_STEP_STEP, R.WEL_STEP, R.WEL_NEXT, R.WEL_CNT]
  · have hfits : (R.WEL_STEP_STEP n).lo + (R.WEL_STEP_STEP n).w ≤ 64 := by simp [R.WEL_STEP_STEP]
    refine Eq.trans ?_ (((s.setReg (R.WEL_BASE n) base).setReg (R.WEL_LIMIT n) limit).get_put_same _ step hfits)
    simp [State.refill, State.get, R.WEL_STEP_STEP, R.WEL_STEP, R.WEL_NEXT, R.WEL_CNT]
  · simp [State.refill, R.WEL_NEXT, R.WEL_CNT]
  · simp [State.refill, Machine.word]

/-- The fill of a well that is the tenancy's: the check of its fields, and its wait for the leases of the well (R106). -/
def State.fillPlan (s : State) (n : Nat) (c : Cmd) : Plan :=
  if bits (c.body 3) 0 32 = 0 ∨ c.body 2 < c.body 1 then .refuse stBadField
  else if (s.well n).live = [] then .go [] [] ⟨stDone, [], [.wellFill n (c.body 1) (c.body 2) (bits (c.body 3) 0 32)]⟩
  else .wait

section
variable (hw : atWork s t 0x0B 1 c)
include hw

theorem wellFill_foreign (hm : s.wellMine (bits (c.body 0) 0 7) c.ten = false) :
    exec (.wellFill t) s =
      refusal (s.raiseAt (R.WEL_ERR_FOREIGN (bits (c.body 0) 0 7)) (some c.ten) (bits (c.body 0) 0 7) t) t c stBadField := by
  obtain ⟨hc, hst, hdone, hcls, hop, hfetch⟩ := id hw
  have hraised : atWork (s.raiseAt (R.WEL_ERR_FOREIGN (bits (c.body 0) 0 7)) (some c.ten) (bits (c.body 0) 0 7) t) t 0x0B 1 c :=
    ⟨by rwa [State.cmd, State.raiseAt_x], hst, hdone, hcls, hop, by rwa [State.fetching, State.raiseAt_fa]⟩
  rw [← refusal_of_refuse (a := .unit) hraised (plan := fun _ => .refuse stBadField) rfl]
  simp [exec, execWellFill, hc, hst, hdone, hcls, hop, hm]

variable (hm : s.wellMine (bits (c.body 0) 0 7) c.ten = true)
include hm

/-- A fill of the tenancy's own well is a row of the frame of every operation. -/
theorem wellFill_mine : exec (.wellFill t) s = s.opRow t 0x0B 1 .unit (s.fillPlan (bits (c.body 0) 0 7)) := by
  simp [exec, execWellFill, hw.1, hm]
  rfl

theorem wellFill_refuses (hbad : bits (c.body 3) 0 32 = 0 ∨ c.body 2 < c.body 1) :
    exec (.wellFill t) s = refusal s t c stBadField :=
  (wellFill_mine hw hm).trans (refusal_of_refuse hw (if_pos hbad))

variable (hok : ¬ (bits (c.body 3) 0 32 = 0 ∨ c.body 2 < c.body 1))
include hok

theorem wellFill_waits (hlive : (s.well (bits (c.body 0) 0 7)).live ≠ []) : exec (.wellFill t) s = .next s :=
  (wellFill_mine hw hm).trans (opRow_of_wait hw ((if_neg hok).trans (if_neg hlive)))

theorem wellFill_made (hlive : (s.well (bits (c.body 0) 0 7)).live = []) (hclock : s.pw.absent.contains 5 = false) :
    made s t c ⟨0, [], [.wellFill (bits (c.body 0) 0 7) (c.body 1) (c.body 2) (bits (c.body 3) 0 32)]⟩ (exec (.wellFill t) s) := by
  rw [wellFill_mine hw hm]
  exact made_of_go hw ((if_neg hok).trans (if_pos hlive)) ⟨hclock, rfl, s.toFetch_nil c .unit⟩

end

/-! ## A fill at its commit (04 R91, R106) -/

section
variable (hw : atWork s t 0x0B 1 c) (hstatus : d.status = 0)
include hw hstatus

/-- A fill whose dependencies are not void is as it was made ready, but for values that its well has had returned. -/
theorem doneNow_fill (hdeps : (dDeps c.words).any s.isVoid = false) :
    s.doneNow t c d = if (s.well (bits (c.body 0) 0 7)).returned = [] then d else ⟨stWellBusy, [], []⟩ := by
  obtain ⟨-, -, -, hcls, -, -⟩ := hw
  have hhalo : s.haloVoid t c = false := by simp [State.haloVoid, Cmd.isPass, hcls]
  have hvoid : s.voidDep t c d = d := by simp [State.voidDep, hdeps, hhalo]
  simp only [State.doneNow, hvoid, State.fillBusy, hcls, hstatus]
  by_cases hr : (s.well (bits (c.body 0) 0 7)).returned = []
  · simp [hr]
  · simp [hr, stDone]

theorem commitReady_fill (hlive : (s.well (bits (c.body 0) 0 7)).live ≠ []) :
    s.commitReady t { c with st := .ready, done := some d } = false := by
  obtain ⟨-, -, -, hcls, -, -⟩ := hw
  have hwaits : s.fillWaits { c with st := .ready, done := some d } = true := by
    simpa [State.fillWaits, Cmd.body, hcls, hstatus, stDone] using hlive
  simp [State.commitReady, hwaits]

end
end

/-- Settles O30: the plans of the rows, branch by branch, in the frame of every operation. -/
theorem cartsAndFillsMakeTheirEffectsReady : Obligations.CartsAndFillsMakeTheirEffectsReady := by
  refine ⟨fun s t c => ⟨queueJoin_made, fun hw => ?copy, fun hw => ?gather, fun hw => ?scatter, fun hw => ?fill, fun hw => ?stride⟩,
    fun s t c hw => ?well⟩
  case copy =>
    exact ⟨cartCopy_refuses hw, cartCopy_overlaps hw, fun hok hapart hclock hn =>
      ⟨cartCopy_made hw hok hapart hclock hn, cartCopy_prot hw hok hapart hclock hn,
        fun ps ha hs => cartCopy_killed hw hok hapart hclock hn hs ha⟩⟩
  case gather =>
    refine ⟨cartGather_refuses hw, fun hok hl => ?_⟩
    obtain ⟨-, hlist, -⟩ := id hl
    refine ⟨fun hrs => ?_, fun hrs hlong => ?_, fun hrs hlen hclash => ?_, fun hrs hlen hlimit hapart => ?_⟩
    · exact cartGather_made hw hok hlist (listPlan_badRecords hrs) hl
    · exact cartGather_made hw hok hlist (listPlan_long hrs hlong) hl
    · exact cartGather_made hw hok hlist (listPlan_clash hrs hlen hclash) hl
    · have hclear := not_or.mpr ⟨hlimit.not_gt, ne_true_of_eq_false hapart⟩
      exact cartGather_made hw hok hlist (listPlan_goes hrs hlen hclear)
  case scatter =>
    refine ⟨cartScatter_refuses hw, fun hok hl => ?_⟩
    obtain ⟨-, hlist, -⟩ := id hl
    refine ⟨fun hrs => ?_, fun hrs hlong => ?_, fun hrs hlen hclash => ?_, fun hrs hlen hself hapart => ?_⟩
    · exact cartScatter_made hw hok hlist (listPlan_badRecords hrs) hl
    · exact cartScatter_made hw hok hlist (listPlan_long hrs hlong) hl
    · exact cartScatter_made hw hok hlist (listPlan_clash hrs hlen hclash) hl
    · have hclear := not_or.mpr ⟨ne_true_of_eq_false hself, ne_true_of_eq_false hapart⟩
      exact cartScatter_made hw hok hlist (listPlan_goes hrs hlen hclear)
  case fill => exact ⟨fun hbad => refusal_of_refuse hw (if_pos hbad), fun hok => made_of_go hw (if_neg hok)⟩
  case stride =>
    refine ⟨fun hbad => ?_, fun hok hlong => ?_, fun hok hlen hclash => ?_, fun hok hlen hstep hapart => ?_⟩
    · exact refusal_of_refuse hw (if_pos hbad)
    · exact refusal_of_refuse hw ((if_neg hok).trans (if_pos hlong))
    · exact refusal_of_refuse hw ((if_neg hok).trans ((if_neg hlen.not_gt).trans (if_pos hclash)))
    · have hclear := not_or.mpr ⟨hstep.not_gt, ne_true_of_eq_false hapart⟩
      exact made_of_go hw ((if_neg hok).trans ((if_neg hlen.not_gt).trans (if_neg hclear)))
  case well =>
    refine ⟨wellFill_foreign hw, wellFill_refuses hw,
      fun hm hstep hlimit => ?ready, fun d hstatus hdeps => ?commit, fun hb hl => ?refill⟩
    case ready =>
      have hok := not_or.mpr ⟨hstep, hlimit.not_gt⟩
      exact ⟨wellFill_waits hw hm hok, wellFill_made hw hm hok⟩
    case commit =>
      have hnow := doneNow_fill hw hstatus hdeps
      exact ⟨fun hr => hnow.trans (if_neg hr), fun hr => hnow.trans (if_pos hr), commitReady_fill hw hstatus⟩
    case refill =>
      obtain ⟨hbase, hlim, hstep, hnext, hcnt⟩ := s.refill_regs (bits (c.body 0) 0 7) (c.body 1) (c.body 2) (bits (c.body 3) 0 32)
      have word (v : Nat) (h : v < 2 ^ 64) : (Machine.word v).toNat = v := (word_toNat v).trans (Nat.mod_eq_of_lt h)
      have hwidth : bits (c.body 3) 0 32 < 2 ^ 32 := Nat.mod_lt _ (Nat.two_pow_pos _)
      exact ⟨(congrArg _ hbase).trans (word _ hb), (congrArg _ hlim).trans (word _ hl), hstep.trans (Nat.mod_eq_of_lt hwidth),
        (congrArg _ hnext).trans (word _ hb), hcnt, rfl, rfl⟩

end Sys2Proof.Machine
end

section
/-!
PROOFS. The memory system's commands (07 R170 to R175): their rows, and what they come to at their commit.
-/

namespace Sys2Proof.Machine
open Sys2Proof.Claims

/-! ## The rows of the drift commands (07 R172 to R174, 04 R588) -/

/-- Whether a drift command's range is not aligned or leaves the address space (R173). -/
def Cmd.badRange (c : Cmd) : Prop :=
  c.body 0 % 2 ^ 21 ≠ 0 ∨ 2 ^ 56 < c.body 0 + (bits (c.body 1) 0 18 + 1) * 2 ^ 21

theorem Cmd.driftOk_iff (c : Cmd) : c.driftOk = true ↔ ¬ (c.badRange ∨ dOp c.words = 3 ∧ 2 ≤ bits (c.body 1) 18 2) := by
  simp only [Cmd.driftOk, Bool.and_eq_true, beq_iff_eq, decide_eq_true_eq, Bool.not_eq_true', Bool.and_eq_false_iff,
    beq_eq_false_iff_ne, decide_eq_false_iff_not]
  unfold Cmd.badRange pageBytes
  omega

/-- A command of another operation than `drift.pin` is in order when its range is. -/
theorem Cmd.driftOk_iff_of_ne {c : Cmd} (h : dOp c.words ≠ 3) : c.driftOk = true ↔ ¬ c.badRange := by
  simp [c.driftOk_iff, h]

section
variable {s : State} {t op : Nat} {c : Cmd} {wait : Cmd → Bool} (hw : atWork s t 4 op c)
include hw

theorem driftRow_refuses (hbad : c.driftOk = false) : s.driftRow t op wait = refusal s t c 5 :=
  refusal_of_refuse hw (if_pos (congrArg not hbad))

variable (hok : c.driftOk = true)
include hok

theorem driftRow_waits (h : wait c = true) : s.driftRow t op wait = .next s :=
  opRow_of_wait hw ((if_neg (by rw [hok]; decide)).trans (if_pos h))

/-- A drift command in order touches no memory before its commit, where its outcome is decided. -/
theorem driftRow_made (h : wait c = false) (hclock : s.pw.absent.contains 5 = false) :
    made s t c ⟨0, [], [.late]⟩ (s.driftRow t op wait) :=
  made_of_go hw ((if_neg (by rw [hok]; decide)).trans (if_neg (by rw [h]; decide))) ⟨hclock, rfl, s.toFetch_nil c .drift⟩

end

/-- An operation that never waits, and asks nothing but that its range be in order. -/
theorem driftRow_of_range {s : State} {t op : Nat} {c : Cmd} (hw : atWork s t 4 op c) (hop : op ≠ 3) :
    (c.badRange → s.driftRow t op (fun _ => false) = refusal s t c 5) ∧
      (¬ c.badRange → s.pw.absent.contains 5 = false → made s t c ⟨0, [], [.late]⟩ (s.driftRow t op fun _ => false)) := by
  obtain ⟨-, -, -, -, rfl, -⟩ := id hw
  have hok := Cmd.driftOk_iff_of_ne hop
  exact ⟨fun hbad => driftRow_refuses hw (by simpa [hbad] using hok), fun hgood hclock => driftRow_made hw (hok.2 hgood) rfl hclock⟩

section
variable {s : State} {t : Nat} {c : Cmd}

/-- A `drift.unmap` waits for the Irrevocable commands that hold a page of its range (R174). -/
theorem State.unmapWaits_iff (hcls : dClass c.words = 4) (hop : dOp c.words = 2) : s.unmapWaits c = true ↔
    ∃ p, p ∈ s.x.cmds ∧ p.2.st = .irrevocable ∧ ∃ k, k ∈ p.2.pages ∧ k ∈ c.vpns.map (s.pkOf c.ten) := by
  simp only [State.unmapWaits, State.nkHolds, hcls, hop, beq_self_eq_true, Bool.true_and, List.any_eq_true, Bool.and_eq_true,
    beq_iff_eq, List.contains_iff_mem, List.mem_map]
  constructor
  · rintro ⟨v, hv, p, hp, hst, hk⟩
    exact ⟨p, hp, hst, _, hk, v, hv, rfl⟩
  · rintro ⟨p, hp, hst, _, hk, v, hv, rfl⟩
    exact ⟨v, hv, p, hp, hst, hk⟩

theorem State.commitReady_of_unmapWaits (h : s.unmapWaits c = true) : s.commitReady t { c with st := .ready } = false := by
  have hready : s.unmapWaits { c with st := .ready } = true := h
  simp [State.commitReady, hready]

end

/-- Settles O32: each row is the drift row with its own check and its own wait. -/
theorem driftCommandsDecideAtTheirCommit : Obligations.DriftCommandsDecideAtTheirCommit := by
  refine fun s t c => ⟨fun hw => driftRow_of_range hw (by decide), fun hw => ?unmap, fun hw => ?pin,
    fun hw => driftRow_of_range hw (by decide), fun hw => driftRow_of_range hw (by decide), fun hw => driftRow_of_range hw (by decide)⟩
  case unmap =>
    obtain ⟨-, -, -, hcls, hop, -⟩ := id hw
    have hok : c.driftOk = true ↔ ¬ c.badRange := Cmd.driftOk_iff_of_ne (by rw [hop]; decide)
    have hwaits := State.unmapWaits_iff (s := s) hcls hop
    refine ⟨fun hbad => driftRow_refuses hw (by simpa [show c.badRange from hbad] using hok), fun hgood hheld => ?_,
      fun hgood hfree hclock => driftRow_made hw (hok.2 hgood) (Bool.eq_false_iff.2 fun h => hfree (hwaits.1 h)) hclock⟩
    have hheld := hwaits.2 hheld
    exact ⟨driftRow_waits hw (hok.2 hgood) hheld, State.commitReady_of_unmapWaits hheld⟩
  case pin =>
    obtain ⟨-, -, -, -, hop, -⟩ := id hw
    have hok : c.driftOk = true ↔ ¬ (c.badRange ∨ 2 ≤ bits (c.body 1) 18 2) := by simp [c.driftOk_iff, hop]
    exact ⟨fun hbad => driftRow_refuses hw (Bool.eq_false_iff.2 fun h => hok.1 h hbad),
      fun hgood htier hclock => driftRow_made hw (hok.2 (not_or.2 ⟨hgood, htier.not_ge⟩)) rfl hclock⟩

end Sys2Proof.Machine
end

section
/-!
PROOFS. What the memory system's commands come to at their commit (07 R169 to R174).
-/

namespace Sys2Proof.Machine
open Sys2Proof.Claims

/-! ## The pages of a range (07 R169, R173) -/

theorem mem_upto {lo n v : Nat} : v ∈ upto lo n ↔ lo ≤ v ∧ v < lo + n := by
  simp only [upto, List.mem_map, List.mem_range]
  exact ⟨fun ⟨i, hi, e⟩ => by omega, fun ⟨h, h'⟩ => ⟨v - lo, by omega, by omega⟩⟩

theorem nodup_upto (lo n : Nat) : (upto lo n).Nodup :=
  List.nodup_range.map fun _ _ => Nat.add_left_cancel

/-- What some entry of a list meets depends on the list's entries alone. -/
theorem any_congr_mem {α : Type} {f g : α → Bool} {l : List α} (h : ∀ a ∈ l, f a = g a) : l.any f = l.any g := by
  rw [Bool.eq_iff_iff, List.any_eq_true, List.any_eq_true]
  exact exists_congr fun a => and_congr_right fun ha => by rw [h a ha]

@[simp] theorem pageKey_inj {ten v v' : Nat} : pageKey ten v = pageKey ten v' ↔ v = v' := by
  unfold pageKey
  omega

/-- Page numbers that lie below the window's view of the address space (21 R528). -/
def belowView (vs : List Nat) : Prop := ∀ v ∈ vs, (v + 1) * pageBytes ≤ cwVa

/-- The range of a command in order lies below the view. -/
theorem Cmd.vpns_belowView {c : Cmd} (hseen : c.seen = c.patched) (hrange : 2 ^ 21 * (bits (c.body 1) 0 18 + 1) + c.body 0 ≤ cwVa) :
    belowView c.vpns := by
  intro v hv
  rw [Cmd.vpns, hseen, mem_upto] at hv
  change c.body 0 / pageBytes ≤ v ∧ v < c.body 0 / pageBytes + (bits (c.body 1) 0 18 + 1) at hv
  unfold pageBytes at *
  omega

/-- Whether each page of a list is mapped privately. -/
def State.maps (s : State) (ten : Nat) (vs : List Nat) : Prop := ∀ v ∈ vs, (s.page (pageKey ten v)).isSome = true

theorem State.privPage_of_maps {s : State} {ten v : Nat} (h : (s.page (pageKey ten v)).isSome = true) :
    s.privPage ten v = s.page (pageKey ten v) := by
  obtain ⟨p, hp⟩ := Option.isSome_iff_exists.1 h
  rw [State.privPage, hp]

theorem State.privKey_of_maps {s : State} {ten v : Nat} (h : (s.page (pageKey ten v)).isSome = true) :
    s.privKey ten v = pageKey ten v :=
  if_pos h

theorem State.isMapped_of_maps {s : State} {ten v : Nat} (hv : (v + 1) * pageBytes ≤ cwVa)
    (h : (s.page (pageKey ten v)).isSome = true) : s.isMapped ten v = true := by
  obtain ⟨p, hp⟩ := Option.isSome_iff_exists.1 h
  have hbelow : ¬ 2 ^ 56 ≤ v * pageBytes := by
    unfold pageBytes cwVa at *
    omega
  rw [State.isMapped, State.pageOf, if_neg hbelow, Nat.mul_div_cancel v (by decide)]
  simp only [hp, Option.isSome_some]

/-! ## Pages changed one after another -/

theorem State.page_modPage (s : State) (k j : Nat) (f : Page → Page) :
    (s.modPage k f).page j = if j = k then (s.page k).map f else s.page j := by
  unfold State.modPage State.page tmod
  cases hk : tfind s.vm.pages k with
  | none =>
    dsimp only
    split
    · rename_i h
      rw [h, hk]
      rfl
    · rfl
  | some p => exact tfind_tset _ _ _ _

/-- A tenancy's own pages of a list changed. -/
def State.modAll (s : State) (ten : Nat) (f : Page → Page) (vs : List Nat) : State :=
  vs.foldl (fun s v => s.modPage (s.privKey ten v) f) s

section
variable {s : State} {ten : Nat} {f : Page → Page} {holds : Page → Prop}

theorem State.modAll_mem (vs : List Nat) : (s.modAll ten f vs).mem = s.mem :=
  List.foldlRecOn (motive := fun u : State => u.mem = s.mem) vs _ rfl fun _ h _ _ => h

variable (hf : ∀ p, holds (f p))
include hf

/-- What the change makes of a page stays so where it is changed again. -/
theorem State.modPage_keeps {k j : Nat} (h : ∀ p, s.page j = some p → holds p) : ∀ p, (s.modPage k f).page j = some p → holds p := by
  intro p hp
  rw [State.page_modPage] at hp
  split at hp
  · obtain ⟨p', -, rfl⟩ := Option.map_eq_some_iff.1 hp
    exact hf p'
  · exact h p hp

/-- After the change each page of the list is as the change leaves a page. -/
theorem State.page_modAll {vs : List Nat} (hmaps : s.maps ten vs) :
    ∀ v ∈ vs, ∀ p, (s.modAll ten f vs).page (pageKey ten v) = some p → holds p := by
  induction vs generalizing s with
  | nil => exact fun v hv => absurd hv List.not_mem_nil
  | cons w vs ih =>
    obtain ⟨hw, hvs⟩ := List.forall_mem_cons.1 hmaps
    have own : ∀ p, (s.modPage (pageKey ten w) f).page (pageKey ten w) = some p → holds p := fun p hp => by
      rw [State.page_modPage, if_pos rfl] at hp
      obtain ⟨p', -, rfl⟩ := Option.map_eq_some_iff.1 hp
      exact hf p'
    have rest : (s.modPage (pageKey ten w) f).maps ten vs := fun v hv => by
      rw [State.page_modPage]
      split
      · rw [Option.isSome_map]
        exact hw
      · exact hvs v hv
    intro v hv
    rw [State.modAll, List.foldl_cons, State.privKey_of_maps hw]
    rcases List.mem_cons.1 hv with rfl | hv
    · exact List.foldlRecOn (motive := fun u : State => ∀ p, u.page (pageKey ten v) = some p → holds p) vs _ own
        fun u h _ _ => State.modPage_keeps hf h
    · exact ih rest v hv

end

/-! ## Pages mapped (07 R169, R172) -/

/-- A page mapped at no home. -/
def State.mapNew (s : State) (ten : Nat) (w : Bool) (v : Nat) : State := s.setPage (pageKey ten v) { writable := w, era := s.era }

theorem State.foldl_mapNew_keeps (s : State) (ten : Nat) (w : Bool) (vs : List Nat) :
    (vs.foldl (fun u v => u.mapNew ten w v) s).mem = s.mem ∧ (vs.foldl (fun u v => u.mapNew ten w v) s).cw = s.cw :=
  List.foldlRecOn (motive := fun u : State => u.mem = s.mem ∧ u.cw = s.cw) vs _ ⟨rfl, rfl⟩ fun _ h _ _ => h

theorem State.page_foldl_mapNew (s : State) (ten : Nat) (w : Bool) (vs : List Nat) (k : Nat) :
    (vs.foldl (fun u v => u.mapNew ten w v) s).page k =
      if k ∈ vs.map (pageKey ten) then some { writable := w, era := s.era } else s.page k := by
  induction vs generalizing s with
  | nil => simp
  | cons v vs ih =>
    have hera : (s.mapNew ten w v).era = s.era := rfl
    rw [List.foldl_cons, ih, hera, State.mapNew, State.page_setPage, List.map_cons]
    by_cases hk : k = pageKey ten v <;> simp [hk]

/-! ## Pages dropped (07 R174) -/

/-- Whether a memory lists no byte of a tenancy's page. -/
def State.bare (s : State) (ten v : Nat) : Prop :=
  ∀ a, key ten (v * 2 ^ 21) ≤ a → a < key ten ((v + 1) * 2 ^ 21) → ∀ m ∈ s.mem, m.1 ≠ a

theorem memGet_of_forall_ne {m : List Host.Cell} {a : Nat} (h : ∀ x ∈ m, x.1 ≠ a) : memGet m a = unlisted := by
  induction m with
  | nil => rfl
  | cons x m ih =>
    obtain ⟨hx, hm⟩ := List.forall_mem_cons.1 h
    rw [memGet, if_neg hx.symm, ih hm, ite_self]

section
variable {s : State} {ten : Nat} (rises : tabAbove 0 s.vm.pages = true)

include rises in
theorem State.dropPage_rises (k : Nat) : tabAbove 0 (s.dropPage k).vm.pages = true :=
  tabAbove_tdel rises k

include rises in
theorem State.page_dropPage (k j : Nat) : (s.dropPage k).page j = if j = k then none else s.page j :=
  tfind_tdel rises k j

theorem State.dropPage_bare (v : Nat) : (s.dropPage (pageKey ten v)).bare ten v := by
  intro a hlo hhi m hm e
  have := (List.mem_filter.1 hm).2
  simp only [pageKey, pageBytes, Bool.or_eq_true, decide_eq_true_eq, e] at this
  unfold key at *
  omega

/-- What is gone stays gone: a drop maps no page and writes no byte. -/
theorem State.dropPage_keeps_bare {v : Nat} (h : s.bare ten v) (k : Nat) : (s.dropPage k).bare ten v :=
  fun a hlo hhi m hm => h a hlo hhi m (List.mem_of_mem_filter hm)

/-- A tenancy's own pages of a list dropped. -/
def State.dropAll (s : State) (ten : Nat) (vs : List Nat) : State := vs.foldl (fun s v => s.dropPage (s.privKey ten v)) s

include rises in
theorem State.dropAll_keeps {v : Nat} (hpage : s.page (pageKey ten v) = none) (hbare : s.bare ten v) (vs : List Nat) :
    (s.dropAll ten vs).page (pageKey ten v) = none ∧ (s.dropAll ten vs).bare ten v := by
  induction vs generalizing s with
  | nil => exact ⟨hpage, hbare⟩
  | cons w vs ih =>
    refine ih (State.dropPage_rises rises _) ?_ (State.dropPage_keeps_bare hbare _)
    rw [State.page_dropPage rises, hpage, ite_self]

include rises in
/-- After the drop no page of the list is mapped, and memory lists none of its bytes. -/
theorem State.dropAll_gone {vs : List Nat} (hapart : vs.Nodup) (hmaps : s.maps ten vs) :
    ∀ v ∈ vs, (s.dropAll ten vs).page (pageKey ten v) = none ∧ (s.dropAll ten vs).bare ten v := by
  induction vs generalizing s with
  | nil => exact fun v hv => absurd hv List.not_mem_nil
  | cons w vs ih =>
    obtain ⟨hw, hvs⟩ := List.forall_mem_cons.1 hmaps
    obtain ⟨hout, hapart⟩ := List.nodup_cons.1 hapart
    have hrises := State.dropPage_rises rises (pageKey ten w)
    have rest : (s.dropPage (pageKey ten w)).maps ten vs := fun v hv => by
      rw [State.page_dropPage rises, if_neg fun e => hout (by rwa [← pageKey_inj.1 e])]
      exact hvs v hv
    intro v hv
    rw [State.dropAll, List.foldl_cons, State.privKey_of_maps hw]
    rcases List.mem_cons.1 hv with rfl | hv
    · exact State.dropAll_keeps hrises (by rw [State.page_dropPage rises, if_pos rfl]) (State.dropPage_bare v) vs
    · exact ih hrises hapart rest v hv

end

/-! ## What kills and repairs leave of the pages -/

/-- Chained operations that each leave the pages leave the pages. -/
theorem State.foldl_pages {α : Type} {f : State → α → State} (hf : ∀ u a, (f u a).vm.pages = u.vm.pages) (l : List α) (s : State) :
    (l.foldl f s).vm.pages = s.vm.pages :=
  List.foldlRecOn (motive := fun u : State => u.vm.pages = s.vm.pages) l f rfl fun u h a _ => (hf u a).trans h

@[simp] theorem State.killCmd_vm (s : State) (t : Nat) (k : Cause) : (s.killCmd t k).vm = s.vm := by
  have lost : (s.discard t).vm = s.vm := by rw [s.discard_spec t]
  rcases s.killCmd_cases t k with e | ⟨m, e⟩ | ⟨m, e⟩
  · rw [e]
  · rw [e, State.setCmd_vm]
  · rw [e]
    exact lost

@[simp] theorem State.killTurns_vm (s : State) (c i : Nat) (k : Cause) : (s.killTurns c i k).vm = s.vm := by
  cases h : (s.core c).turns[i]? with
  | none => rw [State.killTurns_beyond h]
  | some tn =>
    cases hw : ((s.core c).shelters tn.num && k.shelters) || s.get R.PWR_STS_SHUTDOWN == 1 with
    | true => rw [State.killTurns_withheld h hw]
    | false =>
      rw [State.killTurns_lost h hw]
      change (s.withoutTurns c i tn k).vm = s.vm
      rw [s.withoutTurns_spec]

theorem State.ite_pages {p : Prop} [Decidable p] {s u : State} (h : u.vm.pages = s.vm.pages) :
    (if p then u else s).vm.pages = s.vm.pages := by
  split
  · exact h
  · rfl

theorem State.killCmd_pages (s : State) (t : Nat) (k : Cause) : (s.killCmd t k).vm.pages = s.vm.pages :=
  congrArg Vm.pages (s.killCmd_vm t k)

theorem State.killTurns_pages (s : State) (c i : Nat) (k : Cause) : (s.killTurns c i k).vm.pages = s.vm.pages :=
  congrArg Vm.pages (s.killTurns_vm c i k)

section
variable (s : State) (r : Ref) (gs : List Nat)

/-- The readers of granules that a commit kills leave the pages. -/
theorem State.clash_pages : (s.clash r gs).vm.pages = s.vm.pages := by
  unfold State.clash
  refine (State.foldl_pages (fun u p => by exact State.ite_pages rfl) _ _).trans ((State.foldl_pages (fun u p => ?_) _ _).trans
    (State.foldl_pages (fun u p => State.ite_pages (u.killCmd_pages _ _)) _ s))
  split
  · rfl
  · split
    · exact u.killTurns_pages _ _ _
    · rfl

theorem State.clashFar_pages : (s.clashFar r gs).vm.pages = s.vm.pages := by
  unfold State.clashFar
  refine (State.foldl_pages (fun u p => ?_) _ _).trans (State.foldl_pages (fun u p => State.ite_pages (u.killCmd_pages _ _)) _ s)
  split
  · exact u.killTurns_pages _ _ _
  · rfl

theorem State.clashWriters_pages : (s.clashWriters r gs).vm.pages = s.vm.pages := by
  unfold State.clashWriters
  refine (State.foldl_pages (fun u p => ?_) _ _).trans (State.foldl_pages (fun u p => State.ite_pages (u.killCmd_pages _ _)) _ s)
  split
  · exact u.killTurns_pages _ _ _
  · rfl

end

/-- A repair leaves pages and memory (R192). -/
theorem State.settleRepair_keeps (s : State) (r : Nat × Nat × Bool) :
    (s.settleRepair r).vm.pages = s.vm.pages ∧ (s.settleRepair r).mem = s.mem := by
  unfold State.settleRepair
  dsimp only
  split
  · exact ⟨rfl, rfl⟩
  · split
    · split <;> exact ⟨rfl, rfl⟩
    · rw [State.raiseAt_vm, State.raiseAt_mem]
      exact ⟨rfl, rfl⟩

theorem State.settleRepairs_keeps (s : State) :
    s.settleRepairs.vm.pages = s.vm.pages ∧ s.settleRepairs.mem = s.mem :=
  List.foldlRecOn (motive := fun u : State => u.vm.pages = s.vm.pages ∧ u.mem = s.mem) _ _ ⟨rfl, rfl⟩ fun u h r _ =>
    have ⟨hp, hm⟩ := u.settleRepair_keeps r
    ⟨hp.trans h.1, hm.trans h.2⟩

/-! ## A drift command at its commit (07 R172 to R174, Tables 7.4 and 7.6) -/

section
variable {s : State} {t : Nat} {c : Cmd} (hview : belowView c.vpns)
include hview

theorem not_inView {v : Nat} (hv : v ∈ c.vpns) : decide (cwVa < (v + 1) * pageBytes) = false :=
  decide_eq_false (hview v hv).not_gt

/-- A map of the pages of a range (R172). -/
theorem driftCommit_map (hop : dOp c.words = 1) : s.driftCommit t c =
    if (s.quota c.ten).2.1 + (s.quota c.ten).2.2.1 + (s.quota c.ten).2.2.2 <
        (s.vm.pages.filter fun p => p.1 / 2 ^ 35 == c.ten).length + c.vpns.length then (s, 0x40, [])
    else if c.vpns.any (s.isMapped c.ten) then (s, 0x41, [])
    else (c.vpns.foldl (fun u v => u.mapNew c.ten ((c.body 1).testBit 27) v) s, 0, [c.vpns.length, 0]) := by
  have hany : (c.vpns.any fun v => s.isMapped c.ten v || decide (cwVa < (v + 1) * pageBytes)) = c.vpns.any (s.isMapped c.ten) :=
    any_congr_mem fun v hv => by rw [not_inView hview hv, Bool.or_false]
  simp only [State.driftCommit, hop, hany]
  rfl

/-- Whether a page of the range is not mapped. -/
theorem any_unmapped : (c.vpns.any fun v => !s.isMapped c.ten v && !decide (cwVa < (v + 1) * pageBytes)) =
    !c.vpns.all (s.isMapped c.ten) := by
  rw [List.not_all_eq_any_not]
  exact any_congr_mem fun v hv => by rw [not_inView hview hv, Bool.not_false, Bool.and_true]

/-- Every operation on mapped pages but a pin, whose quotas come first, refuses a range with an unmapped page. -/
theorem driftCommit_unmapped (hop : 2 ≤ dOp c.words) (hop' : dOp c.words ≠ 3) (h : ∃ v, v ∈ c.vpns ∧ s.isMapped c.ten v = false) :
    s.driftCommit t c = (s, 0x42, []) := by
  have hall : c.vpns.all (s.isMapped c.ten) = false := by simpa using h
  simp only [State.driftCommit, any_unmapped hview, hall, Bool.not_false, if_true]
  split
  · omega
  · rfl
  · omega
  all_goals rfl

theorem driftCommit_settle (hop : dOp c.words = 6) (h : ∀ v, v ∈ c.vpns → s.isMapped c.ten v = true) :
    s.driftCommit t c = (s, 0, [c.vpns.length, 0]) := by
  have hall : c.vpns.all (s.isMapped c.ten) = true := List.all_eq_true.2 h
  have hnone : (c.vpns.any fun v => decide (cwVa < (v + 1) * pageBytes)) = false :=
    List.any_eq_false.2 fun v hv => by rw [not_inView hview hv]; decide
  simp only [State.driftCommit, hop, any_unmapped hview, hall, hnone]
  rfl

section
variable (hmaps : s.maps c.ten c.vpns)
include hmaps

/-- A range that is mapped privately meets neither of the refusals of unmapped and of module-owned pages. -/
theorem noRefusal_of_maps : (c.vpns.any fun v => !s.isMapped c.ten v && !decide (cwVa < (v + 1) * pageBytes)) = false ∧
    (c.vpns.any fun v => (s.privPage c.ten v).isNone) = false := by
  refine ⟨?_, List.any_eq_false.2 fun v hv => ?_⟩
  · rw [any_unmapped hview, List.all_eq_true.2 fun v hv => State.isMapped_of_maps (hview v hv) (hmaps v hv)]
    rfl
  · rw [State.privPage_of_maps (hmaps v hv)]
    simpa using Option.isSome_iff_ne_none.1 (hmaps v hv)

theorem driftCommit_unmap (hop : dOp c.words = 2) (hring : s.ringIn c.ten (c.body 0) (c.vpns.length * 2 ^ 21) = false) :
    ∃ gs, s.driftCommit t c =
      (((((s.clash (.cmd t) gs).clashFar (.cmd t) gs).clashWriters (.cmd t) gs).dropAll c.ten c.vpns).settleRepairs, 0,
        [c.vpns.length, 0]) := by
  obtain ⟨hmapped, howned⟩ := noRefusal_of_maps hview hmaps
  have hring : s.ringIn c.ten (c.body 0) (c.vpns.length * pageBytes) = false := hring
  refine ⟨s.granules c.ten [(c.body 0, c.vpns.length * pageBytes)], ?_⟩
  simp only [State.driftCommit, hop, hmapped, howned, hring]
  rfl

theorem driftCommit_hint (hop : dOp c.words = 5) :
    s.driftCommit t c = (s.modAll c.ten (s.hinted (bits (c.body 1) 20 2)) c.vpns, 0, [c.vpns.length, 0]) := by
  obtain ⟨hmapped, howned⟩ := noRefusal_of_maps hview hmaps
  simp only [State.driftCommit, hop, hmapped, howned]
  rfl

theorem driftCommit_unpin (hop : dOp c.words = 4) :
    ∃ had, s.driftCommit t c = (s.modAll c.ten (fun p => { p with pin := 0, pinStack := none }) c.vpns, 0, [had, 0]) := by
  obtain ⟨hmapped, howned⟩ := noRefusal_of_maps hview hmaps
  simp only [State.driftCommit, hop, hmapped, howned]
  exact ⟨_, rfl⟩

end
end

/-- The stack that a pin binds its pages to (Table 7.5). -/
def Cmd.pinStk (c : Cmd) : Option Nat :=
  if bits (c.body 1) 18 2 = 1 ∧ (c.body 1).testBit 22 = true then some (bits (c.body 1) 23 4) else none

section
variable {s : State} {t : Nat} {c : Cmd} (hop : dOp c.words = 3)
include hop

theorem driftCommit_pinOver (h : s.pinOver c.ten (bits (c.body 1) 18 2) c.vpns = true) : s.driftCommit t c = (s, 0x40, []) := by
  simp only [State.driftCommit, hop, h]
  rfl

theorem driftCommit_pin (hview : belowView c.vpns) (hmaps : s.maps c.ten c.vpns)
    (h : s.pinOver c.ten (bits (c.body 1) 18 2) c.vpns = false) (hroom : ∀ k, c.pinStk = some k → s.stackFull k = false) :
    ∃ there, there ≤ c.vpns.length ∧ s.driftCommit t c =
      (s.modAll c.ten (fun p => { p with pin := bits (c.body 1) 18 2 + 1, pinStack := c.pinStk }) c.vpns, 0,
        [there, c.vpns.length - there]) := by
  obtain ⟨hmapped, howned⟩ := noRefusal_of_maps hview hmaps
  have hfull : (match c.pinStk with | some k => s.stackFull k | none => false) = false := by
    cases hk : c.pinStk with
    | none => rfl
    | some k => exact hroom k hk
  simp only [State.driftCommit, hop, h, hmapped, howned, Bool.false_eq_true, if_false]
  exact ⟨_, List.length_filter_le _ _, if_neg (ne_true_of_eq_false hfull)⟩

end

theorem State.hinted_hint (s : State) (h : Nat) (p : Page) : (s.hinted h p).hint = h := by
  unfold State.hinted
  split <;> rfl

theorem tabAbove_of_pairwise {α : Type} {t : Tab α} (h : (t.map (·.1)).Pairwise (· < ·)) (lo : Nat) (hlo : ∀ p ∈ t, lo ≤ p.1) :
    tabAbove lo t = true := by
  induction t generalizing lo with
  | nil => rfl
  | cons p t ih =>
    obtain ⟨hp, ht⟩ := List.pairwise_cons.1 h
    have below : ∀ q ∈ t, p.1 + 1 ≤ q.1 := fun q hq => hp q.1 (List.mem_map_of_mem hq)
    exact Bool.and_eq_true_iff.2 ⟨decide_eq_true (hlo p List.mem_cons_self), ih ht (p.1 + 1) below⟩

/-- After an unmap no page of the range is mapped, and its bytes read as those that nothing has written (R174). -/
theorem driftCommit_unmap_gone {s : State} {t : Nat} {c : Cmd} (hview : belowView c.vpns) (hmaps : s.maps c.ten c.vpns)
    (hop : dOp c.words = 2) (hring : s.ringIn c.ten (c.body 0) (c.vpns.length * 2 ^ 21) = false)
    (hrises : (s.vm.pages.map (·.1)).Pairwise (· < ·)) :
    (s.driftCommit t c).2 = (0, [c.vpns.length, 0]) ∧ ∀ v ∈ c.vpns, (s.driftCommit t c).1.page (pageKey c.ten v) = none ∧
      ∀ a, key c.ten (v * 2 ^ 21) ≤ a → a < key c.ten ((v + 1) * 2 ^ 21) → (s.driftCommit t c).1.byte a = memGet [] a := by
  obtain ⟨gs, e⟩ := driftCommit_unmap (t := t) hview hmaps hop hring
  rw [e]
  generalize hk : ((s.clash (.cmd t) gs).clashFar (.cmd t) gs).clashWriters (.cmd t) gs = u
  have hpages : u.vm.pages = s.vm.pages := by
    rw [← hk, State.clashWriters_pages, State.clashFar_pages, State.clash_pages]
  have hu : u.maps c.ten c.vpns := by
    unfold State.maps State.page at *
    rwa [hpages]
  obtain ⟨hsettled, hmem⟩ := (u.dropAll c.ten c.vpns).settleRepairs_keeps
  refine ⟨rfl, fun v hv => ?_⟩
  have hrises : tabAbove 0 u.vm.pages = true := hpages ▸ tabAbove_of_pairwise hrises 0 fun _ _ => Nat.zero_le _
  obtain ⟨hpage, hbare⟩ := State.dropAll_gone hrises (nodup_upto _ _) hu v hv
  refine ⟨?_, fun a hlo hhi => ?_⟩
  · rwa [State.page, hsettled]
  · rw [State.byte, hmem]
    exact memGet_of_forall_ne (hbare a hlo hhi)

/-- Settles O33: what each operation comes to where nothing refuses it, page by page. -/
theorem driftOutcomesAtTheCommit : Obligations.DriftOutcomesAtTheCommit := by
  intro s t c _ hrange _ hseen
  have hview : belowView c.vpns := Cmd.vpns_belowView hseen hrange
  refine ⟨fun hop hover => ?quota, fun hop hroom hmap => ?already, fun hop hroom hnew => ?map, driftCommit_unmapped hview,
    fun hop hrises hmaps hring => driftCommit_unmap_gone hview hmaps hop hring hrises, fun hop hmaps => ?hint, fun hop hmaps => ?unpin,
    fun hop => ⟨driftCommit_pinOver hop, fun hquota hmaps hroom => ?pin⟩, driftCommit_settle hview⟩
  case quota => rw [driftCommit_map hview hop, if_pos hover]
  case already => rw [driftCommit_map hview hop, if_neg hroom.not_gt, if_pos (List.any_eq_true.2 hmap)]
  case map =>
    have hnone : c.vpns.any (s.isMapped c.ten) = false := List.any_eq_false.2 fun v hv => ne_true_of_eq_false (hnew v hv)
    rw [driftCommit_map hview hop, if_neg hroom.not_gt, if_neg (ne_true_of_eq_false hnone)]
    obtain ⟨hmem, hcw⟩ := s.foldl_mapNew_keeps c.ten ((c.body 1).testBit 27) c.vpns
    exact ⟨rfl, hmem, hcw, fun v hv => (s.page_foldl_mapNew _ _ _ _).trans (if_pos (List.mem_map_of_mem hv))⟩
  case hint =>
    rw [driftCommit_hint hview hmaps hop]
    exact ⟨rfl, State.modAll_mem _, State.page_modAll (holds := fun p => p.hint = bits (c.body 1) 20 2) (s.hinted_hint _) hmaps⟩
  case unpin =>
    obtain ⟨had, e⟩ := driftCommit_unpin (t := t) hview hmaps hop
    rw [e]
    exact ⟨rfl, State.modAll_mem _, State.page_modAll (holds := fun p => p.pin = 0 ∧ p.pinStack = none) (fun _ => ⟨rfl, rfl⟩) hmaps⟩
  case pin =>
    obtain ⟨there, hthere, e⟩ := driftCommit_pin (t := t) hop hview hmaps hquota hroom
    rw [e]
    exact ⟨rfl, Nat.add_sub_cancel' hthere, State.modAll_mem _,
      State.page_modAll (holds := fun p => p.pin = bits (c.body 1) 18 2 + 1 ∧ p.pinStack = c.pinStk) (fun _ => ⟨rfl, rfl⟩) hmaps⟩

end Sys2Proof.Machine
end

section
/-!
PROOFS. Media failures of the granary and the cellar, and the causes that they raise (07 R189 to R194, R206, 22 R543 to R551).
-/

namespace Sys2Proof.Machine
open Sys2Proof.Claims

/-! ## What a cause leaves of the registers (22 R543, R544) -/

/-- Whether an offset is neither in the error block nor where a host port counts the events that it lost. -/
abbrev offRecord (off : Nat) : Prop := 0x400000 ≤ off ∧ off % 0x10000 ≠ 0x30

/-- A field within a register that raising a cause leaves. -/
abbrev Field.sticks (g : Field) : Prop := offRecord g.reg ∧ g.lo + g.w ≤ 64

/-- Fields of two registers, or of two places in one. -/
abbrev Field.apart (g f : Field) : Prop := g.reg ≠ f.reg ∨ g.lo + g.w ≤ f.lo ∨ f.lo + f.w ≤ g.lo

section
variable {off : Nat} (h : offRecord off)
include h

theorem offRecord_ne_eventLost (n : Nat) : off ≠ (R.HST_CNT1_EVENT_LOST n).reg := by
  change off ≠ 0x400030 + 0x10000 * n
  omega

theorem State.reg_sendEvent (s : State) (kind reason : Nat) (ten : Option Nat) (stamp : Nat) (detail : List Nat) :
    (s.sendEvent kind reason ten stamp detail).reg off = s.reg off := by
  unfold State.sendEvent
  split
  · split
    · rfl
    · exact State.reg_put_other _ _ _ _ (offRecord_ne_eventLost h _)
  · split
    · exact State.reg_put_other _ _ _ _ (offRecord_ne_eventLost h _)
    · exact List.foldlRecOn (motive := fun u : State => u.reg off = s.reg off) _ _ rfl fun _ hu _ _ => hu

theorem State.reg_logCause (s : State) (block inst kind code : Nat) (ten : Option Nat) (d0 d1 : Nat) :
    (s.logCause block inst kind code ten d0 d1).1.reg off = s.reg off := by
  have entry {base : Nat} (hbase : base ≤ 0x302000) (i : Nat) : off ≠ base + 0x40 * (i % 64) := by omega
  have low {a : Nat} (ha : a < 0x400000) : off ≠ a := by omega
  have past {u : State} {a v : Nat} (ha : off ≠ a) : (u.setReg a v).reg off = u.reg off := by rw [State.reg_setReg, if_neg ha]
  unfold State.logCause
  dsimp only
  split
  · exact (past (entry (by decide) _)).trans (State.reg_put_other _ _ _ _ (entry (by decide) _))
  · exact (past (low (by decide))).trans <| (past (low (by decide))).trans <| (past (entry (by decide) _)).trans <|
      (past (entry (by decide) _)).trans <| (past (entry (by decide) _)).trans <| (past (entry (by decide) _)).trans <|
      (past (entry (by decide) _)).trans <| past (entry (by decide) _)

theorem State.reg_raiseSeq (s : State) (f : Field) (ten : Option Nat) (d0 d1 : Nat) (own : Bool) :
    (s.raiseSeq f ten d0 d1 own).1.reg off = if s.get f = 1 then s.reg off else (s.put f 1).reg off := by
  unfold State.raiseSeq
  split
  · rfl
  · dsimp only
    split
    · rfl
    · dsimp only
      split
      · exact (State.reg_sendEvent h _ _ _ _ _ _).trans (State.reg_logCause h _ _ _ _ _ _ _ _)
      · exact State.reg_logCause h _ _ _ _ _ _ _ _

end

section
variable {f g : Field} (s : State) (ten : Option Nat) (d0 d1 : Nat) (own : Bool)

theorem State.get_raiseSeq (hg : offRecord g.reg) :
    (s.raiseSeq f ten d0 d1 own).1.get g = if s.get f = 1 then s.get g else (s.put f 1).get g := by
  rw [State.get, State.reg_raiseSeq hg]
  split <;> rfl

/-- The bit of a cause is set once it is raised. -/
theorem State.get_raiseSeq_same (hf : f.sticks) (hw : f.w = 1) : (s.raiseSeq f ten d0 d1 own).1.get f = 1 := by
  obtain ⟨hreg, hfits⟩ := hf
  rw [s.get_raiseSeq ten d0 d1 own hreg]
  split
  · assumption
  · rw [State.get_put_same _ _ _ hfits, hw]
    rfl

/-- A cause leaves every field apart from its bit, outside the error block. -/
theorem State.get_raiseSeq_apart (hg : g.sticks) (h : g.apart f) : (s.raiseSeq f ten d0 d1 own).1.get g = s.get g := by
  obtain ⟨hreg, hfits⟩ := hg
  rw [s.get_raiseSeq ten d0 d1 own hreg, State.get_put_apart _ _ _ _ hfits h, ite_self]

theorem State.get_raiseAt_same (hf : f.sticks) (hw : f.w = 1) : (s.raiseAt f ten d0 d1).get f = 1 :=
  s.get_raiseSeq_same ten d0 d1 false hf hw

theorem State.get_raiseAt_apart (hg : g.sticks) (h : g.apart f) : (s.raiseAt f ten d0 d1).get g = s.get g :=
  s.get_raiseSeq_apart ten d0 d1 false hg h

end

/-- A bit added to a field where it is clear is set. -/
theorem State.testBit_get_put_add (s : State) {f : Field} {i : Nat} (hfits : f.lo + f.w ≤ 64) (hi : i < f.w)
    (h : (s.get f).testBit i = false) : ((s.put f (s.get f + 2 ^ i)).get f).testBit i = true := by
  rw [State.get_put_same _ _ _ hfits, Nat.testBit_mod_two_pow, Nat.add_comm, Nat.testBit_two_pow_add_eq, h, decide_eq_true hi]
  rfl

/-- The error register of the memory system is no stack's. -/
theorem R.MEM_ERR_ne_MEM_STACK (n : Nat) : R.MEM_ERR ≠ R.MEM_STACK n := by
  unfold R.MEM_ERR R.MEM_STACK
  omega

/-! ## Frames of the granary (07 R192) -/

/-- A frame retired for a row, its repair yet to be tried. -/
def State.frameOut (s : State) (frame row : Nat) (repaired : Bool) : State :=
  let s := s.raiseAt R.MEM_ERR_FRAME_RETIRED none frame noTicket
  let s := if s.groupGone frame then s else s.bump (R.MEM_STACK_FRAMES_RETIRED (frame / 32768)) 1
  { s with vm := { s.vm with
    retired := s.vm.retired ++ [frame], retireList := s.vm.retireList ++ [(frame, row)]
    corrRows := s.vm.corrRows.filter (· != (frame, row)), ueFrames := s.vm.ueFrames.erase frame
    repairs := s.vm.repairs ++ [(frame, row, repaired)] } }

section
variable {s : State} {frame row : Nat} {repaired : Bool}

theorem State.frameBad_iff : s.frameBad frame row = true ↔
    frame ∈ s.vm.ueFrames ∨ 2 ≤ s.vm.corrRows.countP fun r => r == (frame, row) := by
  rw [State.frameBad, Bool.or_eq_true, List.contains_iff_mem, decide_eq_true_eq]

section
variable (hframe : frame < 524288) (hin : frame ∉ s.vm.retired)
include hframe hin

omit hin in
theorem execFrameRetire_idle (h : s.frameBad frame row = false) :
    execFrameRetire (frame / 32768) (frame % 32768) row repaired s = .next s := by
  have hf : frame / 32768 * 32768 + frame % 32768 = frame := Nat.div_add_mod' _ _
  rw [execFrameRetire, hf, if_neg (by omega), if_pos (.inr (by rw [h]; rfl))]

theorem execFrameRetire_bad (h : s.frameBad frame row = true) :
    execFrameRetire (frame / 32768) (frame % 32768) row repaired s = .next (s.frameOut frame row repaired).settleRepairs := by
  have hf : frame / 32768 * 32768 + frame % 32768 = frame := Nat.div_add_mod' _ _
  rw [execFrameRetire, hf, if_neg (by omega), if_neg (by simpa [h] using hin)]
  rfl

end

variable (s frame row repaired)

/-- The causes and counters of a retired frame leave the memory system's record, but for the frame's own entries. -/
theorem State.frameOut_spec : (s.frameOut frame row repaired).vm = { s.vm with
      retired := s.vm.retired ++ [frame], retireList := s.vm.retireList ++ [(frame, row)]
      corrRows := s.vm.corrRows.filter (· != (frame, row)), ueFrames := s.vm.ueFrames.erase frame
      repairs := s.vm.repairs ++ [(frame, row, repaired)] } ∧
    (s.frameOut frame row repaired).mem = s.mem ∧ (s.frameOut frame row repaired).fa = s.fa ∧
    (s.frameOut frame row repaired).get R.MEM_ERR_FRAME_RETIRED = 1 := by
  have hraised := s.get_raiseAt_same (f := R.MEM_ERR_FRAME_RETIRED) none frame noTicket (by decide) rfl
  have hcounted := State.get_put_apart (s.raiseAt R.MEM_ERR_FRAME_RETIRED none frame noTicket)
    (R.MEM_STACK_FRAMES_RETIRED (frame / 32768)) R.MEM_ERR_FRAME_RETIRED
    ((s.raiseAt R.MEM_ERR_FRAME_RETIRED none frame noTicket).get (R.MEM_STACK_FRAMES_RETIRED (frame / 32768)) + 1) (by decide)
    (.inl (R.MEM_ERR_ne_MEM_STACK _))
  unfold State.frameOut
  dsimp only
  split
  · rw [State.raiseAt_vm, State.raiseAt_mem, State.raiseAt_fa]
    exact ⟨rfl, rfl, rfl, hraised⟩
  · rw [State.bump_vm, State.bump_mem, State.bump_fa, State.raiseAt_vm, State.raiseAt_mem, State.raiseAt_fa]
    exact ⟨rfl, rfl, rfl, hcounted.trans hraised⟩

end

section
variable {s : State} {frame row : Nat}

/-- Whether a page or a borrower holds a frame. -/
def State.frameFull (s : State) (frame : Nat) : Prop :=
  (∃ p, p ∈ s.vm.pages ∧ p.2.st = 1 ∧ p.2.frame = frame) ∨ ∃ l, l ∈ s.fa.lent ∧ l.1 = frame

theorem State.frameFull_iff : ((s.vm.pages.any fun p => p.2.st == 1 && p.2.frame == frame) ||
    s.fa.lent.any fun l => l.1 == frame) = true ↔ s.frameFull frame := by
  simp only [State.frameFull, Bool.or_eq_true, List.any_eq_true, Bool.and_eq_true, beq_iff_eq]

/-- A frame that is held waits for its repair (R192). -/
theorem State.settleRepair_full (h : s.frameFull frame) (repaired : Bool) : s.settleRepair (frame, row, repaired) = s :=
  if_pos (State.frameFull_iff.2 h)

section
variable (h : ¬ s.frameFull frame)
include h

/-- A repair that succeeds returns the frame to use. -/
theorem State.settleRepair_repaired :
    (s.settleRepair (frame, row, true)).vm =
      { s.vm with repairs := s.vm.repairs.erase (frame, row, true), retired := s.vm.retired.erase frame } ∧
    ∀ g : Field, g.lo + g.w ≤ 64 → g.apart (R.MEM_STACK_FRAMES_RETIRED (frame / 32768)) →
      (s.settleRepair (frame, row, true)).get g = s.get g := by
  rw [State.settleRepair, if_neg (mt State.frameFull_iff.1 h)]
  simp only [if_true]
  split
  · exact ⟨rfl, fun _ _ _ => rfl⟩
  · exact ⟨rfl, fun g hg hapart => State.get_put_apart _ _ _ _ hg hapart⟩

/-- A repair that fails leaves the frame out of use, and is reported. -/
theorem State.settleRepair_failed : s.settleRepair (frame, row, false) =
    ({ s with vm := { s.vm with repairs := s.vm.repairs.erase (frame, row, false) } } : State).raiseAt R.MEM_ERR_PPR_FAIL none frame
      noTicket :=
  if_neg (mt State.frameFull_iff.1 h)

end
end

/-- A retired frame and what its repair comes to, where no other frame waits for one. -/
theorem frameRetire_repairs {s : State} {frame row : Nat} {repaired : Bool} (hin : frame ∉ s.vm.retired) (hnone : s.vm.repairs = []) :
    let u := (s.frameOut frame row repaired).settleRepairs
    u.vm.pages = s.vm.pages ∧ u.mem = s.mem ∧ u.vm.retireList = s.vm.retireList ++ [(frame, row)] ∧
      u.get R.MEM_ERR_FRAME_RETIRED = 1 ∧
      (s.frameFull frame → u.vm.retired = s.vm.retired ++ [frame] ∧ u.vm.repairs = [(frame, row, repaired)]) ∧
      (¬ s.frameFull frame → repaired = true → u.vm.retired = s.vm.retired ∧ u.vm.repairs = []) ∧
      (¬ s.frameFull frame → repaired = false → u.vm.retired = s.vm.retired ++ [frame] ∧ u.get R.MEM_ERR_PPR_FAIL = 1) := by
  obtain ⟨hvm, hmem, hfa, hbit⟩ := s.frameOut_spec frame row repaired
  obtain ⟨hpages, hstands⟩ := (s.frameOut frame row repaired).settleRepairs_keeps
  have hrepairs : (s.frameOut frame row repaired).vm.repairs = [(frame, row, repaired)] := by rw [hvm, hnone]; rfl
  have hone : (s.frameOut frame row repaired).settleRepairs = (s.frameOut frame row repaired).settleRepair (frame, row, repaired) := by
    rw [State.settleRepairs, hrepairs]
    rfl
  have hfull : (s.frameOut frame row repaired).frameFull frame ↔ s.frameFull frame := by
    unfold State.frameFull
    rw [hvm, hfa]
  refine ⟨by rw [hpages, hvm], hstands.trans hmem, ?_⟩
  rw [hone]
  by_cases h : s.frameFull frame
  · rw [State.settleRepair_full (hfull.2 h), hvm, hnone]
    exact ⟨rfl, hbit, fun _ => ⟨rfl, rfl⟩, fun hfree => absurd h hfree, fun hfree => absurd h hfree⟩
  · have hfree := mt hfull.1 h
    cases repaired with
    | true =>
      obtain ⟨hrepaired, hregs⟩ := State.settleRepair_repaired (row := row) hfree
      rw [hrepaired, hregs _ (by decide) (.inl (R.MEM_ERR_ne_MEM_STACK _)), hvm, hnone]
      refine ⟨rfl, hbit, fun hheld => absurd hheld h, fun _ _ => ⟨?_, ?_⟩, fun _ hno => Bool.noConfusion hno⟩
      · simp [List.erase_append_right _ hin]
      · simp
    | false =>
      rw [State.settleRepair_failed hfree, State.raiseAt_vm]
      refine ⟨by rw [hvm], ?_, fun hheld => absurd hheld h, fun _ hno => Bool.noConfusion hno, fun _ _ => ⟨by rw [hvm], ?_⟩⟩
      · exact (State.get_raiseAt_apart _ _ _ _ (by decide) (by decide)).trans hbit
      · exact State.get_raiseAt_same _ _ _ _ (by decide) rfl

/-! ## Channel groups of the granary (07 R193) -/

section
variable {s : State} {stk grp : Nat} {channel : Option Nat} (hstk : stk < 16) (hgrp : grp < 8) (hch : channel.getD 0 < 4)
include hstk hgrp hch

theorem execChannelGroupRetire_idle (h : s.groupDue stk grp channel = false) : execChannelGroupRetire stk grp channel s = .next s := by
  rw [execChannelGroupRetire, if_neg (by omega), if_neg (ne_true_of_eq_false h)]

theorem execChannelGroupRetire_due (h : s.groupDue stk grp channel = true) :
    execChannelGroupRetire stk grp channel s = .next (s.retireGroup stk grp) := by
  rw [execChannelGroupRetire, if_neg (by omega), if_pos h]

end

/-- A channel group retired is marked and reported. -/
theorem retireGroup_marks {s : State} {stk grp : Nat} (hstk : stk < 16) (hgrp : grp < 8)
    (hin : (s.get (R.MEM_STACK_GROUPS_RETIRED stk)).testBit grp = false) :
    ((s.retireGroup stk grp).get (R.MEM_STACK_GROUPS_RETIRED stk)).testBit grp = true ∧
      (s.retireGroup stk grp).get R.MEM_ERR_GROUP_RETIRED = 1 ∧ (s.retireGroup stk grp).vm = s.vm ∧
      (s.retireGroup stk grp).mem = s.mem := by
  have hplace : offRecord (R.MEM_STACK stk) := by
    change 0x400000 ≤ 0x802000 + 0x8 * stk ∧ (0x802000 + 0x8 * stk) % 0x10000 ≠ 0x30
    omega
  have hfits : (R.MEM_STACK_GROUPS_RETIRED stk).lo + (R.MEM_STACK_GROUPS_RETIRED stk).w ≤ 64 := by
    change 0 + 8 ≤ 64
    decide
  have hcause : (R.MEM_STACK_GROUPS_RETIRED stk).apart R.MEM_ERR_GROUP_RETIRED := .inl (R.MEM_ERR_ne_MEM_STACK stk).symm
  have hcount : (R.MEM_STACK_GROUPS_RETIRED stk).apart (R.MEM_STACK_FRAMES_RETIRED stk) := .inr (.inl (Nat.le_refl 8))
  unfold State.retireGroup
  rw [if_neg (ne_true_of_eq_false hin)]
  dsimp only
  rw [State.raiseAt_vm, State.raiseAt_mem, State.get_raiseAt_apart _ _ _ _ ⟨hplace, hfits⟩ hcause,
    State.get_raiseAt_same _ _ _ _ (by decide) rfl]
  refine ⟨State.testBit_get_put_add _ hfits hgrp ?_, rfl, rfl, rfl⟩
  rw [State.bump, State.get_put_apart _ _ _ _ hfits hcount]
  exact hin

/-- CHANNEL_GROUP_RETIRE, by what makes a group due. -/
theorem channelGroupRetire_decides {s : State} {stk grp : Nat} {channel : Option Nat} {due : Prop} (hstk : stk < 16) (hgrp : grp < 8)
    (hch : channel.getD 0 < 4) (hin : (s.get (R.MEM_STACK_GROUPS_RETIRED stk)).testBit grp = false)
    (hdue : s.groupDue stk grp channel = true ↔ due) :
    (due → ∃ u, execChannelGroupRetire stk grp channel s = .next u ∧ (u.get (R.MEM_STACK_GROUPS_RETIRED stk)).testBit grp = true ∧
      u.get R.MEM_ERR_GROUP_RETIRED = 1 ∧ u.vm = s.vm ∧ u.mem = s.mem) ∧
    (¬ due → execChannelGroupRetire stk grp channel s = .next s) :=
  ⟨fun h => ⟨_, execChannelGroupRetire_due hstk hgrp hch (hdue.2 h), retireGroup_marks hstk hgrp hin⟩,
    fun h => execChannelGroupRetire_idle hstk hgrp hch (Bool.eq_false_iff.2 fun e => h (hdue.1 e))⟩

/-! ## Poison (07 R194) -/

/-- A granule whose contents another page holds, or that no request has pages in, is lost to nobody. -/
theorem State.granuleLost_stays {s : State} {g : Nat} {p : Page} (hp : s.page (g / 32) = some p)
    (h : 64 ≤ g / 32 / 2 ^ 35 ∨ p.source? = true ∨ (s.sv.kv = [] ∧ s.get R.TWN_STS_STATE ≠ 1)) : s.granuleLost g = s := by
  unfold State.granuleLost
  rw [hp]
  dsimp only
  split
  · rfl
  · rename_i hlost
    obtain ⟨hten, hsource, -⟩ := not_or.1 hlost |>.imp_right not_or.1
    obtain ⟨hkv, htwin⟩ := (h.resolve_left hten).resolve_left hsource
    have hnobody : s.kvOwners g = [] := by
      unfold State.kvOwners
      split
      · rfl
      · simp [hkv]
    rw [if_neg htwin, hnobody]
    rfl

/-- A page with a granule marked poisoned. -/
def Page.poisoned (p : Page) (i : Nat) : Page := { p with poison := setBits p.poison i 1 1 }

theorem Page.poisoned_testBit (p : Page) (i : Nat) : (p.poisoned i).poison.testBit i = true := by
  simp [Page.poisoned, testBit_setBits]

theorem State.page_poison {s : State} {g : Nat} {p : Page} (hp : s.page (g / 32) = some p) :
    (s.poison g).page (g / 32) = some (p.poisoned (g % 32)) := by
  rw [State.poison, State.page_modPage, if_pos rfl, hp]
  rfl

section
variable {s : State} {g t : Nat} {p : Page}

/-- A granule poisoned and its line reported; the frame of a granary line is noted. -/
def State.lineMarked (s : State) (g : Nat) (p : Page) : State :=
  let s := (s.poison g).raiseAt R.MEM_ERR_HBM_UE (if g / 32 / 2 ^ 35 < 64 then some (g / 32 / 2 ^ 35) else none)
    (g * granuleBytes % 2 ^ 56) noTicket
  if p.st = 1 ∧ !p.oasis.testBit (g % 32) then { s with vm := { s.vm with ueFrames := addNew s.vm.ueFrames p.frame } } else s

theorem mem_addNew (l : List Nat) (x : Nat) : x ∈ addNew l x := by
  unfold addNew
  split
  · rename_i h
    exact List.contains_iff_mem.1 h
  · exact List.mem_append_right _ List.mem_cons_self

theorem State.lineMarked_spec (hp : s.page (g / 32) = some p) :
    (s.lineMarked g p).page (g / 32) = some (p.poisoned (g % 32)) ∧ (s.lineMarked g p).mem = s.mem ∧ (s.lineMarked g p).x = s.x ∧
      (s.lineMarked g p).sv = s.sv ∧ (s.lineMarked g p).get R.MEM_ERR_HBM_UE = 1 ∧
      (s.lineMarked g p).get R.TWN_STS_STATE = s.get R.TWN_STS_STATE ∧
      (p.st = 1 → p.oasis.testBit (g % 32) = false → p.frame ∈ (s.lineMarked g p).vm.ueFrames) := by
  let ten := if g / 32 / 2 ^ 35 < 64 then some (g / 32 / 2 ^ 35) else none
  have hpage : ((s.poison g).raiseAt R.MEM_ERR_HBM_UE ten (g * granuleBytes % 2 ^ 56) noTicket).page (g / 32) =
      some (p.poisoned (g % 32)) := by
    rw [State.page, State.raiseAt_vm]
    exact State.page_poison hp
  have hbit := (s.poison g).get_raiseAt_same (f := R.MEM_ERR_HBM_UE) ten (g * granuleBytes % 2 ^ 56) noTicket (by decide) rfl
  have htwin := (s.poison g).get_raiseAt_apart (f := R.MEM_ERR_HBM_UE) (g := R.TWN_STS_STATE) ten (g * granuleBytes % 2 ^ 56) noTicket
    (by decide) (by decide)
  have hkeeps := State.onRecord_raiseAt (s.poison g).onRecord_refl R.MEM_ERR_HBM_UE ten (g * granuleBytes % 2 ^ 56) noTicket
  unfold State.lineMarked
  dsimp only
  split
  · exact ⟨hpage, by rw [State.raiseAt_mem]; rfl, by rw [State.raiseAt_x]; rfl, by rw [State.raiseAt_sv]; rfl, hbit, htwin,
      fun _ _ => mem_addNew _ _⟩
  · rename_i hhome
    refine ⟨hpage, by rw [State.raiseAt_mem]; rfl, by rw [State.raiseAt_x]; rfl, by rw [State.raiseAt_sv]; rfl, hbit, htwin,
      fun hst hoasis => absurd ⟨hst, ?_⟩ hhome⟩
    rw [hoasis]
    rfl

/-- A line that nobody reads any more is only marked. -/
theorem State.lineLost_unread (hp : s.page (g / 32) = some p) (hst : p.st = 1 ∨ p.st = 2) (ht : s.cmd t = none) :
    s.lineLost g (.cmd t) = some (s.lineMarked g p) := by
  obtain ⟨-, -, hx, -⟩ := State.lineMarked_spec hp
  have hunread : (s.lineMarked g p).poisonKill (.cmd t) = s.lineMarked g p := by
    rw [State.poisonKill, State.killCmd, State.cmd, hx]
    simp only [show tfind s.x.cmds t = none from ht]
  unfold State.lineLost
  rw [hp]
  dsimp only
  rw [if_pos hst]
  exact congrArg some hunread

theorem execGranulePoison_marks (hp : s.page (g / 32) = some p) (hst : p.st = 1 ∨ p.st = 2) (ht : s.cmd t = none)
    (hsafe : 64 ≤ g / 32 / 2 ^ 35 ∨ p.source? = true ∨ (s.sv.kv = [] ∧ s.get R.TWN_STS_STATE ≠ 1)) :
    execGranulePoison g (.cmd t) s = .next (s.lineMarked g p) := by
  obtain ⟨hpage, -, -, hsv, -, htwin, -⟩ := State.lineMarked_spec hp
  unfold execGranulePoison
  rw [State.lineLost_unread hp hst ht]
  exact congrArg Host.Outcome.next (State.granuleLost_stays hpage (by rw [hsv, htwin]; exact hsafe))

theorem execPoisonRebuild_rebuilds (hp : s.page (g / 32) = some p) (hbit : p.poison.testBit (g % 32) = true) (hsource : p.source? = true) :
    execPoisonRebuild g s = .next (s.setPage (g / 32) { p with poison := setBits p.poison (g % 32) 1 0 }) := by
  unfold execPoisonRebuild
  rw [hp]
  exact if_pos ⟨hbit, hsource⟩

theorem execPoisonRebuild_sourceless (hp : s.page (g / 32) = some p) (hsource : p.source? = false) : execPoisonRebuild g s = .next s := by
  unfold execPoisonRebuild
  rw [hp]
  exact if_neg fun h => by simp [hsource] at h

end

/-! ## The cellar (07 R206) -/

section
variable (s : State)

/-- A block that fails to erase is retired. -/
theorem eraseFail_marks :
    (s.mediaEvent .eraseFail).get R.CEL_ERR_ERASE_FAIL = 1 ∧ (s.mediaEvent .eraseFail).get R.CEL_ERR_BLOCK_RETIRED = 1 ∧
      (s.mediaEvent .eraseFail).vm = s.vm ∧ (s.mediaEvent .eraseFail).mem = s.mem := by
  have spare {g : Field} (hfits : g.lo + g.w ≤ 64) (hreg : g.reg ≠ R.CEL_SPARE) :
      (s.mediaEvent .eraseFail).get g = ((s.raise R.CEL_ERR_ERASE_FAIL none).raise R.CEL_ERR_BLOCK_RETIRED none).get g :=
    (State.get_put_apart _ _ _ _ hfits (.inl hreg)).trans (State.get_put_apart _ _ _ _ hfits (.inl hreg))
  refine ⟨?_, ?_, ?_, ?_⟩
  · rw [spare (by decide) (by decide)]
    exact (State.get_raiseAt_apart _ _ _ _ (by decide) (by decide)).trans (State.get_raiseAt_same _ _ _ _ (by decide) rfl)
  · rw [spare (by decide) (by decide)]
    exact State.get_raiseAt_same _ _ _ _ (by decide) rfl
  · simp [State.mediaEvent, State.retireBlock]
  · simp [State.mediaEvent, State.retireBlock]

/-- A store sector that cannot be read is noted and reported. -/
theorem storeSector_marks (unit k : Nat) :
    unit * 512 + k ∈ (s.storeSector unit k).vm.badSectors ∧ (s.storeSector unit k).get R.CEL_ERR_STORE_UE = 1 ∧
      (s.storeSector unit k).get R.CEL_ERR_READ_UE = 1 ∧ (s.storeSector unit k).mem = s.mem := by
  have told (u : State) (f : Field) (hf : offRecord f.reg) (stamp : Nat) (detail : List Nat) :
      (u.sendEvent 0x03 0 none stamp detail).get f = u.get f := by
    rw [State.get, State.reg_sendEvent hf, State.get]
  have hrecord (u : State) (seen : State) (h : u.onRecord seen) : seen.vm = u.vm ∧ seen.mem = u.mem := by
    rw [h]
    exact ⟨rfl, rfl⟩
  unfold State.storeSector
  dsimp only
  refine ⟨?_, ?_, ?_, ?_⟩
  · rw [State.sendEvent_vm, (hrecord _ _ (State.onRecord_raiseSeq (State.onRecord_refl _) _ _ _ _ _)).1, State.raiseAt_vm]
    exact mem_addNew _ _
  · rw [told _ _ (by decide)]
    exact State.get_raiseSeq_same _ _ _ _ _ (by decide) rfl
  · rw [told _ _ (by decide)]
    exact (State.get_raiseSeq_apart _ _ _ _ _ (by decide) (by decide)).trans (State.get_raiseAt_same _ _ _ _ (by decide) rfl)
  · rw [State.sendEvent_mem, (hrecord _ _ (State.onRecord_raiseSeq (State.onRecord_refl _) _ _ _ _ _)).2, State.raiseAt_mem]

end

section
variable {s : State} {ch : Nat} (hch : ch < 32) (hin : (s.get R.CEL_STS_CH_FAIL).testBit ch = false)
include hin

theorem State.channelFail_vm : (s.channelFail ch).vm = { s.vm with pages := tmap (fun _ p => p.channelLost ch) s.vm.pages } := by
  rw [State.channelFail, if_neg (ne_true_of_eq_false hin)]
  simp

include hch in
/-- A channel that fails is marked and reported. -/
theorem State.channelFail_marks : ((s.channelFail ch).get R.CEL_STS_CH_FAIL).testBit ch = true ∧
    (s.channelFail ch).get R.CEL_ERR_CHANNEL_FAIL = 1 ∧ (s.channelFail ch).mem = s.mem := by
  rw [State.channelFail, if_neg (ne_true_of_eq_false hin)]
  dsimp only
  refine ⟨?_, State.get_raiseAt_same _ _ _ _ (by decide) rfl, State.raiseAt_mem _ _ _ _ _⟩
  have hmarked := s.testBit_get_put_add (f := R.CEL_STS_CH_FAIL) (by decide) hch hin
  rw [← State.get_raiseAt_apart (s.put R.CEL_STS_CH_FAIL (s.get R.CEL_STS_CH_FAIL + 2 ^ ch)) (f := R.CEL_ERR_CHANNEL_FAIL) none ch
    noTicket (by decide) (by decide)] at hmarked
  exact hmarked

include hch in
/-- Where no tenancy has a page in the spill region, nobody loses what a channel held. -/
theorem execCellarChannelFail_spillFree (hrises : (s.vm.pages.map (·.1)).Pairwise (· < ·))
    (hspill : ∀ p, p ∈ s.vm.pages → p.1 / 2 ^ 35 < 64 → p.2.st ≠ 2) : execCellarChannelFail ch s = .next (s.channelFail ch) := by
  have rises := tabAbove_of_pairwise hrises 0 fun _ _ => Nat.zero_le _
  have hnone : ((tmap (fun _ p => p.channelLost ch) s.vm.pages).filter fun p =>
      decide (p.1 / 2 ^ 35 < 64) && tfind s.vm.pages p.1 != some p.2) = [] := by
    refine List.filter_eq_nil_iff.2 fun p hp => ?_
    obtain ⟨q, hq, rfl⟩ := List.mem_map.1 hp
    have hfound : tfind s.vm.pages q.1 = some q.2 := tfind_of_mem rises hq
    by_cases hten : q.1 / 2 ^ 35 < 64
    · simp [hfound, Page.channelLost, hspill q hq hten]
    · rw [decide_eq_false hten]
      simp
  unfold execCellarChannelFail
  rw [if_neg (by omega)]
  dsimp only
  rw [State.channelFail_vm hin, hnone]
  rfl

end

/-- Settles O35: the clauses in order, each by what its command marks. -/
theorem mediaFailuresAreMarked : Obligations.MediaFailuresAreMarked := by
  refine fun s => ⟨fun frame row repaired hframe hin => ?frame, fun stk grp channel hstk hgrp hch hin => ?group,
    fun g p t hp hst ht hsafe => ?poison, fun g p hp hbit hsource => ?rebuild, fun g p hp hsource => ?sourceless, rfl, rfl,
    ⟨_, rfl, eraseFail_marks s⟩, fun q hq => ?store, fun ch hch hin hrises hspill => ?channel⟩
  case frame =>
    refine ⟨fun hgood => ?_, fun hbad hnone => ⟨_, execFrameRetire_bad hframe hin (State.frameBad_iff.2 hbad),
      frameRetire_repairs hin hnone⟩⟩
    exact execFrameRetire_idle hframe (Bool.eq_false_iff.2 fun h => hgood (State.frameBad_iff.1 h))
  case group =>
    cases channel with
    | none => exact channelGroupRetire_decides hstk hgrp hch hin decide_eq_true_iff
    | some i => exact channelGroupRetire_decides hstk hgrp hch hin decide_eq_true_iff
  case poison =>
    obtain ⟨hpage, hmem, -, -, hbit, -, hframe⟩ := State.lineMarked_spec hp
    exact ⟨_, execGranulePoison_marks hp hst ht hsafe, hbit, hmem, hframe, _, hpage, p.poisoned_testBit _, rfl⟩
  case rebuild => exact ⟨_, execPoisonRebuild_rebuilds hp hbit hsource, by simp [testBit_setBits]⟩
  case sourceless => exact execPoisonRebuild_sourceless hp hsource
  case store =>
    have hsector : s.mediaEvent (.storeUe q) = s.storeSector (q / 512) (q % 512) := if_neg hq.not_ge
    have hmarks := storeSector_marks s (q / 512) (q % 512)
    rw [Nat.div_add_mod'] at hmarks
    exact ⟨_, congrArg Host.Outcome.next hsector, hmarks⟩
  case channel =>
    obtain ⟨hmarked, hbit, hmem⟩ := State.channelFail_marks hch hin
    exact ⟨_, execCellarChannelFail_spillFree hch hin hrises hspill, hmarked, hbit, hmem, by rw [State.channelFail_vm hin]⟩

end Sys2Proof.Machine
end

section
/-!
PROOFS. The commit of the scan commands: the side list appended to, lists folded, and the index's registers after them (08 R222 to R229).
-/

namespace Sys2Proof.Machine

/-! ## What a committed write leaves -/

/-- A committed run changes only memory, the pages' poison marks and the copy-backs under way. -/
theorem State.commitWrite_spec (s : State) (k : Nat) (bs : List Byte) :
    s.commitWrite k bs =
      { s with
        mem := (s.commitWrite k bs).mem, vm := (s.commitWrite k bs).vm
        x := { s.x with copybacks := (s.commitWrite k bs).x.copybacks } } := by
  unfold State.commitWrite State.commitWrites
  dsimp only [List.foldl]
  rw [State.clearPoison_spec]
  rfl

@[simp] theorem State.commitWrite_cw (s : State) (k : Nat) (bs : List Byte) : (s.commitWrite k bs).cw = s.cw := by
  rw [s.commitWrite_spec]

@[simp] theorem State.commitWrite_cmds (s : State) (k : Nat) (bs : List Byte) : (s.commitWrite k bs).x.cmds = s.x.cmds := by
  rw [s.commitWrite_spec]

/-- Chained operations that each leave the registers leave the registers. -/
theorem State.foldl_cw {α : Type} {f : State → α → State} (hf : ∀ u a, (f u a).cw = u.cw) (l : List α) (s : State) :
    (l.foldl f s).cw = s.cw :=
  List.foldlRecOn (motive := fun u : State => u.cw = s.cw) l f rfl fun u h a _ => (hf u a).trans h

theorem State.reg_of_cw {s u : State} (h : u.cw = s.cw) (off : Nat) : u.reg off = s.reg off := by
  unfold State.reg
  rw [h]

/-- A command already killed stays as it is for every cause but an abort and a re-bind. -/
theorem State.killCmd_again {s : State} {t : Nat} {c : Cmd} {k : Cause} (hc : s.cmd t = some c) (h : ¬ s.beyondKill c)
    (hst : c.st = .killed) (hk : k ≠ .streamAbort) (hr : k ≠ .rebind) (hs : ¬ (c.sheltered = true ∧ k.shelters = true)) :
    s.killCmd t k = s := by
  have alive : ¬ ((c.st.isOver || c.st == .irrevocable || s.get R.PWR_STS_SHUTDOWN == 1) = true) := by
    simpa [State.beyondKill, or_assoc] using h
  unfold State.killCmd
  rw [hc]
  dsimp only
  rw [if_neg alive, if_neg (by simpa using hs), if_neg hk, if_pos (by simpa using hst), if_neg (by simp [hr])]

/-! ## What a kill for a read clash leaves of the registers past the fabric's -/

section
variable {off : Nat} (h : 0x600000 ≤ off)
include h

theorem State.reg_sendOn (s : State) {n : Nat} (hn : n < 16) (c : Car) : (s.sendOn n c).reg off = s.reg off := by
  refine State.reg_put_other _ _ _ _ ?_
  change off ≠ 0x501010 + 0x20 * n
  omega

theorem State.reg_copies (s : State) (table : Nat) (c : Car) : (s.copies table c).reg off = s.reg off := by
  unfold State.copies
  extract_lets g far portOf sent none_
  have hsent : sent.reg off = s.reg off :=
    List.foldlRecOn (motive := fun u : State => u.reg off = s.reg off) _ _ rfl fun u hu n hn => by
      dsimp only
      split
      · exact hu
      · exact (State.reg_sendOn h u (List.mem_range.1 hn) _).trans hu
  split <;> exact hsent

theorem State.reg_route (s : State) (table : Nat) (c : Car) : (s.route table c).reg off = s.reg off := by
  unfold State.route
  split
  · rfl
  · split
    · rfl
    · split
      · refine (State.reg_copies h _ _ _).trans ?_
        split <;> rfl
      · split
        · split
          next hport => exact State.reg_sendOn h s (State.egress_lt hport) _
          next => rfl
        · rfl

theorem State.reg_sendCar (s : State) (kind cls dst ten space : Nat) (words : List Nat) (data : List Byte) :
    (s.sendCar kind cls dst ten space words data).reg off = s.reg off :=
  (State.reg_route h _ _ _).trans (State.reg_of_cw (s.number_cw _) off)

theorem State.reg_dropOps (s : State) (t : Nat) : (s.dropOps t).reg off = s.reg off := by
  unfold State.dropOps
  refine List.foldlRecOn (motive := fun u : State => u.reg off = s.reg off) _ _ rfl fun u hu p _ => ?_
  split
  · dsimp only
    split
    · exact (State.reg_sendCar h _ _ _ _ _ _ _ _).trans hu
    · exact hu
  · exact hu

theorem State.reg_discard (s : State) (t : Nat) : (s.discard t).reg off = s.reg off := by
  refine (State.reg_dropOps h _ t).trans ?_
  rw [s.returnLeases_spec]
  rfl

/-- A read clash raises no cause, so only what the kill sends on the fabric is counted. -/
theorem State.reg_killCmd_readClash (s : State) (t : Nat) : (s.killCmd t .readClash).reg off = s.reg off := by
  cases hc : s.cmd t with
  | none => rw [State.killCmd, hc]
  | some c =>
    by_cases beyond : s.beyondKill c
    · rw [State.killCmd_beyond hc beyond]
    by_cases sheltered : c.sheltered = true
    · rw [State.killCmd_sheltered hc sheltered rfl]
    have unsheltered : ¬ (c.sheltered = true ∧ Cause.readClash.shelters = true) := fun hs => sheltered hs.1
    by_cases killed : c.st = .killed
    · rw [State.killCmd_again hc beyond killed (by decide) (by decide) unsheltered]
    · rw [State.killCmd_kill hc beyond killed (by decide) unsheltered]
      exact State.reg_discard h s t

end

/-! ## The registers of an index -/

theorem R.SCN_IDX_SEQ_ne_SIDE (x : Nat) : R.SCN_IDX_SEQ x ≠ R.SCN_IDX_SIDE x := by
  unfold R.SCN_IDX_SEQ R.SCN_IDX_SIDE
  omega

theorem R.SCN_IDX_FLOOR_ne_SIDE (x : Nat) : R.SCN_IDX_FLOOR x ≠ R.SCN_IDX_SIDE x := by
  unfold R.SCN_IDX_FLOOR R.SCN_IDX_SIDE
  omega

theorem R.SCN_IDX_FLOOR_past (x : Nat) : 0x600000 ≤ R.SCN_IDX_FLOOR x := by
  unfold R.SCN_IDX_FLOOR
  omega

theorem R.SCN_IDX_SIDE_past (x : Nat) : 0x600000 ≤ R.SCN_IDX_SIDE x := by
  unfold R.SCN_IDX_SIDE
  omega

/-- A register apart from the side list's, set, leaves the list's length. -/
theorem State.sideLive_setReg (s : State) {off : Nat} (x v : Nat) (h : off ≠ R.SCN_IDX_SIDE x) :
    (s.setReg off v).get (R.SCN_IDX_SIDE_LIVE x) = s.get (R.SCN_IDX_SIDE_LIVE x) :=
  State.get_of_reg (by rw [State.reg_setReg]; exact if_neg h.symm)

/-! ## A fold -/

/-- A fold sets the floor and shortens the side list: its writes leave the registers, its kills those of the index. -/
theorem State.fold_registers (s : State) (t : Nat) (c : Cmd) (x f remove : Nat) :
    (s.fold t c x f remove).reg (R.SCN_IDX_FLOOR x) = Machine.word f ∧
    (s.fold t c x f remove).get (R.SCN_IDX_SIDE_LIVE x) = (s.get (R.SCN_IDX_SIDE_LIVE x) - remove) % 2 ^ 25 := by
  unfold State.fold
  extract_lets h us old new w written opened closed live headed ended
  have cwClosed : closed.cw = s.cw := by
    have twice (u : State) {k k' : Nat} {g g' : Page → Page} : ((u.modPage k g).modPage k' g').cw = u.cw := rfl
    have cwWritten : written.cw = s.cw := State.foldl_cw (fun u a => u.commitWrite_cw _ _) _ _
    have cwOpened : opened.cw = written.cw := State.foldl_cw (fun u _ => twice u) _ _
    exact (State.foldl_cw (fun u _ => twice u) _ _).trans (cwOpened.trans cwWritten)
  have liveClosed : live = s.get (R.SCN_IDX_SIDE_LIVE x) := State.get_of_reg (State.reg_of_cw cwClosed _)
  have kills {off : Nat} (hoff : 0x600000 ≤ off) :
      (ended.x.cmds.foldl (fun s p => if p.1 ≠ t ∧ p.2.probed x f then s.killCmd p.1 .readClash else s) ended).reg off =
        ended.reg off :=
    List.foldlRecOn (motive := fun u : State => u.reg off = ended.reg off) _ _ rfl fun u hu p _ => by
      split
      · exact (State.reg_killCmd_readClash hoff u p.1).trans hu
      · exact hu
  constructor
  · rw [kills (R.SCN_IDX_FLOOR_past x), State.reg_setReg, if_pos rfl]
  · rw [State.get_of_reg (kills (R.SCN_IDX_SIDE_past x)), State.sideLive_setReg _ _ _ (R.SCN_IDX_FLOOR_ne_SIDE x),
      State.get_put_same _ _ _ (by decide : 0 + 25 ≤ 64), liveClosed]
    rfl

/-! ## Entries appended -/

/-- The state after the entries of an insert or a delete stand past the live part of a side list, under a sequence value. -/
def State.appendSide (s : State) (x : Nat) (h : IdxHdr) (q live : Nat) (es : List (Nat × Nat × Bool × Nat × List Byte)) : State :=
  es.zipIdx.foldl (fun s e =>
    let a := s.sideAddr x h (live + e.2)
    s.commitWrite (key (s.idxTen x a) a) (sideBytes h q e.1)) s

theorem State.appendSide_cw (s : State) (x : Nat) (h : IdxHdr) (q live : Nat) (es : List (Nat × Nat × Bool × Nat × List Byte)) :
    (s.appendSide x h q live es).cw = s.cw :=
  State.foldl_cw (fun u _ => u.commitWrite_cw _ _) _ _

theorem State.appendSide_cmds (s : State) (x : Nat) (h : IdxHdr) (q live : Nat)
    (es : List (Nat × Nat × Bool × Nat × List Byte)) : (s.appendSide x h q live es).x.cmds = s.x.cmds :=
  List.foldlRecOn (motive := fun u : State => u.x.cmds = s.x.cmds) _ _ rfl fun u hu _ _ => (u.commitWrite_cmds _ _).trans hu

theorem State.appended_length (s : State) (c : Cmd) (h : IdxHdr) : (s.appended c h).length = bits (c.body 1) 6 13 := by
  simp [State.appended]

/-! ## The commit of each operation -/

section
variable (s : State) (t : Nat) {c : Cmd} {x seq live n : Nat} (hx : x = bits (c.body 1) 0 6) (hseq : seq = (s.reg (R.SCN_IDX_SEQ x)).toNat)
include hx hseq

theorem State.scanCommit_snap (hop : dOp c.words = 3) : s.scanCommit t c = (s, stDone, [seq, 0, 0, 0]) := by
  subst hx hseq
  unfold State.scanCommit
  simp only [hop]

variable (hlive : live = s.get (R.SCN_IDX_SIDE_LIVE x))
include hlive

theorem State.scanCommit_append (hop : dOp c.words = 4 ∨ dOp c.words = 5) (hn : n = bits (c.body 1) 6 13) :
    s.scanCommit t c =
      if (s.idx x).sideCap < live + n then (s, stSideFull, [])
      else (((s.setReg (R.SCN_IDX_SEQ x) (seq + 1)).appendSide x (s.idx x) seq live (s.appended c (s.idx x))).put
        (R.SCN_IDX_SIDE_LIVE x) (live + n), stDone, [seq, n, 0, 0]) := by
  rw [← s.appended_length c (s.idx x)] at hn
  subst hx hseq hlive hn
  unfold State.scanCommit
  rcases hop with hop | hop <;> simp only [hop] <;> rfl

theorem State.scanCommit_fold (hop : dOp c.words = 6) {cut : Nat} (hcut : cut = bits (c.body 2) 0 25) :
    s.scanCommit t c =
      if live < cut then (s, stCutRange, [])
      else ((s.setReg (R.SCN_IDX_SEQ x) (seq + 1)).fold t c x seq cut, stDone, [seq, bits (c.body 1) 6 17, cut, 0]) := by
  subst hx hseq hlive hcut
  unfold State.scanCommit
  simp only [hop]
  rfl

end

/-- Settles O38: a snapshot reads the sequence; appended entries leave the registers and a fold sets its own, so the index's registers after
each are those that its commit sets. -/
theorem scanOutcomesAtTheCommit : Obligations.ScanOutcomesAtTheCommit := by
  intro s t c x live seq n r
  refine ⟨fun hop => s.scanCommit_snap t rfl rfl hop, fun hop => ?_, fun hop => ?_⟩
  · have hr : r = _ := s.scanCommit_append t (x := x) (seq := seq) (live := live) (n := n) rfl rfl rfl hop rfl
    refine ⟨fun hfull => hr.trans (if_pos hfull), fun hfits => ?_⟩
    rw [if_neg (Nat.not_lt.2 hfits)] at hr
    rw [hr]
    refine ⟨rfl, ?_, fun hlong => ?_, State.appendSide_cmds _ _ _ _ _ _⟩
    · rw [State.reg_put_other _ _ _ _ (R.SCN_IDX_SEQ_ne_SIDE x), State.reg_of_cw (State.appendSide_cw _ _ _ _ _ _), State.reg_setReg,
        if_pos rfl, word_toNat]
    · exact (State.get_put_same _ _ _ (by decide : 0 + 25 ≤ 64)).trans (Nat.mod_eq_of_lt hlong)
  · intro cut
    have hr : r = _ := s.scanCommit_fold t (x := x) (seq := seq) (live := live) rfl rfl rfl hop (cut := cut) rfl
    refine ⟨fun hmore => hr.trans (if_pos hmore), fun hfits => ?_⟩
    rw [if_neg (Nat.not_lt.2 hfits)] at hr
    rw [hr]
    obtain ⟨hfloor, hlive⟩ := (s.setReg (R.SCN_IDX_SEQ x) (seq + 1)).fold_registers t c x seq cut
    refine ⟨rfl, ?_, ?_⟩
    · have seqLt : seq < 2 ^ 64 := (s.reg (R.SCN_IDX_SEQ x)).isLt
      rw [hfloor, word_toNat, Nat.mod_eq_of_lt seqLt]
    · have liveLt : live < 2 ^ 25 := s.get_lt _
      rw [hlive, s.sideLive_setReg x _ (R.SCN_IDX_SEQ_ne_SIDE x)]
      exact Nat.mod_eq_of_lt ((Nat.sub_le live cut).trans_lt liveLt)

end Sys2Proof.Machine
end

section
/-!
PROOFS. The agreement on a row's spliced passages (10 R269, R270): what it leaves of memory where no passage is agreed on, and the run list
that the packed row changes (14 R364).
-/

namespace Sys2Proof.Machine

/-! ## Where no passage is agreed on -/

/-- A commit that writes nothing takes a serial only. -/
theorem State.commitPeer_nil (s : State) : s.commitPeer [] = s.serialTaken := State.clash_nil _ _

theorem reused_zero (plan : List (Nat × Nat × Nat × Nat)) (b i : Nat) : reused plan b 0 i = [] := by
  simp [reused, splicedAt]

/-- With no passage agreed on, no page is taken and no block is placed: a serial is taken, and the request's key/value state is settled. -/
theorem State.placeSpliced_zero (s : State) (m : ModelSet) (k : Nat) (plan : List (Nat × Nat × Nat × Nat)) (b : Nat) :
    s.placeSpliced m k plan b 0 = { s with
      x := (s.placeSpliced m k plan b 0).x, sv := { s.sv with kv := (s.placeSpliced m k plan b 0).sv.kv } } := by
  have settled : s.placeSpliced m k plan b 0 = match s.kvOf k with
      | none => s
      | some q => s.serialTaken.setKv k { q with fetched := [], placed := true } := by
    unfold State.placeSpliced
    cases hk : s.kvOf k with
    | none => rfl
    | some q =>
      have hk' : s.serialTaken.kvOf k = some q := hk
      have noToks : (List.range plan.length).flatMap (fun i => (reused plan b 0 i).map fun t => (i, t)) = [] := by
        simp [List.flatMap_eq_nil_iff, reused_zero]
      have noRuns : (List.range s.ownLayers.length).flatMap (fun _ => ([] : List (Nat × List Byte))) = [] := by
        simp [List.flatMap_eq_nil_iff]
      simp [noToks, noRuns, foldl_const, State.commitPeer_nil, hk']
  rw [settled]
  split <;> rfl

/-! ## The run list -/

theorem R.SCH_TEN_RUNLIST_ne_STS (n : Nat) : R.SCH_TEN_RUNLIST n ≠ R.SCH_TEN_STS n := by
  unfold R.SCH_TEN_RUNLIST R.SCH_TEN_STS
  omega

/-- A tenancy that has named no place for its run list publishes its level in a register, and nothing in memory. -/
theorem State.publish_mem_of_no_runList {s : State} {ten : Nat} (h : (s.reg (R.SCH_TEN_RUNLIST ten)).toNat = 0) :
    (s.publish ten).mem = s.mem := by
  have apart : ∀ (u : State) (f : Field) (v : Nat), f.reg = R.SCH_TEN_STS ten →
      (u.put f v).reg (R.SCH_TEN_RUNLIST ten) = u.reg (R.SCH_TEN_RUNLIST ten) := fun u f v hf =>
    u.reg_put_other f v _ (hf ▸ R.SCH_TEN_RUNLIST_ne_STS ten)
  unfold State.publish
  dsimp only
  split
  · simp [apart _ (R.SCH_TEN_STS_LIVE_NONE ten) _ rfl, h]
  · simp [apart _ (R.SCH_TEN_STS_LIVE_NONE ten) _ rfl, apart _ (R.SCH_TEN_STS_LIVE_LEVEL ten) _ rfl, h]

/-! ## The agreement at the home -/

theorem State.setRow_spec (s : State) (h i : Nat) (f : Row → Row) :
    s.setRow h i f = { s with sv := { s.sv with batches := (s.setRow h i f).sv.batches } } := by
  unfold State.setRow
  split <;> rfl

section
variable {s : State} {h i : Nat} {b : Batch} {r : Row} {m : ModelSet} {tag : Nat} {stages masks : List Nat}

/-- The home's agreement on a row that waits for it: the blocks placed, the row packed, the tenancy's order published. -/
theorem execSpliceAgree_home (hrow : s.rowOf h i = some (b, r)) (hmodel : s.sv.model = some (m, tag)) (hlive : r.live = true)
    (hpacked : r.packed = false) (hplan : r.plan ≠ [])
    (hmasks : (((s.kvOf (kvKey s.ownAddr h i)).bind (·.mask)).toList ++ masks).length = s.stages.length)
    (hstages : stages = s.otherStages) {agreed : Nat}
    (hagreed : agreedMask r.plan.length (((s.kvOf (kvKey s.ownAddr h i)).bind (·.mask)).toList ++ masks) = agreed) :
    exec (.spliceAgree s.ownAddr h i b.ten stages masks) s =
      .next (((s.placeSpliced m (kvKey s.ownAddr h i) r.plan r.req.pack.b agreed).setRow h i fun r => agreeRow r agreed).publish b.ten) := by
  subst hagreed
  have waits : ¬ (b.ten ≠ b.ten ∨ r.live = false ∨ r.packed = true ∨ r.plan.isEmpty = true) := by simp [hlive, hpacked, hplan]
  have complete : ¬ ((((s.kvOf (kvKey s.ownAddr h i)).bind (·.mask)).toList ++ masks).length ≠ s.stages.length ∨
      stages ≠ s.otherStages) := by simp only [hmasks, hstages, ne_eq, not_true, or_self, not_false_eq_true]
  change execSpliceAgree s.ownAddr h i b.ten stages masks s = _
  unfold execSpliceAgree
  simp only [hmodel, hrow]
  rw [if_neg complete, if_pos trivial, if_neg waits]

/-- Where no passage is agreed on and the tenancy has no run list in memory, the agreement leaves memory alone. -/
theorem spliceAgree_home_mem_of_no_runList (hrow : s.rowOf h i = some (b, r)) (hmodel : s.sv.model = some (m, tag))
    (hlive : r.live = true) (hpacked : r.packed = false) (hplan : r.plan ≠ [])
    (hmasks : (((s.kvOf (kvKey s.ownAddr h i)).bind (·.mask)).toList ++ masks).length = s.stages.length)
    (hstages : stages = s.otherStages)
    (hnone : agreedMask r.plan.length (((s.kvOf (kvKey s.ownAddr h i)).bind (·.mask)).toList ++ masks) = 0)
    (hlist : (s.reg (R.SCH_TEN_RUNLIST b.ten)).toNat = 0) :
    ∃ u, exec (.spliceAgree s.ownAddr h i b.ten stages masks) s = .next u ∧ u.mem = s.mem := by
  refine ⟨_, execSpliceAgree_home hrow hmodel hlive hpacked hplan hmasks hstages hnone, ?_⟩
  rw [State.placeSpliced_zero, State.setRow_spec]
  exact State.publish_mem_of_no_runList hlist

end

/-! ## A run list that the agreement changes -/

/-- The shape of a model of one global layer. -/
def oneLayer : ModelShape := ⟨0, 1, 64, 2, 1, 1, [], 0, 0, 1, 1, 1000, 4096, 0, 0, false⟩

/-- A model set of it, all on one stage. -/
def oneStage : ModelSet where
  principal := oneLayer
  encoder := oneLayer
  ranker := oneLayer
  draft := oneLayer
  stages := [[0]]
  templates := []
  prefixes := []
  rerank := ([], [], [])
  ends := []
  tokAddr := 0
  e5m2 := false
  act := 0
  rotPairs := [(0, 1)]
  rotAddr := 0
  spliceIn := 1
  capEntries := 8
  buildTen := 0
  heatAddr := 2 ^ 20
  dirAddr := 2 ^ 24
  storeAddr := 2 ^ 26
  kvTables := 2 ^ 30
  kvPages := 2 ^ 31

/-- A request that permits splicing. -/
def splicingReq : Req where
  reqId := 7
  iset := 0
  ring := false
  pack := ⟨0, true, false, 16, 1, 1, 8192, 1⟩
  gen := ⟨0, true, 2, false, 1, 0, 0x3F800000, 0, 9, []⟩
  search := none
  stopIncl := false
  stopRepair := false
  stops := []
  gram := none
  ringBlk := none
  question := [65]

/-- Its row, which waits for the agreement on its one packed passage: passage 7, whole, 20 tokens from position 1. -/
def waitingRow : Row := { req := splicingReq, plan := [(7, 1, 20, 20)], strm := ⟨0, false, false, [], [], false⟩ }

/-- The batch of that row alone. -/
def waitingBatch : Batch where
  ten := 0
  id := 9
  qp := 3
  ver := 3
  level := 1
  ttft := 0
  tbt := 0
  port := 0
  stamp := 0
  order := 0
  rows := [waitingRow]
  msg := []

/-- A module that is its own pipeline and serves that batch under handle 0; its store has no entry of the passage, so that its mask is 0;
the run list of tenancy 0 stands at 4096. -/
def agreeingNone : State :=
  { cw := [(R.SCH_TEN_RUNLIST 0, Machine.word 4096)]
    sv := {
      batches := [(0, waitingBatch)], nextOrder := 1, model := some (oneStage, 77)
      kv := [(kvKey 0 0 0, { ten := 0, table := 0, plan := waitingRow.plan, b := 16, mask := some 0 })] } }

/-- The agreement packs the row, which makes its batch ready: the run list of 14 R364 is published, its VER of 1 first, where memory was
empty. -/
theorem spliceAgree_agreeingNone :
    ∃ u, exec (.spliceAgree agreeingNone.ownAddr 0 0 0 [] []) agreeingNone = .next u ∧ u.byte (key 0 4096) = 1 :=
  ⟨_, rfl, by decide +kernel⟩

/-- Refutes O45: the agreement of the home is to leave memory as it was where no passage is agreed on, but the row it packs can make its batch
ready, and the tenancy's run list in memory then changes (14 R364); with no run list named that clause holds
(`spliceAgree_home_mem_of_no_runList`). -/
theorem not_promptsArePackedAndSpliced : ¬ Obligations.PromptsArePackedAndSpliced := by
  intro holds
  obtain ⟨serves, -⟩ := holds
  obtain ⟨-, -, agrees⟩ := serves agreeingNone 0 0 waitingBatch waitingRow oneStage 77 rfl rfl rfl
  obtain ⟨-, agrees⟩ := agrees [] [] rfl (List.cons_ne_nil _ _)
  obtain ⟨u, -, -, hu, -, -, -, -, -, -, -, hmem⟩ := agrees (by decide +kernel) (by decide +kernel)
  obtain ⟨u', hu', hbyte⟩ := spliceAgree_agreeingNone
  obtain rfl : u = u' := by simpa using hu.symm.trans hu'
  have empty : u.byte (key 0 4096) = 0 := congrArg (memGet · (key 0 4096)) (hmem (by decide +kernel))
  exact absurd (hbyte.symm.trans empty) (by decide)

end Sys2Proof.Machine
end

section
/-!
PROOFS. Feeds of a text stream (11 R284 to R290): what becomes of the tokens' bytes, with and without a stop string that completes.
-/

namespace Sys2Proof.Machine

/-! ## Stop strings (11 R288) -/

/-- What an index of a stop string found says of the bytes: they end with that string. -/
def stopFound (stops : List (List Byte)) (bs : List Byte) (i : Nat) : Prop :=
  i < stops.length ∧ endsWith bs (nth stops i []) = true

theorem stopFound_of_mem_zipIdx {stops : List (List Byte)} {bs : List Byte} {p : List Byte × Nat} (hp : p ∈ stops.zipIdx)
    (hends : endsWith bs p.1 = true) : stopFound stops bs p.2 := by
  have hget : stops[p.2]? = some p.1 := List.mem_zipIdx_iff_getElem?.1 hp
  obtain ⟨hlt, -⟩ := List.getElem?_eq_some_iff.1 hget
  refine ⟨hlt, ?_⟩
  rw [nth, hget]
  exact hends

theorem stopFound_of_stopAt {stops : List (List Byte)} {bs : List Byte} {i : Nat} : stopAt stops bs = some i → stopFound stops bs i := by
  refine List.foldlRecOn (motive := fun found : Option Nat => found = some i → stopFound stops bs i) stops.zipIdx _
    (fun h => absurd h.symm (Option.some_ne_none i)) fun found hfound p hp h => ?_
  split at h
  case isFalse => exact hfound h
  case isTrue hends =>
    have here : some p.2 = some i → stopFound stops bs i := fun hi => Option.some.inj hi ▸ stopFound_of_mem_zipIdx hp hends
    split at h
    · split at h
      · exact here h
      · exact hfound h
    · exact here h

/-! ## Bytes and tokens fed until a stop string completes (11 R286, R289) -/

theorem feedBytes_none {stops : List (List Byte)} {acc bs a : List Byte} (h : feedBytes stops acc bs = (a, none)) : a = acc ++ bs := by
  induction bs generalizing acc with
  | nil => simpa [feedBytes] using h.symm
  | cons b bs ih =>
    rw [feedBytes] at h
    split at h
    · simp at h
    · simpa using ih h

theorem feedBytes_some {stops : List (List Byte)} {acc bs a : List Byte} {i : Nat} (h : feedBytes stops acc bs = (a, some i)) :
    stopFound stops a i := by
  induction bs generalizing acc with
  | nil => simp [feedBytes] at h
  | cons b bs ih =>
    rw [feedBytes] at h
    split at h
    · rename_i j hj
      obtain ⟨rfl, rfl⟩ : acc ++ [b] = a ∧ j = i := by simpa using h
      exact stopFound_of_stopAt hj
    · exact ih h

section
variable {s : State} {k : Tok} {stops : List (List Byte)} {acc a : List Byte} {n m i : Nat} {ts : List Nat}

theorem State.feedTokens_none (h : s.feedTokens k stops acc n ts = (a, m, none)) :
    a = acc ++ ts.flatMap (s.vocabBytes k) ∧ m = n + ts.length := by
  induction ts generalizing acc n with
  | nil =>
    obtain ⟨rfl, rfl⟩ : acc = a ∧ n = m := by simpa [State.feedTokens] using h
    simp
  | cons t ts ih =>
    rw [State.feedTokens] at h
    split at h
    · simp at h
    · rename_i hbytes
      obtain ⟨rfl, rfl⟩ := ih h
      rw [feedBytes_none hbytes, List.flatMap_cons, List.append_assoc, List.length_cons]
      exact ⟨rfl, by omega⟩

theorem State.feedTokens_some (h : s.feedTokens k stops acc n ts = (a, m, some i)) : stopFound stops a i := by
  induction ts generalizing acc n with
  | nil => simp [State.feedTokens] at h
  | cons t ts ih =>
    rw [State.feedTokens] at h
    split at h
    · rename_i j hbytes
      obtain ⟨rfl, -, rfl⟩ : _ = a ∧ n + 1 = m ∧ j = i := by simpa using h
      exact feedBytes_some hbytes
    · exact ih h

end

/-! ## A feed on a stream (11 R286 to R290) -/

/-- Without REPAIR, bytes are released as they are. -/
theorem Strm.out_unrepaired {v : Strm} (h : v.repair = false) (bs : List Byte) : v.out bs = bs :=
  if_neg (ne_true_of_eq_false h)

section
variable {s : State} {v : Strm} {ts : List Nat} {bs : List Byte} {n : Nat}

theorem State.feed_unstopped (h : s.feedTokens s.tok v.stops v.held 0 ts = (bs, n, none)) :
    s.feed v ts = (v.out (bs.take (bs.length - heldTail v.stops bs)),
      { v with held := bs.drop (bs.length - heldTail v.stops bs) }, n, none) := by
  rw [State.feed, h]

theorem State.feed_stopped {i : Nat} (h : s.feedTokens s.tok v.stops v.held 0 ts = (bs, n, some i)) :
    s.feed v ts = (v.out (if v.incl then bs else bs.take (bs.length - (nth v.stops i []).length)),
      { v with held := [], stopped := true }, n, some i) := by
  rw [State.feed, h]

end

/-- Settles O40: the bytes fed are those held and then the tokens', up to the stop string that completes, if one does. -/
theorem feedLosesNoByte : Obligations.FeedLosesNoByte := by
  intro s v ts hplain
  rcases hfed : s.feedTokens s.tok v.stops v.held 0 ts with ⟨bs, n, stop⟩
  cases stop with
  | none =>
    obtain ⟨rfl, rfl⟩ := State.feedTokens_none hfed
    rw [State.feed_unstopped hfed, Strm.out_unrepaired hplain]
    exact ⟨fun _ => ⟨List.take_append_drop _ _, Nat.zero_add _, rfl⟩, fun _ h => (nomatch h), rfl, rfl⟩
  | some i =>
    obtain ⟨hlt, hends⟩ := State.feedTokens_some hfed
    rw [State.feed_stopped hfed, Strm.out_unrepaired hplain]
    refine ⟨fun h => (nomatch h), fun j hj => ?_, rfl, rfl⟩
    obtain rfl : i = j := Option.some.inj hj
    exact ⟨hlt, rfl, rfl, fun hincl => by rw [if_pos hincl]; exact hends⟩

end Sys2Proof.Machine
end

section
/-!
PROOFS. The text commands (11 R279 to R291): the branches of their rows.
-/

namespace Sys2Proof.Machine
open Sys2Proof.Claims

section
variable {s : State} {t : Nat} {c : Cmd} {status : Nat}

/-! ## What accesses come to depends on the pages alone (07 Table 7.3) -/

theorem access_of_reach {a : Accessor} {rds wrs : List (Nat × Nat)} (hr : reach s a c rds wrs) : s.access a c.ten rds wrs = .ok := by
  obtain ⟨-, hacc, -⟩ := hr
  exact hacc

section
variable {u : State} (h : u.vm = s.vm)
include h

theorem State.pageOf_of_vm : u.pageOf = s.pageOf := by
  funext ten va
  simp only [State.pageOf, State.page, h]

/-- By `delta`: to check the equation that `unfold` goes by, the kernel would count down from the bytes of a page. -/
theorem State.reachPage_of_vm : u.reachPage = s.reachPage := by
  delta State.reachPage
  rw [State.pageOf_of_vm h]

theorem State.pkOf_of_vm : u.pkOf = s.pkOf := by
  delta State.pkOf
  rw [State.pageOf_of_vm h]

theorem State.poisonIn_of_vm : u.poisonIn = s.poisonIn := by
  delta State.poisonIn
  rw [State.pageOf_of_vm h]

theorem State.access_of_vm : u.access = s.access := by
  delta State.access
  rw [State.reachPage_of_vm h, State.pkOf_of_vm h, State.poisonIn_of_vm h]

theorem State.toFetch_of_vm : u.toFetch = s.toFetch := by
  delta State.toFetch State.poolParts
  rw [State.pageOf_of_vm h]

end

/-! ## Streams by their number (11 R291, Table 11.4) -/

theorem State.streamOf_none {n ten : Nat} (h : tfind s.tx.streams n = none) : s.streamOf n ten = .error 0x42 := by
  rw [State.streamOf, h]

theorem State.streamOf_foreign {n ten : Nat} {v : Strm} (h : tfind s.tx.streams n = some v) (hten : v.ten ≠ ten) :
    s.streamOf n ten = .error 0x43 := by
  rw [State.streamOf, h]
  exact if_pos hten

theorem State.streamOf_own {n ten : Nat} {v : Strm} (h : tfind s.tx.streams n = some v) (hten : v.ten = ten) :
    s.streamOf n ten = .ok v := by
  rw [State.streamOf, h]
  exact if_neg (not_not.2 hten)

/-! ## txt.tok (11 R279 to R283, Table 11.3) -/

/-- A field read and tokenised: its LENGTH and its limit in their order, then its token array. -/
def State.tokPlan (s : State) (c : Cmd) : Plan :=
  let src := (c.body 0, bits (c.body 1) 0 24)
  let r := s.encode (s.vrun c.ten src.1 src.2)
  let cut := if r.2.2.2 then 1 else 0
  let work := [workFx R.TXT_FALLBACK_FALLBACK r.2.2.1, workFx R.TXT_FALLBACK_TRUNCATED cut]
  if beatCap < 512 + 4 * r.2.1 then .refuseRead [src] stLength
  else if bits (c.body 3) 0 19 < r.1.length then .go [src] [] ⟨0x40, [], work⟩
  else .go [src] [(c.body 2, 4 * r.1.length)] ⟨stDone, [r.1.length, r.2.1, r.2.2.1, cut],
    [.write (key c.ten (c.body 2)) (tokenBytes r.1), countFx R.TXT_BYTES_BYTES r.2.1, countFx R.TXT_TOKENS_TOKENS r.1.length] ++ work⟩

theorem txtTok_refuses (hw : atWork s t 5 1 c) (hbad : c.body 2 % 4 ≠ 0) : exec (.txtTok t) s = refusal s t c stBadField :=
  refusal_of_refuse hw (if_pos hbad)

theorem txtTok_made {rds wrs : List (Nat × Nat)} {d : Done} (hw : atWork s t 5 1 c) (hok : c.body 2 % 4 = 0)
    (hread : reach s .unit c [(c.body 0, bits (c.body 1) 0 24)] []) (hp : s.tokPlan c = .go rds wrs d) (hr : reach s .unit c rds wrs) :
    made s t c d (exec (.txtTok t) s) :=
  made_of_go hw ((if_neg (not_not.2 hok)).trans (by rw [access_of_reach hread]; exact hp)) hr

/-! ## txt.open (11 R291) -/

section
variable (hw : atWork s t 5 2 c)
include hw

theorem txtOpen_refuses (hbad : 16 < bits (c.body 0) 14 5 ∨ c.body 1 % 8 ≠ 0) : exec (.txtOpen t) s = refusal s t c stBadField :=
  refusal_of_refuse hw (if_pos hbad)

variable (hok : ¬ (16 < bits (c.body 0) 14 5 ∨ c.body 1 % 8 ≠ 0))
include hok

theorem txtOpen_twice (hopen : (tfind s.tx.streams (bits (c.body 0) 0 12)).isSome = true) : exec (.txtOpen t) s = refusal s t c 0x41 :=
  refusal_of_refuse hw ((if_neg hok).trans (if_pos hopen))

variable (hfree : tfind s.tx.streams (bits (c.body 0) 0 12) = none) (hread : reach s .unit c [(c.body 1, 72 * bits (c.body 0) 14 5)] [])
include hfree hread

theorem txtOpen_badStops (hstops : s.stopStrings c.ten (c.body 1) (bits (c.body 0) 14 5) = none) :
    refusedRead s t c stBadField (exec (.txtOpen t) s) :=
  made_of_go hw ((if_neg hok).trans ((if_neg (by simp [hfree])).trans (by rw [access_of_reach hread, hstops]; rfl))) hread

theorem txtOpen_opens {l : List (List Byte)} (hstops : s.stopStrings c.ten (c.body 1) (bits (c.body 0) 14 5) = some l) :
    made s t c ⟨stDone, [bits (c.body 0) 0 12, bits (c.body 0) 14 5, 0, 0],
      [.stream (bits (c.body 0) 0 12) (some ⟨c.ten, (c.body 0).testBit 12, (c.body 0).testBit 13, l, [], false⟩)]⟩
      (exec (.txtOpen t) s) :=
  made_of_go hw ((if_neg hok).trans ((if_neg (by simp [hfree])).trans (by rw [access_of_reach hread, hstops]))) hread

end

/-! ## txt.feed (11 R286 to R291) -/

/-- A feed on a stream with tokens that it has read: their range and the room for the released bytes, then what it releases. -/
def State.fedPlan (s : State) (c : Cmd) (v : Strm) (ts : List Nat) : Plan :=
  let src := (c.body 1, 4 * bits (c.body 0) 12 7)
  let f := s.feed v ts
  if ts.any fun x => decide (s.tok.vocab ≤ x) then .refuseRead [src] stBadField
  else if c.body 3 < f.1.length then .refuseRead [src] 0x45
  else .go [src] [(c.body 2, f.1.length)]
    ⟨stDone, [f.1.length, f.2.2.1, (match f.2.2.2 with | some i => 1 + i * 2 ^ 8 | none => 0), f.2.1.held.length],
      [.write (key c.ten (c.body 2)) f.1, .stream (bits (c.body 0) 0 12) (some f.2.1),
        countFx R.TXT_STOPS_STOPS (if f.2.2.2.isSome then 1 else 0)]⟩

/-- A feed's plan: its count, its stream's refusals in their order, then what it does with its tokens. -/
def State.feedPlan (s : State) (c : Cmd) : Plan :=
  let k := bits (c.body 0) 12 7
  let src := (c.body 1, 4 * k)
  if k = 0 ∨ 64 < k then .refuse stBadField
  else match s.streamOf (bits (c.body 0) 0 12) c.ten with
  | .error e => .refuse e
  | .ok v =>
    if v.stopped then .refuse 0x44
    else match s.access .unit c.ten [src] [] with
      | .ok => s.fedPlan c v (s.tokensAt c.ten src.1 k)
      | _ => .reach [] [src] [(c.body 2, c.body 3)]

/-- A feed at work counts itself (R290) and then does what its plan says. -/
theorem exec_txtFeed (hw : atWork s t 5 3 c) :
    exec (.txtFeed t) s = (s.bump R.TXT_STOPS_FEEDS 1).opRow t 5 3 .unit s.feedPlan := by
  obtain ⟨hc, hst, hdone, hcls, hop, -⟩ := hw
  change execTxtFeed t s = _
  unfold execTxtFeed
  simp only [hc]
  rw [if_pos (decide_eq_true ⟨hst, hdone, hcls, hop⟩)]
  rfl

theorem atWork_bump {cls op : Nat} (hw : atWork s t cls op c) (f : Field) (n : Nat) : atWork (s.bump f n) t cls op c := hw

theorem reach_bump {a : Accessor} {rds wrs : List (Nat × Nat)} (hr : reach s a c rds wrs) (f : Field) (n : Nat) :
    reach (s.bump f n) a c rds wrs := by
  obtain ⟨hclock, hacc, hnear⟩ := hr
  refine ⟨hclock, ?_, ?_⟩
  · rw [State.access_of_vm (s.bump_vm f n)]
    exact hacc
  · rw [near, State.toFetch_of_vm (s.bump_vm f n)]
    exact hnear

section
variable (hw : atWork s t 5 3 c)
include hw

theorem txtFeed_refuses (hp : s.feedPlan c = .refuse status) :
    exec (.txtFeed t) s = refusal (s.bump R.TXT_STOPS_FEEDS 1) t c status :=
  (exec_txtFeed hw).trans (refusal_of_refuse (atWork_bump hw _ _) hp)

theorem txtFeed_made {rds wrs : List (Nat × Nat)} {d : Done} (hp : s.feedPlan c = .go rds wrs d) (hr : reach s .unit c rds wrs) :
    made (s.bump R.TXT_STOPS_FEEDS 1) t c d (exec (.txtFeed t) s) := by
  rw [exec_txtFeed hw]
  exact made_of_go (atWork_bump hw _ _) hp (reach_bump hr _ _)

end

section
variable (hk : ¬ (bits (c.body 0) 12 7 = 0 ∨ 64 < bits (c.body 0) 12 7))
include hk

theorem State.feedPlan_error (h : s.streamOf (bits (c.body 0) 0 12) c.ten = .error status) : s.feedPlan c = .refuse status :=
  (if_neg hk).trans (by rw [h])

variable {v : Strm} (hv : s.streamOf (bits (c.body 0) 0 12) c.ten = .ok v)
include hv

theorem State.feedPlan_stopped (hstop : v.stopped = true) : s.feedPlan c = .refuse 0x44 :=
  (if_neg hk).trans (by rw [hv]; exact if_pos hstop)

theorem State.feedPlan_goes (hgoes : v.stopped = false) (hread : reach s .unit c [(c.body 1, 4 * bits (c.body 0) 12 7)] []) :
    s.feedPlan c = s.fedPlan c v (s.tokensAt c.ten (c.body 1) (bits (c.body 0) 12 7)) :=
  (if_neg hk).trans (by rw [hv]; exact (if_neg (ne_true_of_eq_false hgoes)).trans (by rw [access_of_reach hread]))

end

section
variable {v : Strm} {ts : List Nat}

theorem State.fedPlan_badToken (h : ∃ x, x ∈ ts ∧ s.tok.vocab ≤ x) :
    s.fedPlan c v ts = .refuseRead [(c.body 1, 4 * bits (c.body 0) 12 7)] stBadField :=
  if_pos (by simpa using h)

variable (hts : ∀ x, x ∈ ts → x < s.tok.vocab)
include hts

theorem State.fedPlan_noRoom (h : c.body 3 < (s.feed v ts).1.length) :
    s.fedPlan c v ts = .refuseRead [(c.body 1, 4 * bits (c.body 0) 12 7)] 0x45 :=
  (if_neg (by simpa using hts)).trans (if_pos h)

/-- A feed that releases its bytes, and replaces its stream. -/
theorem State.fedPlan_releases (h : (s.feed v ts).1.length ≤ c.body 3) :
    ∃ d, s.fedPlan c v ts = .go [(c.body 1, 4 * bits (c.body 0) 12 7)] [(c.body 2, (s.feed v ts).1.length)] d ∧ d.status = 0 ∧
      d.res = [(s.feed v ts).1.length, (s.feed v ts).2.2.1,
        (match (s.feed v ts).2.2.2 with | some i => 1 + i * 2 ^ 8 | none => 0), (s.feed v ts).2.1.held.length] ∧
      d.effs.take 2 = [.write (key c.ten (c.body 2)) (s.feed v ts).1, .stream (bits (c.body 0) 0 12) (some (s.feed v ts).2.1)] :=
  ⟨_, (if_neg (by simpa using hts)).trans (if_neg h.not_gt), rfl, rfl, rfl⟩

end

/-! ## txt.close (11 R291) -/

section
variable (hw : atWork s t 5 4 c)
include hw

theorem txtClose_refuses (h : s.streamOf (bits (c.body 0) 0 12) c.ten = .error status) : exec (.txtClose t) s = refusal s t c status :=
  refusal_of_refuse hw (by dsimp only; rw [h])

variable {v : Strm} {out : List Byte} (h : s.streamOf (bits (c.body 0) 0 12) c.ten = .ok v)
  (hout : (if v.stopped then [] else v.out v.held) = out)
include h hout

theorem txtClose_noRoom (hlong : c.body 2 < out.length) : exec (.txtClose t) s = refusal s t c 0x45 :=
  refusal_of_refuse hw (by subst hout; dsimp only; rw [h]; exact if_pos hlong)

theorem txtClose_closes (hfits : out.length ≤ c.body 2) (hr : reach s .unit c [] [(c.body 1, out.length)]) :
    made s t c ⟨stDone, [out.length, 0, 0, 0], [.write (key c.ten (c.body 1)) out, .stream (bits (c.body 0) 0 12) none]⟩
      (exec (.txtClose t) s) :=
  made_of_go hw (by subst hout; dsimp only; rw [h]; exact if_neg hfits.not_gt) hr

end
end

/-- Settles O39: the branches of the rows' plans, in the frame of every operation. -/
theorem textCommandsMakeTheirEffectsReady : Obligations.TextCommandsMakeTheirEffectsReady := by
  refine fun s t c => ⟨fun hw => ?tok, fun hw => ?open_, fun hw => ?feed, fun hw => ?close⟩
  case tok =>
    refine ⟨txtTok_refuses hw, fun hok hread hlong => txtTok_made hw hok hread (if_pos hlong) hread, fun hok hread hlen => ?_⟩
    have hlen := Nat.not_lt.2 hlen
    exact ⟨fun hover => txtTok_made hw hok hread ((if_neg hlen).trans (if_pos hover)) hread,
      fun hfits hr => ⟨_, txtTok_made hw hok hread ((if_neg hlen).trans (if_neg hfits.not_gt)) hr, rfl, rfl, rfl⟩⟩
  case open_ =>
    refine ⟨txtOpen_refuses hw, fun hn ha => txtOpen_twice hw (by omega), fun hn ha hfree hread => ?_⟩
    exact ⟨txtOpen_badStops hw (by omega) hfree hread, fun l => txtOpen_opens hw (by omega) hfree hread⟩
  case feed =>
    refine ⟨fun hbad => txtFeed_refuses hw (if_pos hbad), fun hone hmost => ?_⟩
    have hk : ¬ (bits (c.body 0) 12 7 = 0 ∨ 64 < bits (c.body 0) 12 7) := by omega
    refine ⟨fun hnone => txtFeed_refuses hw (State.feedPlan_error hk (State.streamOf_none hnone)), fun v hv => ?_⟩
    refine ⟨fun hten => txtFeed_refuses hw (State.feedPlan_error hk (State.streamOf_foreign hv hten)), fun hten hstop => ?_,
      fun hten hgoes hread hbad => ?_, fun hten hgoes hread hts => ?_⟩
    all_goals have hown := State.streamOf_own hv hten
    · exact txtFeed_refuses hw (State.feedPlan_stopped hk hown hstop)
    · exact txtFeed_made hw ((State.feedPlan_goes hk hown hgoes hread).trans (State.fedPlan_badToken hbad)) hread
    · have hplan := State.feedPlan_goes hk hown hgoes hread
      refine ⟨fun hlong => txtFeed_made hw (hplan.trans (State.fedPlan_noRoom hts hlong)) hread, fun hfits hr => ?_⟩
      obtain ⟨d, hfed, hstatus, hres, heffs⟩ := State.fedPlan_releases hts hfits
      exact ⟨d, txtFeed_made hw (hplan.trans hfed) hr, hstatus, hres, heffs⟩
  case close =>
    refine ⟨fun hnone => txtClose_refuses hw (State.streamOf_none hnone), fun v hv hten => ?_⟩
    have hown := State.streamOf_own hv hten
    exact ⟨txtClose_noRoom hw hown rfl, txtClose_closes hw hown rfl⟩

end Sys2Proof.Machine
end

section
/-!
PROOFS. Writes that the module commits itself (02 R19 to R22): what their serial, their bytes and the kills of their readers leave.
-/

namespace Sys2Proof.Machine

/-! ## Kills by a commit's writes -/

/-- Whatever the kills for a read clash and the kills of moves keep, a commit's writes keep. -/
theorem State.clash_induction {P : State → Prop} (cmd : ∀ (u : State) (t : Nat), P u → P (u.killCmd t .readClash))
    (turns : ∀ (u : State) (c i : Nat), P u → P (u.killTurns c i .readClash))
    (move : ∀ (u : State) (id : Nat), P u → P (u.killMove id)) {s : State} (hs : P s) (who : Ref) (gs : List Nat) :
    P (s.clash who gs) := by
  unfold State.clash
  dsimp only
  refine List.foldlRecOn _ _ (List.foldlRecOn _ _ (List.foldlRecOn _ _ hs fun u hu p _ => ?_) fun u hu p _ => ?_) fun u hu p _ => ?_
  · split
    · exact cmd u _ hu
    · exact hu
  · split
    · exact hu
    · split
      · exact turns u _ _ hu
      · exact hu
  · exact iteInduction (motive := P) (fun _ => move u _ hu) fun _ => hu

/-- Whether a state serves as another does, at the same serial, with the bytes below the scratch banks as they were. -/
structure State.sparesServing (s u : State) : Prop where
  sv : u.sv = s.sv
  serial : u.x.serial = s.x.serial
  bytes : memWf s.mem = true → memWf u.mem = true ∧ ∀ a, a < key 128 0 → u.byte a = s.byte a

theorem State.sparesServing_refl (s : State) : s.sparesServing s := ⟨rfl, rfl, fun hm => ⟨hm, fun _ _ => rfl⟩⟩

theorem State.sparesServing_trans {s u v : State} (h : s.sparesServing u) (h' : u.sparesServing v) : s.sparesServing v where
  sv := h'.sv.trans h.sv
  serial := h'.serial.trans h.serial
  bytes hm :=
    have ⟨hu, same⟩ := h.bytes hm
    have ⟨hv, same'⟩ := h'.bytes hu
    ⟨hv, fun a ha => (same' a ha).trans (same a ha)⟩

theorem State.sparesServing_of_eq {s u : State} (hsv : u.sv = s.sv) (hx : u.x.serial = s.x.serial) (hm : u.mem = s.mem) :
    s.sparesServing u :=
  ⟨hsv, hx, fun h => ⟨hm.symm ▸ h, fun a _ => congrArg (memGet · a) hm⟩⟩

theorem State.sparesServing_killCmd (s : State) (t : Nat) (k : Cause) : s.sparesServing (s.killCmd t k) := by
  have lost (m : Cmd) : s.sparesServing ((s.discard t).setCmd t m) := by
    rw [s.discard_spec t]
    exact State.sparesServing_of_eq rfl rfl rfl
  rcases s.killCmd_cases t k with e | ⟨m, e⟩ | ⟨m, e⟩
  · rw [e]
    exact s.sparesServing_refl
  · rw [e]
    exact State.sparesServing_of_eq rfl rfl rfl
  · rw [e]
    exact State.sparesServing_trans (lost m) (State.sparesServing_of_eq rfl rfl rfl)

theorem State.killTurns_sv (s : State) (c i : Nat) (k : Cause) : (s.killTurns c i k).sv = s.sv := by
  cases h : (s.core c).turns[i]? with
  | none => rw [State.killTurns_beyond h]
  | some tn =>
    cases hw : ((s.core c).shelters tn.num && k.shelters) || s.get R.PWR_STS_SHUTDOWN == 1 with
    | true => rw [State.killTurns_withheld h hw]
    | false =>
      rw [State.killTurns_lost h hw]
      change (s.withoutTurns c i tn k).sv = s.sv
      rw [s.withoutTurns_spec]

theorem State.sparesServing_killTurns (s : State) (c i : Nat) (k : Cause) : s.sparesServing (s.killTurns c i k) :=
  have spared := s.spares_killTurns (t := 0) (at_ := (· < key 128 0)) (fun _ ha => ha) c i k
  ⟨s.killTurns_sv c i k, spared.serial, spared.bytes⟩

/-- The readers that a commit kills change neither what is served, nor the serial, nor bytes below the scratch banks. -/
theorem State.sparesServing_clash (s : State) (who : Ref) (gs : List Nat) : s.sparesServing (s.clash who gs) :=
  State.clash_induction (P := s.sparesServing) (fun u t hu => State.sparesServing_trans hu (u.sparesServing_killCmd t _))
    (fun u c i hu => State.sparesServing_trans hu (u.sparesServing_killTurns c i _))
    (fun _ _ hu => State.sparesServing_trans hu (State.sparesServing_of_eq rfl rfl rfl)) s.sparesServing_refl who gs

/-! ## Writes committed by the module itself -/

theorem State.commitWrites_spec (s : State) (ws : List (Nat × List Byte)) : s.commitWrites ws =
    { s with mem := (ws.foldl (fun (u : State) w => u.writeRun w.1 w.2) s).mem, vm := (s.commitWrites ws).vm,
             x := { s.x with copybacks := (s.commitWrites ws).x.copybacks } } := by
  unfold State.commitWrites
  dsimp only
  rw [State.clearPoison_spec, State.foldl_writeRun_spec]

theorem State.commitPeer_sv (s : State) (ws : List (Nat × List Byte)) : (s.commitPeer ws).sv = s.sv := by
  unfold State.commitPeer
  rw [(State.sparesServing_clash _ _ _).sv, State.commitWrites_spec]

theorem State.commitPeer_serial (s : State) (ws : List (Nat × List Byte)) : (s.commitPeer ws).x.serial = s.x.serial + 1 := by
  unfold State.commitPeer
  rw [(State.sparesServing_clash _ _ _).serial, State.commitWrites_spec]

/-- A run reads alike where its bytes do. -/
theorem State.run_congr {s u : State} {k n : Nat} (h : ∀ a, k ≤ a → a < k + n → u.byte a = s.byte a) : u.run k n = s.run k n := by
  refine List.ext_getElem? fun i => ?_
  rcases Nat.lt_or_ge i n with hi | hi
  · rw [State.run, State.run, State.run_getElem _ _ _ _ hi, State.run_getElem _ _ _ _ hi]
    exact congrArg some (h (k + i) (by omega) (by omega))
  · have past (v : State) : (v.run k n)[i]? = none := List.getElem?_eq_none ((length_memRun _ _ _).trans_le hi)
    rw [past, past]

/-- One run committed below the scratch banks reads back, whatever readers its commit kills. -/
theorem State.run_commitPeer {s : State} (hm : memWf s.mem = true) {k : Nat} {bs : List Byte} (hk : k + bs.length ≤ key 128 0) :
    (s.commitPeer [(k, bs)]).run k bs.length = bs := by
  have written : (s.serialTaken.commitWrites [(k, bs)]).mem = (s.writeRun k bs).mem := by
    rw [State.commitWrites_spec]
    rfl
  have spared := State.sparesServing_clash (s.serialTaken.commitWrites [(k, bs)])
    (.move (s.serialTaken.commitWrites [(k, bs)]).vm.nextMove) (([(k, bs)].flatMap fun w => granulesIn w.1 w.2.length).foldl addNew [])
  obtain ⟨-, same⟩ := spared.bytes (written ▸ State.writeRun_wf hm k bs)
  calc (s.commitPeer [(k, bs)]).run k bs.length
      = (s.serialTaken.commitWrites [(k, bs)]).run k bs.length := State.run_congr fun a _ ha => same a (by omega)
    _ = (s.writeRun k bs).run k bs.length := congrArg (memRun · k bs.length) written
    _ = bs := State.run_writeRun hm k bs

end Sys2Proof.Machine
end

section
/-!
PROOFS. The feed of a batch (13 R321, R324), a row's proposals (R340) and its decision (R325, R332, R341).
-/

namespace Sys2Proof.Machine

/-! ## Rows changed one after another -/

section
variable {α β : Type} {g : β → Nat} {f : β → α → α} {l : List β}

theorem getElem?_foldl_modify_of_forall_ne {i : Nat} (h : ∀ e ∈ l, g e ≠ i) (rs : List α) :
    (l.foldl (fun rs e => rs.modify (g e) (f e)) rs)[i]? = rs[i]? :=
  List.foldlRecOn (motive := fun u : List α => u[i]? = rs[i]?) l _ rfl fun _ hu e he =>
    (List.getElem?_modify_ne _ _ (h e he)).trans hu

/-- Where the places are distinct, each is changed once. -/
theorem getElem?_foldl_modify_of_mem (hl : (l.map g).Nodup) {e : β} (he : e ∈ l) (rs : List α) :
    (l.foldl (fun rs e => rs.modify (g e) (f e)) rs)[g e]? = rs[g e]?.map (f e) := by
  induction l generalizing rs with
  | nil => cases he
  | cons d l ih =>
    obtain ⟨hd, hl⟩ := List.nodup_cons.1 hl
    have apart : ∀ c ∈ l, g c ≠ g d := fun c hc heq => hd (heq ▸ List.mem_map_of_mem hc)
    rcases List.mem_cons.1 he with rfl | he
    · exact (getElem?_foldl_modify_of_forall_ne apart _).trans (List.getElem?_modify_eq _ _ _)
    · exact (ih hl he _).trans (congrArg (Option.map (f e)) (List.getElem?_modify_ne _ _ (apart e he).symm))

theorem Batch.foldl_modRow (g : β → Nat) (f : β → Row → Row) (l : List β) (b : Batch) :
    l.foldl (fun b e => b.modRow (g e) (f e)) b = { b with rows := l.foldl (fun rs e => rs.modify (g e) (f e)) b.rows } := by
  induction l generalizing b with
  | nil => rfl
  | cons e l ih => exact ih _

end

theorem Batch.numbered_snd_nodup (b : Batch) : (b.numbered.map (·.2)).Nodup := by
  rw [Batch.numbered, List.zipIdx_map_snd]
  exact List.nodup_range'

theorem Batch.mem_numbered {b : Batch} {r : Row} {i : Nat} : (r, i) ∈ b.numbered ↔ b.rows[i]? = some r :=
  List.mk_mem_zipIdx_iff_getElem?

theorem Batch.liveRows_nodup (b : Batch) : b.liveRows.Nodup :=
  b.numbered_snd_nodup.sublist (List.filter_sublist.map _)

theorem Batch.mem_liveRows {b : Batch} {i : Nat} {r : Row} (hr : b.rows[i]? = some r) : i ∈ b.liveRows ↔ r.live = true := by
  simp only [Batch.liveRows, List.mem_map, List.mem_filter, Prod.exists, exists_eq_right, Batch.mem_numbered, hr, Option.some.injEq]
  exact ⟨fun ⟨_, h, hl⟩ => h ▸ hl, fun hl => ⟨r, rfl, hl⟩⟩

/-! ## Batches by their handles -/

theorem tset_found {α : Type} {t : Tab α} {i : Nat} {x : α} (h : tfind t i = some x) : tset t i x = t := by
  induction t with
  | nil => simp [tfind] at h
  | cons p t ih =>
    obtain ⟨k, v⟩ := p
    unfold tfind at h
    unfold tset
    split at h
    case isTrue hk => rw [if_pos hk, hk, Option.some.inj h]
    case isFalse hk =>
      split at h
      case isTrue => cases h
      case isFalse hlt => rw [if_neg hk, if_neg hlt, ih h]

@[simp] theorem State.batch_setBatch (s : State) (h k : Nat) (b : Batch) :
    (s.setBatch h b).batch k = if k = h then some b else s.batch k := tfind_tset _ _ _ _

section
variable {s : State} {h i : Nat} {b : Batch} {r : Row} (hb : s.batch h = some b)
include hb

theorem State.setBatch_found : s.setBatch h b = s := by
  rw [State.setBatch, tset_found hb]

theorem State.rowOf_found (hr : b.rows[i]? = some r) : s.rowOf h i = some (b, r) := by
  rw [State.rowOf, hb]
  dsimp only
  rw [hr]
  rfl

theorem State.setRow_found (f : Row → Row) : s.setRow h i f = s.setBatch h (b.modRow i f) := by
  rw [State.setRow, hb]

theorem State.rowOf_setRow (hr : b.rows[i]? = some r) (f : Row → Row) : (s.setRow h i f).rowOf h i = some (b.modRow i f, f r) := by
  rw [State.setRow_found hb]
  refine State.rowOf_found ((s.batch_setBatch h h _).trans (if_pos rfl)) ?_
  rw [Batch.modRow, List.getElem?_modify_eq, hr]
  rfl

end

/-! ## What leaves the batches as they were -/

/-- Whether a state has the batches of another, and no earlier serial. -/
structure State.keepsBatches (s u : State) : Prop where
  batches : u.sv.batches = s.sv.batches
  serial : s.x.serial ≤ u.x.serial

theorem State.keepsBatches_refl (s : State) : s.keepsBatches s := ⟨rfl, le_rfl⟩

theorem State.keepsBatches_trans {s u v : State} (h : s.keepsBatches u) (h' : u.keepsBatches v) : s.keepsBatches v :=
  ⟨h'.batches.trans h.batches, h.serial.trans h'.serial⟩

theorem State.keepsBatches_foldl {α : Type} {f : State → α → State} (hf : ∀ (u : State) (a : α), u.keepsBatches (f u a))
    (l : List α) (s : State) : s.keepsBatches (l.foldl f s) :=
  List.foldlRecOn l f s.keepsBatches_refl fun u h a _ => State.keepsBatches_trans h (hf u a)

theorem State.keepsBatches_ite {p : Prop} [Decidable p] {s u v : State} (hu : s.keepsBatches u) (hv : s.keepsBatches v) :
    s.keepsBatches (if p then u else v) := by
  split
  · exact hu
  · exact hv

theorem State.keepsBatches.batch {s u : State} (h : s.keepsBatches u) (k : Nat) : u.batch k = s.batch k := by
  rw [State.batch, h.batches, State.batch]

theorem State.keepsBatches_of_onRecord {s u : State} (h : s.onRecord u) : s.keepsBatches u := by
  rw [h]
  exact ⟨rfl, le_rfl⟩

theorem State.keepsBatches_commitPeer (s : State) (ws : List (Nat × List Byte)) : s.keepsBatches (s.commitPeer ws) :=
  ⟨congrArg ServeSt.batches (s.commitPeer_sv ws), (Nat.le_succ _).trans_eq (s.commitPeer_serial ws).symm⟩

theorem State.keepsBatches_commitWrite (s : State) (k : Nat) (bs : List Byte) : s.keepsBatches (s.commitWrite k bs) := by
  rw [s.commitWrite_spec]
  exact ⟨rfl, le_rfl⟩

theorem State.keepsBatches_publish (s : State) (ten : Nat) : s.keepsBatches (s.publish ten) := by
  unfold State.publish
  extract_lets ls told a l
  have htold : s.keepsBatches told := by
    unfold told
    generalize ls = levels
    cases levels <;> exact ⟨rfl, le_rfl⟩
  exact State.keepsBatches_ite htold <| State.keepsBatches_trans htold (told.keepsBatches_commitPeer _)

theorem State.keepsBatches_combine (s : State) (ten : Nat) (routes : List RouteIn) : s.keepsBatches (s.combine ten routes) := by
  unfold State.combine
  split
  · exact State.keepsBatches_ite s.keepsBatches_refl (s.keepsBatches_commitPeer _)
  · exact s.keepsBatches_refl

/-! ## A batch fed (13 R321, R324; 14 R358) -/

/-- A batch with its live rows as they are fed. -/
def State.fedRows (s : State) (b : Batch) (grms : List (Nat × Nat)) : Batch :=
  b.liveRows.foldl (fun b' i => b'.modRow i fun r => s.fedRow b i r grms) b

theorem State.fedRows_spec (s : State) (b : Batch) (grms : List (Nat × Nat)) :
    s.fedRows b grms = { b with rows := (s.fedRows b grms).rows } := by
  unfold State.fedRows
  rw [Batch.foldl_modRow (fun i => i) fun i r => s.fedRow b i r grms]

/-- A feed changes each live row once, and no other. -/
theorem State.fedRows_row (s : State) {b : Batch} (grms : List (Nat × Nat)) {i : Nat} {r : Row} (hr : b.rows[i]? = some r) :
    (s.fedRows b grms).rows[i]? = some (if r.live then s.fedRow b i r grms else r) := by
  unfold State.fedRows
  rw [Batch.foldl_modRow (fun i => i) fun i r => s.fedRow b i r grms]
  by_cases hl : r.live = true
  · rw [if_pos hl]
    refine (getElem?_foldl_modify_of_mem (by rw [List.map_id']; exact b.liveRows_nodup) ((Batch.mem_liveRows hr).2 hl) _).trans ?_
    rw [hr, Option.map_some]
  · rw [if_neg hl]
    have apart : ∀ k ∈ b.liveRows, k ≠ i := fun k hk heq => hl ((Batch.mem_liveRows hr).1 (heq ▸ hk))
    exact (getElem?_foldl_modify_of_forall_ne apart _).trans hr

theorem State.fedRow_ungoverned (s : State) (b : Batch) (i : Nat) {r : Row} (grms : List (Nat × Nat)) (h : r.req.gen.grammarEn = false) :
    (s.fedRow b i r grms).feed = none := by
  simp [State.fedRow, h]

/-- Whether the next step of a batch may be fed, backlogs aside. -/
def State.mayFeed (s : State) (b : Batch) (grms : List (Nat × Nat)) : Prop :=
  b.ready = true ∧ b.stepWait = none ∧ s.mayRun b.ten = true ∧ s.isolated = false ∧ s.grmReady b grms = true

/-- A batch's next step on its way: the batch fed, its feed sent, the tenancy's order published. -/
def State.fedOn (s : State) (h : Nat) (b : Batch) : State :=
  ((s.setBatch h { b with fed := true }).stageOut (s.feedOut h b)).publish b.ten

section
variable {s : State} {h : Nat} {b : Batch} {grms : List (Nat × Nat)} (hb : s.batch h = some b)
include hb

theorem stepFeedSend_eq : exec (.stepFeedSend h grms) s =
    if b.ready = false ∨ b.stepWait.isSome ∨ s.mayRun b.ten = false ∨ s.isolated = true ∨ s.grmReady b grms = false then .next s
    else if s.heldBack b then .next (s.raise (R.HST_ERR_BACKLOG_HOLD (b.qp / 256)) (some b.ten))
    else .next (s.fedOn h (s.fedRows b grms)) := by
  change execStepFeedSend h grms s = _
  unfold execStepFeedSend
  rw [hb]
  rfl

theorem stepFeedSend_stays (hmay : ¬ s.mayFeed b grms) : exec (.stepFeedSend h grms) s = .next s := by
  rw [stepFeedSend_eq hb, if_pos]
  simpa [State.mayFeed, imp_iff_not_or, Option.isSome_iff_ne_none] using hmay

variable (hmay : s.mayFeed b grms)
include hmay

theorem stepFeedSend_eq_of_mayFeed : exec (.stepFeedSend h grms) s =
    if s.heldBack b then .next (s.raise (R.HST_ERR_BACKLOG_HOLD (b.qp / 256)) (some b.ten))
    else .next (s.fedOn h (s.fedRows b grms)) := by
  obtain ⟨hready, hwait, hrun, hfree, hgrm⟩ := hmay
  rw [stepFeedSend_eq hb, if_neg (by simp [*])]

theorem stepFeedSend_held (hheld : s.heldBack b = true) :
    exec (.stepFeedSend h grms) s = .next (s.raise (R.HST_ERR_BACKLOG_HOLD (b.qp / 256)) (some b.ten)) :=
  (stepFeedSend_eq_of_mayFeed hb hmay).trans (if_pos hheld)

theorem stepFeedSend_feeds (hheld : s.heldBack b = false) :
    ∃ u, exec (.stepFeedSend h grms) s = .next u ∧ u.batch h = some { s.fedRows b grms with fed := true } := by
  refine ⟨_, (stepFeedSend_eq_of_mayFeed hb hmay).trans (if_neg (by simp [hheld])), ?_⟩
  exact ((State.keepsBatches_publish _ _).batch h).trans ((s.batch_setBatch h h _).trans (if_pos rfl))

end

/-! ## A row's proposals and its step record (13 R325, R332, R340, R341) -/

/-- The row that a home's feed describes is fed. -/
theorem State.sampledRow_fed {s : State} {h i : Nat} {b : Batch} {r : Row} {far : RemoteRow}
    (hfar : s.sampledRow h i (some far) = some (b, r)) : b.fed = true := by
  obtain ⟨rfl, -⟩ := Prod.mk.inj (Option.some.inj hfar)
  rfl

/-- A step record brought to its row: set where the row is homed here, else sent to its home. -/
def State.giveRecord (s : State) (h i : Nat) (far : Option RemoteRow) (k : StepRec) : State :=
  match far with
  | none => s.setRow h i fun r => { r with stepRec := some k }
  | some x => s.stageOut [.record x.home h k]

/-- The log entry of a decision that met no finite score (13 R334, NUMERIC). -/
def State.noteNumeric (s : State) (b : Batch) (r : Row) (h i : Nat) (numeric : Bool) : State :=
  if numeric then (s.logKind 10 0 3 1 (some b.ten) r.req.reqId (h + i * 2 ^ 10) false).1 else s

theorem State.onRecord_noteNumeric (s : State) (b : Batch) (r : Row) (h i : Nat) (numeric : Bool) :
    s.onRecord (s.noteNumeric b r h i numeric) :=
  State.onRecord_ite (State.onRecord_logKind s.onRecord_refl _ _ _ _ _ _ _ _) s.onRecord_refl

section
variable {s : State} {h i : Nat} {b : Batch} {r : Row} (hsamples : s.samples = true) (hlive : r.live = true)
include hsamples hlive

theorem draftPropose_home (hb : s.batch h = some b) (hr : b.rows[i]? = some r) (logits : List (List Nat)) (hstep : 0 < b.step)
    (hfed : b.fed = false) : exec (.draftPropose h i ⟨none, logits⟩) s = .next (s.setRow h i fun x => { x with
      props := propose r.req.gen (b.seed r) r.generated
        (logits.take (proposalCount r.req.gen r.draftLen r.probeWait r.generated)) 0 }) := by
  change execDraftPropose h i ⟨none, logits⟩ s = _
  unfold execDraftPropose State.sampledRow
  dsimp only
  rw [State.rowOf_found hb hr]
  exact if_pos ⟨hlive, hsamples, hstep, .inr hfed⟩

theorem draftPropose_remote {far : RemoteRow} (hfar : s.sampledRow h i (some far) = some (b, r)) (logits : List (List Nat))
    (hstep : 0 < b.step) : exec (.draftPropose h i ⟨some far, logits⟩) s =
      .next (s.stageOut [.proposals far.home h i ((propose r.req.gen (b.seed r) r.generated
        (logits.take (proposalCount r.req.gen r.draftLen r.probeWait r.generated)) 0).map (·.1))]) := by
  change execDraftPropose h i ⟨some far, logits⟩ s = _
  unfold execDraftPropose
  dsimp only
  rw [hfar]
  exact if_pos ⟨hlive, hsamples, hstep, .inl rfl⟩

/-- A fed row without a record: the layers' outputs are put in place, a serial is taken, and the record goes to the row's home. -/
theorem sampleDecide_decides {d : DecideIn} (hrow : s.sampledRow h i d.remote = some (b, r)) (hfed : b.fed = true)
    (hfree : s.isolated = false) (hnone : r.stepRec = none) (hpos : positionsOf r ≤ d.pos.length) {v : State} {k : StepRec}
    (hv : (s.combine b.ten d.routes).serialTaken = v) (hk : v.stepRecord b i r d.pos v.x.serial = k) :
    exec (.sampleDecide h i d) s = .next ((v.giveRecord h i d.remote k).noteNumeric b r h i k.numeric) := by
  change execSampleDecide h i d s = _
  unfold execSampleDecide
  rw [hrow]
  dsimp only
  rw [if_neg (by simp [*])]
  subst hk hv
  rfl

/-- The decision for a row homed here: the row with its record, the serial of the sample commit, memory as the layers' outputs leave it. -/
theorem sampleDecide_home (hb : s.batch h = some b) (hr : b.rows[i]? = some r) (hfed : b.fed = true) (hfree : s.isolated = false)
    (hnone : r.stepRec = none) {pos : List PosIn} (hpos : positionsOf r ≤ pos.length) (routes : List RouteIn) {v : State} {k : StepRec}
    (hv : (s.combine b.ten routes).serialTaken = v) (hk : v.stepRecord b i r pos v.x.serial = k) :
    ∃ u b', exec (.sampleDecide h i ⟨none, routes, pos⟩) s = .next u ∧ u.rowOf h i = some (b', { r with stepRec := some k }) ∧
      u.x.serial = (s.combine b.ten routes).x.serial + 1 ∧ u.mem = (s.combine b.ten routes).mem := by
  have hvb : v.batch h = some b := by
    subst hv
    exact ((s.keepsBatches_combine b.ten routes).batch h).trans hb
  have hrow : s.sampledRow h i none = some (b, r) := State.rowOf_found hb hr
  refine ⟨_, b.modRow i fun r => { r with stepRec := some k },
    sampleDecide_decides (d := ⟨none, routes, pos⟩) hsamples hlive hrow hfed hfree hnone hpos hv hk, ?_, ?_⟩
  · refine Eq.trans ?_ (State.rowOf_setRow hvb hr _)
    unfold State.rowOf
    rw [(State.keepsBatches_of_onRecord (State.onRecord_noteNumeric _ b r h i k.numeric)).batch h]
    rfl
  · obtain ⟨hx, hmem⟩ := State.onRecord_keeps (State.onRecord_noteNumeric (v.giveRecord h i none k) b r h i k.numeric)
    rw [hx, hmem, State.giveRecord, State.setRow_spec, ← hv]
    exact ⟨rfl, rfl⟩

end

theorem State.combine_nil (s : State) (ten : Nat) : s.combine ten [] = s := by
  unfold State.combine
  split <;> rfl

theorem State.combine_single {s : State} {m : ModelSet} {tag : Nat} (hm : s.sv.model = some (m, tag)) (ten : Nat) (y : RouteIn) :
    s.combine ten [y] = s.commitPeer [(s.dkey ten y.va, moeRow m y)] := by
  unfold State.combine
  rw [hm]
  rfl

/-- The decision for a row homed elsewhere, without layers' outputs: a serial is taken and the record sent to the row's home. -/
theorem sampleDecide_remote {s : State} {h i : Nat} {b : Batch} {r : Row} {far : RemoteRow}
    (hfar : s.sampledRow h i (some far) = some (b, r)) (hsamples : s.samples = true) (hlive : r.live = true)
    (hfree : s.isolated = false) (hnone : r.stepRec = none) {pos : List PosIn} (hpos : positionsOf r ≤ pos.length)
    (hnum : (stepVerdict b r pos).numeric = false) : exec (.sampleDecide h i ⟨some far, [], pos⟩) s =
      .next (s.serialTaken.stageOut [.record far.home h (s.stepRecord b i r pos (s.x.serial + 1))]) := by
  have hv : (s.combine b.ten []).serialTaken = s.serialTaken := congrArg State.serialTaken (s.combine_nil b.ten)
  have hk : s.serialTaken.stepRecord b i r pos s.serialTaken.x.serial = s.stepRecord b i r pos (s.x.serial + 1) := rfl
  have quiet : (s.stepRecord b i r pos (s.x.serial + 1)).numeric = false := hnum
  rw [sampleDecide_decides (d := ⟨some far, [], pos⟩) hsamples hlive hfar (State.sampledRow_fed hfar) hfree hnone hpos hv hk, quiet]
  rfl

end Sys2Proof.Machine
end

section
/-!
PROOFS. What deliveries leave of a batch (14 R371 to R376; 15 R396): the output of its rows, its handle and its admission order.
-/

namespace Sys2Proof.Machine

/-! ## More that leaves the batches as they were -/

theorem State.keepsBatches_takePage (s : State) (m : ModelSet) (k l p : Nat) : s.keepsBatches (s.takePage m k l p) := by
  unfold State.takePage
  split
  · exact s.keepsBatches_refl
  · refine State.keepsBatches_ite s.keepsBatches_refl (State.keepsBatches_trans ?_ (State.keepsBatches_commitWrite _ _ _))
    exact ⟨rfl, le_rfl⟩

theorem State.keepsBatches_dropEntry (s : State) (m : ModelSet) (k l p : Nat) : s.keepsBatches (s.dropEntry m k l p) := by
  unfold State.dropEntry
  split
  · exact s.keepsBatches_refl
  · refine State.keepsBatches_trans ?_ (State.keepsBatches_commitWrite _ _ _)
    exact ⟨rfl, le_rfl⟩

/-- A request's pages move on beside the batches. -/
theorem State.keepsBatches_kvAdvance (s : State) (k valid : Nat) : s.keepsBatches (s.kvAdvance k valid) := by
  unfold State.kvAdvance
  split
  · exact s.keepsBatches_refl
  · exact State.keepsBatches_foldl (fun u w => State.keepsBatches_trans
      (State.keepsBatches_foldl (fun v p => v.keepsBatches_dropEntry _ _ _ p) _ u)
      (State.keepsBatches_foldl (fun v p => v.keepsBatches_takePage _ _ _ p) _ _)) _ s

theorem State.keepsBatches_kvClose (s : State) (k : Nat) : s.keepsBatches (s.kvClose k) := by
  unfold State.kvClose
  split <;> exact ⟨rfl, le_rfl⟩

theorem State.keepsBatches_restoreCredits (s : State) (ten : Nat) (pages : List Nat) : s.keepsBatches (s.restoreCredits ten pages) :=
  State.keepsBatches_foldl (fun _ _ => by exact ⟨rfl, le_rfl⟩) _ s

theorem State.keepsBatches_sendEntries (s : State) (q kind order : Nat) (words : List Nat) (es : List (Nat × List Byte)) :
    s.keepsBatches (s.sendEntries q kind order words es) := ⟨rfl, le_rfl⟩

/-! ## What deliveries leave of a batch (14 R371 to R373) -/

/-- Whether a row is as another but for its latency figures and the mark that its pages are freed. -/
def Row.sameOutput (r r' : Row) : Prop := r' = { r with lat := r'.lat, lastAt := r'.lastAt, freed := r'.freed }

theorem Row.sameOutput_trans {r r' r'' : Row} (h : r.sameOutput r') (h' : r'.sameOutput r'') : r.sameOutput r'' := by
  unfold Row.sameOutput at *
  rw [h', h]

/-- A delivery stamps its row, and changes nothing else of it. -/
theorem Batch.delivered_sameOutput (b : Batch) (r : Row) (st port : Nat) : r.sameOutput (b.delivered r st port).1 := by
  unfold Batch.delivered
  dsimp only
  split <;> split <;> rfl

/-- Whether a batch is as another but for figures and marks of its rows and messages that wait for a queue pair. -/
structure Batch.sameOutput (b b' : Batch) : Prop where
  rest : b' = { b with rows := b'.rows, owed := b'.owed }
  rows : ∀ (i : Nat) (r : Row), b.rows[i]? = some r → ∃ r', b'.rows[i]? = some r' ∧ r.sameOutput r'

theorem Batch.sameOutput_refl (b : Batch) : b.sameOutput b := ⟨rfl, fun _ r hr => ⟨r, hr, rfl⟩⟩

theorem Batch.sameOutput_trans {b b' b'' : Batch} (h : b.sameOutput b') (h' : b'.sameOutput b'') : b.sameOutput b'' where
  rest := by rw [h'.rest, h.rest]
  rows i r hr := by
    obtain ⟨r', hr', same⟩ := h.rows i r hr
    obtain ⟨r'', hr'', same'⟩ := h'.rows i r' hr'
    exact ⟨r'', hr'', Row.sameOutput_trans same same'⟩

theorem Batch.sameOutput_modRow (b : Batch) (i : Nat) (f : Row → Row) (hf : ∀ r, b.rows[i]? = some r → r.sameOutput (f r)) :
    b.sameOutput (b.modRow i f) where
  rest := rfl
  rows j r hr := by
    rw [Batch.modRow, List.getElem?_modify, hr]
    refine ⟨_, rfl, ?_⟩
    dsimp only
    split
    · rename_i hij
      exact hf r (hij ▸ hr)
    · rfl

theorem Batch.sameOutput.order_eq {b b' : Batch} (h : b.sameOutput b') : b'.order = b.order := by
  rw [h.rest]

/-! ## A batch that is served under its handle -/

theorem mem_tset {α : Type} {t : Tab α} {i : Nat} {x : α} {p : Nat × α} (h : p ∈ tset t i x) : p = (i, x) ∨ p ∈ t := by
  induction t with
  | nil => simpa [tset] using h
  | cons q t ih =>
    unfold tset at h
    split at h
    · exact (List.mem_cons.1 h).imp_right (List.mem_cons_of_mem _)
    · split at h
      · exact List.mem_cons.1 h
      · rcases List.mem_cons.1 h with rfl | h
        · exact .inr List.mem_cons_self
        · exact (ih h).imp_right (List.mem_cons_of_mem _)

theorem tabAbove_tmap {α : Type} (f : Nat → α → α) (lo : Nat) (t : Tab α) : tabAbove lo (tmap f t) = tabAbove lo t := by
  induction t generalizing lo with
  | nil => rfl
  | cons p t ih => exact congrArg (_ && ·) (ih (p.1 + 1))

theorem tfind_tmap {α : Type} (f : Nat → α → α) (t : Tab α) (i : Nat) : tfind (tmap f t) i = (tfind t i).map (f i) := by
  induction t with
  | nil => rfl
  | cons p t ih =>
    change tfind ((p.1, f p.1 p.2) :: tmap f t) i = _
    unfold tfind
    split
    · rename_i h
      rw [h, Option.map_some]
    · split
      · rfl
      · exact ih

/-- A batch with its row i changed if it has an admission order. -/
def Batch.modRowOf (o i : Nat) (f : Row → Row) (b : Batch) : Batch := if b.order = o then b.modRow i f else b

theorem State.modRowOf_batches (s : State) (o i : Nat) (f : Row → Row) :
    (s.modRowOf o i f).sv.batches = tmap (fun _ => Batch.modRowOf o i f) s.sv.batches := rfl

theorem Batch.modRowOf_order (o i : Nat) (f : Row → Row) (b : Batch) : (b.modRowOf o i f).order = b.order := by
  unfold Batch.modRowOf
  split <;> rfl

/-- Whether a state serves a batch under a handle, its admission order no other's, at no earlier serial than a bound. -/
structure State.serves (u : State) (n h : Nat) (b : Batch) : Prop where
  found : ∃ b', u.batch h = some b' ∧ b.sameOutput b'
  rises : tabAbove 0 u.sv.batches = true
  own : ∀ k b', (k, b') ∈ u.sv.batches → b'.order = b.order → k = h
  serial : n ≤ u.x.serial

section
variable {u : State} {n h : Nat} {b : Batch} (hu : u.serves n h b)
include hu

theorem State.serves.of_keepsBatches {v : State} (hv : u.keepsBatches v) : v.serves n h b where
  found := by
    rw [hv.batch]
    exact hu.found
  rises := by
    rw [hv.batches]
    exact hu.rises
  own := by
    rw [hv.batches]
    exact hu.own
  serial := hu.serial.trans hv.serial

theorem State.serves.setBatch {c x : Batch} (ho : x.order = b.order) (hx : c.sameOutput x) : (u.setBatch h x).serves n h c where
  found := ⟨x, (u.batch_setBatch h h x).trans (if_pos rfl), hx⟩
  rises := tabAbove_tset hu.rises h x (Nat.zero_le h)
  own k b' hb' hord := by
    rcases mem_tset hb' with e | hmem
    · exact congrArg Prod.fst e
    · exact hu.own k b' hmem (hord.trans (hx.order_eq.symm.trans ho))
  serial := hu.serial

/-- The admission order leads to the batch. -/
theorem State.serves.batchByOrder {b' : Batch} (hb : u.batch h = some b') : u.batchByOrder b'.order = some b' := by
  obtain ⟨x, hx, same⟩ := hu.found
  obtain rfl : x = b' := Option.some.inj (hx.symm.trans hb)
  unfold State.batchByOrder
  cases hfind : u.sv.batches.find? fun p => p.2.order == x.order with
  | none => exact absurd (List.find?_eq_none.1 hfind (h, x) (mem_of_tfind hb)) (by simp)
  | some p =>
    obtain ⟨k, y⟩ := p
    have hord : y.order = x.order := by simpa using List.find?_some hfind
    have hmem : (k, y) ∈ u.sv.batches := List.mem_of_find?_eq_some hfind
    obtain rfl : k = h := hu.own k y hmem (hord.trans same.order_eq)
    exact (tfind_of_mem hu.rises hmem).symm.trans hb

theorem State.serves.ite {p : Prop} [Decidable p] {v : State} (hv : v.serves n h b) : (if p then u else v).serves n h b := by
  split
  · exact hu
  · exact hv

/-- A change of row i of an admission order that leaves the output of the batch's own row leaves the batch served. -/
theorem State.serves.modRowOf (o i : Nat) (f : Row → Row)
    (hf : ∀ b' r, u.batch h = some b' → b'.order = o → b'.rows[i]? = some r → r.sameOutput (f r)) :
    (u.modRowOf o i f).serves n h b where
  found := by
    obtain ⟨b', hb', same⟩ := hu.found
    refine ⟨b'.modRowOf o i f, ?_, Batch.sameOutput_trans same ?_⟩
    · rw [State.batch, State.modRowOf_batches, tfind_tmap]
      exact congrArg _ hb'
    · unfold Batch.modRowOf
      split
      · rename_i ho
        exact b'.sameOutput_modRow i f fun r => hf b' r hb' ho
      · exact b'.sameOutput_refl
  rises := by
    rw [State.modRowOf_batches, tabAbove_tmap]
    exact hu.rises
  own k b' hb' hord := by
    rw [State.modRowOf_batches] at hb'
    obtain ⟨p, hp, e⟩ := List.mem_map.1 hb'
    obtain ⟨rfl, rfl⟩ := Prod.mk.inj e
    exact hu.own p.1 p.2 hp ((p.2.modRowOf_order o i f).symm.trans hord)
  serial := hu.serial

theorem State.serves.stampRow (o i port : Nat) : (u.stampRow o i port).serves n h b := by
  unfold State.stampRow
  split
  · exact hu
  · rename_i x hx
    split
    · exact hu
    · rename_i r hr
      extract_lets d moved ttft tbt ports dated
      have hmoved : moved.serves n h b := by
        refine hu.modRowOf o i _ fun b' r' hb' ho hr' => ?_
        obtain rfl : x = b' := Option.some.inj (hx.symm.trans (ho ▸ hu.batchByOrder hb'))
        obtain rfl : r = r' := Option.some.inj (hr.symm.trans hr')
        exact x.delivered_sameOutput r _ _
      have hbumps : moved.keepsBatches tbt := State.keepsBatches_trans (u := ttft)
        (State.keepsBatches_ite ⟨rfl, le_rfl⟩ moved.keepsBatches_refl)
        (State.keepsBatches_ite ⟨rfl, le_rfl⟩ ttft.keepsBatches_refl)
      have hdated : tbt.keepsBatches dated := by
        unfold dated
        split <;> exact ⟨rfl, le_rfl⟩
      exact hmoved.of_keepsBatches
        (State.keepsBatches_trans hbumps (State.keepsBatches_trans hdated (dated.keepsBatches_publish _)))

theorem State.serves.foldl {α : Type} {f : State → α → State} (hf : ∀ (v : State) (a : α), v.serves n h b → (f v a).serves n h b)
    (l : List α) : (l.foldl f u).serves n h b :=
  List.foldlRecOn (motive := fun v : State => v.serves n h b) l f hu fun v hv a _ => hf v a hv

theorem State.serves.stampMsg (q seq : Nat) : (u.stampMsg q seq).serves n h b := by
  unfold State.stampMsg
  split
  · exact hu
  · extract_lets before us p ports noted
    have hnoted : noted.serves n h b := hu.of_keepsBatches ⟨rfl, le_rfl⟩
    refine hnoted.foldl (fun v e hv => ?_) _
    exact hv.ite ((hv.stampRow _ _ _).of_keepsBatches ⟨rfl, le_rfl⟩)

theorem State.serves.sendGroup (q order : Nat) (o : Owed) : (u.sendGroup q order o).serves n h b := by
  have hsent := hu.of_keepsBatches (u.keepsBatches_sendEntries q o.kind order o.words o.entries)
  unfold State.sendGroup
  refine hsent.ite (State.serves.ite ?_ (hsent.stampMsg _ _))
  exact hsent.of_keepsBatches ⟨rfl, le_rfl⟩

/-- A message of the batch sent, or kept until a queue pair connects, leaves it served. -/
theorem State.serves.deliver (o : Owed) : (u.deliver h o).serves n h b := by
  obtain ⟨b', hb', same⟩ := hu.found
  unfold State.deliver
  rw [hb']
  refine hu.ite (State.serves.ite ?_ (hu.ite (hu.sendGroup _ _ _)))
  exact hu.setBatch same.order_eq (Batch.sameOutput_trans same ⟨rfl, fun _ r hr => ⟨r, hr, rfl⟩⟩)

theorem State.serves.sendTokens (x : Batch) (step : Nat) (es : List (Nat × List Byte)) : (u.sendTokens h x step es).serves n h b :=
  hu.foldl (fun _ _ hv => hv.deliver _) _

/-- The pages of ended rows freed: their rows are marked, the rest of the batch stays. -/
theorem State.serves.freeRows (is : List Nat) : (u.freeRows h is).serves n h b := by
  refine hu.foldl (fun v i hv => ?_) is
  obtain ⟨b', hb', same⟩ := hv.found
  rw [hb']
  dsimp only
  split
  · exact hv
  · refine hv.ite (State.serves.of_keepsBatches ?_ (State.keepsBatches_kvClose _ _))
    refine (hv.of_keepsBatches (v.keepsBatches_restoreCredits _ _)).setBatch same.order_eq (Batch.sameOutput_trans same ?_)
    exact b'.sameOutput_modRow i _ fun r _ => rfl

end

end Sys2Proof.Machine
end

section
/-!
PROOFS. The step commit (13 R322, R348): the rows stepped, and what its deliveries leave of them.
-/

namespace Sys2Proof.Machine

/-! ## What a step commit makes of its rows (13 R348) -/

section
variable (s : State) (b : Batch) (i : Nat) (r : Row) (k : StepRec)

/-- A row lives on exactly when its step does not end it. -/
theorem State.rowEnd_live : (s.rowEnd b i r k).row.live = !(s.rowEnd b i r k).ended := rfl

theorem State.rowEnd_stepRec : (s.rowEnd b i r k).row.stepRec = none := rfl

theorem State.rowEnd_feed : (s.rowEnd b i r k).row.feed = none := rfl

end

section
variable {s : State} {b : Batch}

theorem State.of_mem_stepEnds {i : Nat} {e : RowEnd} (he : (i, e) ∈ s.stepEnds b) :
    ∃ r k, b.rows[i]? = some r ∧ e = s.rowEnd b i r k := by
  obtain ⟨⟨r, j⟩, hp, hf⟩ := List.mem_filterMap.1 he
  dsimp only at hf
  split at hf
  · rename_i k _ _
    obtain ⟨rfl, rfl⟩ := Prod.mk.inj (Option.some.inj hf)
    exact ⟨r, k, Batch.mem_numbered.1 hp, rfl⟩
  · cases hf

/-- A step commit makes one end of each row. -/
theorem State.stepEnds_nodup (s : State) (b : Batch) : ((s.stepEnds b).map (·.1)).Nodup := by
  refine List.pairwise_map.2 (List.pairwise_filterMap.2 ?_)
  refine (List.pairwise_map.1 b.numbered_snd_nodup).imp fun apart e he e' he' => ?_
  split at he
  · split at he'
    · cases he
      cases he'
      exact apart
    · cases he'
  · cases he

end

/-- A batch with the rows that a step commit makes; the marks of pages freed stay. -/
def Batch.afterStep (b : Batch) (es : List (Nat × RowEnd)) : Batch :=
  es.foldl (fun b e => b.modRow e.1 fun r => { e.2.row with freed := r.freed }) b

theorem Batch.afterStep_spec (b : Batch) (es : List (Nat × RowEnd)) : b.afterStep es = { b with rows := (b.afterStep es).rows } := by
  unfold Batch.afterStep
  rw [Batch.foldl_modRow (fun e : Nat × RowEnd => e.1) fun e r => { e.2.row with freed := r.freed }]

theorem Batch.afterStep_row {b : Batch} {es : List (Nat × RowEnd)} (hes : (es.map (·.1)).Nodup) {i : Nat} {e : RowEnd} (he : (i, e) ∈ es)
    {r : Row} (hr : b.rows[i]? = some r) : (b.afterStep es).rows[i]? = some { e.row with freed := r.freed } := by
  unfold Batch.afterStep
  rw [Batch.foldl_modRow (fun e : Nat × RowEnd => e.1) fun e r => { e.2.row with freed := r.freed }]
  refine (getElem?_foldl_modify_of_mem hes he b.rows).trans ?_
  dsimp only
  rw [hr]
  rfl

/-- A batch whose step has committed: its next step may be fed. -/
def Batch.stepped (b : Batch) (es : List (Nat × RowEnd)) : Batch :=
  { b.afterStep es with step := b.step + 1, fed := false, stepWait := none, mirEnded := [] }

/-! ## The step commit (13 R322) -/

theorem State.keepsBatches_serialTaken (s : State) : s.keepsBatches s.serialTaken := ⟨rfl, Nat.le_succ _⟩

/-- The output entries of a step's rows, and whether each goes to a ring. -/
def stepOutputs (es : List (Nat × RowEnd)) : List (Nat × Bool × List Byte) :=
  es.filterMap fun e => e.2.entry.map fun x => (e.1, e.2.row.onRing, x)

theorem stepOutputs_noRings {es : List (Nat × RowEnd)} (h : ∀ e ∈ es, e.2.row.onRing = false) :
    (stepOutputs es).filter (fun o => o.2.1) = [] := by
  refine List.filter_eq_nil_iff.2 fun o ho => ?_
  obtain ⟨e, he, ho⟩ := List.mem_filterMap.1 ho
  obtain ⟨x, -, rfl⟩ := Option.map_eq_some_iff.1 ho
  simp [h e he]

/-- What a step commit does once the batch is stepped: the pages of the rows that live on, the counts, the swaps that waited, the output, the
ends, the tenancy's order. -/
def State.stepDelivered (s : State) (h : Nat) (c : Batch) (es : List (Nat × RowEnd)) : State :=
  let s := (es.filter fun e => !e.2.ended).foldl (fun s e => s.kvAdvance (kvKey s.ownAddr h e.1) e.2.row.valid) s
  let s := (s.bump R.SCH_CANCELS_APPLIED (es.filter fun e => e.2.cancelled).length).releaseSwaps c.ten
  let outs := stepOutputs es
  let s := s.sendTokens h (c.afterStep es) c.step ((outs.filter fun o => !o.2.1).map fun o => (o.1, o.2.2))
  let s := (outs.filter fun o => o.2.1).foldl (fun s o => s.ringOut c.order o.1 o.2.2) s
  let s := s.reportEnds h ((es.filter fun e => e.2.ended).map (·.1))
  (s.countBatches c.ten).publish c.ten

/-- A step commit takes a serial, frees the rows that ended before, steps the batch and delivers. -/
theorem State.commitStep_eq {s : State} {h : Nat} {b c : Batch} (hb : s.batch h = some b)
    (hc : (s.serialTaken.freeRows h (List.range b.rows.length)).batch h = some c) : s.commitStep h =
      ((s.serialTaken.freeRows h (List.range b.rows.length)).setBatch h (c.stepped (s.stepEnds b))).stepDelivered h c (s.stepEnds b) := by
  obtain rfl : ((s.serialTaken.freeRows h (List.range b.rows.length)).batch h).getD b = c := by rw [hc, Option.getD_some]
  unfold State.commitStep
  rw [hb]
  rfl

theorem State.reportEnds_nil (s : State) (h : Nat) : s.reportEnds h [] = s := by
  unfold State.reportEnds
  split <;> rfl

/-- Where no row ends and none has a ring, what follows the step serves the batch on. -/
theorem State.serves.stepDelivered {u : State} {n h : Nat} {b : Batch} (hu : u.serves n h b) (c : Batch) {es : List (Nat × RowEnd)}
    (hlive : ∀ e ∈ es, e.2.ended = false ∧ e.2.row.onRing = false) : (u.stepDelivered h c es).serves n h b := by
  unfold State.stepDelivered
  extract_lets advanced counted outs told rung ended
  have hadvanced : advanced.serves n h b := hu.foldl (fun v _ hv => hv.of_keepsBatches (v.keepsBatches_kvAdvance _ _)) _
  have hcounted : counted.serves n h b := hadvanced.of_keepsBatches ⟨rfl, le_rfl⟩
  have htold : told.serves n h b := hcounted.sendTokens _ _ _
  have hrung : rung = told := by
    unfold rung outs
    rw [stepOutputs_noRings fun e he => (hlive e he).2, List.foldl_nil]
  have hended : ended = rung := by
    unfold ended
    rw [List.filter_eq_nil_iff.2 fun e he => by simp [hlive e he], List.map_nil, State.reportEnds_nil]
  rw [hended, hrung]
  have hlisted : (told.countBatches c.ten).serves n h b := htold.of_keepsBatches ⟨rfl, le_rfl⟩
  exact hlisted.of_keepsBatches (State.keepsBatches_publish _ _)

/-- A step commit that ends no row and has no row on a ring leaves the batch stepped, from what the freeing of earlier ends leaves of it. -/
theorem State.serves_commitStep {s : State} {h : Nat} {b : Batch} (hb : s.batch h = some b) (hs : s.serves s.x.serial h b)
    (hlive : ∀ e ∈ s.stepEnds b, e.2.ended = false ∧ e.2.row.onRing = false) :
    ∃ c, b.sameOutput c ∧ (s.commitStep h).serves (s.x.serial + 1) h (c.stepped (s.stepEnds b)) := by
  have htaken : s.serialTaken.serves (s.x.serial + 1) h b :=
    { hs.of_keepsBatches s.keepsBatches_serialTaken with serial := le_rfl }
  have hfreed := htaken.freeRows (List.range b.rows.length)
  obtain ⟨c, hc, same⟩ := hfreed.found
  have hord : (c.stepped (s.stepEnds b)).order = b.order := by
    rw [Batch.stepped, Batch.afterStep_spec]
    exact same.order_eq
  rw [State.commitStep_eq hb hc]
  exact ⟨c, same, (hfreed.setBatch hord (Batch.sameOutput_refl _)).stepDelivered c hlive⟩

section
variable {s : State} {h : Nat} {b : Batch} (hb : s.batch h = some b) (hwait : b.stepWait = none) (hmirrors : s.mirrors b = false)
include hb

theorem stepCommit_waits (hdecided : b.decided = false) : exec (.stepCommit h []) s = .next s := by
  change execStepCommit h [] s = _
  unfold execStepCommit
  rw [hb]
  exact if_pos hdecided

include hwait hmirrors

theorem stepCommit_commits (hdecided : b.decided = true) : exec (.stepCommit h []) s = .next (s.commitStep h) := by
  change execStepCommit h [] s = _
  unfold execStepCommit
  rw [hb]
  dsimp only [List.foldl]
  rw [if_neg (by simp [hdecided]), if_neg (by simp [hwait]), if_neg (by simp [hmirrors]), State.setBatch_found hb]

end

/-- Settles O46: what each of the four rows comes to, and that the deliveries of a step commit leave the rows as their records made them. -/
theorem stepsFeedDecideAndCommit : Obligations.StepsFeedDecideAndCommit := by
  intro s h b hb
  refine ⟨fun grms => ?feed, fun i r hr hlive hsamples => ⟨?propose, ?decide_⟩,
    fun far i b' r hfar hsamples hlive => ⟨?proposeFar, ?decideFar⟩,
    fun hwait hmirrors => ⟨?waits, ?commits⟩⟩
  case feed =>
    refine ⟨stepFeedSend_stays hb, stepFeedSend_held hb, fun hmay hheld => ?_⟩
    obtain ⟨u, hu, hbatch⟩ := stepFeedSend_feeds hb hmay hheld
    refine ⟨u, _, hu, hbatch, rfl, by rw [State.fedRows_spec], fun i r hr => ⟨s.fedRows_row grms hr, s.fedRow_ungoverned b i grms⟩⟩
  case propose => exact draftPropose_home hsamples hlive hb hr
  case decide_ =>
    intro pos routes hfed hfree hnone hpos
    obtain ⟨u, b', hu, hrow, hserial, hmem⟩ := sampleDecide_home hsamples hlive hb hr hfed hfree hnone hpos routes rfl rfl
    refine ⟨u, b', _, _, hu, hrow, rfl, rfl, rfl, rfl, rfl, rfl, rfl, rfl, hserial.symm, ?_, ?_, ?_⟩
    · exact hserial ▸ Nat.lt_succ_of_le (s.keepsBatches_combine b.ten routes).serial
    · rintro rfl
      exact ⟨hserial.trans (by rw [State.combine_nil]), hmem.trans (by rw [State.combine_nil])⟩
    · rintro m tag y hm rfl hwf hend
      rw [State.combine_single hm] at hmem
      exact (congrArg (memRun · (s.dkey b.ten y.va) (moeRow m y).length) hmem).trans (State.run_commitPeer hwf hend)
  case proposeFar => exact draftPropose_remote hsamples hlive hfar
  case decideFar =>
    intro pos hfree hnone hpos hnum
    exact ⟨_, sampleDecide_remote hfar hsamples hlive hfree hnone hpos hnum, rfl, rfl, rfl⟩
  case waits => exact stepCommit_waits hb
  case commits =>
    intro hdecided hlive hrises hown
    have hs : s.serves s.x.serial h b :=
      ⟨⟨b, hb, b.sameOutput_refl⟩, tabAbove_of_pairwise hrises 0 fun _ _ => Nat.zero_le _, hown, le_rfl⟩
    obtain ⟨c, same, hafter⟩ := State.serves_commitStep hb hs hlive
    obtain ⟨b', hb', sameStep⟩ := hafter.found
    refine ⟨_, b', stepCommit_commits hb hwait hmirrors hdecided, hb', ?_, ?_, hafter.serial, fun i e he => ?_⟩
    · rw [sameStep.rest]
      exact congrArg (· + 1) (by rw [same.rest])
    · rw [sameStep.rest]
      rfl
    · obtain ⟨r, k, hr, rfl⟩ := State.of_mem_stepEnds he
      obtain ⟨r', hr', -⟩ := same.rows i r hr
      obtain ⟨x, hx, out⟩ := sameStep.rows i _ (Batch.afterStep_row (s.stepEnds_nodup b) he hr')
      obtain ⟨hended, -⟩ := hlive _ he
      refine ⟨x, hx, ?_⟩
      rw [out]
      exact ⟨rfl, rfl, (s.rowEnd_live b i r k).trans (by rw [hended, Bool.not_false]),
        s.rowEnd_stepRec b i r k, s.rowEnd_feed b i r k⟩

end Sys2Proof.Machine
end

section
/-!
PROOFS. The messages of hosts (15 R385 to R395, R404): a CANCEL at another version than its pair's.
-/

namespace Sys2Proof.Machine

/-- On a connected pair a CANCEL at another version is dropped as BAD_VERSION, a cause that concerns the pair's tenancy (15 R386, 22 Table 22.3). -/
theorem cancel_badVersion {s : State} {q : Nat} {m : List Byte} (hq : q < 1024) (hconn : s.connected q = true) (htype : mType m = 3)
    (hver : s.verOk q m = false) : exec (.cancel q m) s = .next (s.raise (R.HST_ERR_BAD_VERSION (q / 256)) (s.qpTen q)) := by
  change execCancel q m s = _
  rw [execCancel, if_neg (Nat.not_le.2 hq), if_neg (by simp [htype, hconn]), if_pos hver]
  rfl

/-- A connected request pair of tenancy 0 that has yet to settle on a version: pair 0. -/
def unversioned : State := { cw := [((qpReg R.HST_QP_STATE 0).reg, 2)] }

/-- A CANCEL of version 0: the first two bytes of its header. -/
def cancelHeader : List Byte := [0, 3]

/-- The cause's entry names tenancy 0, where one of no tenancy would set the bit MODULE (22 Table 22.3). -/
theorem cancel_unversioned :
    ∃ u, exec (.cancel 0 cancelHeader) unversioned = .next u ∧ u.get (R.ERR_LOG_HDR_MODULE 0) = 0 :=
  ⟨_, cancel_badVersion (by decide) (by decide +kernel) (by decide +kernel) (by decide +kernel), by decide +kernel⟩

/-- Refutes O47: a CANCEL of a wrong version is to raise BAD_VERSION for no tenancy, but the cause stands on a request pair and so concerns the
pair's tenancy, which its entry of the error log names (22 Table 22.3); with that tenancy the clause holds (`cancel_badVersion`). -/
theorem not_hostMessagesAreAnswered : ¬ Obligations.HostMessagesAreAnswered := by
  intro holds
  obtain ⟨-, cancels, -⟩ := holds unversioned 0 cancelHeader (by decide) (by decide +kernel)
  obtain ⟨refused, -⟩ := cancels (by decide +kernel)
  obtain ⟨u, hu, named⟩ := cancel_unversioned
  obtain rfl : unversioned.raise (R.HST_ERR_BAD_VERSION 0) none = u := by simpa using (refused (by decide +kernel)).symm.trans hu
  exact absurd named (by decide +kernel)

end Sys2Proof.Machine
end

section
/-!
PROOFS. The transport of a queue pair (15 R378 to R382, R398 to R403): its record after acknowledgements and refusals, the rows of its timers and
of congestion, its connection and its loss, the reads of a ring's consumer word.
-/

namespace Sys2Proof.Machine

/-! ## A pair's record -/

section
variable (s : State) (q : Nat)

@[simp] theorem State.qpOf_setQp (p : Qp) : (s.setQp q p).qpOf q = p := by
  rw [State.qpOf, State.setQp, tget_tset, if_pos rfl]

/-- An acknowledgement frees the messages below its number and changes nothing else of the pair. -/
theorem State.qpOf_ackBelow (seq : Nat) :
    (s.ackBelow q seq).qpOf q = { s.qpOf q with sent := (s.qpOf q).sent.filter fun m => decide (seq ≤ m.seq) } :=
  State.qpOf_setQp s q _

theorem State.time_ackBelow (seq port : Nat) : (s.ackBelow q seq).time port = s.time port := rfl

end

section
variable {s : State} {q : Nat} (hq : q < 1024)
include hq

/-! ## Acknowledgements, timeouts and refusals (15 R380, R398, R403) -/

section
variable (hconn : s.connected q = true)
include hconn

theorem roceAcknowledge_acks {n : Nat} (hn : n < (s.qpOf q).next) : exec (.roceAcknowledge q n false) s =
    .next ((s.setQp q { s.qpOf q with retries := 0, rnr := 0, rnrAt := none, exhausted := false }).ackBelow q (n + 1)) := by
  change execRoceAcknowledge q n false s = _
  rw [execRoceAcknowledge, if_neg (Nat.not_le.2 hq), if_neg (by simp [hconn, hn])]
  rfl

theorem roceAcknowledge_naks {n : Nat} (hn : n < (s.qpOf q).next) :
    exec (.roceAcknowledge q n true) s = .next ((s.ackBelow q n).resend q) := by
  change execRoceAcknowledge q n true s = _
  rw [execRoceAcknowledge, if_neg (Nat.not_le.2 hq), if_neg (by simp [hconn, hn])]
  rfl

section
variable (hsent : (s.qpOf q).sent ≠ []) (hheld : s.sendHeld q = false) (hlate : (s.qpOf q).sentAt + 131000 ≤ s.time (q / 256))
include hsent hheld hlate

theorem roceAckTimeout_due : exec (.roceAckTimeout q) s = if 7 ≤ (s.qpOf q).retries then .next (s.loseQp q 3)
    else .next ((s.setQp q { s.qpOf q with retries := (s.qpOf q).retries + 1 }).resend q) := by
  change execRoceAckTimeout q s = _
  rw [execRoceAckTimeout, if_neg (Nat.not_le.2 hq)]
  exact if_neg (by simp [hconn, hsent, hheld, hlate])

end

/-- A message refused that is no TOKENS waits for its retry; those before it are acknowledged. -/
theorem rnrNak_waits {seq : Nat} {m : HostMsg} (hm : (s.qpOf q).sent.find? (fun m => m.seq == seq) = some m) (hkind : m.kind ≠ 0x83) :
    exec (.rnrNak q seq) s = .next ((s.ackBelow q seq).setQp q { (s.ackBelow q seq).qpOf q with
      rnr := min 8 ((s.qpOf q).rnr + 1), rnrAt := some (s.time (q / 256)) }) := by
  have hseq : (m.seq == seq) = true := List.find?_some (p := fun m : HostMsg => m.seq == seq) hm
  have hstays : (((s.ackBelow q seq).qpOf q).sent.any fun x => x.seq == seq) = true := by
    rw [State.qpOf_ackBelow]
    refine List.any_eq_true.2 ⟨m, List.mem_filter.2 ⟨List.mem_of_find?_eq_some hm, ?_⟩, hseq⟩
    simpa using (beq_iff_eq.1 hseq).ge
  change execRnrNak q seq s = _
  rw [execRnrNak, if_neg (Nat.not_le.2 hq), hm]
  dsimp only
  rw [if_neg (by simp [hconn]), if_neg hkind, if_pos hstays, State.time_ackBelow, State.qpOf_ackBelow]

end

theorem rnrTimerExpiry_set {t : Nat} (ht : (s.qpOf q).rnrAt = some t) : exec (.rnrTimerExpiry q) s =
    if t + 10000 ≤ s.time (q / 256) then .next ((s.setQp q { s.qpOf q with rnrAt := none }).resend q) else .next s := by
  change execRnrTimerExpiry q s = _
  rw [execRnrTimerExpiry, if_neg (Nat.not_le.2 hq), ht]

theorem rnrRetryExhausted_raises {m : HostMsg} {ms : List HostMsg} (hsent : (s.qpOf q).sent = m :: ms) (hkind : m.kind = 0x83)
    (hrnr : 8 ≤ (s.qpOf q).rnr) (hfirst : (s.qpOf q).exhausted = false) : exec (.rnrRetryExhausted q) s =
      .next ((s.setQp q { s.qpOf q with exhausted := true }).raise (R.HST_ERR_RNR_EXHAUSTED (q / 256)) (s.qpTen q)) := by
  change execRnrRetryExhausted q s = _
  rw [execRnrRetryExhausted, if_neg (Nat.not_le.2 hq)]
  dsimp only
  rw [hsent]
  exact if_pos ⟨hkind, hrnr, hfirst⟩

/-! ## Congestion (15 R382) -/

section
variable (hconn : s.connected q = true)
include hconn

theorem cnpReceive_slows : exec (.cnpReceive q) s =
    .next (s.setQp q { s.qpOf q with rate := max 1000000 ((s.qpOf q).rate / 2), cnpAt := s.time (q / 256) }) := by
  change execCnpReceive q s = _
  rw [execCnpReceive, if_neg (Nat.not_le.2 hq)]
  exact if_neg (by simp [hconn])

theorem ecnMarkedReceive_first (hnone : (s.qpOf q).cnpSent = none) : exec (.ecnMarkedReceive q) s =
    .next ((s.setQp q { s.qpOf q with cnpSent := some (s.time (q / 256)) }).hostOut (.cnp q)) := by
  change execEcnMarkedReceive q s = _
  rw [execEcnMarkedReceive, if_neg (Nat.not_le.2 hq), if_neg (by simp [hconn])]
  dsimp only
  rw [hnone]
  rfl

theorem ecnMarkedReceive_again {t : Nat} (ht : (s.qpOf q).cnpSent = some t) : exec (.ecnMarkedReceive q) s =
    if t + 50000 ≤ s.time (q / 256) then
      .next ((s.setQp q { s.qpOf q with cnpSent := some (s.time (q / 256)) }).hostOut (.cnp q))
    else .next s := by
  change execEcnMarkedReceive q s = _
  rw [execEcnMarkedReceive, if_neg (Nat.not_le.2 hq), if_neg (by simp [hconn])]
  dsimp only
  rw [ht]
  dsimp only
  by_cases hdue : t + 50000 ≤ s.time (q / 256)
  · rw [if_pos hdue, if_neg (by simpa using hdue)]
  · rw [if_neg hdue, if_pos (by simpa using hdue)]

theorem rateRecovery_raises (hquiet : (s.qpOf q).cnpAt + 55000 ≤ s.time (q / 256)) (hslow : (s.qpOf q).rate < 200000000) :
    exec (.rateRecovery q) s =
      .next (s.setQp q { s.qpOf q with rate := min 200000000 ((s.qpOf q).rate + 5000000), cnpAt := s.time (q / 256) }) := by
  change execRateRecovery q s = _
  rw [execRateRecovery, if_neg (Nat.not_le.2 hq)]
  exact if_neg (by simp [hconn, hquiet, hslow])

end

/-! ## The connection and its loss (15 R381, R401) -/

theorem cmRtu_connects (hstate : s.get (qpReg R.HST_QP_STATE q) = 1) :
    exec (.cmRtu q) s = .next (s.put (qpReg R.HST_QP_STATE q) 2) := by
  change execCmRtu q s = _
  rw [execCmRtu, if_neg (Nat.not_le.2 hq), if_pos hstate]

theorem qpLost_loses (hstate : s.get (qpReg R.HST_QP_STATE q) ≠ 0) (err : Bool) :
    exec (.qpLost q err) s = .next (s.loseQp q (if err && s.connected q then 3 else 0)) := by
  change execQpLost q err s = _
  rw [execQpLost, if_neg (Nat.not_le.2 hq), if_neg hstate]

end

/-- A connected pair's register is not at rest. -/
theorem State.connected_iff {s : State} {q : Nat} : s.connected q = true ↔ s.get (qpReg R.HST_QP_STATE q) = 2 := beq_iff_eq

/-- A pair lost: out of the connected state for another, its record gone, its HELLO and its accesses that wait forgotten. -/
def State.qpGone (s : State) (q dest : Nat) : State :=
  let s := s.put (qpReg R.HST_QP_STATE q) dest
  { s with ho := { s.ho with
    qps := tdel s.ho.qps q, hellos := s.ho.hellos.filter (· != q), held := s.ho.held.filter fun h => h.q != q } }

/-- The loss of a connected pair that has no batch to end or to move to its ring. -/
theorem State.loseQp_of_no_batches {s : State} {q : Nat} (hconn : s.connected q = true) (hlive : s.sv.batches = [])
    (htails : s.sv.tails = []) {dest : Nat} (hdest : dest ≠ 0) : s.loseQp q dest = (s.qpGone q dest).pruneTails := by
  unfold State.loseQp
  dsimp only
  rw [if_neg hdest, if_neg (by simp [hconn]), hlive]
  have hmine : (List.filter (fun p : Nat × Batch => p.2.qp == q && !p.2.noQp) []).map (·.2) ++
      (s.put (qpReg R.HST_QP_STATE q) dest).sv.tails.filter (fun b => b.qp == q && !b.noQp) = [] := by
    rw [State.put_sv, htails]
    rfl
  rw [hmine]
  rfl

/-- Such a loss leaves the pair in its new state. -/
theorem qpLost_of_no_batches {s : State} {q : Nat} (hq : q < 1024) (hconn : s.connected q = true) (hlive : s.sv.batches = [])
    (htails : s.sv.tails = []) : exec (.qpLost q true) s = .next (s.qpGone q 3).pruneTails := by
  rw [qpLost_loses hq (by rw [State.connected_iff.1 hconn]; decide), hconn]
  exact congrArg Host.Outcome.next (State.loseQp_of_no_batches hconn hlive htails (by decide))

theorem State.get_qpGone (s : State) (q : Nat) {dest : Nat} (hdest : dest < 8) :
    (s.qpGone q dest).pruneTails.get (qpReg R.HST_QP_STATE q) = dest :=
  (State.get_put_same s _ dest (by change 0 + 3 ≤ 64; decide)).trans (Nat.mod_eq_of_lt hdest)

/-! ## A port's pauses, frames dropped and connections asked for (15 R378 to R382) -/

section
variable {s : State} {port : Nat} (hport : port < 4)
include hport

theorem pfcPauseReceive_pauses {ns : Nat} (hns : 0 < ns) (hen : s.get (R.HST_CTL_PFC_EN port) = 1) :
    exec (.pfcPauseReceive port (s.get (R.HST_CTL_PFC_PRIO port)) ns) s =
      .next { s with ho := { s.ho with paused := tset s.ho.paused port (s.time port + ns) } } := by
  change execPfcPauseReceive port _ ns s = _
  rw [execPfcPauseReceive, if_neg (Nat.not_le.2 hport), if_neg (by simp [hen]), if_neg (Nat.pos_iff_ne_zero.1 hns)]

theorem pfcPauseExpiry_due {t : Nat} (ht : tfind s.ho.paused port = some t) (hdue : t ≤ s.time port) :
    exec (.pfcPauseExpiry port) s = .next (s.unpause port) := by
  change execPfcPauseExpiry port s = _
  rw [execPfcPauseExpiry, if_neg (Nat.not_le.2 hport), ht]
  exact if_pos hdue

/-- A frame dropped for its form concerns no tenancy. -/
theorem hostFrameDrop_counts : exec (.hostFrameDrop port .oversize) s = .next (s.raise (R.HST_ERR_OVERSIZE port) none) ∧
    exec (.hostFrameDrop port .fec) s = .next (s.raise (R.HST_ERR_FEC_UNCORR port) none) ∧
    exec (.hostFrameDrop port .fcs) s = .next (s.raise (R.HST_ERR_FEC_UNCORR port) none) :=
  have hport := Nat.not_le.2 hport
  ⟨if_neg hport, if_neg hport, if_neg hport⟩

theorem hostFrameDrop_unsupported {q : Nat} (hpair : q / 256 = port) (hconn : s.connected q = true) :
    exec (.hostFrameDrop port (.unsupported q)) s = .next ((s.raise (R.HST_ERR_UNSUPPORTED port) (s.qpTen q)).hostOut (.nak q 0)) := by
  change execHostFrameDrop port (.unsupported q) s = _
  unfold execHostFrameDrop
  rw [if_neg (Nat.not_le.2 hport)]
  simp [hpair, hconn]

section
variable {priv : Nat} (hen : s.get (R.HST_CTL_EN port) = 1) (hrole : bits priv 8 1 = 0)
include hen hrole

theorem cmReq_rejects (hten : s.closing (bits priv 9 6) = true ∨ s.tenPort (bits priv 9 6) ≠ port) (remote : Nat) :
    exec (.cmReq port remote priv) s = .next (s.hostOut (.cm port 1)) := by
  change execCmReq port remote priv s = _
  rw [execCmReq, if_neg (Nat.not_le.2 hport), if_neg (by rw [hen]; decide)]
  dsimp only
  have hno : (!s.closing (bits priv 9 6) && s.tenPort (bits priv 9 6) == port) = false := by
    rcases hten with h | h <;> simp [h]
  rw [if_pos hrole, hno]
  simp

theorem cmReq_answers (hver : bits priv 0 8 = 1) (hopen : s.closing (bits priv 9 6) = false) (hhome : s.tenPort (bits priv 9 6) = port) {f : Nat}
    (hfree : s.freeQp port = some f) (remote : Nat) : exec (.cmReq port remote priv) s =
      .next ((((((s.put (qpReg R.HST_QP_STATE f) 1).put (qpReg R.HST_QP_ROLE f) 0).put (qpReg R.HST_QP_TEN f) (bits priv 9 6)).put
        (qpReg R.HST_QP_REMOTE_QPN f) remote).setQp f {}).hostOut (.cm port 0)) := by
  change execCmReq port remote priv s = _
  rw [execCmReq, if_neg (Nat.not_le.2 hport), if_neg (by rw [hen]; decide)]
  dsimp only
  rw [if_pos hrole, hopen, hver, hhome]
  simp [hrole, hfree]

end
end

/-! ## Reads of a ring's consumer word (15 R399) -/

section
variable {s : State} {o i : Nat} {b : Batch} {r : Row} {k : RingBlk} {t : Nat} (hb : s.batchByOrder o = some b) (hr : b.rows[i]? = some r)
  (ht : r.consAsked = some t) (hk : r.req.ringBlk = some k)
include hb hr ht

include hk in
theorem ringConsPoll_asks (hwaits : r.records ≠ []) (hdue : t + 2000 ≤ s.time (b.qp / 256)) : exec (.ringConsPoll o i) s =
    .next ((s.askCons b.qp o i k).modRowOf o i fun r => { r with consAsked := some (s.time (b.qp / 256)) }) := by
  change execRingConsPoll o i s = _
  unfold execRingConsPoll
  rw [hb]
  dsimp only
  rw [hr]
  dsimp only
  rw [ht, hk]
  exact if_neg (by simp [hwaits, hdue])

end

/-! ## The answer to such a read (15 R399) -/

theorem Batch.modRowOf_modRowOf (o i : Nat) (f g : Row → Row) (b : Batch) :
    (b.modRowOf o i f).modRowOf o i g = b.modRowOf o i (g ∘ f) := by
  unfold Batch.modRowOf
  by_cases ho : b.order = o
  · simp [ho, Batch.modRow, List.modify_modify_eq]
  · simp [ho]

theorem tmap_tmap {α : Type} (f g : Nat → α → α) (t : Tab α) : tmap g (tmap f t) = tmap (fun k x => g k (f k x)) t := by
  unfold tmap
  rw [List.map_map]
  rfl

theorem State.batchByOrder_modRowOf (s : State) (o i : Nat) (f : Row → Row) :
    (s.modRowOf o i f).batchByOrder o = (s.batchByOrder o).map (Batch.modRowOf o i f) := by
  have hbatches : (s.modRowOf o i f).sv.batches.find? (fun p => p.2.order == o) =
      (s.sv.batches.find? fun p => p.2.order == o).map fun p => (p.1, p.2.modRowOf o i f) := by
    rw [State.modRowOf_batches, tmap, List.find?_map]
    exact congrArg (fun p => (s.sv.batches.find? p).map _) (funext fun p => by simp [Batch.modRowOf_order])
  have htails : (s.modRowOf o i f).sv.tails.find? (fun b => b.order == o) =
      (s.sv.tails.find? fun b => b.order == o).map (Batch.modRowOf o i f) := by
    change (s.sv.tails.map (Batch.modRowOf o i f)).find? _ = _
    rw [List.find?_map]
    exact congrArg (fun p => (s.sv.tails.find? p).map _) (funext fun b => by simp [Batch.modRowOf_order])
  unfold State.batchByOrder
  rw [hbatches, htails]
  cases s.sv.batches.find? fun p => p.2.order == o <;> rfl

section
variable {s : State} {o i : Nat} {b : Batch} {r : Row} (hb : s.batchByOrder o = some b) (hr : b.rows[i]? = some r)
include hb

theorem State.order_of_batchByOrder : b.order = o := by
  unfold State.batchByOrder at hb
  split at hb
  · rename_i p hp
    cases hb
    simpa using List.find?_some hp
  · simpa using List.find?_some hb

include hr

/-- With no record of row i waiting its ring stands as it is. -/
theorem State.flushRow_of_no_records (hnone : r.records = []) : s.flushRow o i = s.pruneTails := by
  unfold State.flushRow
  rw [hb]
  dsimp only
  rw [hr]
  dsimp only
  rw [hnone]
  rfl

end

theorem State.consRead_sv (s : State) (o i : Nat) : (s.consRead o i).sv = s.sv := by
  unfold State.consRead
  split
  · rfl
  · dsimp only
    split
    · split <;> rfl
    · rfl

/-- An answer to a read that no pair has outstanding frees none. -/
theorem State.consRead_none {s : State} {o i : Nat} (h : ∀ p ∈ s.ho.qps, (p.2.reads.take 4).contains (o, i) = false) :
    s.consRead o i = s := by
  unfold State.consRead
  rw [List.find?_eq_none.2 fun p hp => by rw [h p hp]; decide]

/-- A row with its consumer word read. -/
def Row.consTold (v : Nat) (r : Row) : Row := { r with cons := v % 2 ^ 64 }

/-- A row that asks no more for its consumer word once nothing waits for its ring. -/
def Row.consSettled (r : Row) : Row := if r.records.isEmpty then { r with consAsked := none } else r

/-- The consumer word read for a row whose ring nothing waits for. -/
theorem rdmaReadResponse_settles {s : State} {o i v : Nat} {b : Batch} {r : Row} (hb : s.batchByOrder o = some b)
    (hr : b.rows[i]? = some r) (hasked : r.consAsked.isSome = true) (hnone : r.records = []) : exec (.rdmaReadResponse o i v) s =
      .next ((((s.consRead o i).modRowOf o i (Row.consTold v)).pruneTails).modRowOf o i Row.consSettled) := by
  have hb' : (s.consRead o i).batchByOrder o = some b := by
    rw [State.batchByOrder, State.consRead_sv]
    exact hb
  have hrow : (b.modRowOf o i (Row.consTold v)).rows[i]? = some (r.consTold v) := by
    rw [Batch.modRowOf, if_pos (State.order_of_batchByOrder hb), Batch.modRow]
    simp [hr]
  have hflush := State.flushRow_of_no_records (s := (s.consRead o i).modRowOf o i (Row.consTold v))
    (by rw [State.batchByOrder_modRowOf, hb']; rfl) hrow hnone
  rw [← hflush]
  change execRdmaReadResponse o i v s = _
  unfold execRdmaReadResponse
  dsimp only
  rw [hb']
  dsimp only
  rw [hr]
  exact if_neg (by simpa [Option.isSome_iff_ne_none] using hasked)

/-- What such an answer makes of the batches. -/
theorem State.consSettled_batches (s : State) (o i v : Nat) :
    ((((s.consRead o i).modRowOf o i (Row.consTold v)).pruneTails).modRowOf o i Row.consSettled).sv.batches =
      tmap (fun _ => Batch.modRowOf o i (Row.consSettled ∘ Row.consTold v)) s.sv.batches := by
  rw [State.modRowOf_batches]
  change tmap _ ((s.consRead o i).modRowOf o i (Row.consTold v)).sv.batches = _
  rw [State.modRowOf_batches, tmap_tmap, State.consRead_sv]
  simp only [Batch.modRowOf_modRowOf]

/-! ## The obligation -/

/-- Settles O50: what each row of the transport comes to on the pair, the port or the ring that it names. -/
theorem queuePairsAcknowledgeAndRecover : Obligations.QueuePairsAcknowledgeAndRecover := by
  intro s q hq
  have hport : q / 256 < 4 := by omega
  refine ⟨fun n hconn hn => ⟨roceAcknowledge_acks hq hconn hn, roceAcknowledge_naks hq hconn hn⟩,
    fun n => congrArg Qp.sent (s.qpOf_ackBelow q n), fun hconn hsent hheld hlate => ?timeout, qpLost_loses hq, fun hconn hlive htails => ?lost,
    fun seq m hconn hm hkind => ?rnr, fun t ht => ?timer, fun m ms => rnrRetryExhausted_raises hq, cnpReceive_slows hq,
    ecnMarkedReceive_first hq, fun hconn t => ecnMarkedReceive_again hq hconn, rateRecovery_raises hq, cmRtu_connects hq,
    fun ns => pfcPauseReceive_pauses hport, fun t => pfcPauseExpiry_due hport, ?drop, fun remote priv hen hver hrole => ?connect,
    fun o i b r k t hb hr ht hk => ⟨ringConsPoll_asks hb hr ht hk, fun v hnone => ?read⟩⟩
  case timeout =>
    rw [roceAckTimeout_due hq hconn hsent hheld hlate]
    exact ⟨fun h => if_neg (Nat.not_le.2 h), fun h => if_pos h⟩
  case lost => exact ⟨_, qpLost_of_no_batches hq hconn hlive htails, s.get_qpGone q (by decide), rfl, rfl⟩
  case rnr =>
    refine ⟨_, rnrNak_waits hq hconn hm hkind, ?_⟩
    rw [State.qpOf_setQp, State.qpOf_ackBelow]
    exact ⟨rfl, rfl, rfl⟩
  case timer =>
    rw [rnrTimerExpiry_set hq ht]
    exact ⟨fun h => if_pos h, fun h => if_neg (Nat.not_le.2 h)⟩
  case drop =>
    obtain ⟨oversize, fec, fcs⟩ := hostFrameDrop_counts (s := s) hport
    exact ⟨oversize, fec, fcs, hostFrameDrop_unsupported hport rfl⟩
  case connect =>
    exact ⟨fun hten => cmReq_rejects hport hen hrole hten remote,
      fun hopen hhome f hfree => cmReq_answers hport hen hrole hver hopen hhome hfree remote⟩
  case read =>
    refine ⟨_, rdmaReadResponse_settles hb hr (by rw [ht]; rfl) hnone, fun hnoread => ?_, ?_⟩
    · rw [State.consRead_none hnoread]
      rfl
    · exact State.consSettled_batches s o i v

end Sys2Proof.Machine
end

section
/-!
PROOFS. Loads of images, programs and variants (15 R406, 20 R510, 06 R149 to R154, 13 R346): a load's chunks and verdict, what a bind does, when
a variant leaves.
-/

namespace Sys2Proof.Machine
open Sys2Proof.Claims

/-! ## What a cause leaves of a load in progress (22 R543, R551) -/

section
variable (s : State) (ten : Option Nat)

theorem State.sendEvent_img (kind reason stamp : Nat) (detail : List Nat) :
    (s.sendEvent kind reason ten stamp detail).ho.img = s.ho.img := by
  unfold State.sendEvent
  split
  · split <;> rfl
  · split
    · rfl
    · exact List.foldlRecOn (motive := fun u : State => u.ho.img = s.ho.img) _ _ rfl fun _ hu _ _ => hu

theorem State.logCause_img (block inst kind code d0 d1 : Nat) : (s.logCause block inst kind code ten d0 d1).1.ho.img = s.ho.img := by
  unfold State.logCause
  dsimp only
  split <;> rfl

theorem State.raise_img (f : Field) : (s.raise f ten).ho.img = s.ho.img := by
  unfold State.raise State.raiseAt State.raiseSeq
  split
  · rfl
  · dsimp only
    split
    · rfl
    · dsimp only
      split
      · exact (State.sendEvent_img _ _ _ _ _ _).trans (State.logCause_img _ _ _ _ _ _ _ _)
      · exact State.logCause_img _ _ _ _ _ _ _ _

end

/-! ## A write of HST_IMG_CTL (15 R406) -/

/-- A register written with its own word reads on as it did. -/
theorem State.get_setReg_reg (s : State) (off : Nat) (f : Field) : (s.setReg off (s.reg off).toNat).get f = s.get f := by
  refine State.get_of_reg ?_
  rw [State.reg_setReg]
  split
  · rename_i h
    rw [h, Machine.word, BitVec.ofNat_toNat, BitVec.setWidth_eq]
  · rfl

/-- HST_IMG_CTL once written: its fields are write-only and keep nothing. -/
def State.imgCtlWritten (s : State) : State := s.setReg R.HST_IMG_CTL (s.reg R.HST_IMG_CTL).toNat

/-- The map's entry of HST_IMG_CTL (15 Table 15.17). -/
def imgCtlDef : RegDef := ⟨.img, R.HST_IMG_CTL, [], 0, [⟨0, 2, .wo, 0⟩, ⟨2, 2, .wo, 0⟩, ⟨4, 6, .wo, 0⟩]⟩

theorem findReg_HST_IMG_CTL : findReg R.HST_IMG_CTL = some (imgCtlDef, []) := by decide +kernel

/-- A write of HST_IMG_CTL by one who may does the operation that it names. -/
theorem State.writeRow_imgCtl {s : State} {via : Via} (hvia : mayWrite s via) (hpower : s.unitPowered .img 0 = true) (v : Nat) :
    s.writeRow via R.HST_IMG_CTL v = .next (s.imgCtlWritten.imgOp (bits v 0 2) (bits v 2 2) (bits v 4 6)) := by
  have taken : s.regWrite via R.HST_IMG_CTL v = s.imgCtlWritten.imgOp (bits v 0 2) (bits v 2 2) (bits v 4 6) := by
    have hpowered : s.regPowered imgCtlDef [] = true := by
      rw [State.regPowered, if_neg (by decide), Bool.and_true]
      exact hpower
    unfold State.regWrite
    rw [findReg_HST_IMG_CTL]
    exact if_neg (by simp [hpowered])
  rcases hvia with rfl | ⟨q, rfl, hq, hmanager⟩
  · rw [State.writeRow_steward, taken]
  · rw [State.writeRow_host _ _ _ _ hq, if_pos hmanager, taken]

/-- The result of an operation, a code of 8 bits. -/
theorem State.get_imgResult (s : State) (code : Nat) : (s.imgResult code).get R.HST_IMG_STS_CHK = code % 2 ^ 8 :=
  State.get_put_same _ _ _ (by decide)

/-! ## A load, operation by operation (15 R406) -/

section
variable {s : State} {l : ImgLoad}

theorem State.imgBegin_starts (hidle : s.ho.img = none) (hbusy : s.get R.SEC_FW_STS_BUSY = 0) (k t : Nat) :
    (s.imgBegin k t).ho.img = some ⟨k, t, 0, false, false⟩ ∧ (s.imgBegin k t).get R.HST_IMG_STS_ACTIVE = 1 ∧
      (s.imgBegin k t).get R.HST_IMG_STS_RECEIVED = 0 ∧ (s.imgBegin k t).get R.HST_IMG_STS_CHK = 0 := by
  rw [State.imgBegin, if_neg (by simp [hidle, hbusy])]
  refine ⟨rfl, ?_, ?_, State.get_imgResult _ 0⟩
  · rw [State.imgResult, State.get_put_apart _ _ _ _ (by decide) (by decide), State.get_put_apart _ _ _ _ (by decide) (by decide),
      State.get_put_same _ _ _ (by decide)]
    rfl
  · rw [State.imgResult, State.get_put_apart _ _ _ _ (by decide) (by decide), State.get_put_same _ _ _ (by decide)]
    rfl

theorem State.imgBegin_refused (hloading : s.ho.img.isSome = true) (k t : Nat) : s.imgBegin k t = s.imgResult 0x7A :=
  if_pos (.inl hloading)

/-- A load with the staged bytes taken after those received, and whether they could be programmed. -/
def State.chunked (s : State) (l : ImgLoad) : State :=
  let n := s.get R.HST_IMG_LEN_BYTES
  (s.writeRun (key spLoad l.received) (s.run (key spStage 0) n)).setImg
    (some { l with received := l.received + n, nv := l.nv || !s.nvOk })

theorem State.imgChunk_takes (hload : s.ho.img = some l) (hopen : l.ended = false) (hsome : 1 ≤ s.get R.HST_IMG_LEN_BYTES)
    (hmax : s.get R.HST_IMG_LEN_BYTES ≤ 1073741824) :
    s.imgChunk.ho.img = (s.chunked l).ho.img ∧ s.imgChunk.mem = (s.chunked l).mem ∧ s.imgChunk.get R.HST_IMG_STS_CHK = 0 := by
  have takes : ¬ (l.ended = true ∨ s.get R.HST_IMG_LEN_BYTES = 0 ∨ chunkMax < s.get R.HST_IMG_LEN_BYTES) := by
    unfold chunkMax
    simp only [hopen, Bool.false_eq_true, false_or]
    omega
  unfold State.imgChunk
  rw [hload]
  dsimp only
  rw [if_neg takes]
  refine ⟨?_, ?_, State.get_imgResult _ 0⟩
  · split
    · rfl
    · exact State.raise_img _ _ _
  · split
    · rfl
    · exact State.raise_mem _ _ _

theorem State.imgChunk_empty (hload : s.ho.img = some l) (hnone : s.get R.HST_IMG_LEN_BYTES = 0) : s.imgChunk = s.imgResult 0x7A := by
  unfold State.imgChunk
  rw [hload]
  exact if_pos (.inr (.inl hnone))

theorem State.imgEnd_ends (hload : s.ho.img = some l) (hopen : l.ended = false) :
    s.imgEnd = (s.setImg (some { l with ended := true })).imgResult 0 := by
  unfold State.imgEnd
  rw [hload]
  exact if_neg (by simp [hopen])

end

section
variable {s : State} {via : Via} (hvia : mayWrite s via) (hpower : s.unitPowered .img 0 = true)
include hvia hpower

theorem hstImgBegin_writes (k t : Nat) :
    exec (.hstImgBegin via k t) s = .next (s.imgCtlWritten.imgBegin (k % 4) (t % 64)) := by
  refine (State.writeRow_imgCtl hvia hpower _).trans ?_
  have op : bits (1 + k % 4 * 4 + t % 64 * 16) 0 2 = 1 := by unfold bits; omega
  have kind : bits (1 + k % 4 * 4 + t % 64 * 16) 2 2 = k % 4 := by unfold bits; omega
  have target : bits (1 + k % 4 * 4 + t % 64 * 16) 4 6 = t % 64 := by unfold bits; omega
  rw [op, kind, target]
  rfl

theorem hstImgChunk_writes : exec (.hstImgChunk via) s = .next s.imgCtlWritten.imgChunk := State.writeRow_imgCtl hvia hpower 2

theorem hstImgEnd_writes : exec (.hstImgEnd via) s = .next s.imgCtlWritten.imgEnd := State.writeRow_imgCtl hvia hpower 3

end

/-! ## The verdict on an image (20 R510) -/

section
variable {s : State} {l : ImgLoad} {content : ImgContent} (hload : s.ho.img = some l)
include hload

theorem imageCheckDone_waits (hopen : l.ended = false) : exec (.imageCheckDone content) s = .next s := by
  change execImageCheckDone content s = _
  unfold execImageCheckDone
  rw [hload]
  exact if_pos (by simp [hopen])

variable (hended : l.ended = true)
include hended

theorem imageCheckDone_blocked (hnv : l.nv = true) :
    exec (.imageCheckDone content) s = .next ((s.raise R.SEC_ERR_IMG_REFUSED none).imageDone l 0xA1) := by
  change execImageCheckDone content s = _
  unfold execImageCheckDone
  rw [hload]
  dsimp only
  rw [if_neg (by simp [hended]), if_pos hnv]

variable (hnv : l.nv = false)
include hnv

theorem imageCheckDone_reserved (hkind : l.number = none) :
    exec (.imageCheckDone content) s = .next ((s.raise R.SEC_ERR_IMG_REFUSED none).imageDone l 0xA2) := by
  change execImageCheckDone content s = _
  unfold execImageCheckDone
  rw [hload]
  dsimp only
  rw [if_neg (by simp [hended]), if_neg (by simp [hnv]), hkind]

variable {i : Nat} (hkind : l.number = some i)
include hkind

theorem imageCheckDone_refused {code : Nat} (hcheck : s.loadImage i (s.run (key spLoad 0) l.received) content false = .error code) :
    exec (.imageCheckDone content) s = .next ((s.raise R.SEC_ERR_IMG_REFUSED none).imageDone l code) := by
  change execImageCheckDone content s = _
  unfold execImageCheckDone
  rw [hload]
  dsimp only
  rw [if_neg (by simp [hended]), if_neg (by simp [hnv]), hkind]
  dsimp only
  rw [hcheck]
  rfl

/-- A passed image kept in the store region. -/
def State.imageKept (w : State) (i : Nat) (bs : List Byte) (content : ImgContent) (n : Nat) : State :=
  let w := (w.clearRun (key (spImage i) 0) (2 ^ 56)).writeRun (key (spImage i) 0) bs
  { w with nv := { w.nv with images := tset w.nv.images i (n, content) } }

theorem imageCheckDone_passes {w : State} (hcheck : s.loadImage i (s.run (key spLoad 0) l.received) content false = .ok w) :
    exec (.imageCheckDone content) s =
      .next ((w.imageKept i (s.run (key spLoad 0) l.received) content l.received).imageDone l 0) := by
  change execImageCheckDone content s = _
  unfold execImageCheckDone
  rw [hload]
  dsimp only
  rw [if_neg (by simp [hended]), if_neg (by simp [hnv]), hkind]
  dsimp only
  rw [hcheck]
  rfl

end

/-- The load is over, its verdict in HST_IMG_STS. -/
theorem State.imageDone_spec (s : State) (l : ImgLoad) {code : Nat} (hcode : code < 256) : (s.imageDone l code).ho.img = none ∧
    (s.imageDone l code).get R.HST_IMG_STS_ACTIVE = 0 ∧ (s.imageDone l code).get R.HST_IMG_STS_CHK = code := by
  have sent (u : State) (f : Field) (hf : offRecord f.reg) (stamp : Nat) (detail : List Nat) :
      (u.sendEvent 0x04 code none stamp detail).get f = u.get f := State.get_of_reg (State.reg_sendEvent hf _ _ _ _ _ _)
  refine ⟨State.sendEvent_img _ _ _ _ _ _, ?_, ?_⟩
  · rw [State.imageDone, sent _ _ (by decide), State.get_put_apart _ _ _ _ (by decide) (by decide)]
    refine (State.get_put_apart _ _ _ _ (by decide) (by decide)).trans ?_
    exact State.get_put_same _ _ _ (by decide)
  · rw [State.imageDone, sent _ _ (by decide), State.get_put_apart _ _ _ _ (by decide) (by decide)]
    exact (State.get_imgResult _ code).trans (Nat.mod_eq_of_lt hcode)

/-! ## Programs (06 R149, R154) -/

section
variable {s : State} {ten port : Nat} {m : Manifest} (hten : ten < 64) (hport : port < 4)
include hten hport

theorem programBind_refused {v : Verdict} (hcheck : s.ldrRefusal ten m = some v) :
    exec (.programBind ten port m) s = .next (s.verdict v) := by
  change execProgramBind ten port m s = _
  rw [execProgramBind, if_neg (by omega), hcheck]

theorem programBind_waits (hcheck : s.ldrRefusal ten m = none) (hold : (tfind (s.unbind ten).x.progs ten).isSome = true) :
    exec (.programBind ten port m) s = .next (s.unbind ten) := by
  change execProgramBind ten port m s = _
  rw [execProgramBind, if_neg (by omega), hcheck]
  exact if_pos hold

theorem programBind_binds (hcheck : s.ldrRefusal ten m = none) (hgone : tfind (s.unbind ten).x.progs ten = none) :
    exec (.programBind ten port m) s =
      .next (((s.unbind ten).bindProgram ten port m).verdict ⟨ten, 0, 0xFFFF, 0xFFFF, 0xFF, 0, 0⟩) := by
  change execProgramBind ten port m s = _
  rw [execProgramBind, if_neg (by omega), hcheck]
  exact if_neg (by simp [hgone])

end

/-! ## Variants (06 R153, 13 R346) -/

section
variable {s : State} {v base size : Nat} (hlow : 1 ≤ v) (hhigh : v ≤ 256)

/-- Whether a bound program stays within the caps of its checks 8 and 10 under a table of variants. -/
abbrev State.staysUnder (s : State) (vs : Tab (Nat × Nat)) (p : Nat × Program) : Prop :=
  s.ldr8 p.1 vs p.2.manifest = none ∧ s.ldr10 p.1 vs p.2.manifest = none

include hlow hhigh

theorem variantLoad_loads (hstays : ∀ p ∈ s.x.progs, s.staysUnder (tset s.en.variants v (base, size)) p) :
    exec (.variantLoad v base size) s = .next { s with en := { s.en with variants := tset s.en.variants v (base, size) } } := by
  change execVariantLoad v base size s = _
  rw [execVariantLoad, if_neg (by omega)]
  dsimp only
  split
  · rename_i r hr
    obtain ⟨p, hp, hbad⟩ := List.exists_of_findSome?_eq_some hr
    obtain ⟨h8, h10⟩ := hstays p hp
    rw [h8] at hbad
    exact absurd (h10.symm.trans hbad) (by simp)
  · rfl

theorem variantLoad_refused (hbreaks : ∃ p ∈ s.x.progs, ¬ s.staysUnder (tset s.en.variants v (base, size)) p) :
    ∃ r, exec (.variantLoad v base size) s = .next (s.verdict r) := by
  change ∃ r, execVariantLoad v base size s = _
  rw [execVariantLoad, if_neg (by omega)]
  dsimp only
  split
  · exact ⟨_, rfl⟩
  · rename_i hnone
    obtain ⟨p, hp, hbreak⟩ := hbreaks
    have hfine := List.findSome?_eq_none_iff.1 hnone p hp
    split at hfine
    · cases hfine
    · rename_i h8
      exact absurd ⟨h8, hfine⟩ hbreak

end

/-- Whether a live request names a variant. -/
def State.namesVariant (s : State) (v : Nat) : Bool := s.sv.batches.any fun p => p.2.rows.any fun r => r.live && r.req.gen.variant == v

theorem State.namesVariant_iff {s : State} {v : Nat} : s.namesVariant v = true ↔
    ∃ p r, p ∈ s.sv.batches ∧ r ∈ p.2.rows ∧ r.live = true ∧ r.req.gen.variant = v := by
  simp only [State.namesVariant, List.any_eq_true, Bool.and_eq_true, beq_iff_eq]
  exact ⟨fun ⟨p, hp, r, hr⟩ => ⟨p, r, hp, hr⟩, fun ⟨p, r, hp, hr⟩ => ⟨p, hp, r, hr⟩⟩

section
variable {α : Type}

theorem tfilter_cons (f : Nat → α → Bool) (k : Nat) (x : α) (t : Tab α) :
    tfilter f ((k, x) :: t) = if f k x then (k, x) :: tfilter f t else tfilter f t := List.filter_cons

variable {keep : Nat → Bool} {t : Tab α} {i : Nat}

/-- An entry of a number that a filter keeps is found as before. -/
theorem tfind_tfilter_kept {x : α} (h : tfind t i = some x) (hkeep : keep i = true) : tfind (tfilter (fun k _ => keep k) t) i = some x := by
  induction t with
  | nil => cases h
  | cons p t ih =>
    obtain ⟨k, y⟩ := p
    rw [tfilter_cons]
    unfold tfind at h
    split at h
    · rename_i hik
      rw [if_pos (hik ▸ hkeep), tfind, if_pos hik, h]
    · rename_i hik
      split at h
      · cases h
      · rename_i hlt
        split
        · rw [tfind, if_neg hik, if_neg hlt, ih h]
        · exact ih h

/-- An entry of a number that a filter drops is gone. -/
theorem tfind_tfilter_dropped (hdrop : keep i = false) : tfind (tfilter (fun k _ => keep k) t) i = none := by
  induction t with
  | nil => rfl
  | cons p t ih =>
    obtain ⟨k, y⟩ := p
    rw [tfilter_cons]
    split
    · rename_i hkeep
      have hik : i ≠ k := fun e => absurd (hdrop.symm.trans (e ▸ hkeep)) (by decide)
      rw [tfind, if_neg hik, ih, ite_self]
    · exact ih

end

/-- The variants whose removal takes effect: no live request names them. -/
def State.variantsGone (s : State) : List Nat := s.sv.removing.filter fun v => !s.namesVariant v

theorem State.settleVariants_removing (s : State) : s.settleVariants.sv.removing = s.sv.removing.filter s.namesVariant := rfl

theorem State.settleVariants_variants (s : State) :
    s.settleVariants.en.variants = tfilter (fun k _ => !s.variantsGone.contains k) s.en.variants := rfl

/-- A variant whose removal is asked for. -/
def State.variantLeaving (s : State) (v : Nat) : State := { s with sv := { s.sv with removing := addNew s.sv.removing v } }

@[simp] theorem State.namesVariant_variantLeaving (s : State) (v w : Nat) : (s.variantLeaving v).namesVariant w = s.namesVariant w := rfl

section
variable {s : State} {v : Nat} (hloaded : (tfind s.en.variants v).isSome = true)

include hloaded in
theorem variantRemoval_settles : exec (.variantRemoval v) s = .next (s.variantLeaving v).settleVariants := by
  change execVariantRemoval v s = _
  rw [execVariantRemoval, if_neg (by simpa [Option.isSome_iff_ne_none] using hloaded)]
  rfl

include hloaded in
/-- While a live request names it, the variant stays. -/
theorem State.variantLeaving_named (hnamed : s.namesVariant v = true) :
    v ∈ (s.variantLeaving v).settleVariants.sv.removing ∧
      tfind (s.variantLeaving v).settleVariants.en.variants v = tfind s.en.variants v := by
  obtain ⟨x, hx⟩ := Option.isSome_iff_exists.1 hloaded
  have hstays : v ∉ (s.variantLeaving v).variantsGone := fun h => by
    obtain ⟨-, hfree⟩ := List.mem_filter.1 h
    simp [hnamed] at hfree
  rw [State.settleVariants_removing, State.settleVariants_variants]
  exact ⟨List.mem_filter.2 ⟨mem_addNew _ _, hnamed⟩, (tfind_tfilter_kept hx (by simpa using hstays)).trans hx.symm⟩

/-- Once no live request names it, the variant is gone. -/
theorem State.variantLeaving_unnamed (hfree : s.namesVariant v = false) :
    v ∉ (s.variantLeaving v).settleVariants.sv.removing ∧ tfind (s.variantLeaving v).settleVariants.en.variants v = none := by
  have hgone : v ∈ (s.variantLeaving v).variantsGone := List.mem_filter.2 ⟨mem_addNew _ _, by simp [hfree]⟩
  rw [State.settleVariants_removing, State.settleVariants_variants]
  refine ⟨fun h => ?_, tfind_tfilter_dropped (by simpa using hgone)⟩
  obtain ⟨-, hnamed⟩ := List.mem_filter.1 h
  simp [hfree] at hnamed

end

/-- Settles O51: a write of HST_IMG_CTL does its operation on the load; the check of an image, of a program and of a variant decides between its
verdict and its effect. -/
theorem imagesAndProgramsLoad : Obligations.ImagesAndProgramsLoad := by
  intro s
  refine ⟨fun via hvia hpower => ⟨?begins, ?busy, fun l hload hopen => ⟨?chunk, ?empty, ?ends⟩⟩, fun l content hload => ?check,
    fun ten port m hten hport => ?bind, fun v base size hlow hhigh => ?load, fun v hloaded => ?remove⟩
  case begins =>
    intro k t hk ht hidle hbusy
    have hbegins := State.imgBegin_starts (s := s.imgCtlWritten) hidle ((s.get_setReg_reg _ _).trans hbusy) k t
    refine ⟨_, hstImgBegin_writes hvia hpower k t, ?_⟩
    rwa [Nat.mod_eq_of_lt hk, Nat.mod_eq_of_lt ht]
  case busy =>
    intro k t hloading
    refine ⟨_, hstImgBegin_writes hvia hpower k t, ?_⟩
    rw [State.imgBegin_refused (s := s.imgCtlWritten) hloading]
    exact ⟨rfl, rfl, State.get_imgResult _ _⟩
  case chunk =>
    intro hsome hmax
    have hlen : s.imgCtlWritten.get R.HST_IMG_LEN_BYTES = s.get R.HST_IMG_LEN_BYTES := s.get_setReg_reg _ _
    have hnv : s.imgCtlWritten.nvOk = s.nvOk := congrArg (· == 1) (s.get_setReg_reg _ R.PWR_STS_NV_OK)
    obtain ⟨himg, hmem, hchk⟩ := State.imgChunk_takes (s := s.imgCtlWritten) hload hopen (by rwa [hlen]) (by rwa [hlen])
    refine ⟨_, hstImgChunk_writes hvia hpower, himg.trans ?_, hmem.trans ?_, hchk⟩
    · rw [State.chunked, hlen, hnv]
      rfl
    · rw [State.chunked, hlen]
      rfl
  case empty =>
    intro hnone
    refine ⟨_, hstImgChunk_writes hvia hpower, ?_⟩
    rw [State.imgChunk_empty (s := s.imgCtlWritten) hload ((s.get_setReg_reg _ _).trans hnone)]
    exact ⟨hload, rfl, State.get_imgResult _ _⟩
  case ends =>
    refine ⟨_, hstImgEnd_writes hvia hpower, ?_⟩
    rw [State.imgEnd_ends (s := s.imgCtlWritten) hload hopen]
    exact ⟨rfl, rfl, State.get_imgResult _ _⟩
  case check =>
    exact ⟨imageCheckDone_waits hload, imageCheckDone_blocked hload, imageCheckDone_reserved hload,
      fun hended hnv i hkind => ⟨fun _ => imageCheckDone_refused hload hended hnv hkind, fun _ => imageCheckDone_passes hload hended hnv hkind⟩,
      fun _ => s.imageDone_spec l⟩
  case bind =>
    exact ⟨fun _ => programBind_refused hten hport, programBind_waits hten hport, programBind_binds hten hport⟩
  case load => exact ⟨variantLoad_loads hlow hhigh, variantLoad_refused hlow hhigh⟩
  case remove =>
    refine ⟨_, variantRemoval_settles hloaded, rfl, fun hused => State.variantLeaving_named hloaded (State.namesVariant_iff.2 hused),
      fun hfree => State.variantLeaving_unnamed (Bool.eq_false_iff.2 fun hnamed => hfree (State.namesVariant_iff.1 hnamed))⟩

end Sys2Proof.Machine
end

section
/-!
PROOFS. The fabric's links (16 R411 to R427): what sends leave of the module, what a caravan's arrival comes to, and how a port enters and leaves
routing.
-/

namespace Sys2Proof.Machine
open Sys2Proof.Claims

/-! ## What sends leave (16 R414 to R417, R425, R426) -/

/-- Whether an offset is no fabric port's counter of caravans sent. -/
abbrev uncounted (off : Nat) : Prop := off < 0x501000 ∨ off % 0x20 ≠ 0x10

theorem uncounted.ne_FAB_PORT_CNT {off : Nat} (h : uncounted off) (n : Nat) : off ≠ R.FAB_PORT_CNT n := by
  unfold R.FAB_PORT_CNT
  omega

/-- Whether a state differs from another at most by caravans on their way: the ports' counters of those sent, the crossings, the link numbers, the
caravans kept, waiting and for the module itself, the numbers they took, and the mirror caravans that wait for their acknowledgement. -/
structure State.sends (s u : State) : Prop where
  state : u = { s with
    cw := u.cw
    cx := u.cx
    fa := { s.fa with
      lseq := u.fa.lseq, unacked := u.fa.unacked, waiting := u.fa.waiting, selfIn := u.fa.selfIn, pseq := u.fa.pseq, oseq := u.fa.oseq,
      mirrors := u.fa.mirrors } }
  reg : ∀ off, uncounted off → u.reg off = s.reg off

theorem State.sends_refl (s : State) : s.sends s := ⟨rfl, fun _ _ => rfl⟩

theorem State.sends_trans {s u v : State} (h : s.sends u) (h' : u.sends v) : s.sends v := by
  refine ⟨?_, fun off hoff => (h'.reg off hoff).trans (h.reg off hoff)⟩
  rw [h'.state, h.state]

theorem State.sends_foldl {α : Type} {f : State → α → State} (hf : ∀ (u : State) (a : α), u.sends (f u a)) (l : List α) (s : State) :
    s.sends (l.foldl f s) :=
  List.foldlRecOn l f s.sends_refl fun u h a _ => State.sends_trans h (hf u a)

theorem State.sends_ite {p : Prop} [Decidable p] {s u v : State} (hu : s.sends u) (hv : s.sends v) : s.sends (if p then u else v) := by
  split
  · exact hu
  · exact hv

theorem State.sends_sendOn (s : State) (n : Nat) (c : Car) : s.sends (s.sendOn n c) :=
  ⟨rfl, fun _ hoff => State.reg_put_other _ _ _ _ (hoff.ne_FAB_PORT_CNT n)⟩

theorem State.sends_holdCar (s : State) (table : Nat) (c : Car) : s.sends (s.holdCar table c) := ⟨rfl, fun _ _ => rfl⟩

theorem State.sends_selfTake (s : State) (c : Car) : s.sends (s.selfTake c) := ⟨rfl, fun _ _ => rfl⟩

theorem State.sends_number (s : State) (c : Car) : s.sends (s.number c).1 := by
  unfold State.number
  split
  · exact s.sends_refl
  · dsimp only
    split <;> exact ⟨rfl, fun _ _ => rfl⟩

theorem State.sends_awaitMir (s : State) (kind n : Nat) : s.sends (s.awaitMir kind n) :=
  State.sends_ite s.sends_refl ⟨rfl, fun _ _ => rfl⟩

theorem State.sends_copies (s : State) (table : Nat) (c : Car) : s.sends (s.copies table c) := by
  unfold State.copies
  extract_lets g far portOf sent none_
  have hsent : s.sends sent := State.sends_foldl (fun u n => State.sends_ite u.sends_refl (u.sends_sendOn n _)) _ s
  exact State.sends_ite hsent (State.sends_trans hsent (sent.sends_holdCar _ _))

theorem State.sends_route (s : State) (table : Nat) (c : Car) : s.sends (s.route table c) := by
  unfold State.route
  split
  · exact s.sends_selfTake c
  · split
    · exact s.sends_holdCar table c
    · split
      · exact State.sends_trans (State.sends_ite s.sends_refl (s.sends_selfTake _)) (State.sends_copies _ _ _)
      · split
        · split
          · exact s.sends_sendOn _ c
          · exact s.sends_holdCar table c
        · exact s.sends_holdCar table c

theorem State.sends_sendOnPort (s : State) (n kind cls dst ten space : Nat) (words : List Nat) (data : List Byte) :
    s.sends (s.sendOnPort n kind cls dst ten space words data) :=
  State.sends_trans (s.sends_number _) (State.sends_sendOn _ _ _)

theorem State.sends_sendLink (s : State) (n kind : Nat) (words : List Nat) : s.sends (s.sendLink n kind words) :=
  s.sends_sendOnPort _ _ _ _ _ _ _ _

theorem State.sends_mirror (s : State) (kind ten : Nat) (words : List Nat) (data : List Byte) :
    s.sends (s.mirror kind ten words data) := by
  unfold State.mirror
  split
  · exact State.sends_trans (State.sends_trans (s.sends_number _) (State.sends_holdCar _ _ _)) (State.sends_awaitMir _ _ _)
  · exact State.sends_trans (s.sends_sendOnPort _ _ _ _ _ _ _ _) (State.sends_awaitMir _ _ _)

/-- A field within a register that sends leave. -/
abbrev Field.unsent (g : Field) : Prop := uncounted g.reg ∧ g.lo + g.w ≤ 64

theorem State.sends.get {s u : State} (h : s.sends u) {g : Field} (hg : g.unsent) : u.get g = s.get g :=
  State.get_of_reg (h.reg _ hg.1)

theorem State.sends.topo {s u : State} (h : s.sends u) : u.fa.topo = s.fa.topo := by rw [h.state]

theorem State.sends.batches {s u : State} (h : s.sends u) : u.sv.batches = s.sv.batches := by rw [h.state]

/-! ## The link at a caravan's arrival (16 R412, R414, R416, R417) -/

theorem State.acked_spec (s : State) (n lack : Nat) :
    s.acked n lack = { s with fa := { s.fa with unacked := (s.acked n lack).fa.unacked } } := by
  unfold State.acked
  dsimp only
  split <;> rfl

theorem State.rx_acked (s : State) (n lack : Nat) : (s.acked n lack).fa.rx = s.fa.rx := by rw [State.acked_spec]

/-- A cumulative acknowledgement leaves the caravans after the one that it names. -/
theorem State.unacked_acked {s : State} {port lack : Nat} {front rest : List (Nat × Car)} {x : Nat × Car}
    (hq : tget s.fa.unacked port [] = front ++ x :: rest) (hx : x.2.lseq = lack) (hfront : ∀ y, y ∈ front → y.2.lseq ≠ lack) :
    tget (s.acked port lack).fa.unacked port [] = rest := by
  have named : ((front ++ x :: rest).any fun p => p.2.lseq == lack) = true := by simp [hx]
  have upto : ((front ++ x :: rest).dropWhile fun p => p.2.lseq != lack) = x :: rest := by
    rw [List.dropWhile_append_of_pos (by simpa using hfront), List.dropWhile_cons_of_neg (by simpa using hx)]
  unfold State.acked
  dsimp only
  rw [hq, if_pos named]
  dsimp only
  rw [tget_tset, if_pos rfl, upto, List.drop_one, List.tail_cons]

theorem State.linkTake_spec (s : State) (n : Nat) (c : Car) : (s.linkTake n c).1 =
    { s with fa := { s.fa with
      unacked := (s.linkTake n c).1.fa.unacked, rx := (s.linkTake n c).1.fa.rx, acks := (s.linkTake n c).1.fa.acks } } := by
  unfold State.linkTake
  dsimp only
  split
  · rw [State.acked_spec]
  · split <;> rw [State.acked_spec]

theorem State.linkTake_expected {s : State} {n : Nat} {c : Car} (h : c.kind = 2 ∨ c.lseq = tget s.fa.rx n 0) : (s.linkTake n c).2 = true := by
  unfold State.linkTake
  dsimp only
  split
  · rfl
  · rename_i hkind
    rw [State.rx_acked, if_pos (h.resolve_left hkind)]

/-- A caravan out of its link's order only acknowledges. -/
theorem State.linkTake_unexpected {s : State} {n : Nat} {c : Car} (hkind : c.kind ≠ 2) (h : c.lseq ≠ tget s.fa.rx n 0) :
    s.linkTake n c = (s.acked n c.lack, false) := by
  unfold State.linkTake
  dsimp only
  rw [if_neg hkind, State.rx_acked, if_neg h]

/-- A LINK_ACK only acknowledges. -/
theorem State.linkTake_ack {s : State} {n : Nat} {c : Car} (hkind : c.kind = 2) : s.linkTake n c = (s.acked n c.lack, true) := by
  unfold State.linkTake
  exact if_pos hkind

theorem linked_port {port : Nat} (h : port < 16) (s : State) (c : Car) : linked s port c = (s.linkTake port c).1 :=
  if_neg (Nat.ne_of_lt h)

theorem linked_spec (s : State) (port : Nat) (c : Car) : linked s port c =
    { s with fa := { s.fa with
      unacked := (linked s port c).fa.unacked, rx := (linked s port c).fa.rx, acks := (linked s port c).fa.acks } } := by
  unfold linked
  split
  · rfl
  · exact s.linkTake_spec port c

theorem linked_cw (s : State) (port : Nat) (c : Car) : (linked s port c).cw = s.cw := by rw [linked_spec]

theorem linked_get (s : State) (port : Nat) (c : Car) (f : Field) : (linked s port c).get f = s.get f :=
  State.get_of_reg (State.reg_of_cw (linked_cw s port c) _)

theorem linked_ownAddr (s : State) (port : Nat) (c : Car) : (linked s port c).ownAddr = s.ownAddr := linked_get s port c _

theorem linked_tw (s : State) (port : Nat) (c : Car) : (linked s port c).tw = s.tw := by rw [linked_spec]

theorem linked_topo (s : State) (port : Nat) (c : Car) : (linked s port c).fa.topo = s.fa.topo := by rw [linked_spec]

theorem linked_psTaken (s : State) (port : Nat) (c d : Car) : (linked s port c).psTaken d = s.psTaken d := by
  rw [linked_spec]
  rfl

theorem linked_oseqIn (s : State) (port : Nat) (c : Car) : (linked s port c).fa.oseqIn = s.fa.oseqIn := by rw [linked_spec]

/-- Whether Table 16.2 gives a TYPE. -/
abbrev knownKind (kind : Nat) : Bool :=
  (decide (1 ≤ kind) && decide (kind ≤ 7)) || (decide (0x10 ≤ kind) && decide (kind ≤ 0x18)) ||
    (decide (0x20 ≤ kind) && decide (kind ≤ 0x26))

theorem knownCar_iff (c : Car) : knownCar c = true ↔ c.ver = 1 ∧ knownKind c.kind = true := by
  rw [knownCar, Bool.and_eq_true, beq_iff_eq]

/-- A state with a caravan's numbers recorded, the caravan waiting no longer (R414, R417). -/
def State.carTaken (u : State) (c : Car) : State :=
  let s := (u.takePs c).takeOs c
  { s with fa := { s.fa with selfIn := s.fa.selfIn.erase c } }

theorem landed_eq (c : Car) (u : State) : landed c u = .next (u.carTaken c) := rfl

theorem State.takePs_spec (u : State) (c : Car) : u.takePs c = { u with fa := { u.fa with taken := (u.takePs c).fa.taken } } := by
  unfold State.takePs
  split <;> rfl

theorem State.takeOs_spec (u : State) (c : Car) : u.takeOs c = { u with fa := { u.fa with
    oseqIn := (u.takeOs c).fa.oseqIn, selfIn := (u.takeOs c).fa.selfIn, held := (u.takeOs c).fa.held } } := by
  unfold State.takeOs
  split <;> rfl

theorem State.carTaken_spec (u : State) (c : Car) : u.carTaken c = { u with fa := { u.fa with
    taken := (u.carTaken c).fa.taken, oseqIn := (u.carTaken c).fa.oseqIn, selfIn := (u.carTaken c).fa.selfIn,
    held := (u.carTaken c).fa.held } } := by
  unfold State.carTaken
  dsimp only
  rw [State.takeOs_spec, State.takePs_spec]

theorem State.carTaken_get (u : State) (c : Car) (f : Field) : (u.carTaken c).get f = u.get f :=
  State.get_of_reg (State.reg_of_cw (by rw [State.carTaken_spec]) _)

/-- A caravan not taken before, and the next of its order, is acted on and recorded. -/
theorem State.takeIn_acts {s u : State} {c : Car} {act : State → Car → State × Bool} (hfresh : s.psTaken c = false)
    (horder : inOrder c = true → c.oseq = (tget s.fa.oseqIn (ordKey c) 0 + 1) % 2 ^ 32) (hact : act s c = (u, true)) :
    s.takeIn c act = u.carTaken c := by
  have tried : s.tryCar c act = u.carTaken c := by
    unfold State.tryCar
    rw [hact]
    rfl
  unfold State.takeIn
  dsimp only
  rw [if_neg (by simp [hfresh])]
  split
  next hord => rw [if_pos (horder hord), tried]
  next => exact tried

/-- A caravan of a TYPE that lands is acted on where its arrival leaves the link, and taken. -/
theorem State.carRow_lands {s u : State} {port kind : Nat} {c : Car} {act : State → Car → State × Bool} (h : lands s port kind c)
    (hkind : knownKind kind = true) (hact : act (linked s port c) c = (u, true)) : s.carRow kind port c act = landed c u := by
  obtain ⟨rfl, hmem, hfresh, horder, harrives⟩ := h
  have taken : (linked s port c).takeIn c act = u.carTaken c :=
    State.takeIn_acts ((linked_psTaken s port c c).trans hfresh) (by rwa [linked_oseqIn]) hact
  have hport : ¬ 16 < port := by omega
  rw [landed_eq, ← taken]
  unfold State.carRow
  rw [if_neg hport, if_neg (by simp only [ne_eq, not_true_eq_false, hmem]; simp)]
  obtain ⟨rfl, hwaits⟩ | ⟨hwire, hver, huse, halien, hsingle, hme, hnext⟩ := harrives
  · rw [if_pos rfl, if_pos hwaits]
    rfl
  · rw [if_neg (Nat.ne_of_lt hwire), if_neg (by simp [huse]), if_neg (by simp [(knownCar_iff c).2 ⟨hver, hkind⟩]),
      if_neg (by simp [halien, hme]), linked_port hwire]
    dsimp only
    rw [if_pos (State.linkTake_expected hnext), if_neg (by simp [hsingle])]

end Sys2Proof.Machine
end

section
/-!
PROOFS. A fabric port's neighbour (16 R411, R416, R421 to R424): how a port enters and leaves routing, what each row of its link comes to.
-/

namespace Sys2Proof.Machine
open Sys2Proof.Claims

/-! ## Registers of a fabric port -/

/-- A port's status is no counter of caravans sent. -/
theorem uncounted_FAB_PORT_STS (n : Nat) : uncounted (R.FAB_PORT_STS n) := by
  refine .inr ?_
  unfold R.FAB_PORT_STS
  omega

theorem R.FAB_PORT_STS_ne_FAB_STS (n : Nat) : R.FAB_PORT_STS n ≠ R.FAB_STS := by
  unfold R.FAB_PORT_STS R.FAB_STS
  omega

theorem R.FAB_PORT_STS_ne_FAB_ERR (n : Nat) : R.FAB_PORT_STS n ≠ R.FAB_ERR := by
  unfold R.FAB_PORT_STS R.FAB_ERR
  omega

theorem offRecord_FAB_PORT_STS {n : Nat} (h : n < 16) : offRecord (R.FAB_PORT_STS n) := by
  unfold offRecord R.FAB_PORT_STS
  omega

/-- A bit put in the mask of ports in routing reads back. -/
theorem State.portUp_put (s : State) {n : Nat} (h : n < 16) (v : Nat) :
    (s.put R.FAB_STS_UP (setBits (s.get R.FAB_STS_UP) n 1 v)).portUp n = v.testBit 0 := by
  rw [State.portUp, State.get_put_same _ _ _ (by decide), Nat.testBit_mod_two_pow, testBit_setBits]
  simp [R.FAB_STS_UP, h]

theorem State.portUp_of_get {s u : State} (h : u.get R.FAB_STS_UP = s.get R.FAB_STS_UP) (n : Nat) : u.portUp n = s.portUp n := by
  rw [State.portUp, h, State.portUp]

/-! ## Into routing and out of it (16 R411, R416, R422 to R424) -/

section
variable {g : Field} (hg : g.unsent)
include hg

theorem State.get_flood (s : State) (h : g.apart R.FAB_STS_RECOMPUTING) : s.flood.get g = s.get g := by
  unfold State.flood
  extract_lets q ls fa noted told
  have htold : noted.sends told := State.sends_foldl (fun u n => u.sends_sendLink n 3 _) _ noted
  rw [State.get_put_apart _ _ _ _ hg.2 h, htold.get hg]
  rfl

theorem State.get_leaveRouting (s : State) (n : Nat) :
    (s.leaveRouting n).get g = (s.put R.FAB_STS_UP (setBits (s.get R.FAB_STS_UP) n 1 0)).get g := by
  unfold State.leaveRouting
  extract_lets q out fa dropped counted
  have hagain : counted.sends (q.foldl (fun s p => s.route 16 p.2) counted) := State.sends_foldl (fun u p => u.sends_route 16 p.2) q counted
  rw [hagain.get hg]
  exact State.get_put_other _ _ _ _ (hg.1.ne_FAB_PORT_CNT n)

end

theorem State.leaveRouting_portUp (s : State) {n : Nat} (h : n < 16) : (s.leaveRouting n).portUp n = false :=
  (State.portUp_of_get (s.get_leaveRouting (by decide) n) n).trans (s.portUp_put h 0)

theorem State.declareNbr_portUp (s : State) {n : Nat} (h : n < 16) (b : Nbr) : (s.declareNbr n b).portUp n = true :=
  (State.portUp_of_get (State.get_flood (by decide) _ (by decide)) n).trans (State.portUp_put _ h 1)

/-! ### A field of a port's own status, beside what the status holds of the neighbour (16 Table 16.12) -/

section
variable (s : State) (n : Nat) {lo w : Nat}

theorem State.get_put_portSts (v : Nat) {lo' w' : Nat} (hfits : lo + w ≤ 64) (h : lo + w ≤ lo' ∨ lo' + w' ≤ lo) :
    (s.put ⟨R.FAB_PORT_STS n, lo', w'⟩ v).get ⟨R.FAB_PORT_STS n, lo, w⟩ = s.get ⟨R.FAB_PORT_STS n, lo, w⟩ :=
  State.get_put_apart _ _ _ _ hfits (.inr h)

theorem State.get_put_portSts_same (v : Nat) (hfits : lo + w ≤ 64) :
    (s.put ⟨R.FAB_PORT_STS n, lo, w⟩ v).get ⟨R.FAB_PORT_STS n, lo, w⟩ = v % 2 ^ w :=
  State.get_put_same _ _ _ hfits

/-- A port's own status stands while any port leaves routing. -/
theorem State.get_leaveRouting_portSts (m : Nat) (hfits : lo + w ≤ 64) :
    (s.leaveRouting m).get ⟨R.FAB_PORT_STS n, lo, w⟩ = s.get ⟨R.FAB_PORT_STS n, lo, w⟩ :=
  (s.get_leaveRouting ⟨uncounted_FAB_PORT_STS n, hfits⟩ m).trans (State.get_put_other _ _ _ _ (R.FAB_PORT_STS_ne_FAB_STS n))

theorem State.get_declareNbr_portSts (b : Nbr) (hlow : lo + w ≤ 16) (hown : lo + w ≤ 3 ∨ 4 ≤ lo) :
    (s.declareNbr n b).get ⟨R.FAB_PORT_STS n, lo, w⟩ = s.get ⟨R.FAB_PORT_STS n, lo, w⟩ := by
  have fits : lo + w ≤ 64 := by omega
  have hsts := R.FAB_PORT_STS_ne_FAB_STS n
  unfold State.declareNbr
  dsimp only
  refine (State.get_flood ⟨uncounted_FAB_PORT_STS n, fits⟩ _ (.inl hsts)).trans ((State.get_put_other _ _ _ _ hsts).trans ?_)
  exact (State.get_put_portSts _ n _ fits hown).trans
    ((State.get_put_portSts _ n _ fits (.inl (by omega))).trans (State.get_put_portSts _ n _ fits (.inl hlow)))

end

/-- A neighbour lost, its port out of routing, before the change is flooded (R422). -/
def State.nbrCleared (s : State) (n : Nat) : State :=
  let s := (s.leaveRouting n).put (R.FAB_PORT_STS_NBR_ADDR n) 0
  let s := (s.put (R.FAB_PORT_STS_NBR_PORT n) 0).put (R.FAB_PORT_STS_TWIN_LINK n) 0
  s.raiseAt R.FAB_ERR_LINK_DOWN none n noTicket

theorem State.get_nbrCleared (s : State) (n : Nat) {g : Field} (hg : g.unsent) (hrec : offRecord g.reg) (herr : g.reg ≠ R.FAB_ERR)
    (hsts : g.reg ≠ R.FAB_PORT_STS n) : (s.nbrCleared n).get g = (s.leaveRouting n).get g := by
  unfold State.nbrCleared
  dsimp only
  rw [State.get_raiseAt_apart _ _ _ _ ⟨hrec, hg.2⟩ (.inl herr), State.get_put_other _ _ _ _ hsts, State.get_put_other _ _ _ _ hsts,
    State.get_put_other _ _ _ _ hsts]

theorem State.neighbourLost_portUp (s : State) {n : Nat} (h : n < 16) : (s.neighbourLost n).portUp n = false := by
  unfold State.neighbourLost
  extract_lets fa forgotten
  split
  · change (forgotten.nbrCleared n).flood.portUp n = false
    rw [State.portUp_of_get (State.get_flood (by decide) _ (by decide)),
      State.portUp_of_get (forgotten.get_nbrCleared n (by decide) (by decide) (by decide) (R.FAB_PORT_STS_ne_FAB_STS n).symm)]
    exact forgotten.leaveRouting_portUp h
  · rename_i hdown
    exact Bool.eq_false_iff.2 hdown

/-- The twin ports stand as FAB_TWIN names them when a neighbour is lost. -/
theorem State.neighbourLost_twinPort (s : State) (n m : Nat) : (s.neighbourLost n).twinPort m = s.twinPort m := by
  suffices h : (s.neighbourLost n).get R.FAB_TWIN_TWIN_PORTS = s.get R.FAB_TWIN_TWIN_PORTS by rw [State.twinPort, h, State.twinPort]
  have hsts : R.FAB_TWIN_TWIN_PORTS.reg ≠ R.FAB_PORT_STS n := by
    unfold R.FAB_PORT_STS
    exact ne_of_lt (lt_of_lt_of_le (by decide) (Nat.le_add_right _ _))
  unfold State.neighbourLost
  extract_lets fa forgotten
  split
  · change (forgotten.nbrCleared n).flood.get R.FAB_TWIN_TWIN_PORTS = _
    rw [State.get_flood (by decide) _ (by decide), forgotten.get_nbrCleared n (by decide) (by decide) (by decide) hsts,
      forgotten.get_leaveRouting (by decide), State.get_put_apart _ _ _ _ (by decide) (by decide)]
    rfl
  · rfl

/-! ## Caravans of CONTROL (16 R416, R421 to R423, R438) -/

/-- What a LINK_HELLO says of the neighbour at a port: one more in a row where it names the same identity and port. -/
def State.heardNbr (w : State) (port : Nat) (c : Car) : Nbr :=
  let old := tget w.fa.nbrs port {}
  let same := decide (0 < old.count) && old.ident == nw c.words 0 && old.port == bits (nw c.words 1) 20 4
  ⟨nw c.words 0, bits (nw c.words 1) 0 20, bits (nw c.words 1) 20 4, (nw c.words 1).testBit 24, if same then old.count + 1 else 1, w.ftime port⟩

def State.heard (w : State) (port : Nat) (c : Car) : State :=
  { w with fa := { w.fa with nbrs := tset w.fa.nbrs port (w.heardNbr port c) } }

section
variable {s : State} {port : Nat} {c : Car}

theorem linkHello_lands (h : lands s port 1 c) :
    let w := linked s port c
    let v := w.heard port c
    exec (.linkHello port c) s = landed c (if 3 ≤ (w.heardNbr port c).count && !v.portUp port && v.lanes port != 0
      then (v.declareNbr port (w.heardNbr port c)).returned else v) :=
  State.carRow_lands h (by decide) rfl

theorem linkAck_lands (hport : port < 16) (h : lands s port 2 c) : exec (.linkAck port c) s = landed c (s.acked port c.lack) := by
  obtain ⟨hkind, -⟩ := id h
  refine (State.carRow_lands h (by decide) rfl).trans ?_
  rw [linked_port hport, State.linkTake_ack hkind]

theorem credit_lands (h : lands s port 4 c) :
    let w := linked s port c
    let k := bits (carArg c 0) 0 6 * 2 ^ 20 + c.src
    exec (.credit port c) s = landed c { w with fa := { w.fa with
      credits := tset w.fa.credits k (carArg c 0 / 2 ^ 32, (tget w.fa.credits k (0, 0)).2) } } :=
  State.carRow_lands h (by decide) rfl

/-! ### TOPO -/

section
variable {ident : Nat} (h : lands s port 3 c)
include h

/-- Two modules of one address: the one of higher identity withdraws. -/
theorem topo_conflict (horigin : bits (nw c.words 0) 0 20 = s.ownAddr) (hident : ident < (s.reg R.MOD_IDENT).toNat) :
    let w := linked s port c
    let out : State := { w with fa := { w.fa with withdrawn := true } }
    exec (.topo port c ident) s = landed c ((out.put R.FAB_STS_ROUTED 0).raise R.FAB_ERR_ADDR_CONFLICT none) := by
  refine State.carRow_lands h (by decide) ?_
  dsimp only
  rw [if_pos (horigin.trans (linked_ownAddr s port c).symm), if_pos (by rwa [State.reg_of_cw (linked_cw s port c)])]

/-- A record of another module, noted and forwarded on every other port. -/
def State.topoNoted (w : State) (port : Nat) (c : Car) : State :=
  let w : State := { w with fa := { w.fa with
    topo := tset w.fa.topo (bits (nw c.words 0) 0 20) (nw c.words 0 / 2 ^ 32, topoLinks c.words) } }
  (w.upPorts.filter (· != port)).foldl (fun s n => s.sendLink n 3 c.words) w

variable (horigin : bits (nw c.words 0) 0 20 ≠ s.ownAddr)
include horigin

theorem topo_newer (hnewer : ∀ r, tfind s.fa.topo (bits (nw c.words 0) 0 20) = some r → r.1 < nw c.words 0 / 2 ^ 32) :
    exec (.topo port c ident) s = landed c (((linked s port c).topoNoted port c).put R.FAB_STS_RECOMPUTING 1) := by
  rw [← linked_topo s port c] at hnewer
  refine State.carRow_lands h (by decide) ?_
  dsimp only
  rw [if_neg (fun e => horigin (e.trans (linked_ownAddr s port c))), if_pos]
  · rfl
  · split
    next r hr => exact decide_eq_true (hnewer r hr)
    next => rfl

theorem topo_older {r : Nat × List TopoLink} (hr : tfind s.fa.topo (bits (nw c.words 0) 0 20) = some r) (hq : nw c.words 0 / 2 ^ 32 ≤ r.1) :
    exec (.topo port c ident) s = landed c (linked s port c) := by
  refine State.carRow_lands h (by decide) ?_
  dsimp only
  rw [if_neg (fun e => horigin (e.trans (linked_ownAddr s port c))), linked_topo, hr]
  dsimp only
  rw [if_neg (by simpa using hq)]

end

theorem State.topoNoted_topo (w : State) (port : Nat) (c : Car) : tfind (w.topoNoted port c).fa.topo (bits (nw c.words 0) 0 20) =
    some (nw c.words 0 / 2 ^ 32, topoLinks c.words) := by
  unfold State.topoNoted
  extract_lets fa noted
  rw [(State.sends_foldl (fun u n => u.sends_sendLink n 3 c.words) _ noted).topo]
  exact (tfind_tset _ _ _ _).trans (if_pos rfl)

end

/-! ## Caravans of others and frames of none (16 R408, R412, R418) -/

section
variable {s : State} {port : Nat} (hport : port < 16) (hon : s.portInUse port = true) {c : Car}
include hport hon

/-- A caravan of another version or of a reserved TYPE is dropped. -/
theorem State.carRow_foreign (hforeign : knownCar c = false) (hkind : touchesMemory c.kind = false) (act : State → Car → State × Bool) :
    s.carRow c.kind port c act = .next (s.raise R.FAB_ERR_FOREIGN_FRAME none) := by
  unfold State.carRow
  rw [if_neg (by omega), if_neg (by simp [hkind]), if_neg (Nat.ne_of_lt hport), if_neg (by simp [hon]), if_pos (by simp [hforeign])]

theorem caravanForward_foreign (hforeign : knownCar c = false) :
    exec (.caravanForward port c) s = .next (s.raise R.FAB_ERR_FOREIGN_FRAME none) := by
  change execCaravanForward port c s = _
  rw [execCaravanForward, if_neg (Nat.not_le.2 hport), if_neg (by simp [hon]), if_pos (by simp [hforeign])]

section
variable (hknown : knownCar c = true) (halien : s.get (R.FAB_PORT_STS_ALIEN port) = 0) (hother : s.forMe c = false) (hkind : c.kind ≠ 2)
include hknown halien hother hkind

theorem caravanForward_unexpected (hlseq : c.lseq ≠ tget s.fa.rx port 0) :
    exec (.caravanForward port c) s = .next (s.acked port c.lack) := by
  change execCaravanForward port c s = _
  rw [execCaravanForward, if_neg (Nat.not_le.2 hport), if_neg (by simp [hon]), if_neg (by simp [hknown]), if_neg (by simp [halien, hother]),
    State.linkTake_unexpected hkind hlseq]
  rfl

omit hkind in
/-- The next caravan of the link goes on with HOP one more, or waits with no hop left. -/
theorem caravanForward_expected (hlseq : c.lseq = tget s.fa.rx port 0) :
    let onward := { c with hop := c.hop + 1 }
    exec (.caravanForward port c) s =
      if 7 ≤ c.hop then .next ((linked s port c).holdCar port onward) else .next ((linked s port c).route port onward) := by
  change execCaravanForward port c s = _
  rw [execCaravanForward, if_neg (Nat.not_le.2 hport), if_neg (by simp [hon]), if_neg (by simp [hknown]), if_neg (by simp [halien, hother]),
    linked_port hport]
  dsimp only
  rw [if_neg (by simp [State.linkTake_expected (.inr hlseq)])]
  exact if_congr Nat.succ_le_succ_iff rfl rfl

end

theorem fabricFrameDrop_raises (crc : Bool) :
    exec (.fabricFrameDrop port crc) s = .next (s.raise (if crc then R.FAB_ERR_E2E_CRC else R.FAB_ERR_FOREIGN_FRAME) none) := by
  change execFabricFrameDrop port crc s = _
  rw [execFabricFrameDrop, if_neg (Nat.not_le.2 hport), if_neg (by simp [hon])]

/-! ## Timers and losses (16 R410, R411, R416, R422) -/

theorem linkHelloTimer_due (hlit : s.get (R.FAB_PORT_STS_LINK port) = 1) (hdue : s.timer (port * 4) + 10000 ≤ s.ftime port) :
    exec (.linkHelloTimer port) s = .next ((s.setTimer (port * 4) (s.ftime port)).sendLink port 1
      [(s.reg R.MOD_IDENT).toNat, s.ownAddr + port * 2 ^ 20 + (if s.twinPort port then 2 ^ 24 else 0)]) := by
  change execLinkHelloTimer port s = _
  rw [execLinkHelloTimer, if_neg (Nat.not_le.2 hport), if_pos ⟨hon, hlit, hdue⟩]

theorem linkSignalLoss_untwinned (htwin : s.twinPort port = false) :
    exec (.linkSignalLoss port) s = .next ((s.put (R.FAB_PORT_STS_LANES port) 0).neighbourLost port) := by
  have hsts : R.FAB_TWIN_TWIN_PORTS.reg ≠ (R.FAB_PORT_STS_LANES port).reg := by
    change R.FAB_TWIN ≠ R.FAB_PORT_STS port
    unfold R.FAB_TWIN R.FAB_PORT_STS
    omega
  have stays : ((s.put (R.FAB_PORT_STS_LANES port) 0).neighbourLost port).twinPort port = false := by
    rw [State.neighbourLost_twinPort, State.twinPort, State.get_put_other _ _ _ _ hsts]
    exact htwin
  change execLinkSignalLoss port s = _
  rw [execLinkSignalLoss, if_neg (Nat.not_le.2 hport), if_neg (by simp [hon])]
  exact if_neg (by simp [stays])

/-- Every caravan not acknowledged sent again, its sending stamped now. -/
def State.resent (s : State) (port : Nat) : State :=
  let q := (tget s.fa.unacked port []).map fun p => (s.ftime port, p.2)
  let s : State := { s with fa := { s.fa with unacked := tset s.fa.unacked port q } }
  (s.bump (R.FAB_PORT_CNT_RESENT port) q.length).raise R.FAB_ERR_RETRANSMIT none

theorem linkRetransmitTimer_due {t : Nat} {d : Car} {rest : List (Nat × Car)} (hq : tget s.fa.unacked port [] = (t, d) :: rest)
    (hdue : t + 2000 ≤ s.ftime port) : exec (.linkRetransmitTimer port) s = .next (s.resent port) := by
  change execLinkRetransmitTimer port s = _
  rw [execLinkRetransmitTimer, if_neg (Nat.not_le.2 hport), State.resent, hq]
  exact if_pos ⟨hon, hdue⟩

theorem alienTimeout_due (hlit : s.get (R.FAB_PORT_STS_LINK port) = 1) (hnone : tfind s.fa.nbrs port = none)
    (hdue : s.timer (port * 4 + 2) + 1000000 ≤ s.ftime port) :
    exec (.alienTimeout port) s = .next ((s.put (R.FAB_PORT_STS_ALIEN port) 1).raise R.FAB_ERR_ALIEN none) := by
  change execAlienTimeout port s = _
  rw [execAlienTimeout, if_neg (Nat.not_le.2 hport), if_pos ⟨hon, hlit, hnone, hdue⟩]

/-- A port stamped with a failed lane, its link down, before it leaves routing (R411). -/
def State.laneDown (s : State) (port lane : Nat) : State :=
  let s := s.put (R.FAB_PORT_STS_FAILED port) (setBits (s.get (R.FAB_PORT_STS_FAILED port)) lane 1 1)
  let s := (s.raiseAt R.FAB_ERR_LANE_FAIL none (port * 4 + lane) noTicket).put (R.FAB_PORT_STS_LANES port) 0
  (s.put (R.FAB_PORT_STS_LINK port) 0).put (R.FAB_PORT_STS_HOLDOVER port) 1

theorem laneFail_retrains {lane : Nat} (hlane : lane < 4) (hup : (s.get (R.FAB_PORT_STS_LANES port)).testBit lane = true) :
    exec (.laneFail port lane) s = .next ((s.laneDown port lane).leaveRouting port) := by
  change execLaneFail port lane s = _
  rw [execLaneFail, if_neg (by omega), if_neg (by simp [hon, hup])]
  rfl

end

theorem State.resent_unacked (s : State) (port : Nat) :
    tget (s.resent port).fa.unacked port [] = (tget s.fa.unacked port []).map fun p => (s.ftime port, p.2) := by
  unfold State.resent
  dsimp only
  rw [State.raise_fa, State.bump_fa, tget_tset, if_pos rfl]

theorem neighbourTimeout_known {s : State} {port : Nat} {b : Nbr} (hport : port < 16) (hb : tfind s.fa.nbrs port = some b) :
    exec (.neighbourTimeout port) s = if b.stamp + 100000 ≤ s.ftime port then .next (s.neighbourLost port) else .next s := by
  change execNeighbourTimeout port s = _
  rw [execNeighbourTimeout, if_neg (Nat.not_le.2 hport), hb]

theorem State.laneDown_failed (s : State) {port lane : Nat} (hport : port < 16) (hlane : lane < 4) :
    ((s.laneDown port lane).get (R.FAB_PORT_STS_FAILED port)).testBit lane = true := by
  have stays : (s.laneDown port lane).get (R.FAB_PORT_STS_FAILED port) =
      (s.put (R.FAB_PORT_STS_FAILED port) (setBits (s.get (R.FAB_PORT_STS_FAILED port)) lane 1 1)).get (R.FAB_PORT_STS_FAILED port) :=
    (State.get_put_portSts _ port _ (by decide) (by decide)).trans <| (State.get_put_portSts _ port _ (by decide) (by decide)).trans <|
      (State.get_put_portSts _ port _ (by decide) (by decide)).trans <|
      State.get_raiseAt_apart _ _ _ _ ⟨offRecord_FAB_PORT_STS hport, Nat.le_of_ble_eq_true rfl⟩ (.inl (R.FAB_PORT_STS_ne_FAB_ERR port))
  have kept := State.get_put_portSts_same (lo := 8) (w := 4) s port (setBits (s.get (R.FAB_PORT_STS_FAILED port)) lane 1 1) (by decide)
  rw [stays]
  refine (congrArg (Nat.testBit · lane) kept).trans ?_
  rw [Nat.testBit_mod_two_pow, testBit_setBits]
  simp [hlane]

theorem State.laneDown_lanes (s : State) (port lane : Nat) : (s.laneDown port lane).get (R.FAB_PORT_STS_LANES port) = 0 :=
  (State.get_put_portSts _ port _ (by decide) (by decide)).trans <| (State.get_put_portSts _ port _ (by decide) (by decide)).trans <|
    State.get_put_portSts_same _ port 0 (by decide)

/-! ## Retraining (16 R408, R411) -/

theorem lanesAllowed_lt (failed : Nat) : ∀ m ∈ lanesAllowed failed, m < 16 := by
  unfold lanesAllowed
  dsimp only
  split
  · decide
  · split
    · exact fun m hm => (by decide : ∀ m ∈ [1, 2, 4, 8], m < 16) m (List.mem_of_mem_filter hm)
    · exact fun m hm => (by decide : ∀ m ∈ [3, 12], m < 16) m (List.mem_of_mem_filter hm)

section
variable {s : State} {port lanes : Nat} (h : s.mayRetrain port lanes = true)
include h

theorem laneRetrainDone_rejoins (hport : port < 16) : exec (.laneRetrainDone port lanes) s =
    .next ({ s.retrained port lanes with
      tw := { (s.retrained port lanes).tw with los := (s.retrained port lanes).tw.los.erase port } } : State).returned := by
  change execLaneRetrainDone port lanes s = _
  rw [execLaneRetrainDone, if_neg (Nat.not_le.2 hport), if_pos h]

/-- A port may train on no more than its four lanes. -/
theorem State.mayRetrain_lt : lanes < 16 := by
  unfold State.mayRetrain at h
  simp only [Bool.and_eq_true, Bool.or_eq_true, List.contains_iff_mem] at h
  obtain ⟨-, hfree | ⟨-, htried⟩⟩ := h
  · exact lanesAllowed_lt _ _ hfree
  · exact (by decide : ∀ m ∈ [15, 3, 12, 1, 2, 4, 8], m < 16) _ htried

end

/-- A port trained on a set of lanes, before it rejoins routing with the neighbour it has (R411). -/
def State.trained (s : State) (port lanes : Nat) : State :=
  let s := if s.get (R.FAB_PORT_CTL_RETRY port) = 1
    then (s.put (R.FAB_PORT_CTL_RETRY port) 0).put (R.FAB_PORT_STS_FAILED port) (15 - lanes) else s
  let s := s.put (R.FAB_PORT_STS_LANES port) lanes
  let s := (s.put (R.FAB_PORT_STS_LINK port) 1).put (R.FAB_PORT_STS_HOLDOVER port) 0
  s.put R.FAB_STS_DEGRADED (setBits (s.get R.FAB_STS_DEGRADED) port 1 (if lanes = 15 then 0 else 1))

section
variable (s : State) (port lanes : Nat)

theorem State.get_retrained_portSts {lo w : Nat} (hlow : lo + w ≤ 16) (hown : lo + w ≤ 3 ∨ 4 ≤ lo) :
    (s.retrained port lanes).get ⟨R.FAB_PORT_STS port, lo, w⟩ = (s.trained port lanes).get ⟨R.FAB_PORT_STS port, lo, w⟩ := by
  unfold State.retrained
  dsimp only
  split
  · split
    · exact State.get_declareNbr_portSts (s.trained port lanes) port _ hlow hown
    · rfl
  · rfl

theorem State.retrained_lanes (h : lanes < 16) : (s.retrained port lanes).get (R.FAB_PORT_STS_LANES port) = lanes :=
  calc (s.retrained port lanes).get (R.FAB_PORT_STS_LANES port)
    _ = (s.trained port lanes).get (R.FAB_PORT_STS_LANES port) := s.get_retrained_portSts port lanes (by decide) (by decide)
    _ = lanes % 2 ^ 4 :=
      (State.get_put_other _ _ _ _ (R.FAB_PORT_STS_ne_FAB_STS port)).trans <| (State.get_put_portSts _ port _ (by decide) (by decide)).trans <|
        (State.get_put_portSts _ port _ (by decide) (by decide)).trans <| State.get_put_portSts_same _ port lanes (by decide)
    _ = lanes := Nat.mod_eq_of_lt h

theorem State.retrained_link : (s.retrained port lanes).get (R.FAB_PORT_STS_LINK port) = 1 :=
  (s.get_retrained_portSts port lanes (by decide) (by decide)).trans <| (State.get_put_other _ _ _ _ (R.FAB_PORT_STS_ne_FAB_STS port)).trans <|
    (State.get_put_portSts _ port _ (by decide) (by decide)).trans <| State.get_put_portSts_same _ port 1 (by decide)

end

/-! ## Injection windows, refreshes and routing tables (16 R419, R423, R424, R427) -/

section
variable {s : State} {dst : Nat}

theorem State.window_setWindow (s : State) (dst n : Nat) : (s.setWindow dst n).window dst = (n, s.echoPort dst, s.ftime (s.echoPort dst)) :=
  (tget_tset _ _ _ _ _).trans (if_pos rfl)

theorem injectWindowGrow_due (hen : s.get R.FAB_CTL_EN = 1) (hdue : (s.window dst).2.2 + 10000 ≤ s.ftime (s.window dst).2.1) :
    exec (.injectWindowGrow dst) s = .next (s.setWindow dst ((s.window dst).1 + 65536)) :=
  if_pos ⟨hen, hdue⟩

theorem injectWindowGrow_early (hearly : s.ftime (s.window dst).2.1 < (s.window dst).2.2 + 10000) : exec (.injectWindowGrow dst) s = .next s :=
  if_neg fun h => Nat.not_le.2 hearly h.2

theorem topoRefreshTimer_due (hen : s.get R.FAB_CTL_EN = 1) (hdue : s.timer 1000 + 100000000 ≤ s.time (s.timer 1001)) :
    exec .topoRefreshTimer s = .next ((s.setTimer 1000 (s.time (s.get R.ERR_CTL_REF_PORT))).setTimer 1001 (s.get R.ERR_CTL_REF_PORT)).flood :=
  if_pos ⟨hen, hdue⟩

/-- The module with its tables recomputed, in routing unless it has withdrawn. -/
def State.recomputed (s : State) : State := (s.put R.FAB_STS_RECOMPUTING 0).put R.FAB_STS_ROUTED (if s.fa.withdrawn then 0 else 1)

theorem State.recomputed_routeHost (s : State) : s.recomputed.get R.FAB_CTL_ROUTE_HOST = s.get R.FAB_CTL_ROUTE_HOST :=
  (State.get_put_other _ _ _ _ (by decide)).trans (State.get_put_other _ _ _ _ (by decide))

section
variable (hbusy : s.get R.FAB_STS_RECOMPUTING = 1)
include hbusy

theorem routeRecomputeDone_hosted (hhost : s.get R.FAB_CTL_ROUTE_HOST = 1) : exec .routeRecomputeDone s = .next s.recomputed := by
  change execRouteRecomputeDone s = _
  rw [execRouteRecomputeDone, if_neg (by simp [hbusy])]
  exact if_pos (s.recomputed_routeHost.trans hhost)

/-- The rows of the modules known, in a table that holds them all. -/
def State.tableRows (s : State) : Tab RtRow :=
  (sortBy (fun a b => decide (a ≤ b)) s.known).foldl (fun t d => (s.rowsFor d).foldl (fun t p => tset t p.1 p.2) t) []

theorem routeRecomputeDone_computes (hhost : s.get R.FAB_CTL_ROUTE_HOST = 0)
    (hroom : (sortBy (fun a b => decide (a ≤ b)) s.recomputed.known).length ≤ 16384) : exec .routeRecomputeDone s =
      .next ({ s.recomputed with fa := { s.recomputed.fa with rows := s.recomputed.tableRows } } : State).resendWaiting := by
  change execRouteRecomputeDone s = _
  rw [execRouteRecomputeDone, if_neg (by simp [hbusy])]
  change (if s.recomputed.get R.FAB_CTL_ROUTE_HOST = 1 then _ else _) = _
  rw [if_neg (by simp [s.recomputed_routeHost, hhost])]
  dsimp only
  rw [State.tableRows, ← List.take_of_length_le hroom]
  exact congrArg (fun u : State => Host.Outcome.next u.resendWaiting) (if_neg (Nat.not_lt.2 hroom))

end

end

/-! ## The obligation -/

/-- Settles O52: what each row of a fabric port's link comes to on the port that it names. -/
theorem linksKeepTheirNeighbours : Obligations.LinksKeepTheirNeighbours := by
  intro s port hport
  refine ⟨fun c h => ⟨?pending, ?declares, State.declareNbr_portUp _ hport _⟩, fun c h => linkAck_lands hport h,
    fun lack front x rest hq hx hfront => State.unacked_acked hq hx hfront,
    fun c ident h => ⟨fun horigin hident => ?conflict, fun horigin hnewer => ?newer, fun horigin ⟨r, hr, hq⟩ => topo_older h horigin hr hq⟩,
    fun c h => credit_lands h, fun c hon hforeign => ⟨caravanForward_foreign hport hon hforeign, fun hkind => ?foreign⟩,
    fun c hon hknown halien hother hkind => ⟨caravanForward_unexpected hport hon hknown halien hother hkind, fun hlseq hhop => ?onward,
      fun hlseq hhop => ?holds⟩,
    linkHelloTimer_due hport, fun b hb => ?timeout, s.neighbourLost_portUp hport, linkSignalLoss_untwinned hport,
    fun t c rest hon hq hdue => ?resends, alienTimeout_due hport, fun lane hon hlane hup => ?fails, fun lanes h => ?retrains,
    fun hon => ⟨fabricFrameDrop_raises hport hon true, fabricFrameDrop_raises hport hon false⟩,
    fun dst => ⟨injectWindowGrow_due, injectWindowGrow_early, s.window_setWindow dst⟩, topoRefreshTimer_due,
    fun hbusy => ⟨routeRecomputeDone_hosted hbusy, routeRecomputeDone_computes hbusy⟩⟩
  case pending =>
    intro hstays
    refine (linkHello_lands h).trans (congrArg (landed c) (if_neg fun hgo => ?_))
    simp only [Bool.and_eq_true, decide_eq_true_eq, Bool.not_eq_true'] at hgo
    obtain ⟨⟨hthree, hdown⟩, -⟩ := hgo
    rcases hstays with hfew | hup
    · exact Nat.not_le.2 hfew hthree
    · exact Bool.noConfusion (hdown.symm.trans hup)
  case declares =>
    intro hthree hdown hlanes
    refine (linkHello_lands h).trans (congrArg (landed c) (if_pos ?_))
    simp only [Bool.and_eq_true, decide_eq_true_eq, Bool.not_eq_true', bne_iff_ne]
    exact ⟨⟨hthree, hdown⟩, hlanes⟩
  case conflict =>
    refine ⟨_, topo_conflict h horigin hident, ?_, ?_⟩
    · change ((State.raise _ _ none).carTaken c).fa.withdrawn = true
      rw [State.carTaken_spec, State.raise_fa]
      rfl
    · refine (State.carTaken_get _ c _).trans ((State.get_raiseAt_apart _ _ _ _ (by decide) (by decide)).trans ?_)
      exact State.get_put_same _ _ _ (by decide)
  case newer =>
    refine ⟨_, topo_newer h horigin hnewer, ?_, (State.carTaken_get _ c _).trans (State.get_put_same _ _ _ (by decide))⟩
    change tfind (State.carTaken _ c).fa.topo _ = _
    rw [State.carTaken_spec]
    exact State.topoNoted_topo _ port c
  case foreign =>
    have dropped := State.carRow_foreign hport hon hforeign (by rw [hkind]; rfl)
    rw [hkind] at dropped
    exact dropped _
  case onward => exact (caravanForward_expected hport hon hknown halien hother hlseq).trans (if_neg (Nat.not_le.2 hhop))
  case holds => exact (caravanForward_expected hport hon hknown halien hother hlseq).trans (if_pos hhop)
  case timeout =>
    rw [neighbourTimeout_known hport hb]
    exact ⟨fun h => if_pos h, fun h => if_neg (Nat.not_le.2 h)⟩
  case resends =>
    refine ⟨_, linkRetransmitTimer_due hport hon hq hdue, ?_, State.get_raiseAt_same _ _ _ _ (by decide) rfl⟩
    rw [State.resent_unacked, hq]
  case fails =>
    refine ⟨_, laneFail_retrains hport hon hlane hup, ?_, ?_, State.leaveRouting_portUp _ hport⟩
    · exact (congrArg (Nat.testBit · lane) (State.get_leaveRouting_portSts _ port port (by decide))).trans (s.laneDown_failed hport hlane)
    · exact (State.get_leaveRouting_portSts _ port port (by decide)).trans (s.laneDown_lanes port lane)
  case retrains =>
    exact ⟨laneRetrainDone_rejoins h hport, s.retrained_lanes port lanes (State.mayRetrain_lt h), s.retrained_link port lanes⟩

end Sys2Proof.Machine
end

section
/-!
PROOFS. Twin mode's caravans (16 R437 to R440, 18 R468 to R475): pairing, substitutions, the partner's mirror caravans and their acknowledgement.
-/

namespace Sys2Proof.Machine
open Sys2Proof.Claims

/-! ## Pairing (16 R439) -/

/-- What mirroring stands at leaves the pairing. -/
theorem State.get_twn_pairing (s : State) (v : Nat) : (s.twn v).get R.FAB_TWIN_STATE = s.get R.FAB_TWIN_STATE :=
  State.get_put_other _ _ _ _ (by decide)

theorem State.get_enterResync_pairing (s : State) : s.enterResync.get R.FAB_TWIN_STATE = s.get R.FAB_TWIN_STATE := by
  unfold State.enterResync State.settleResync
  split
  · exact (State.get_twn_pairing _ 1).trans (s.get_twn_pairing 6)
  · exact s.get_twn_pairing 6

section
variable {s : State} {port : Nat} {c : Car} {epoch : Nat} (hiso : s.isolated = false) (htwin : s.twin ≠ 0) (hst : s.get R.FAB_TWIN_STATE = 1)
include hiso

/-- A module that has not fenced itself has nothing to return from. -/
theorem State.returned_of_not_isolated : s.returned = s := if_neg (by simp [hiso])

include htwin hst

/-- An offer that agrees, of the epoch known, pairs the modules. -/
theorem State.takeOffer_pairs (hsrc : c.src = s.twin) (hdst : bits (carArg c 1) 0 20 = s.ownAddr) (hmodel : carArg c 0 = s.modelTag)
    (hstage : bits (carArg c 1) 20 4 = (s.stageOf s.ownAddr).getD 0) (hepoch : s.tw.peerEpoch = epoch) (hopen : s.tw.fenced = false) :
    (s.takeOffer port c epoch).get R.FAB_TWIN_STATE = 2 := by
  unfold State.takeOffer
  rw [State.returned_of_not_isolated hiso]
  extract_lets w st agree here higher known offered paired back cleared fa tw taken
  have same : ¬ higher := hepoch.ge.not_gt
  have hknown : known = s := if_neg fun h => same h.1
  have hoffered : offered = s := (if_neg fun h => same h.1).trans hknown
  have hback : back = false := by
    change (offered.tw.fenced && _) = false
    rw [hoffered, hopen, Bool.false_and]
  have hcleared : cleared = paired := if_neg (by simp [hback])
  have hpaired : taken.get R.FAB_TWIN_STATE = 2 :=
    (State.get_of_reg (State.reg_of_cw (congrArg State.cw hcleared) _)).trans (State.get_put_same _ _ _ (by decide))
  rw [if_neg (by simp [here, st, htwin, hst]), if_neg (by simp [agree, w, hsrc, hdst, hmodel, hstage])]
  split
  · exact hpaired
  · split
    · exact (State.get_twn_pairing _ 1).trans hpaired
    · rw [hback]
      exact hpaired
    · exact (State.get_enterResync_pairing _).trans hpaired
    · exact hpaired

/-- An offer of another model pairs nothing. -/
theorem State.takeOffer_mismatch (hmodel : carArg c 0 ≠ s.modelTag) :
    s.takeOffer port c epoch = (s.put R.FAB_TWIN_STATE 3).raise R.FAB_ERR_TWIN_MISMATCH none := by
  unfold State.takeOffer
  dsimp only
  rw [State.returned_of_not_isolated hiso, if_neg (by simp [htwin, hst]), if_pos (by simp [hmodel]), if_neg (by simp [hst])]

end

/-! ## Substitutions (18 R475) -/

section
variable {s : State} {port : Nat} {c : Car} (h : lands s port 6 c)
include h

theorem subst_elsewhere (hstage : (linked s port c).stageOf (bits (carArg c 0) 0 20) = none) :
    exec (.subst port c) s = landed c (linked s port c) := by
  refine State.carRow_lands h (by decide) ?_
  dsimp only
  rw [hstage]
  rfl

variable (hstage : (linked s port c).stageOf (bits (carArg c 0) 0 20) ≠ none)
include hstage

theorem subst_installs {u : State} (hinstall : (linked s port c).install (bits (carArg c 0) 0 20) (bits (carArg c 0) 20 20) = some u) :
    let lost := bits (carArg c 0) 0 20
    exec (.subst port c) s = landed c ((if (linked s port c).substOf lost = u.substOf lost then u else u.sendAgain lost).sendCar 7 0 c.src 0 0
      [carArg c 0] []) := by
  refine State.carRow_lands h (by decide) ?_
  dsimp only
  rw [if_neg (by simpa using hstage), hinstall]

theorem subst_full (hinstall : (linked s port c).install (bits (carArg c 0) 0 20) (bits (carArg c 0) 20 20) = none) :
    exec (.subst port c) s = landed c (linked s port c) := by
  refine State.carRow_lands h (by decide) ?_
  dsimp only
  rw [if_neg (by simpa using hstage), hinstall]

end

/-! ## Mirror caravans (16 R440, 18 R468 to R471) -/

/-- Whether a mirror caravan is of the partner, and the partner not fenced (18 R479). -/
abbrev State.takesMirror (s : State) (c : Car) : Prop := c.src = s.twin ∧ s.paired = true ∧ s.tw.fenced = false

theorem linked_takesMirror (s : State) (port : Nat) (c d : Car) : (linked s port c).takesMirror d ↔ s.takesMirror d := by
  rw [State.takesMirror, State.twin, State.paired, linked_get, linked_get, linked_tw]
  rfl

section
variable {s : State} {port : Nat} {c : Car} {kind : Nat} (h : lands s port kind c) (hkind : knownKind kind = true)
include h hkind

/-- A mirror caravan of the partner changes its shadow and is acknowledged with its OSEQ. -/
theorem State.mirRow_lands (hours : s.takesMirror c) (act : State → Car → State) :
    State.mirRow kind port c s act = landed c ((act (linked s port c) c).mirror 0x25 0 [c.oseq] []) := by
  obtain ⟨hsrc, hpaired, hopen⟩ := (linked_takesMirror s port c c).2 hours
  refine State.carRow_lands h hkind ?_
  rw [if_neg (by simp [hsrc, hpaired, hopen])]

theorem State.mirRow_refuses (hours : ¬ s.takesMirror c) (act : State → Car → State) :
    State.mirRow kind port c s act = landed c (linked s port c) := by
  refine State.carRow_lands h hkind ?_
  rw [if_pos]
  refine Decidable.of_not_not fun hno => hours ((linked_takesMirror s port c c).1 ?_)
  simpa [not_or] using hno

end

section
variable {s : State} {port : Nat} {c : Car}

theorem linked_shadow {h : Nat} {b : Batch} (hb : tfind s.tw.batches h = some b) : (linked s port c).shadow h = some b := by
  rw [State.shadow, linked_tw, hb]

theorem mirAdmit_lands (hlands : lands s port 0x20 c) (hours : s.takesMirror c) :
    let w := linked s port c
    let h := bits (carArg c 0) 0 10
    let m := tget w.tw.pieces h [] ++ c.data
    exec (.mirAdmit port c) s = landed c ((if 8 ≤ m.length ∧ w64 m 0 / 2 ^ 32 ≤ m.length then w.admitShadow h c.ten m
      else { w with tw := { w.tw with pieces := tset w.tw.pieces h m } }).mirror 0x25 0 [c.oseq] []) :=
  State.mirRow_lands hlands (by decide) hours _

theorem mirKv_lands (hlands : lands s port 0x21 c) (hours : s.takesMirror c) :
    let w := linked s port c
    let k := bits (carArg c 0) 0 10 * 64 + bits (carArg c 0) 10 6
    exec (.mirKv port c) s = landed c (({ w with tw := { w.tw with
      kv := tset w.tw.kv k (tget w.tw.kv k [] ++ [(c.words, c.data)]) } } : State).mirror 0x25 0 [c.oseq] []) :=
  State.mirRow_lands hlands (by decide) hours _

theorem twinBeat_lands (hlands : lands s port 0x26 c) (hours : s.takesMirror c) :
    let w := linked s port c
    exec (.twinBeat port c) s = landed c
      (({ w with tw := { w.tw with beatIn := true, los := w.tw.los.erase port } } : State).rejoin.mirror 0x25 0 [c.oseq] []) :=
  State.mirRow_lands hlands (by decide) hours _

section
variable {b : Batch} (hb : tfind s.tw.batches (bits (carArg c 0) 0 10) = some b) (hours : s.takesMirror c)
include hb hours

theorem mirStep_lands (hlands : lands s port 0x22 c) : exec (.mirStep port c) s =
    landed c (((linked s port c).setShadow (bits (carArg c 0) 0 10)
      ((linked s port c).shadowStep b (recOfWords (c.words.drop 1)))).mirror 0x25 0 [c.oseq] []) := by
  refine (State.mirRow_lands hlands (by decide) hours _).trans ?_
  dsimp only
  rw [linked_shadow hb]

theorem mirCancel_lands (hlands : lands s port 0x23 c) : exec (.mirCancel port c) s =
    landed c (((linked s port c).setShadow (bits (carArg c 0) 0 10)
      ((b.liveRows.filter (carArg c 1).testBit).foldl (fun (b : Batch) i => b.modRow i fun r => { r with cancel := some 0 }) b)).mirror
        0x25 0 [c.oseq] []) := by
  refine (State.mirRow_lands hlands (by decide) hours _).trans ?_
  dsimp only
  rw [linked_shadow hb]

/-- A row of a shadow ended; a shadow with no live row left is gone with its key/value entries. -/
def State.endShadow (w : State) (h : Nat) (b : Batch) : State :=
  let w := w.setShadow h b
  if b.liveRows.isEmpty then { w with tw := { w.tw with
    batches := tdel w.tw.batches h, kv := tfilter (fun k _ => k / 64 != h) w.tw.kv } } else w

theorem mirEnd_lands (hlands : lands s port 0x24 c) : exec (.mirEnd port c) s =
    landed c (((linked s port c).endShadow (bits (carArg c 0) 0 10)
      (b.endRow (bits (carArg c 0) 10 6) (bits (carArg c 0) 16 3))).mirror 0x25 0 [c.oseq] []) := by
  refine (State.mirRow_lands hlands (by decide) hours _).trans ?_
  dsimp only
  rw [linked_shadow hb]
  rfl

end

theorem mirAck_lands (hlands : lands s port 0x25 c) (hsrc : c.src = s.twin) (hopen : s.tw.fenced = false) :
    let w := linked s port c
    let upTo (m : MirWait) : Bool := decide ((carArg c 0 + 2 ^ 32 - m.oseq) % 2 ^ 32 < 2 ^ 31)
    let gone := w.fa.mirrors.filter upTo
    exec (.mirAck port c) s = landed c ({ w with
      fa := { w.fa with mirrors := w.fa.mirrors.filter fun m => !upTo m }
      tw := { w.tw with miss := w.tw.miss.filter fun n => !(gone.any fun m => m.port == n), beatOut := w.tw.beatOut || !gone.isEmpty }
      } : State).grantAll.rejoin := by
  have hsrc' : c.src = (linked s port c).twin := hsrc.trans (linked_get s port c _).symm
  refine State.carRow_lands hlands (by decide) ?_
  dsimp only
  rw [if_neg (by simp [hsrc', linked_tw, hopen])]

end

/-! ## The obligation -/

/-- Settles O54: what each caravan of twin mode that lands comes to. -/
theorem twinCaravansKeepTheMirror : Obligations.TwinCaravansKeepTheMirror := by
  intro s port c
  refine ⟨fun epoch h => State.carRow_lands h (by decide) rfl,
    fun epoch hiso htwin hst hsrc hdst hmodel hstage hepoch hopen =>
      State.takeOffer_pairs hiso htwin hst hsrc hdst hmodel hstage hepoch hopen,
    fun epoch hiso htwin hst hmodel => ?mismatch,
    fun h => ⟨subst_elsewhere h, fun hstage => ⟨fun u hu => subst_installs h hstage hu, subst_full h hstage⟩⟩,
    fun h => State.carRow_lands h (by decide) rfl,
    fun hours => ⟨fun h => ⟨fun hpart => ?piece, fun hlong hwhole => ?whole⟩, fun h => mirKv_lands h hours,
      fun b hb => ⟨mirStep_lands hb hours, mirCancel_lands hb hours, fun h => ⟨fun hlive => ?lives, fun hnone => ?ends⟩⟩,
      fun h => twinBeat_lands h hours⟩,
    fun hours h => State.mirRow_refuses h (by decide) hours _, mirAck_lands⟩
  case mismatch =>
    rw [State.takeOffer_mismatch hiso htwin hst hmodel]
    exact ⟨(State.get_raiseAt_apart _ _ _ _ (by decide) (by decide)).trans (State.get_put_same _ _ _ (by decide)),
      State.get_raiseAt_same _ _ _ _ (by decide) rfl⟩
  case piece =>
    refine (mirAdmit_lands h hours).trans ?_
    rw [linked_tw, if_neg (by omega)]
  case whole =>
    refine (mirAdmit_lands h hours).trans ?_
    rw [linked_tw, if_pos ⟨hlong, hwhole⟩]
  case lives =>
    refine (mirEnd_lands hb hours h).trans ?_
    rw [State.endShadow, if_neg (by simpa using hlive)]
    rfl
  case ends =>
    refine (mirEnd_lands hb hours h).trans ?_
    rw [State.endShadow, if_pos (by simpa using hnone)]
    rfl

end Sys2Proof.Machine
end

section
/-!
PROOFS. Losses (16 R440, R441, 18 R463 to R466, R472 to R476): beats and misses, the confirmation of a suspicion, the mirroring of a batch in
RESYNC, errors of units and units lost.
-/

namespace Sys2Proof.Machine
open Sys2Proof.Claims

/-! ## Beats and misses (16 R440, R441, 18 R472) -/

section
variable {s : State}

theorem twinBeatTimer_due {port : Nat} (hport : port < 16) (hpaired : s.paired = true) (htwin : s.twinPort port = true)
    (hup : s.portUp port = true) (hdue : s.timer (port * 4 + 1) + 2000 ≤ s.ftime port) :
    exec (.twinBeatTimer port) s = .next ((s.setTimer (port * 4 + 1) (s.ftime port)).mirrorOn port 0x26 0 [] []) := by
  change execTwinBeatTimer port s = _
  rw [execTwinBeatTimer, if_neg (Nat.not_le.2 hport), if_pos ⟨hpaired, htwin, hup, hdue⟩]

/-- The ports of the mirror caravans unanswered for ACK_WAIT. -/
def State.latePorts (s : State) : List Nat :=
  (s.fa.mirrors.filter fun m => decide (m.stamp + s.get R.FAB_TWIN_ACK_WAIT ≤ s.ftime m.port)).map (·.port)

theorem ackWaitExpiry_none (hnone : s.latePorts = []) : exec .ackWaitExpiry s = .next s := if_pos hnone

theorem ackWaitExpiry_misses (hlate : s.latePorts ≠ []) : exec .ackWaitExpiry s =
    .next ((({ s with tw := { s.tw with miss := s.latePorts.foldl addNew s.tw.miss } } : State).raise R.FAB_ERR_ACK_MISS none).suspect) :=
  if_neg hlate

/-! ## A suspicion confirmed (18 R472, R475, R476) -/

section
variable {t : Nat} {pipe : List Nat} (hsuspect : s.tw.suspectAt = some t)
include hsuspect

theorem confirmWaitExpiry_cutOff (hout : s.otherPorts = []) : exec (.confirmWaitExpiry pipe) s = .next s.isolate := by
  change execConfirmWaitExpiry pipe s = _
  rw [execConfirmWaitExpiry, hsuspect, hout]
  rfl

theorem confirmWaitExpiry_reached (hout : s.otherPorts ≠ []) : exec (.confirmWaitExpiry pipe) s =
    if t + s.get R.TWN_CTL_CONFIRM_WAIT ≤ s.ftime s.firstTwin then .next (s.takeover pipe) else .next s := by
  change execConfirmWaitExpiry pipe s = _
  rw [execConfirmWaitExpiry, hsuspect]
  exact if_neg (by simpa using hout)

end

theorem State.isolate_spec (s : State) :
    s.isolate.get R.TWN_STS_STATE = 5 ∧ s.isolate.get R.TWN_ERR_ISOLATED = 1 ∧ s.isolate.tw.suspectAt = none := by
  refine ⟨(State.get_raiseAt_apart _ _ _ _ (by decide) (by decide)).trans (State.get_put_same _ _ _ (by decide)),
    State.get_raiseAt_same _ _ _ _ (by decide) rfl, ?_⟩
  rw [State.isolate, State.raise_tw]
  rfl

/-! ## RESYNC (18 R474) -/

theorem State.sends_mirAdmit (s : State) (ten h : Nat) (msg : List Byte) : s.sends (s.mirAdmit ten h msg) :=
  State.sends_foldl (fun u _ => u.sends_mirror _ _ _ _) _ s

theorem State.sends_mirRow' (s : State) (h i lo hi : Nat) : s.sends (s.mirRow' h i lo hi) := by
  unfold State.mirRow'
  split
  · refine State.sends_foldl (fun u l => State.sends_foldl (fun v p => ?_) _ u) _ s
    exact State.sends_ite v.sends_refl (State.sends_foldl (fun w _ => w.sends_mirror _ _ _ _) _ v)
  · exact s.sends_refl

/-- A batch mirrored in full: its BATCH, its live rows' key/value entries and records, the ends of its other rows. -/
def State.mirrorWhole (s : State) (h : Nat) (b : Batch) : State :=
  let s := s.mirAdmit b.ten h b.msg
  let s := (b.numbered.filter fun p => p.1.live && p.1.packed).foldl (fun (s : State) p => s.mirRow' h p.2 0 (p.1.valid - 1)) s
  let recs := (b.rows.filter (·.live)).flatMap fun r => r.recs
  let steps := sortBy (fun (x y : StepRec) => decide (x.step ≤ y.step)) recs
  let s := steps.foldl (fun (s : State) x => s.mirStep b.ten h x) s
  (b.numbered.filter fun p => !p.1.live).foldl (fun (s : State) p => s.mirEnd b.ten h p.2 p.1.status) s

theorem State.sends_mirrorWhole (s : State) (h : Nat) (b : Batch) : s.sends (s.mirrorWhole h b) := by
  unfold State.mirrorWhole
  extract_lets admitted entered recs steps stepped
  have hadmitted : s.sends admitted := s.sends_mirAdmit _ _ _
  have hentered : s.sends entered := State.sends_trans hadmitted (State.sends_foldl (fun u _ => u.sends_mirRow' _ _ _ _) _ _)
  have hstepped : s.sends stepped := State.sends_trans hentered (State.sends_foldl (fun u _ => u.sends_mirror _ _ _ _) _ _)
  exact State.sends_trans hstepped (State.sends_foldl (fun u _ => u.sends_mirror _ _ _ _) _ _)

theorem State.settleResync_whole {s : State} (hst : s.get R.TWN_STS_STATE = 6) (hall : ∀ p ∈ s.sv.batches, p.2.mirrored = true) :
    s.settleResync = s.twn 1 :=
  if_pos ⟨hst, by simpa using hall⟩

section
variable (hst : s.get R.TWN_STS_STATE = 6)
include hst

theorem resyncBatchProtect_whole (hall : ∀ p ∈ s.sv.batches, p.2.mirrored = true) : exec .resyncBatchProtect s = .next (s.twn 1) := by
  have hnone : (s.sv.batches.filter fun p => !p.2.mirrored) = [] := by simpa using hall
  change execResyncBatchProtect s = _
  rw [execResyncBatchProtect, if_neg (by simp [hst]), hnone]
  exact congrArg Host.Outcome.next (State.settleResync_whole hst hall)

theorem resyncBatchProtect_only {h : Nat} {b : Batch} (hb : s.sv.batches = [(h, b)]) (hopen : b.mirrored = false) :
    exec .resyncBatchProtect s = .next ((s.mirrorWhole h b).setBatch h { b with mirrored := true }).settleResync := by
  have honly : (s.sv.batches.filter fun p => !p.2.mirrored) = [(h, b)] := by simp [hb, hopen]
  change execResyncBatchProtect s = _
  rw [execResyncBatchProtect, if_neg (by simp [hst]), honly]
  rfl

/-- The only batch once mirrored, mirroring is complete. -/
theorem State.mirrorWhole_settles {h : Nat} {b : Batch} (hb : s.sv.batches = [(h, b)]) :
    let u := ((s.mirrorWhole h b).setBatch h { b with mirrored := true }).settleResync
    u.get R.TWN_STS_STATE = 1 ∧ u.sv.batches = [(h, { b with mirrored := true })] := by
  have hsends := s.sends_mirrorWhole h b
  have hbatches : ((s.mirrorWhole h b).setBatch h { b with mirrored := true }).sv.batches = [(h, { b with mirrored := true })] := by
    change tset (s.mirrorWhole h b).sv.batches h _ = _
    rw [hsends.batches, hb, tset, if_pos rfl]
  have hstate : ((s.mirrorWhole h b).setBatch h { b with mirrored := true }).get R.TWN_STS_STATE = 6 :=
    (hsends.get (g := R.TWN_STS_STATE) (by decide)).trans hst
  dsimp only
  rw [State.settleResync_whole hstate (by simp [hbatches])]
  exact ⟨State.get_put_same _ _ _ (by decide), hbatches⟩

end

end

/-! ## Errors of units (18 R463 to R466) -/

section
variable (s : State)

theorem unitErrorReport_engine {n bit : Nat} (hn : n < 104) (hbit : bit ≤ 6) :
    let u := s.report1 (R.ENG_ERR n) bit (s.unitTen 1 n) 0
    exec (.unitErrorReport (.engine n bit)) s = .next (if bit = 2 ∨ bit = 4 then u else u.loseEngine n) :=
  if_neg (by omega)

theorem unitErrorReport_scan {n bit : Nat} (hn : n < 16) (hbit : bit ≤ 4) :
    let u := s.report1 (R.SCN_ERR n) bit (s.unitTen 2 n) 0
    exec (.unitErrorReport (.scan n bit)) s = .next (if bit = 0 ∨ bit = 2 then u else u.loseUnit 2 n) :=
  if_neg (by omega)

/-- A hamlet's bits 2 and 6 lose the core, 4 and 5 its task; the others are recorded. -/
theorem unitErrorReport_core {c bit : Nat} (served : List (Nat × Nat)) (hc : c < 256) (hmin : 1 ≤ bit) (hmax : bit ≤ 6) :
    let u := s.report1 (R.HAM_ERR (c / 32)) bit (s.unitTen clsCore c) 0
    exec (.unitErrorReport (.core c bit served)) s =
      .next (if bit = 2 ∨ bit = 6 then u.loseCore c else if bit = 4 ∨ bit = 5 then u.loseTask c served else u) := by
  refine (if_neg (by omega)).trans (congrArg Host.Outcome.next ?_)
  interval_cases bit <;> rfl

section
variable {lane : Nat} (hlane : lane < 32) (ts : List Nat)
include hlane

theorem unitErrorReport_text {bit : Nat} (hbit : bit ≤ 4) (hlanes : bit ≠ 1) :
    let u := s.report1 R.TXT_ERR bit none 0
    exec (.unitErrorReport (.text bit lane ts)) s =
      .next (if bit = 3 then u.loseLane ts else if bit = 4 then (u.put ⟨R.TXT_CTL, 16 + lane, 1⟩ 0).loseLane ts else u) := by
  refine (if_neg (by omega)).trans (congrArg Host.Outcome.next ?_)
  interval_cases bit
  · rfl
  · exact absurd rfl hlanes
  all_goals rfl

theorem unitErrorReport_grammar {bit : Nat} (hbit : bit ≤ 2) :
    let u := s.report1 R.TXT_GRM_ERR bit none 0
    exec (.unitErrorReport (.grammar bit lane ts)) s =
      .next (if bit = 1 then u.loseLane ts else if bit = 2 then (u.put ⟨R.TXT_GRM_CTL, 32 + lane, 1⟩ 0).loseLane ts else u) := by
  refine (if_neg (by omega)).trans (congrArg Host.Outcome.next ?_)
  interval_cases bit <;> rfl

end

theorem unitErrorReport_oasis {die : Nat} (hdie : die < 2) (g : Nat) (readers : List Ref) :
    exec (.unitErrorReport (.oasis die 0 g readers)) s = .next (s.report1 (R.OAS_ERR die) 0 none (g * granuleBytes % 2 ^ 56)) :=
  if_neg (by omega)

/-! ## Units lost (18 R463, R464) -/

theorem State.loseUnit_declared (cls n : Nat) (h : s.declares = true) : s.loseUnit cls n =
    (((s.raise R.TWN_ERR_UNIT_LOST (s.unitTen cls n)).raiseEpoch cls n).fenceLeases fun l => l.unit == unitKey cls n).stopUnits
      (fun c m => c == cls && m == n) .unitFault :=
  if_pos h

theorem State.loseUnit_undeclared (cls n : Nat) (h : s.declares = false) :
    s.loseUnit cls n = s.stopUnits (fun c m => c == cls && m == n) .unitFault :=
  if_neg (by simp [h])

end

section
variable {s : State} {t : Nat} {c : Cmd} (hc : s.cmd t = some c)
include hc

theorem unitWaitExpiry_waits
    (h : s.declares = false ∨ c.st ≠ .running ∨ ¬ c.runAt.2 + s.get R.TWN_CTL_UNIT_WAIT ≤ s.time c.runAt.1) :
    exec (.unitWaitExpiry t) s = .next s := by
  change execUnitWaitExpiry t s = _
  rw [execUnitWaitExpiry, hc]
  exact if_pos (by simpa using h)

theorem unitWaitExpiry_loses (hdeclares : s.declares = true) (hst : c.st = .running)
    (hlate : c.runAt.2 + s.get R.TWN_CTL_UNIT_WAIT ≤ s.time c.runAt.1) :
    exec (.unitWaitExpiry t) s = .next (if dClass c.words = 1 then s.loseEngine c.unit else s.loseUnit (dClass c.words) c.unit) := by
  change execUnitWaitExpiry t s = _
  rw [execUnitWaitExpiry, hc]
  dsimp only
  rw [if_neg (by simp [hdeclares, hst, hlate])]
  split <;> rfl

end

/-! ## The obligation -/

/-- Settles O55: what each row of losses comes to. -/
theorem lossesAreDeclaredAndIsolated : Obligations.LossesAreDeclaredAndIsolated := by
  intro s
  refine ⟨fun port hport hpaired htwin hup hdue => twinBeatTimer_due hport hpaired htwin hup hdue, ⟨ackWaitExpiry_none, ackWaitExpiry_misses⟩,
    fun t pipe hsuspect => ⟨confirmWaitExpiry_cutOff hsuspect, fun hout hlate => ?confirmed, fun hout hearly => ?waits⟩, s.isolate_spec,
    fun hst => ⟨resyncBatchProtect_whole hst, fun h b hb hopen => ⟨_, resyncBatchProtect_only hst hb hopen, State.mirrorWhole_settles hst hb⟩⟩,
    fun n bit hn hbit => unitErrorReport_engine s hn hbit, fun n bit hn hbit => unitErrorReport_scan s hn hbit,
    fun c bit served hc hmin hmax => unitErrorReport_core s served hc hmin hmax,
    fun lane ts hlane => ⟨unitErrorReport_text s hlane ts (by decide) (by decide), unitErrorReport_text s hlane ts (by decide) (by decide),
      unitErrorReport_grammar s hlane ts (by decide), unitErrorReport_grammar s hlane ts (by decide), ?recorded,
      unitErrorReport_grammar s hlane ts (by decide)⟩,
    fun slot => ⟨rfl, rfl⟩, fun die g rs hdie => unitErrorReport_oasis s hdie g rs,
    fun cls n => ⟨s.loseUnit_declared cls n, s.loseUnit_undeclared cls n⟩,
    fun t c hc => ⟨unitWaitExpiry_waits hc, unitWaitExpiry_loses hc⟩⟩
  case confirmed => exact (confirmWaitExpiry_reached hsuspect hout).trans (if_pos hlate)
  case waits => exact (confirmWaitExpiry_reached hsuspect hout).trans (if_neg (Nat.not_le.2 hearly))
  case recorded =>
    intro bit hbit
    rcases List.mem_pair.1 hbit with rfl | rfl <;> exact unitErrorReport_text s hlane ts (by decide) (by decide)

end Sys2Proof.Machine
end

section
/-!
PROOFS. Supply thresholds and the controlled shutdown (19 R486 to R492, 24 R569): the registers that a cause leaves below the error block, the
end of non-volatile writes, each step of a shutdown and the start after it.
-/

namespace Sys2Proof.Machine
open Sys2Proof.Claims

/-! ## The registers below the error block, and what a cause leaves of them (22 R543, R544) -/

/-- Whether the registers below the error block stand as in another state. -/
def State.keepsLow (s u : State) : Prop := ∀ off, off < 0x300000 → u.reg off = s.reg off

/-- A field within a register below the error block. -/
abbrev Field.low (g : Field) : Prop := g.reg < 0x300000 ∧ g.lo + g.w ≤ 64

theorem State.keepsLow_refl (s : State) : s.keepsLow s := fun _ _ => rfl

theorem State.keepsLow_trans {s t u : State} (h : s.keepsLow t) (h' : t.keepsLow u) : s.keepsLow u := fun off hoff =>
  (h' off hoff).trans (h off hoff)

theorem State.keepsLow.get {s u : State} (h : s.keepsLow u) {g : Field} (hg : g.low) : u.get g = s.get g :=
  State.get_of_reg (h _ hg.1)

theorem State.keepsLow_setReg (s : State) {off : Nat} (h : 0x300000 ≤ off) (v : Nat) : s.keepsLow (s.setReg off v) := fun a ha => by
  rw [State.reg_setReg, if_neg (by omega)]

theorem State.keepsLow.thenSetReg {s u : State} (h : s.keepsLow u) {off : Nat} (ho : 0x300000 ≤ off) (v : Nat) :
    s.keepsLow (u.setReg off v) := State.keepsLow_trans h (u.keepsLow_setReg ho v)

theorem State.keepsLow_sendEvent (s : State) (kind reason : Nat) (ten : Option Nat) (stamp : Nat) (detail : List Nat) :
    s.keepsLow (s.sendEvent kind reason ten stamp detail) := by
  have lost (n : Nat) : s.keepsLow (s.bump (R.HST_CNT1_EVENT_LOST n) 1) :=
    s.keepsLow_setReg (Nat.le_add_right_of_le (by decide)) _
  unfold State.sendEvent
  split
  · split
    · exact fun _ _ => rfl
    · exact lost _
  · split
    · exact lost _
    · exact List.foldlRecOn _ _ s.keepsLow_refl fun _ hu _ _ => hu

theorem State.keepsLow_logCause (s : State) (block inst kind code : Nat) (ten : Option Nat) (d0 d1 : Nat) :
    s.keepsLow (s.logCause block inst kind code ten d0 d1).1 := by
  have entry {base i : Nat} (h : 0x300000 ≤ base) : 0x300000 ≤ base + 0x40 * i := Nat.le_add_right_of_le h
  unfold State.logCause
  dsimp only
  split
  · exact (s.keepsLow_setReg (entry (by decide)) _).thenSetReg (entry (by decide)) _
  · exact ((((((((s.keepsLow_setReg (entry (by decide)) _).thenSetReg (entry (by decide)) _).thenSetReg (entry (by decide)) _).thenSetReg
      (entry (by decide)) _).thenSetReg (entry (by decide)) _).thenSetReg (entry (by decide)) _).thenSetReg (by decide) _).thenSetReg
      (by decide) _)

/-- Below the error block a cause sets its bit and nothing else. -/
theorem State.keepsLow_raise (s : State) (f : Field) (ten : Option Nat) :
    (if s.get f = 1 then s else s.put f 1).keepsLow (s.raise f ten) := by
  unfold State.raise State.raiseAt State.raiseSeq
  split
  · exact s.keepsLow_refl
  · dsimp only
    split
    · exact State.keepsLow_refl _
    · dsimp only
      split
      · exact State.keepsLow_trans (State.keepsLow_logCause _ _ _ _ _ _ _ _) (State.keepsLow_sendEvent _ _ _ _ _ _)
      · exact State.keepsLow_logCause _ _ _ _ _ _ _ _

section
variable {f g : Field} (s : State) (ten : Option Nat)

theorem State.get_raise_low_apart (hg : g.low) (h : g.apart f) : (s.raise f ten).get g = s.get g := by
  rw [(s.keepsLow_raise f ten).get hg]
  split
  · rfl
  · exact State.get_put_apart _ _ _ _ hg.2 h

theorem State.get_raise_low_same (hf : f.low) (hw : f.w = 1) : (s.raise f ten).get f = 1 := by
  rw [(s.keepsLow_raise f ten).get hf]
  split
  · assumption
  · rw [State.get_put_same _ _ _ hf.2, hw]
    rfl

/-- The cause of a register elsewhere leaves the registers below the error block. -/
theorem State.keepsLow_raise_above (hf : 0x300000 ≤ f.reg) : s.keepsLow (s.raise f ten) := by
  refine State.keepsLow_trans (t := if s.get f = 1 then s else s.put f 1) ?_ (s.keepsLow_raise f ten)
  split
  · exact s.keepsLow_refl
  · exact s.keepsLow_setReg hf _

end

/-! ## Registers at their reset values, at the entry to bring-up (25 R576) -/

/-- An entry of a table stands when another is deleted, whatever the order of the table. -/
theorem tfind_tdel_kept {α : Type} {t : Tab α} {i j : Nat} {x : α} (h : tfind t j = some x) (hne : j ≠ i) :
    tfind (tdel t i) j = some x := by
  induction t with
  | nil => exact h
  | cons p t ih =>
    obtain ⟨k, v⟩ := p
    unfold tdel
    by_cases hk : i = k
    · subst hk
      rw [tfind, if_neg hne] at h
      split at h
      · cases h
      · rw [if_pos rfl, h]
    · rw [if_neg hk, tfind]
      rw [tfind] at h
      by_cases hj : j = k
      · rwa [if_pos hj] at h ⊢
      · rw [if_neg hj] at h ⊢
        split at h
        · cases h
        · rw [if_neg ‹_›, ih h]

/-- Whether a register holds a value put there. -/
def State.written (s : State) (off : Nat) : Prop := (tfind s.cw off).isSome

theorem State.written_put (s : State) (f : Field) (v : Nat) : (s.put f v).written f.reg := by
  rw [State.written, State.put, State.setReg, tfind_tset, if_pos rfl]
  rfl

theorem State.written.put {s : State} {off : Nat} (h : s.written off) (f : Field) (v : Nat) : (s.put f v).written off := by
  rw [State.written, State.put, State.setReg, tfind_tset]
  split
  · rfl
  · exact h

section
variable {s : State} {off a : Nat} (h : s.written off) (hne : off ≠ a)
include h hne

theorem State.written.resetReg : (s.resetReg a).written off := by
  obtain ⟨w, hw⟩ := Option.isSome_iff_exists.1 h
  exact Option.isSome_iff_exists.2 ⟨w, tfind_tdel_kept hw hne⟩

theorem State.reg_resetReg_other : (s.resetReg a).reg off = s.reg off := by
  obtain ⟨w, hw⟩ := Option.isSome_iff_exists.1 h
  rw [State.reg, State.reg, State.resetReg, hw, tfind_tdel_kept hw hne]

end

theorem State.get_startBringUp {s : State} {g : Field} (h : s.written g.reg) (hg : g.low) (stage : Nat) :
    (s.startBringUp stage).get g = s.get g := by
  have hbring : g.reg ≠ R.ERR_BRING := Nat.ne_of_lt (hg.1.trans (by decide))
  have htime : g.reg ≠ R.ERR_BRING_T := Nat.ne_of_lt (hg.1.trans (by decide))
  rw [State.startBringUp, State.get_put_other _ _ _ _ hbring]
  exact State.get_of_reg ((State.reg_resetReg_other (h.resetReg hbring) htime).trans (State.reg_resetReg_other h hbring))

theorem State.get_startBringUp_stage (s : State) (stage : Nat) : (s.startBringUp stage).get R.ERR_BRING_STAGE = stage % 2 ^ 4 :=
  State.get_put_same _ _ _ (by decide)

/-! ## Permission for non-volatile writes (R487, R488) -/

theorem State.noteStalls_spec (s : State) (pages : List Nat) :
    (s.noteStalls pages).mem = s.mem ∧ (s.noteStalls pages).se = s.se ∧ s.keepsLow (s.noteStalls pages) := by
  unfold State.noteStalls
  split
  · exact ⟨rfl, rfl, s.keepsLow_refl⟩
  · exact ⟨State.raise_mem _ _ _, State.raise_se _ _ _, State.keepsLow_raise_above _ _ (by decide)⟩

/-- A key-store write in progress ended without effect (20 R519). -/
def State.ksWriteCut (s : State) : State :=
  match s.se.writing with
  | none => s
  | some _ =>
    let s := (s.put R.SEC_KS_STS_CHK 0xA8).put R.SEC_KS_STS_BUSY 0
    ({ s with se := { s.se with writing := none } } : State).raise R.SEC_ERR_KS_REFUSED none

theorem State.ksWriteCut_spec (s : State) : s.ksWriteCut.mem = s.mem ∧ s.ksWriteCut.se.writing = none ∧
    ∀ g : Field, g.low → g.reg < 0x200000 → s.ksWriteCut.get g = s.get g := by
  unfold State.ksWriteCut
  split
  next hnone => exact ⟨rfl, hnone, fun _ _ _ => rfl⟩
  next =>
    dsimp only
    refine ⟨State.raise_mem _ _ _, ?_, fun g hg hpwr => ?_⟩
    · rw [State.raise_se]
    · have hne {off : Nat} (h : 0x200000 ≤ off) : g.reg ≠ off := Nat.ne_of_lt (hpwr.trans_le h)
      exact (State.get_raise_low_apart _ _ hg (.inl (hne (by decide)))).trans <|
        (State.get_put_other _ _ _ _ (hne (by decide))).trans (State.get_put_other _ _ _ _ (hne (by decide)))

theorem State.clearNv_eq (s : State) :
    s.clearNv = ((s.put R.PWR_STS_NV_OK 0).noteStalls (s.put R.PWR_STS_NV_OK 0).awaitedPages).ksWriteCut := rfl

/-- The end of non-volatile writes reaches no byte of memory, no register of the power manager but NV_OK, and ends a write of the key store. -/
theorem State.clearNv_spec (s : State) : s.clearNv.mem = s.mem ∧ s.clearNv.se.writing = none ∧
    ∀ g : Field, g.low → g.reg < 0x200000 → s.clearNv.get g = (s.put R.PWR_STS_NV_OK 0).get g := by
  obtain ⟨hmem, _, hlow⟩ := (s.put R.PWR_STS_NV_OK 0).noteStalls_spec (s.put R.PWR_STS_NV_OK 0).awaitedPages
  rw [State.clearNv_eq]
  obtain ⟨hmem', hwriting, hget⟩ := State.ksWriteCut_spec ((s.put R.PWR_STS_NV_OK 0).noteStalls (s.put R.PWR_STS_NV_OK 0).awaitedPages)
  exact ⟨hmem'.trans hmem, hwriting, fun g hg hpwr => (hget g hg hpwr).trans (hlow.get hg)⟩

theorem State.clearNv_nvOk (s : State) : s.clearNv.get R.PWR_STS_NV_OK = 0 := by
  obtain ⟨_, _, hget⟩ := s.clearNv_spec
  exact (hget _ (by decide) (by decide)).trans (State.get_put_same _ _ _ (by decide))

/-! ## The input in range (R492) -/

theorem State.settle_starts {s : State} (hphase : s.pw.phase = 4) (hrange : s.get R.PWR_STS_IN_LOW = 0 ∧ s.get R.PWR_STS_IN_HIGH = 0)
    (hnone : s.pw.steadyAt = none) : s.settle = { s with pw := { s.pw with steadyAt := some s.pwrStamp } } := by
  rw [State.settle, if_neg (by simp [hphase, hrange]), hnone]

theorem State.settle_goesOn {s : State} (hphase : s.pw.phase = 4) (hrange : s.get R.PWR_STS_IN_LOW = 0 ∧ s.get R.PWR_STS_IN_HIGH = 0)
    (hsome : s.pw.steadyAt ≠ none) : s.settle = s := by
  obtain ⟨t, ht⟩ := Option.ne_none_iff_exists'.1 hsome
  rw [State.settle, if_neg (by simp [hphase, hrange]), ht]
  dsimp only
  rw [← ht]

theorem State.settle_ends {s : State} (h : s.pw.phase ≠ 4 ∨ s.get R.PWR_STS_IN_LOW = 1 ∨ s.get R.PWR_STS_IN_HIGH = 1) :
    s.settle = { s with pw := { s.pw with steadyAt := none } } := by
  rw [State.settle, if_pos h]

/-! ## The steps of a shutdown (R491) -/

section
variable {s : State}

theorem State.shutdown_once (h : s.get R.PWR_STS_SHUTDOWN = 1) (cause : Nat) : s.shutdown cause = s := if_pos h

theorem State.shutdown_starts {cause : Nat} (hcause : cause ≤ 4) (h : s.get R.PWR_STS_SHUTDOWN = 0) :
    (s.shutdown cause).get R.PWR_STS_SHUTDOWN = 1 ∧ (s.shutdown cause).get R.PWR_STS_CAUSE = cause ∧
      (s.shutdown cause).get R.PWR_STS_NV_OK = 0 ∧ (s.shutdown cause).pw.phase = 2 ∧ (s.shutdown cause).mem = s.mem := by
  obtain ⟨hmem, _, _⟩ := s.clearNv_spec
  have hstarts : s.shutdown cause = { (s.clearNv.put R.PWR_STS_SHUTDOWN 1).put R.PWR_STS_CAUSE cause with
      pw := { s.clearNv.pw with phase := 2 } } := if_neg (by simp [h])
  rw [hstarts]
  refine ⟨?_, ?_, ?_, rfl, hmem⟩
  · exact (State.get_put_apart _ _ _ _ (by decide) (by decide)).trans (State.get_put_same _ _ _ (by decide))
  · exact (State.get_put_same _ _ _ (by decide)).trans (Nat.mod_eq_of_lt (hcause.trans_lt (by decide)))
  · exact (State.get_put_apart _ _ _ _ (by decide) (by decide)).trans <|
      (State.get_put_apart _ _ _ _ (by decide) (by decide)).trans s.clearNv_nvOk

theorem State.clearRuns_spec (f : Nat → Nat) (n : Nat) (l : List Nat) (s : State) :
    ∃ m, l.foldl (fun (s : State) pk => s.clearRun (f pk) n) s = { s with mem := m } :=
  List.foldlRecOn (motive := fun u : State => ∃ m, u = { s with mem := m }) l _ ⟨_, rfl⟩ fun _ ⟨_, hu⟩ _ _ => hu ▸ ⟨_, rfl⟩

/-- The field dies' state lost: the commands and the registers stay, with what the flash and the island hold. -/
theorem State.loseFields_spec (s : State) : ∃ m, s.loseFields = { s with
    mem := m
    x := { s.x with cores := [], bars := [] }
    en := { s.en with fill := [], tileWait := [] } } := by
  unfold State.loseFields
  dsimp only
  generalize List.map _ _ = gone
  obtain ⟨m, hcleared⟩ := State.clearRuns_spec (· * pageBytes) pageBytes gone s
  rw [hcleared]
  exact ⟨_, rfl⟩

/-- An Irrevocable command short of its counted length. -/
def Cmd.short (c : Cmd) : Bool := c.st == .irrevocable && !c.nkDone

/-- The field dies' rails off (R491 step 3). -/
def State.fieldsOff (s : State) : State :=
  { s.put R.PWR_DOM_STS_POWERED (s.get R.PWR_DOM_STS_POWERED / 2 ^ 40 * 2 ^ 40) with pw := { s.pw with phase := 3 } }

theorem shutdownFieldGate_gates (hphase : s.pw.phase = 2)
    (hbusy : (s.x.cmds.any fun p => p.2.short && dClass p.2.words != 8 && dClass p.2.words != 9) = false) :
    ∃ u, exec .shutdownFieldGate s = .next u ∧ u.pw.phase = 3 ∧ u.x.cores = [] ∧ u.x.cmds = s.x.cmds ∧
      u.get R.PWR_DOM_STS_POWERED = s.get R.PWR_DOM_STS_POWERED / 2 ^ 40 * 2 ^ 40 ∧ u.nv = s.nv ∧ u.se = s.se := by
  have hnot : ¬ (s.pw.phase ≠ 2 ∨ (s.x.cmds.any fun p => p.2.short && dClass p.2.words != 8 && dClass p.2.words != 9) = true) := by
    simp [hphase, hbusy]
  have hlow : s.get R.PWR_DOM_STS_POWERED / 2 ^ 40 * 2 ^ 40 < 2 ^ 50 := (Nat.div_mul_le_self _ _).trans_lt (s.get_lt _)
  obtain ⟨m, hlost⟩ := s.loseFields_spec
  refine ⟨s.loseFields.fieldsOff, if_neg hnot, rfl, ?_⟩
  rw [hlost]
  refine ⟨rfl, rfl, ?_, rfl, rfl⟩
  exact (State.get_put_same _ _ _ (by decide)).trans (Nat.mod_eq_of_lt hlow)

theorem shutdownGateDieGate_waits (h : (s.x.cmds.any fun p => p.2.short) = true) : exec .shutdownGateDieGate s = .next s :=
  if_pos (.inr h)

theorem State.get_put_powered {n : Nat} (h : n < 2 ^ 50) (s : State) :
    (s.put R.PWR_DOM_STS_POWERED n).get R.PWR_DOM_STS_POWERED = n :=
  (State.get_put_same _ _ _ (by decide)).trans (Nat.mod_eq_of_lt h)

theorem shutdownGateDieGate_gates (hphase : s.pw.phase = 3) (h : (s.x.cmds.any fun p => p.2.short) = false) :
    ∃ u, exec .shutdownGateDieGate s = .next u ∧ u.pw.phase = 4 ∧ u.pw.pwrgd = false ∧ u.get R.PWR_DOM_STS_POWERED = 2 ^ 48 + 2 ^ 49 ∧
      u.mem = s.lastingMem ∧ (∀ c ∈ s.lastingMem, c ∈ s.mem) ∧ u.nv = s.nv ∧ u.se = s.se ∧ u.sb = s.sb ∧
      u.x.cmds = [] ∧ u.vm.pages = [] := by
  have hnot : ¬ (s.pw.phase ≠ 3 ∨ (s.x.cmds.any fun p => p.2.short) = true) := by simp [hphase, h]
  exact ⟨_, if_neg hnot, rfl, rfl, s.resetDies.get_put_powered (by decide), rfl, fun _ => List.mem_of_mem_filter, rfl, rfl, rfl, rfl, rfl⟩

/-! ## The start after a shutdown, and the hold-up exhausted (R492, 24 R569) -/

/-- The registers and rails of a start after a controlled shutdown, before bring-up. -/
def State.restored (s : State) (f0 f1 gate hbm : Nat) : State :=
  let s := ((s.put (R.PWR_FD_STS_TJ 0) f0).put (R.PWR_FD_STS_TJ 1) f1).put R.PWR_TEMP_GATE_TJ gate
  let s := (s.put R.PWR_TEMP_HBM_MAX hbm).put R.PWR_DOM_STS_POWERED allDomains
  let s := (s.put R.PWR_STS_SHUTDOWN 0).put R.PWR_STS_CAUSE 0
  { s with pw := { s.pw with phase := 0, pwrgd := true, steadyAt := none } }

theorem State.restored_spec (s : State) (f0 f1 gate hbm : Nat) :
    let u := (s.restored f0 f1 gate hbm).startBringUp 1
    u.pw.phase = 0 ∧ u.pw.pwrgd = true ∧ u.get R.PWR_STS_SHUTDOWN = 0 ∧ u.get R.PWR_STS_CAUSE = 0 ∧
      u.get R.PWR_DOM_STS_POWERED = 2 ^ 50 - 1 ∧ u.get R.ERR_BRING_STAGE = 1 ∧ u.mem = s.mem := by
  have hsts : (s.restored f0 f1 gate hbm).written R.PWR_STS := State.written_put _ R.PWR_STS_CAUSE 0
  have hdom : (s.restored f0 f1 gate hbm).written R.PWR_DOM_STS :=
    ((State.written_put _ R.PWR_DOM_STS_POWERED allDomains).put R.PWR_STS_SHUTDOWN 0).put R.PWR_STS_CAUSE 0
  refine ⟨rfl, rfl, ?_, ?_, ?_, State.get_startBringUp_stage _ _, rfl⟩
  · exact (State.get_startBringUp (g := R.PWR_STS_SHUTDOWN) hsts (by decide) 1).trans <|
      (State.get_put_apart _ R.PWR_STS_CAUSE _ _ (by decide) (by decide)).trans (State.get_put_same _ _ _ (by decide))
  · exact (State.get_startBringUp (g := R.PWR_STS_CAUSE) hsts (by decide) 1).trans (State.get_put_same _ _ _ (by decide))
  · exact (State.get_startBringUp (g := R.PWR_DOM_STS_POWERED) hdom (by decide) 1).trans <|
      (State.get_put_other _ R.PWR_STS_CAUSE _ _ (by decide)).trans <|
      (State.get_put_other _ R.PWR_STS_SHUTDOWN _ _ (by decide)).trans (State.get_put_powered (by decide) _)

/-- Whether the module may start again (R492). -/
def State.mayRestart (s : State) (f0 f1 gate hbm : Nat) : Prop :=
  s.pw.phase = 4 ∧ (∃ t, s.pw.steadyAt = some t ∧ t.2 + 10000000 ≤ s.time t.1) ∧ s.get R.PWR_STS_IN_LOW = 0 ∧
    s.get R.PWR_STS_IN_HIGH = 0 ∧ (s.get R.PWR_STS_CAUSE = 3 → f0 ≤ 70 ∧ f1 ≤ 70 ∧ gate ≤ 70 ∧ hbm ≤ 70) ∧
    (s.get R.PWR_STS_CAUSE = 4 → s.pw.absent.contains 5 = false)

theorem State.steady_iff (s : State) : s.steady = true ↔ ∃ t, s.pw.steadyAt = some t ∧ t.2 + 10000000 ≤ s.time t.1 := by
  unfold State.steady
  cases s.pw.steadyAt with
  | none => simp
  | some t => simp

/-- A field of one bit is set, or it is clear. -/
theorem State.get_ne_one_iff (s : State) {f : Field} (hw : f.w = 1) : s.get f ≠ 1 ↔ s.get f = 0 := by
  have hlt := s.get_lt f
  rw [hw] at hlt
  omega

/-- The guard of the row is the negation of R492's conditions. -/
theorem State.restartGuard_iff (s : State) (f0 f1 gate hbm : Nat) :
    (s.pw.phase ≠ 4 ∨ (!s.steady) = true ∨ s.get R.PWR_STS_IN_LOW = 1 ∨ s.get R.PWR_STS_IN_HIGH = 1 ∨
      (s.get R.PWR_STS_CAUSE = 3 ∧ (!(decide (f0 ≤ 70) && decide (f1 ≤ 70) && decide (gate ≤ 70) && decide (hbm ≤ 70))) = true) ∨
      (s.get R.PWR_STS_CAUSE = 4 ∧ s.pw.absent.contains 5 = true)) ↔ ¬ s.mayRestart f0 f1 gate hbm := by
  rw [State.mayRestart, ← s.steady_iff, ← s.get_ne_one_iff (f := R.PWR_STS_IN_LOW) rfl, ← s.get_ne_one_iff (f := R.PWR_STS_IN_HIGH) rfl]
  simp only [not_and_or, not_not, Classical.not_imp, Bool.not_eq_true', Bool.not_eq_true, Bool.not_eq_false, Bool.and_eq_false_iff,
    decide_eq_false_iff_not, ne_eq, or_assoc]

theorem shutdownRestart_waits {f0 f1 gate hbm : Nat} (h : ¬ s.mayRestart f0 f1 gate hbm) :
    exec (.shutdownRestart f0 f1 gate hbm) s = .next s :=
  if_pos ((s.restartGuard_iff _ _ _ _).2 h)

theorem shutdownRestart_restarts {f0 f1 gate hbm : Nat} (h : s.mayRestart f0 f1 gate hbm) :
    exec (.shutdownRestart f0 f1 gate hbm) s = .next ((s.restored f0 f1 gate hbm).startBringUp 1) :=
  if_neg fun hguard => (s.restartGuard_iff _ _ _ _).1 hguard h

theorem railsFail_spec (s : State) : ∃ u, exec .railsFail s = .next u ∧ u.nv = s.nv ∧ u.sb = s.sb ∧ u.se.boot = s.se.boot ∧
    u.se.store = s.se.store ∧ u.x.cores = [] ∧ u.x.cmds = [] ∧ u.vm.pages = [] ∧ u.pw.pwrgd = false ∧ u.pw.charged = false ∧
    u.get R.PWR_DOM_STS_POWERED = 0 ∧ u.get R.SEC_STS_SVN_FLOOR = s.get R.SEC_STS_SVN_FLOOR := by
  refine ⟨_, rfl, rfl, rfl, rfl, rfl, rfl, rfl, rfl, rfl, rfl, State.get_put_powered (by decide) _, ?_⟩
  exact (State.get_put_other _ _ _ _ (by decide)).trans <| (State.get_put_same _ _ _ (by decide)).trans (Nat.mod_eq_of_lt (s.get_lt _))

end

/-! ## The obligation -/

/-- Settles O56: each threshold crossed and not, the shutdown's steps, and what stands after each. -/
theorem supplyThresholdsAndShutdown : Obligations.SupplyThresholdsAndShutdown := by
  intro s v
  obtain ⟨_, hwriting, _⟩ := s.clearNv_spec
  refine ⟨fun h => if_pos h, fun h => if_pos h, fun h => if_pos h, fun h => if_pos h, fun h => if_pos h, fun h => if_pos h,
    fun h => if_pos h, fun h => if_pos h, fun h => if_neg (Nat.not_lt.2 h), fun h => if_neg (Nat.not_lt.2 h),
    ⟨State.settle_starts, State.settle_goesOn, State.settle_ends⟩, ⟨s.clearNv_nvOk, hwriting⟩,
    fun cause _ hmax => ⟨fun h => State.shutdown_once h cause, State.shutdown_starts hmax⟩,
    ⟨shutdownFieldGate_gates, shutdownGateDieGate_gates, shutdownGateDieGate_waits⟩,
    fun f0 f1 gate hbm => ⟨shutdownRestart_waits, fun may => ⟨_, shutdownRestart_restarts may, s.restored_spec f0 f1 gate hbm⟩⟩,
    railsFail_spec s⟩

end Sys2Proof.Machine
end

section
/-!
PROOFS. Power domains, core voltage, heat and the reference clocks (19 R493 to R500, 23 R556 to R559): requests and their ends, one step of the
voltage and what sets its limits, crossings whose clock is gone and back.
-/

namespace Sys2Proof.Machine
open Sys2Proof.Claims

/-! ## Power domains (R493 to R495) -/

theorem State.writeRow_taken {s : State} {via : Via} (h : mayWrite s via) (off v : Nat) :
    s.writeRow via off v = .next (s.regWrite via off v) := by
  rcases h with rfl | ⟨q, rfl, hq, hmanager⟩
  · rfl
  · rw [State.writeRow_host _ _ _ _ hq, if_pos hmanager]

theorem State.powered_put (s : State) {d : Nat} (hd : d < 50) (x v : Nat) :
    (s.put R.PWR_DOM_STS_POWERED (setBits x d 1 v)).powered d = v.testBit 0 := by
  rw [State.powered, State.get_put_same _ _ _ (by decide), Nat.testBit_mod_two_pow, testBit_setBits]
  simp [R.PWR_DOM_STS_POWERED, hd]

theorem State.powered_gatePending (s : State) (d : Nat) : s.gatePending.powered d = s.powered d :=
  congrArg (Nat.testBit · d) (State.get_put_other _ _ _ _ (by decide))

theorem State.get_gatePending (s : State) : s.gatePending.get R.PWR_GATE_STS_PENDING = if s.pw.queue.isEmpty then 0 else 1 := by
  rw [State.gatePending, State.get_put_same _ _ _ (by decide)]
  split <;> rfl

section
variable {s : State} {d : Nat}

section
variable (hempty : s.pw.queue = []) {on : Bool}
include hempty

theorem State.domRequest_asIs (h : s.powered d = on) : s.domRequest d on = s := by
  rw [State.domRequest, if_neg (by simp [hempty]), if_pos h]

theorem State.domRequest_queued (h : s.powered d ≠ on) (hmay : on = true ∨ s.gateRefusal d = none) :
    s.domRequest d on = { s with pw := { s.pw with queue := [(d, on)] } } := by
  have hnone : (if on = true then none else s.gateRefusal d) = none := by
    rcases hmay with hon | hnone
    · exact if_pos hon
    · rw [hnone, ite_self]
  rw [State.domRequest, if_neg (by simp [hempty]), if_neg h, hnone, hempty]
  rfl

theorem State.domRequest_refused (h : s.powered d = true) {code : Nat} (hcode : s.gateRefusal d = some code) :
    (s.domRequest d false).pw.queue = [] ∧ (s.domRequest d false).get R.PWR_GATE_STS_CHK = code % 256 ∧
      (s.domRequest d false).get R.PWR_ERR_GATE_REFUSED = 1 := by
  have hrefused : s.domRequest d false =
      ((s.put R.PWR_GATE_STS_CHK code).put R.PWR_GATE_STS_DOMAIN d).raise R.PWR_ERR_GATE_REFUSED none := by
    rw [State.domRequest, if_neg (by simp [hempty]), if_neg (by simp [h]), if_neg (by decide), hcode]
  rw [hrefused]
  refine ⟨?_, ?_, State.get_raise_low_same _ _ (by decide) rfl⟩
  · rw [State.raise_pw]
    exact hempty
  · exact (State.get_raise_low_apart _ _ (by decide) (by decide)).trans <|
      (State.get_put_apart _ _ _ _ (by decide) (by decide)).trans (State.get_put_same _ _ _ (by decide))

end

section
variable (hd : d < 50) {q : List (Nat × Bool)}
include hd

theorem domainGateDone_eq (hq : s.pw.queue = (d, false) :: q) : exec (.domainGateDone d) s =
    if s.gateReady d then .next ((({ s with pw := { s.pw with queue := q } } : State).gate d).gatePending) else .next s := by
  change execDomainGateDone d s = _
  rw [execDomainGateDone, if_neg (Nat.not_le.2 hd), hq]
  simp only [true_and]

theorem State.powered_gate (s : State) : (s.gate d).gatePending.powered d = false :=
  (State.powered_gatePending _ _).trans (State.powered_put _ hd _ 0)

theorem domainPowerUpDone_spec (hq : s.pw.queue = (d, true) :: q) : ∃ u, exec (.domainPowerUpDone d) s = .next u ∧ u.powered d = true ∧
    u.pw.queue = q ∧ u.get R.PWR_GATE_STS_PENDING = if q.isEmpty then 0 else 1 := by
  let up : State := { s.quarantine d with pw := { s.pw with queue := q } }
  refine ⟨(up.put R.PWR_DOM_STS_POWERED (setBits (up.get R.PWR_DOM_STS_POWERED) d 1 1)).gatePending, ?_,
    (State.powered_gatePending _ _).trans (State.powered_put _ hd _ 1), rfl, State.get_gatePending _⟩
  change execDomainPowerUpDone d s = _
  rw [execDomainPowerUpDone, if_neg (Nat.not_le.2 hd), hq]
  exact if_pos rfl

end

theorem State.sleepWrite_sleeps (hsleep : s.get R.PWR_CTL_SLEEP = 1) (hten : ∀ t, t < 64 → s.get (R.SCH_TEN_CTL_EN t) = 0)
    (hfab : s.get R.FAB_CTL_EN = 0) :
    (s.sleepWrite 0).pw.asleep = true ∧ (s.sleepWrite 0).get R.PWR_DOM_STS_POWERED = 2 ^ 48 + 2 ^ 49 := by
  have hsleeps : s.sleepWrite 0 = { s.resetDies.put R.PWR_DOM_STS_POWERED alwaysOn with
      pw := { s.resetDies.pw with asleep := true, queue := [] } } := by
    have hopen : ¬ (((List.range 64).any fun t => s.get (R.SCH_TEN_CTL_EN t) == 1) || s.get R.FAB_CTL_EN == 1) = true := by
      have hnone (t : Nat) (ht : t < 64) : s.get (R.SCH_TEN_CTL_EN t) ≠ 1 := by simp [hten t ht]
      simpa [hfab] using hnone
    rw [State.sleepWrite, hsleep]
    exact if_neg hopen
  rw [hsleeps]
  exact ⟨rfl, s.resetDies.get_put_powered (by decide)⟩

theorem State.sleepWrite_refused (hsleep : s.get R.PWR_CTL_SLEEP = 1) (hfab : s.get R.FAB_CTL_EN = 1) :
    (s.sleepWrite 0).get R.PWR_CTL_SLEEP = 0 ∧ (s.sleepWrite 0).get R.PWR_ERR_GATE_REFUSED = 1 ∧
      (s.sleepWrite 0).pw.asleep = s.pw.asleep := by
  have hrefused : s.sleepWrite 0 = (s.put R.PWR_CTL_SLEEP 0).raise R.PWR_ERR_GATE_REFUSED none := by
    have hclosed : (((List.range 64).any fun t => s.get (R.SCH_TEN_CTL_EN t) == 1) || s.get R.FAB_CTL_EN == 1) = true := by simp [hfab]
    rw [State.sleepWrite, hsleep]
    exact if_pos hclosed
  rw [hrefused]
  refine ⟨?_, State.get_raise_low_same _ _ (by decide) rfl, ?_⟩
  · exact (State.get_raise_low_apart _ _ (by decide) (by decide)).trans (State.get_put_same _ _ _ (by decide))
  · rw [State.raise_pw]
    rfl

theorem State.sleepWrite_wakes (hsleep : s.get R.PWR_CTL_SLEEP = 0) :
    (s.sleepWrite 1).pw.asleep = false ∧ (s.sleepWrite 1).get R.PWR_DOM_STS_POWERED = 2 ^ 50 - 1 ∧
      (s.sleepWrite 1).get R.ERR_BRING_STAGE = 2 := by
  let woken : State := { s.put R.PWR_DOM_STS_POWERED allDomains with pw := { s.pw with asleep := false } }
  have hwakes : s.sleepWrite 1 = woken.startBringUp 2 := by
    rw [State.sleepWrite, hsleep]
    rfl
  have hdom : woken.written R.PWR_DOM_STS := State.written_put s R.PWR_DOM_STS_POWERED allDomains
  rw [hwakes]
  refine ⟨rfl, ?_, State.get_startBringUp_stage _ _⟩
  exact (State.get_startBringUp (g := R.PWR_DOM_STS_POWERED) hdom (by decide) 2).trans (s.get_put_powered (by decide))

/-! ## Core voltage (R496 to R498) -/

/-- Whether a die's last step of VCORE lies less than 10 µs back. -/
def State.vcoreEarly (s : State) (die : Nat) : Bool :=
  match tfind s.pw.stepAt die with
  | some t => decide (s.time t.1 < t.2 + 10000)
  | none => false

/-- A die's VCORE set, the step stamped. -/
def State.vcoreSet (s : State) (die n : Nat) : State :=
  { s.put (R.PWR_FD_STS_VCORE die) n with pw := { s.pw with stepAt := tset s.pw.stepAt die s.pwrStamp } }

theorem State.vcoreEarly_of_found {p t : Nat} (h : tfind s.pw.stepAt d = some (p, t)) (hearly : s.time p < t + 10000) :
    s.vcoreEarly d = true := by
  rw [State.vcoreEarly, h]
  exact decide_eq_true hearly

theorem State.vcoreEarly_of_due (h : ∀ p t, tfind s.pw.stepAt d = some (p, t) → t + 10000 ≤ s.time p) : s.vcoreEarly d = false := by
  unfold State.vcoreEarly
  split
  next t ht => exact decide_eq_false (Nat.not_lt.2 (h t.1 t.2 ht))
  next => rfl

theorem vcoreStep_eq (hd : d < 2) : exec (.vcoreStep d) s =
    let v := s.get (R.PWR_FD_STS_VCORE d)
    if s.vcoreEarly d then .next s
    else if s.vTarget d < v then .next (s.vcoreSet d (v - 10))
    else if v + 10 ≤ s.vTarget d then .next (s.vcoreSet d (v + 10))
    else .next s := if_neg (Nat.not_le.2 hd)

theorem vcoreStep_early (hd : d < 2) (h : s.vcoreEarly d = true) : exec (.vcoreStep d) s = .next s :=
  (vcoreStep_eq hd).trans (if_pos h)

theorem vcoreStep_due (hd : d < 2) (h : s.vcoreEarly d = false) :
    let v := s.get (R.PWR_FD_STS_VCORE d)
    (s.vTarget d < v → exec (.vcoreStep d) s = .next (s.vcoreSet d (v - 10))) ∧
      (v + 10 ≤ s.vTarget d → exec (.vcoreStep d) s = .next (s.vcoreSet d (v + 10))) ∧
      (v ≤ s.vTarget d → s.vTarget d < v + 10 → exec (.vcoreStep d) s = .next s) := by
  intro v
  have hstep := (vcoreStep_eq hd).trans (if_neg (Bool.eq_false_iff.1 h))
  refine ⟨fun hdown => hstep.trans (if_pos hdown), fun hup => ?_, fun hlow hhigh => ?_⟩
  · exact hstep.trans ((if_neg (Nat.not_lt.2 (Nat.le_of_add_right_le hup))).trans (if_pos hup))
  · exact hstep.trans ((if_neg (Nat.not_lt.2 hlow)).trans (if_neg (Nat.not_le.2 hhigh)))

theorem State.vTarget_bounds (s : State) (die : Nat) : 720 ≤ s.vTarget die ∧ s.vTarget die ≤ 860 :=
  ⟨le_max_left _ _, max_le (by decide) (min_le_left _ _)⟩

theorem tjHighCrossing_spec (hd : d < 2) (tj : Nat) :
    let u := s.put (R.PWR_FD_STS_TJ d) tj
    (u.tjHigh ≤ tj → exec (.tjHighCrossing d tj) s = .next (u.setThermal d 720)) ∧
      (tj + 5 < u.tjHigh → exec (.tjHighCrossing d tj) s = .next (u.setThermal d 860)) ∧
      (tj < u.tjHigh → u.tjHigh ≤ tj + 5 → exec (.tjHighCrossing d tj) s = .next u) := by
  intro u
  have hrow : exec (.tjHighCrossing d tj) s =
      .next (if u.tjHigh ≤ tj then u.setThermal d 720 else if tj + 5 < u.tjHigh then u.setThermal d 860 else u) :=
    if_neg (Nat.not_le.2 hd)
  rw [hrow]
  refine ⟨fun h => by rw [if_pos h], fun h => ?_, fun hbelow hnear => ?_⟩
  · rw [if_neg (by omega), if_pos h]
  · rw [if_neg (Nat.not_le.2 hbelow), if_neg (Nat.not_lt.2 hnear)]

theorem tjOver_holds (hd : d < 2) {tj : Nat} (h : 95 < tj) : exec (.tjOver d tj) s =
    .next (((s.put (R.PWR_FD_STS_TJ d) tj).setThermal d 720).raise R.PWR_ERR_TJ_OVER none) :=
  (if_neg (Nat.not_le.2 hd)).trans (if_neg (Nat.not_le.2 h))

theorem thermalShutdown_field (hd : d < 2) (tj : Nat) : exec (.thermalShutdown (.field d) tj) s =
    .next (if tj < 105 then s.put (R.PWR_FD_STS_TJ d) tj else (s.put (R.PWR_FD_STS_TJ d) tj).shutdown 3) :=
  if_neg (Nat.not_le.2 hd)

theorem thermalShutdown_stack {n : Nat} (hn : n < 16) (tj : Nat) : exec (.thermalShutdown (.stack n) tj) s =
    .next (if tj < 105 then s.stackTemp n tj else (s.stackTemp n tj).shutdown 3) :=
  if_neg (Nat.not_le.2 hn)

theorem hbmHot_eq {n : Nat} (hn : n < 16) (tj : Nat) : exec (.hbmHot n tj) s =
    if tj < 95 then .next (s.stackTemp n tj) else .next ((s.stackTemp n tj).raise R.PWR_ERR_HBM_HOT none) :=
  if_neg (Nat.not_le.2 hn)

/-- Both dies' limits for the power cap set. -/
def State.capLimited (s : State) (f : Nat → Nat) : State :=
  { s with pw := { s.pw with capLimit := tset (tset s.pw.capLimit 0 (f 0)) 1 (f 1) } }

theorem powerAverageWindow_spec (s : State) (watts : Nat) :
    let u := s.put R.PWR_STS_IN_W watts
    let v (d : Nat) : Nat := u.get (R.PWR_FD_STS_VCORE d)
    (u.capWatts < watts → v 0 ≤ 720 → v 1 ≤ 720 → exec (.powerAverageWindow watts) s = .next (u.raise R.PWR_ERR_CAP_MISS none)) ∧
      (u.capWatts < watts → (720 < v 0 ∨ 720 < v 1) →
        exec (.powerAverageWindow watts) s = .next (u.capLimited fun d => max 720 (v d - 10))) ∧
      (watts * 100 < u.capWatts * 95 →
        exec (.powerAverageWindow watts) s = .next (u.capLimited fun d => min 860 (max (tget u.pw.capLimit d 860) 720 + 10))) ∧
      (watts ≤ u.capWatts → u.capWatts * 95 ≤ watts * 100 → exec (.powerAverageWindow watts) s = .next u) := by
  intro u v
  refine ⟨fun hover h0 h1 => (if_pos hover).trans (if_pos ⟨h0, h1⟩), fun hover h => (if_pos hover).trans (if_neg ?_),
    fun hunder => (if_neg ?_).trans (if_pos hunder), fun hcap hnear => (if_neg (Nat.not_lt.2 hcap)).trans (if_neg (Nat.not_lt.2 hnear))⟩
  · exact fun ⟨h0, h1⟩ => h.elim (Nat.not_lt.2 h0) (Nat.not_lt.2 h1)
  · change ¬ u.capWatts < watts
    omega

end

/-! ## The reference clocks (23 R556 to R559) -/

/-- A port of a quadrant whose reference is gone: no lock, no lanes, out of routing (16 R411). -/
def State.portUnclocked (s : State) (n : Nat) : State :=
  let s := (s.setLock (4 + n) false).put (R.FAB_PORT_STS_LANES n) 0
  if s.portUp n then s.leaveRouting n else s

theorem State.leaveRouting_pw (s : State) (n : Nat) : (s.leaveRouting n).pw = s.pw := by
  unfold State.leaveRouting
  extract_lets q out fa dropped counted
  have hagain : counted.sends (q.foldl (fun s p => s.route 16 p.2) counted) := State.sends_foldl (fun u p => u.sends_route 16 p.2) q counted
  rw [hagain.state]
  rfl

/-- No port enters routing as another leaves. -/
theorem State.leaveRouting_stays (s : State) (n : Nat) {m : Nat} (h : s.portUp m = false) : (s.leaveRouting n).portUp m = false := by
  rw [State.portUp, s.get_leaveRouting (by decide) n, State.get_put_same _ _ _ (by decide), Nat.testBit_mod_two_pow, testBit_setBits,
    show (s.get R.FAB_STS_UP).testBit m = false from h]
  simp

theorem State.setLock_fabric (s : State) (n : Nat) :
    (s.setLock (4 + n) false).pw = s.pw ∧ ∀ m, (s.setLock (4 + n) false).portUp m = s.portUp m := by
  unfold State.setLock
  dsimp only
  rw [if_neg (by omega), if_neg (by decide), Nat.add_sub_cancel_left]
  refine ⟨rfl, State.portUp_of_get ?_⟩
  exact (State.get_put_other _ (R.FAB_PORT_STS_HOLDOVER n) _ _ (R.FAB_PORT_STS_ne_FAB_STS n).symm).trans
    (State.get_put_other _ (R.FAB_PORT_STS_LINK n) _ _ (R.FAB_PORT_STS_ne_FAB_STS n).symm)

theorem State.portUnclocked_spec (s : State) {n : Nat} (hn : n < 16) :
    (s.portUnclocked n).pw = s.pw ∧ (s.portUnclocked n).portUp n = false ∧
      ∀ m, s.portUp m = false → (s.portUnclocked n).portUp m = false := by
  obtain ⟨hpw, hup⟩ := s.setLock_fabric n
  have hlanes (m : Nat) : ((s.setLock (4 + n) false).put (R.FAB_PORT_STS_LANES n) 0).portUp m = s.portUp m :=
    (State.portUp_of_get (State.get_put_other _ (R.FAB_PORT_STS_LANES n) _ _ (R.FAB_PORT_STS_ne_FAB_STS n).symm) m).trans (hup m)
  unfold State.portUnclocked
  dsimp only
  split
  next => exact ⟨(State.leaveRouting_pw _ _).trans hpw, State.leaveRouting_portUp _ hn,
    fun m hm => State.leaveRouting_stays _ _ ((hlanes m).trans hm)⟩
  next hout => exact ⟨hpw, Bool.eq_false_iff.2 hout, fun m hm => (hlanes m).trans hm⟩

theorem State.portsUnclocked_spec (l : List Nat) (hl : ∀ n ∈ l, n < 16) (s : State) :
    (l.foldl State.portUnclocked s).pw = s.pw ∧
      ∀ n, n ∈ l ∨ s.portUp n = false → (l.foldl State.portUnclocked s).portUp n = false := by
  induction l generalizing s with
  | nil => exact ⟨rfl, fun n h => h.elim (absurd · List.not_mem_nil) id⟩
  | cons m l ih =>
    obtain ⟨hpw, hout, hstays⟩ := s.portUnclocked_spec (hl m List.mem_cons_self)
    obtain ⟨hpws, houts⟩ := ih (fun n hn => hl n (List.mem_cons_of_mem _ hn)) (s.portUnclocked m)
    refine ⟨hpws.trans hpw, fun n h => houts n ?_⟩
    rcases h with h | h
    · rcases List.mem_cons.1 h with rfl | h
      · exact .inr hout
      · exact .inl h
    · exact .inr (hstays n h)

/-- A change of the crossings of some edges changes those crossings alone. -/
theorem State.crossings_foldl (f : Crossing → Crossing) {l : List Nat} (hl : l.Nodup) (s : State) :
    ∃ cx, l.foldl (fun (s : State) e => { s with cx := tset s.cx e (f (s.crossing e)) }) s = { s with cx := cx } ∧
      ∀ e, tget cx e {} = if e ∈ l then f (s.crossing e) else s.crossing e := by
  induction l generalizing s with
  | nil => exact ⟨s.cx, rfl, fun _ => (if_neg List.not_mem_nil).symm⟩
  | cons a l ih =>
    obtain ⟨hout, hl⟩ := List.nodup_cons.1 hl
    obtain ⟨cx, hfold, hcx⟩ := ih hl { s with cx := tset s.cx a (f (s.crossing a)) }
    refine ⟨cx, hfold, fun e => (hcx e).trans ?_⟩
    have hset : State.crossing { s with cx := tset s.cx a (f (s.crossing a)) } e = if e = a then f (s.crossing a) else s.crossing e :=
      tget_tset _ _ _ _ _
    rw [hset]
    by_cases he : e = a
    · subst he
      simp [hout]
    · simp [he]

theorem mem_clockEdges {n e : Nat} : e ∈ clockEdges n ↔ e < 20 ∧ edgeClock e = n := by
  rw [clockEdges, List.mem_filter, List.mem_range, beq_iff_eq]

theorem nodup_clockEdges (n : Nat) : (clockEdges n).Nodup := List.nodup_range.filter _

theorem State.clockGone_pw (s : State) (n : Nat) : (s.clockGone n).pw = { s.pw with absent := addNew s.pw.absent n } := by
  obtain ⟨cx, hgone, _⟩ := State.crossings_foldl (fun x => { x with stopped := true }) (nodup_clockEdges n)
    { s with pw := { s.pw with absent := addNew s.pw.absent n } }
  rw [State.clockGone, hgone]

theorem fabRefclkLoss_spec (s : State) {q : Nat} (hq : q < 4) : ∃ u, exec (.fabRefclkLoss q) s = .next u ∧
    u.pw.absent = addNew s.pw.absent (1 + q) ∧ ∀ n, 4 * q ≤ n → n < 4 * q + 4 → u.portUp n = false := by
  have hports {n : Nat} : n ∈ upto (4 * q) 4 ↔ 4 * q ≤ n ∧ n < 4 * q + 4 := by
    simp only [upto, List.mem_map, List.mem_range]
    exact ⟨fun ⟨i, hi, hn⟩ => by omega, fun h => ⟨n - 4 * q, by omega, by omega⟩⟩
  obtain ⟨hpw, hout⟩ := State.portsUnclocked_spec (upto (4 * q) 4) (fun n hn => by have := hports.1 hn; omega) (s.clockGone (1 + q))
  refine ⟨_, if_neg (Nat.not_le.2 hq), ?_, fun n hmin hmax => hout n (.inl (hports.2 ⟨hmin, hmax⟩))⟩
  exact congrArg PwrSt.absent (hpw.trans (s.clockGone_pw _))

theorem refclkReturn_spec (s : State) {n : Nat} (hn : n < 6) : ∃ u, exec (.refclkReturn n) s = .next u ∧
    u.pw = { s.pw with absent := s.pw.absent.erase n } ∧ u.mem = s.mem ∧ u.cw = s.cw ∧
    (∀ e, e < 20 → edgeClock e = n → u.crossing e = (s.crossing e).drain) ∧ (∀ e, edgeClock e ≠ n → u.crossing e = s.crossing e) := by
  obtain ⟨cx, hreturn, hcx⟩ := State.crossings_foldl Crossing.drain (nodup_clockEdges n)
    { s with pw := { s.pw with absent := s.pw.absent.erase n } }
  refine ⟨_, (if_neg (Nat.not_le.2 hn)).trans (congrArg Host.Outcome.next hreturn), rfl, rfl, rfl, fun e he hclock => ?_, fun e hclock => ?_⟩
  · exact (hcx e).trans (if_pos (mem_clockEdges.2 ⟨he, hclock⟩))
  · exact (hcx e).trans (if_neg fun h => hclock (mem_clockEdges.1 h).2)

/-! ## One crossing (23 R557 to R559) -/

section
variable {x : Crossing}

/-- Events wait at a crossing only while an acknowledge is outstanding. -/
def Crossing.sound (x : Crossing) : Prop := x.busy = false → x.waiting = []

theorem Crossing.send_idle_busy (h : x.busy = false) (v : Nat × Nat) : (x.send v).busy = true := by
  have hsame : x.level = x.ack := by simpa [Crossing.busy] using h
  rw [Crossing.send_idle _ _ h]
  simp [Crossing.busy, hsame]

theorem Crossing.take_last (h : x.busy = true) (hnone : x.waiting = []) : x.take = { x with sample := x.hold, ack := x.level } := by
  rw [Crossing.take, if_pos h, hnone]

theorem Crossing.take_next (h : x.busy = true) {y : Nat × Nat} {ys : List (Nat × Nat)} (hnext : x.waiting = y :: ys) :
    x.take = { x with sample := x.hold, ack := x.level, hold := some y, level := !x.level, waiting := ys } := by
  rw [Crossing.take, if_pos h, hnext]

theorem Crossing.take_last_idle (h : x.busy = true) (hnone : x.waiting = []) : x.take.busy = false ∧ x.take.waiting = [] := by
  rw [Crossing.take_last h hnone]
  exact ⟨bne_self_eq_false _, hnone⟩

theorem Crossing.take_next_busy (h : x.busy = true) {y : Nat × Nat} {ys : List (Nat × Nat)} (hnext : x.waiting = y :: ys) :
    x.take.busy = true ∧ x.take.waiting = ys := by
  rw [Crossing.take_next h hnext]
  exact ⟨by simp [Crossing.busy], rfl⟩

theorem Crossing.sound_send (x : Crossing) (v : Nat × Nat) : (x.send v).sound := by
  intro hidle
  cases h : x.busy with
  | false => exact absurd ((Crossing.send_idle_busy h v).symm.trans hidle) (by decide)
  | true =>
    rw [Crossing.send_busy _ _ h] at hidle
    exact absurd (h.symm.trans hidle) (by decide)

theorem Crossing.sound_take (hx : x.sound) : x.take.sound := by
  intro hidle
  cases h : x.busy with
  | false =>
    rw [Crossing.take_idle _ h]
    exact hx h
  | true =>
    cases hw : x.waiting with
    | nil => exact (Crossing.take_last_idle h hw).2
    | cons y ys => exact absurd ((Crossing.take_next_busy h hw).1.symm.trans hidle) (by decide)

theorem Crossing.takes_idle (h : x.busy = false) (n : Nat) : x.takes n = x := by
  induction n with
  | zero => rfl
  | succ n ih => rw [Crossing.takes, Crossing.take_idle _ h, ih]

/-- As many takes as leave nothing waiting. -/
theorem Crossing.takes_all (hx : x.sound) {n : Nat} (hn : x.waiting.length < n) : (x.takes n).busy = false ∧ (x.takes n).waiting = [] := by
  induction n generalizing x with
  | zero => exact absurd hn (Nat.not_lt_zero _)
  | succ n ih =>
    rw [Crossing.takes]
    cases h : x.busy with
    | false =>
      rw [Crossing.take_idle _ h, Crossing.takes_idle h]
      exact ⟨h, hx h⟩
    | true =>
      cases hw : x.waiting with
      | nil =>
        obtain ⟨hidle, hnone⟩ := Crossing.take_last_idle h hw
        rw [Crossing.takes_idle hidle]
        exact ⟨hidle, hnone⟩
      | cons y ys =>
        obtain ⟨_, hrest⟩ := Crossing.take_next_busy h hw
        rw [hw, List.length_cons] at hn
        exact ih (Crossing.sound_take hx) (hrest ▸ Nat.lt_of_succ_lt_succ hn)

theorem Crossing.drain_empties (hx : x.sound) : x.drain.busy = false ∧ x.drain.waiting = [] :=
  Crossing.takes_all hx (Nat.lt_succ_self _)

end

theorem State.crossing_cross (s : State) (e : Nat) (v : Nat × Nat) : (s.cross e v).crossing e =
    if s.pw.absent.contains (edgeClock e) then (s.crossing e).send v else ((s.crossing e).send v).drain :=
  (tget_tset _ _ _ _ _).trans (if_pos rfl)

/-! ## The obligation -/

/-- Settles O57: requests and their ends, each window and threshold, and the crossings. -/
theorem domainsVoltageHeatAndClocks : Obligations.DomainsVoltageHeatAndClocks := by
  intro s
  obtain ⟨hleast, hmost⟩ := forall_and.1 s.vTarget_bounds
  refine ⟨fun via v hvia => ⟨State.writeRow_taken hvia _ _, State.writeRow_taken hvia _ _⟩,
    fun d on _ hempty => ⟨State.domRequest_asIs hempty, State.domRequest_queued hempty, fun hpowered code hon hcode => ?refused⟩,
    fun d q hd hq => ⟨fun h => ?gateWaits, fun h => ⟨?gates, State.powered_gate hd _⟩⟩,
    fun d q hd hq => domainPowerUpDone_spec hd hq, State.sleepWrite_sleeps, State.sleepWrite_refused, State.sleepWrite_wakes,
    fun die hdie => ⟨fun p t ht hearly => vcoreStep_early hdie (State.vcoreEarly_of_found ht hearly),
      fun hdue => vcoreStep_due hdie (State.vcoreEarly_of_due hdue), hleast die, hmost die,
      fun n => if_neg (Nat.not_le.2 hdie), fun tj => ?heat, fun a => if_neg (Nat.not_le.2 hdie)⟩,
    fun n tj hn => ⟨fun h => (hbmHot_eq hn tj).trans (if_neg (Nat.not_lt.2 h)), fun h => (hbmHot_eq hn tj).trans (if_pos h),
      fun h => (thermalShutdown_stack hn tj).trans (congrArg _ (if_neg (Nat.not_lt.2 h))), fun h => congrArg _ (if_neg (Nat.not_lt.2 h))⟩,
    powerAverageWindow_spec s, ⟨rfl, rfl, rfl⟩, fun q hq => fabRefclkLoss_spec s hq, fun n hn => refclkReturn_spec s hn,
    fun x v => ⟨fun h => ?sends, fun h => Crossing.send_busy x v h, Crossing.take_last, fun y ys h hnext => ?takes,
      fun hx => ⟨x.sound_send v, Crossing.sound_take hx, Crossing.drain_empties hx⟩, Nat.min_le_right _ _, decide_eq_true_iff⟩,
    fun e v => ⟨_, rfl, rfl, rfl, fun h => (s.crossing_cross e v).trans (if_pos h),
      fun h => (s.crossing_cross e v).trans (if_neg (Bool.eq_false_iff.1 h))⟩⟩
  case refused =>
    subst hon
    exact State.domRequest_refused hempty hpowered hcode
  case gateWaits => exact (domainGateDone_eq hd hq).trans (if_neg (Bool.eq_false_iff.1 h))
  case gates => exact (domainGateDone_eq hd hq).trans (if_pos h)
  case heat =>
    obtain ⟨hdown, hup, hbetween⟩ := tjHighCrossing_spec (s := s) hdie tj
    exact ⟨hdown, hup, hbetween, tjOver_holds hdie, fun h => (thermalShutdown_field hdie tj).trans (congrArg _ (if_neg (Nat.not_lt.2 h))),
      fun h => (thermalShutdown_field hdie tj).trans (congrArg _ (if_pos h))⟩
  case sends =>
    refine ⟨Crossing.send_idle_busy h v, ?_⟩
    rw [Crossing.send_idle _ _ h]
    exact ⟨rfl, rfl, rfl⟩
  case takes =>
    rw [Crossing.take_next h hnext]
    exact ⟨rfl, rfl, rfl, rfl, rfl⟩

end Sys2Proof.Machine
end

section
/-!
PROOFS. The wired registers of a core (03 Table 3.1).
-/

namespace Sys2Proof.Machine
open Sys2Proof.Claims

/-! ## The wired registers (03 Table 3.1) -/

section
variable (k : Core)

/-- g0 is wired: a write to it changes nothing. -/
theorem Core.wr_zero (x : Word) : k.wr 0 x = k := if_pos rfl

theorem Core.rd_wr_other {d r : Reg} (h : r ≠ d) (x : Word) : (k.wr d x).rd r = k.rd r := by
  have hnum : r.toNat ≠ d.toNat := fun hn => h (BitVec.eq_of_toNat_eq hn)
  unfold Core.wr
  split
  · rfl
  · simp only [Core.rd, tget_tset, if_neg hnum]

/-- m0 is wired: a write to it changes nothing. -/
theorem Core.mwr_zero (x : Word) : k.mwr 0 x = k := if_pos rfl

theorem Core.mrd_mwr {m : BitVec 3} (h : m ≠ 0) (x : Word) : (k.mwr m x).mrd m = x := by
  simp only [Core.mrd, Core.mwr, if_neg h, tget_tset, if_true]

theorem Core.mrd_mwr_other {m n : BitVec 3} (h : n ≠ m) (x : Word) : (k.mwr m x).mrd n = k.mrd n := by
  have hnum : n.toNat ≠ m.toNat := fun hn => h (BitVec.eq_of_toNat_eq hn)
  unfold Core.mwr
  split
  · rfl
  · simp only [Core.mrd, tget_tset, if_neg hnum]

end

/-- Settles O10: a wired register reads its value by its number alone; the others are entries of a table. -/
theorem wiredRegistersDiscardWrites : Obligations.WiredRegistersDiscardWrites := fun k _ _ _ _ x =>
  ⟨if_pos rfl, k.wr_zero x, fun h => k.rd_wr h x, fun h => k.rd_wr_other h x, if_pos rfl, k.mwr_zero x, fun h => k.mrd_mwr h x,
    fun h => k.mrd_mwr_other h x⟩

end Sys2Proof.Machine
end

section
/-!
PROOFS. Register writes (21 R527, R537): a write that only reaches a register's fields and sets going what the register's writes do, and the
publication that a write of SCH_TEN_RUNLIST sets going.
-/

namespace Sys2Proof.Machine
open Sys2Proof.Claims

/-! ## A write of a register that is no unit's CTL (21 R527, R537) -/

/-- A write that no check holds, which differs in no locked field and no read-only one, reaches the register's fields and sets going what its
register's writes do. -/
theorem State.regWrite_plain {s : State} (via : Via) {off ctl : Nat} {d : RegDef} {ix : List Nat} (v : Nat) (locked : Bool)
    (hreg : findReg off = some (d, ix)) (hpower : s.unitPowered d.blk (copyNumber d ix) = true) (hport : ¬ (0x501000 ≤ d.base ∧ d.base < 0x501020))
    (hctl : ctlAt d.blk (copyNumber d ix) = some ctl) (hother : ctl ≠ off) (hidle : tfind s.checks ctl = none)
    (hlocked : (s.get (enOf ctl) == 1) = locked) (hrwl : (locked && differs (· == .rwl) v (s.reg off).toNat d.fields) = false)
    (hro : differs (· == .ro) v (s.view off) d.fields = false) :
    s.regWrite via off v = (s.setReg off (wordWrite locked v (s.reg off).toNat d.fields)).afterWrite via d.base (copyNumber d ix)
      (s.reg off).toNat v := by
  have hpowered : s.regPowered d ix = true := by rw [State.regPowered, if_neg hport, Bool.and_true, hpower]
  have hnot : (some ctl == some off) = false := by simpa using hother
  unfold State.regWrite
  rw [hreg]
  simp only [hpowered, Bool.not_true, Bool.false_eq_true, if_false, hctl, hidle]
  unfold State.takeWrite
  simp only [hctl, hnot, hro, Option.getD_some, Option.isSome_some, Bool.true_and, Bool.false_and, Bool.false_eq_true, if_false, hlocked, hrwl]

/-! ## A write of SCH_TEN_RUNLIST (14 R364) -/

/-- The map's entry of SCH_TEN_RUNLIST (14 Table 14.10). -/
def runlistDef : RegDef := ⟨.ten, R.SCH_TEN_RUNLIST 0, [(0x40, 64)], 1, [⟨0, 64, .rwl, 0⟩]⟩

theorem findReg_SCH_TEN_RUNLIST : findReg (R.SCH_TEN_RUNLIST 0) = some (runlistDef, [0]) := by decide +kernel

/-- The address of tenancy 0's run list, written while its EN is 0 and no check of it runs, is taken, and the list is published there. -/
theorem State.regWrite_runlist {s : State} (via : Via) (a : Nat) (hpower : s.unitPowered .ten 0 = true)
    (hidle : tfind s.checks (R.SCH_TEN_CTL 0) = none) (hopen : s.get (R.SCH_TEN_CTL_EN 0) = 0) :
    s.regWrite via (R.SCH_TEN_RUNLIST 0) a =
      (s.setReg (R.SCH_TEN_RUNLIST 0) (wordWrite false a (s.reg (R.SCH_TEN_RUNLIST 0)).toNat runlistDef.fields)).publish 0 :=
  State.regWrite_plain via a false findReg_SCH_TEN_RUNLIST hpower (by decide) rfl (by decide) hidle
    (beq_eq_false_iff_ne.2 (ne_of_eq_of_ne hopen Nat.zero_ne_one)) rfl rfl

/-- Tenancy 0's run list, its address written in the state after reset: it goes to memory as a commit, of one entry's header. -/
theorem byte_runlistWrite : (({} : State).regWrite .steward (R.SCH_TEN_RUNLIST 0) 4096).byte (key 0 4096) = 1 := by
  rw [State.regWrite_runlist _ _ (by decide +kernel) (by decide) (by decide +kernel)]
  decide +kernel

/-- Refutes O58: a write of SCH_TEN_RUNLIST is to reach the register's field and do nothing else, but it also publishes the tenancy's run list
at the address written (`regWrite_runlist`, 14 R364); the statement's list of registers that do more leaves this one out. -/
theorem not_registerWritesTakeEffect : ¬ Obligations.RegisterWritesTakeEffect := by
  intro holds
  obtain ⟨-, -, -, -, -, writes, -⟩ := holds {} .steward
  obtain ⟨-, plain, -⟩ := writes (R.SCH_TEN_RUNLIST 0) 4096 runlistDef [0] findReg_SCH_TEN_RUNLIST (by decide +kernel)
  obtain ⟨kept, -⟩ := plain rfl (by decide) (by decide +kernel)
  have onlyField := congrArg (State.byte · (key 0 4096)) (kept (fun h => absurd h (by decide)) (by decide +kernel))
  exact absurd (byte_runlistWrite.symm.trans onlyField) (by decide)

end Sys2Proof.Machine
end

section
/-!
PROOFS. The sideband (24 R569): what an assertion of RST_N leaves of the registers.
-/

namespace Sys2Proof.Machine
open Sys2Proof.Claims

/-! ## Registers over a reset of the dies (24 R569, 25 R576) -/

section
variable {α : Type} {t : Tab α} {lo : Nat} (ht : tabAbove lo t = true) {keep : Nat → Bool}

include ht in
/-- In a table whose numbers rise, a number that a filter keeps answers as before. -/
theorem tfind_tfilter_rises {i : Nat} (hkeep : keep i = true) : tfind (tfilter (fun k _ => keep k) t) i = tfind t i := by
  cases hfound : tfind t i with
  | some x => exact tfind_tfilter_kept hfound hkeep
  | none =>
    cases hkept : tfind (tfilter (fun k _ => keep k) t) i with
    | none => rfl
    | some x =>
      have listed : (i, x) ∈ t := List.mem_of_mem_filter (mem_of_tfind hkept)
      exact absurd (hfound.symm.trans (tfind_of_mem ht listed)) (Option.some_ne_none x).symm

include ht in
theorem tabAbove_tfilter : tabAbove lo (tfilter (fun k _ => keep k) t) = true := by
  induction t generalizing lo with
  | nil => rfl
  | cons p t ih =>
    obtain ⟨k, x⟩ := p
    simp only [tabAbove, Bool.and_eq_true, decide_eq_true_eq] at ht
    obtain ⟨hk, ht⟩ := ht
    rw [tfilter_cons]
    split
    · simp only [tabAbove, Bool.and_eq_true, decide_eq_true_eq]
      exact ⟨hk, ih ht⟩
    · exact tabAbove_mono (Nat.le_succ_of_le hk) (ih ht)

end

/-- Whether the numbers of the stored registers rise. -/
def State.cwRises (s : State) : Prop := tabAbove 0 s.cw = true

section
variable {s : State} (h : s.cwRises)
include h

theorem State.cwRises.setReg (off v : Nat) : (s.setReg off v).cwRises := tabAbove_tset h _ _ (Nat.zero_le _)

theorem State.cwRises.resetReg (off : Nat) : (s.resetReg off).cwRises := tabAbove_tdel h _

/-- A register set back to its reset value leaves every other. -/
theorem State.reg_resetReg_rises {off a : Nat} (hne : off ≠ a) : (s.resetReg a).reg off = s.reg off := by
  rw [State.reg, State.resetReg, tfind_tdel h, if_neg hne, State.reg]

/-- A field of no register of bring-up stands while bring-up is entered. -/
theorem State.get_startBringUp_rises {g : Field} (hbring : g.reg ≠ R.ERR_BRING) (htime : g.reg ≠ R.ERR_BRING_T) (stage : Nat) :
    (s.startBringUp stage).get g = s.get g := by
  rw [State.startBringUp, State.get_put_other _ _ _ _ hbring]
  exact State.get_of_reg ((State.reg_resetReg_rises (h.resetReg _) htime).trans (State.reg_resetReg_rises h hbring))

theorem State.cwRises.resetDies : s.resetDies.cwRises :=
  State.cwRises.setReg (s := { s with cw := s.cw.filter fun p => decide (p.1 < 0x400000) }) (tabAbove_tfilter (keep := fun a => decide (a < 0x400000)) h) _ _

/-- The registers of the four blocks below the ports stand over a reset of the dies. -/
theorem State.reg_resetDies {off : Nat} (hoff : off < 0x400000) : s.resetDies.reg off = s.reg off := by
  have hne : off ≠ R.TWN_EPOCH := Nat.ne_of_lt (hoff.trans (by decide))
  have kept : tfind (s.cw.filter fun p => decide (p.1 < 0x400000)) off = tfind s.cw off :=
    tfind_tfilter_rises (keep := fun a => decide (a < 0x400000)) h (decide_eq_true hoff)
  rw [State.resetDies, State.reg_setReg, if_neg hne, State.reg, kept, State.reg]

/-- RST_N asserted outside a shutdown, where the stored registers' numbers rise: every die in reset, but what domains 48 and 49, the flash and the
pins hold (24 R569). -/
theorem rstNAssert_resets (hhigh : s.pw.rstLow = false) (hup : s.get R.PWR_STS_SHUTDOWN = 0) (hawake : s.pw.asleep = false) :
    ∃ u, exec .rstNAssert s = .next u ∧ u.pw.rstLow = true ∧ u.pw.queue = [] ∧ u.x.cores = [] ∧ u.x.cmds = [] ∧ u.vm.pages = [] ∧
      u.mem = s.lastingMem ∧ u.se = s.se ∧ u.nv = s.nv ∧ u.sb = s.sb ∧
      u.get R.PWR_DOM_STS_POWERED = s.get R.PWR_DOM_STS_POWERED ∧ u.get R.TWN_EPOCH_EPOCH = s.get R.TWN_EPOCH_EPOCH ∧
      u.get R.ERR_BRING_STAGE = (if s.get R.SEC_STS_STAGE = 1 then 1 else 0) := by
  let t : State := { s.resetDies with pw := { s.pw with rstLow := true, queue := [] } }
  have hgated : t.gatePending.cwRises := State.cwRises.setReg (s := t) h.resetDies _ _
  have hstage : t.get R.SEC_STS_STAGE = s.get R.SEC_STS_STAGE := State.get_of_reg (State.reg_resetDies h (by decide))
  have hrun : exec .rstNAssert s = .next (t.gatePending.startBringUp (if t.get R.SEC_STS_STAGE = 1 then 1 else 0)) := by
    change execRstNAssert s = _
    rw [execRstNAssert, if_neg (by simp [hhigh]), if_neg (by simp [hup, hawake])]
  refine ⟨_, hrun, rfl, rfl, rfl, rfl, rfl, rfl, rfl, rfl, rfl, ?_, ?_, ?_⟩
  · exact (State.get_startBringUp_rises hgated (by decide) (by decide) _).trans <|
      (State.get_put_other _ _ _ _ (by decide)).trans (State.get_of_reg (State.reg_resetDies h (by decide)))
  · refine (State.get_startBringUp_rises hgated (by decide) (by decide) _).trans <| (State.get_put_other _ _ _ _ (by decide)).trans ?_
    refine State.get_of_reg ?_
    change (State.setReg _ R.TWN_EPOCH (s.reg R.TWN_EPOCH).toNat).reg R.TWN_EPOCH = _
    rw [State.reg_setReg, if_pos rfl, Machine.word, BitVec.ofNat_toNat, BitVec.setWidth_eq]
    rfl
  · rw [State.get_startBringUp_stage, hstage]
    split <;> rfl

end

/-- A state whose stored registers do not rise: the domains' status, all off, stands past a register of the fabric, where no read finds it. -/
def unordered : State := { cw := [(R.FAB_CTL, 0), (R.PWR_DOM_STS, 0)] }

/-- RST_N turns every domain of that state off: before it the status reads as after reset. -/
theorem rstNAssert_unordered : ∃ u, exec .rstNAssert unordered = .next u ∧ u.get R.PWR_DOM_STS_POWERED = 0 :=
  ⟨_, rfl, by decide +kernel⟩

/-- Refutes O59: RST_N is to leave which domains are powered, for every state; but over registers whose numbers do not rise (`unordered`) the reset
drops the entry that hid the status, and another value is read. Where they rise, as after reset, the clause holds (`rstNAssert_resets`). -/
theorem not_sidebandCommandsTakeEffect : ¬ Obligations.SidebandCommandsTakeEffect := by
  intro holds
  obtain ⟨-, -, resets, -⟩ := holds unordered
  obtain ⟨u, hrun, -, -, -, -, -, -, -, -, -, powered, -⟩ := resets rfl (by decide +kernel) rfl
  obtain ⟨v, hrun', off⟩ := rstNAssert_unordered
  obtain rfl : u = v := by simpa using hrun.symm.trans hrun'
  exact absurd (off.symm.trans powered) (by decide +kernel)

end Sys2Proof.Machine
end

section
/-!
PROOFS. Bring-up (25 R575 to R584): the end of each stage, and what the checks and causes on the way leave of its registers.
-/

namespace Sys2Proof.Machine
open Sys2Proof.Claims

/-! ## What a cause leaves of the registers outside the log (22 R543 to R551) -/

/-- Whether an offset is neither of the log's registers nor where a host port counts the events that it lost. -/
abbrev unlogged (off : Nat) : Prop :=
  off < 0x300020 ∨ (0x300030 ≤ off ∧ off < 0x301000) ∨ (0x400000 ≤ off ∧ off % 0x10000 ≠ 0x30)

section
variable {off : Nat} (h : unlogged off)
include h

theorem State.reg_sendEvent_unlogged (s : State) (kind reason : Nat) (ten : Option Nat) (stamp : Nat) (detail : List Nat) :
    (s.sendEvent kind reason ten stamp detail).reg off = s.reg off := by
  have lost (n : Nat) : off ≠ (R.HST_CNT1_EVENT_LOST n).reg := by
    change off ≠ 0x400030 + 0x10000 * n
    omega
  unfold State.sendEvent
  split
  · split
    · rfl
    · exact State.reg_put_other _ _ _ _ (lost _)
  · split
    · exact State.reg_put_other _ _ _ _ (lost _)
    · exact List.foldlRecOn (motive := fun u : State => u.reg off = s.reg off) _ _ rfl fun _ hu _ _ => hu

theorem State.reg_logCause_unlogged (s : State) (block inst kind code : Nat) (ten : Option Nat) (d0 d1 : Nat) :
    (s.logCause block inst kind code ten d0 d1).1.reg off = s.reg off := by
  have entry {base : Nat} (hbase : 0x301000 ≤ base ∧ base ≤ 0x302000) (i : Nat) : off ≠ base + 0x40 * (i % 64) := by omega
  have past {u : State} {a v : Nat} (ha : off ≠ a) : (u.setReg a v).reg off = u.reg off := by rw [State.reg_setReg, if_neg ha]
  unfold State.logCause
  dsimp only
  split
  · exact (past (entry (by decide) _)).trans (State.reg_put_other _ _ _ _ (entry (by decide) _))
  · exact (past (show off ≠ 0x300028 by omega)).trans <| (past (show off ≠ 0x300020 by omega)).trans <|
      (past (entry (by decide) _)).trans <| (past (entry (by decide) _)).trans <| (past (entry (by decide) _)).trans <|
      (past (entry (by decide) _)).trans <| (past (entry (by decide) _)).trans <| past (entry (by decide) _)

theorem State.reg_raiseAt_unlogged (s : State) (f : Field) (ten : Option Nat) (d0 d1 : Nat) :
    (s.raiseAt f ten d0 d1).reg off = if s.get f = 1 then s.reg off else (s.put f 1).reg off := by
  unfold State.raiseAt State.raiseSeq
  split
  · rfl
  · dsimp only
    split
    · rfl
    · dsimp only
      split
      · exact (State.reg_sendEvent_unlogged h _ _ _ _ _ _).trans (State.reg_logCause_unlogged h _ _ _ _ _ _ _ _)
      · exact State.reg_logCause_unlogged h _ _ _ _ _ _ _ _

end

/-- A cause leaves every field apart from its bit, outside the log. -/
theorem State.get_raise_unlogged (s : State) {f g : Field} (ten : Option Nat) (hg : unlogged g.reg) (hfits : g.lo + g.w ≤ 64)
    (h : g.apart f) : (s.raise f ten).get g = s.get g := by
  have hreg : (s.raise f ten).get g = if s.get f = 1 then s.get g else (s.put f 1).get g := by
    rw [State.get, State.raise, State.reg_raiseAt_unlogged hg]
    split <;> rfl
  rw [hreg, State.get_put_apart _ _ _ _ hfits h, ite_self]

/-! ## What a measurement leaves (20 R512 to R514) -/

theorem State.setMeas_eq (s : State) (r : Nat) (bs : List Byte) : s.setMeas r bs =
    (((s.setReg (R.SEC_MEAS r 0) (nw (wordsOf 4 bs) 0)).setReg (R.SEC_MEAS r 1) (nw (wordsOf 4 bs) 1)).setReg
      (R.SEC_MEAS r 2) (nw (wordsOf 4 bs) 2)).setReg (R.SEC_MEAS r 3) (nw (wordsOf 4 bs) 3) := rfl

/-- Whether extending a measurement register reaches no bit of a field: it is none of the log's, nor of those of the measurements. -/
abbrev Field.unmeasured (g : Field) : Prop :=
  unlogged g.reg ∧ g.lo + g.w ≤ 64 ∧ (g.reg < 0x200100 ∨ 0x200180 ≤ g.reg) ∧ g.apart R.SEC_STS_LOG_COUNT ∧ g.apart R.SEC_ERR_LOG_FULL

theorem State.reg_setMeas (s : State) {off r : Nat} (hr : r < 4) (h : off < 0x200100 ∨ 0x200180 ≤ off) (bs : List Byte) :
    (s.setMeas r bs).reg off = s.reg off := by
  have hne (w : Nat) (hw : w < 4) : off ≠ R.SEC_MEAS r w := by
    unfold R.SEC_MEAS
    omega
  simp only [State.setMeas_eq, State.reg_setReg, hne 0, hne 1, hne 2, hne 3, Nat.reduceLT, if_false]

theorem State.get_extend (s : State) {g : Field} (hg : g.unmeasured) {r : Nat} (hr : r < 4) (v : Nat) : (s.extend r v).get g = s.get g := by
  obtain ⟨hlog, hfits, hplace, hcount, hfull⟩ := hg
  have measured (bs : List Byte) : (s.setMeas r bs).get g = s.get g := State.get_of_reg (s.reg_setMeas hr hplace bs)
  unfold State.extend
  dsimp only
  split
  · exact (State.get_put_apart _ _ _ _ hfits hcount).trans (measured _)
  · exact (State.get_raise_unlogged _ none hlog hfits hfull).trans (measured _)

/-- An extension reaches registers, what a cause reaches, and the measurement log. -/
theorem State.extend_spec (s : State) (r v : Nat) :
    ({ s with se := { s.se with log := (s.extend r v).se.log } } : State).onRecord (s.extend r v) := by
  unfold State.extend
  dsimp only
  split
  · rfl
  · rw [State.raise_se]
    exact State.onRecord_raise (show State.onRecord s (s.setMeas _ _) from rfl) _ _

/-! ## What the end of a check leaves (21 R534) -/

section
variable {s : State} {b : Blk} {n ctl : Nat} (hctl : ctlAt b n = some ctl)
include hctl

/-- A check's end sets EN and goes on, or clears it and keeps a code. -/
theorem State.endCheck_induction {motive : State → Prop}
    (passes : motive ((((s.put (enOf ctl) 1).put (chkOf b ctl) 0).extend 3
      (sm3 (((s.put (enOf ctl) 1).put (chkOf b ctl) 0).enableRecord b n))).started b n))
    (fails : ∀ c, motive ((s.put (enOf ctl) 0).put (chkOf b ctl) (c + 1))) : motive (s.endCheck b n) := by
  unfold State.endCheck
  rw [hctl]
  dsimp only
  split
  · exact passes
  · exact fails _

/-- The end of a check leaves every field but EN and CHK, outside the log and the measurements, where a pass sets going nothing in registers. -/
theorem State.get_endCheck (hstarted : ∀ t : State, (t.started b n).cw = t.cw) {g : Field} (hg : g.unmeasured) (hen : g.apart (enOf ctl))
    (hchk : g.apart (chkOf b ctl)) : (s.endCheck b n).get g = s.get g := by
  have puts (x y : Nat) : ((s.put (enOf ctl) x).put (chkOf b ctl) y).get g = s.get g :=
    (State.get_put_apart _ _ _ _ hg.2.1 hchk).trans (State.get_put_apart _ _ _ _ hg.2.1 hen)
  have kept (t : State) : (t.started b n).get g = t.get g := by simp only [State.get, State.reg, hstarted]
  refine State.endCheck_induction (motive := fun u => u.get g = s.get g) hctl ?_ fun c => puts 0 (c + 1)
  exact (kept _).trans ((State.get_extend _ hg (by decide) _).trans (puts 1 0))

/-- The end of a check leaves what neither a cause reaches nor a pass sets going. -/
theorem State.endCheck_keeps {α : Type} (part : State → α) (hstarted : ∀ t : State, part (t.started b n) = part t)
    (hrecord : ∀ t u : State, t.onRecord u → part u = part t)
    (hlog : ∀ (t : State) l, part { t with se := { t.se with log := l } } = part t) : part (s.endCheck b n) = part s := by
  have puts (x y : Nat) : part ((s.put (enOf ctl) x).put (chkOf b ctl) y) = part s :=
    hrecord _ _ (State.onRecord_put (State.onRecord_put s.onRecord_refl _ _) _ _)
  refine State.endCheck_induction (motive := fun u => part u = part s) hctl ?_ fun c => puts 0 (c + 1)
  exact (hstarted _).trans <| (hrecord _ _ (State.extend_spec _ _ _)).trans <| (hlog _ _).trans (puts 1 0)

end

/-! ## The registers of bring-up (25 R576, R577) -/

section
variable (s : State)

theorem State.get_setReg_other {off : Nat} (v : Nat) {g : Field} (h : g.reg ≠ off) : (s.setReg off v).get g = s.get g :=
  State.get_of_reg ((State.reg_setReg _ _ _ _).trans (if_neg h))

/-- The end of a stage leaves every field but the stage and its time. -/
theorem State.get_stageEnds (n : Nat) {g : Field} (hfits : g.lo + g.w ≤ 64) (hstage : g.apart R.ERR_BRING_STAGE) (htime : g.reg ≠ R.ERR_BRING_T) :
    (s.stageEnds n).get g = s.get g :=
  (State.get_setReg_other _ _ htime).trans (State.get_put_apart _ _ _ _ hfits hstage)

theorem State.get_stageEnds_stage {n : Nat} (hn : n < 16) : (s.stageEnds n).get R.ERR_BRING_STAGE = n :=
  (State.get_setReg_other _ _ (by decide)).trans <| (State.get_put_same _ _ _ (by decide)).trans (Nat.mod_eq_of_lt hn)

/-- A halt names the block and the bit, and leaves the stage. -/
theorem State.halts_spec {block : Nat} {f : Field} (hblock : block < 32) (hbit : f.lo < 64) (hf : R.ERR_BRING ≠ f.reg) :
    (s.halts block f).get R.ERR_BRING_STAGE = s.get R.ERR_BRING_STAGE ∧ (s.halts block f).get R.ERR_BRING_HALTED = 1 ∧
      (s.halts block f).get R.ERR_BRING_BLOCK = block ∧ (s.halts block f).get R.ERR_BRING_BIT = f.lo ∧
      (s.halts block f).get R.ERR_BRING_DONE = s.get R.ERR_BRING_DONE := by
  have past {t : State} {g h : Field} {v : Nat} (hfits : g.lo + g.w ≤ 64) (hapart : g.apart h) : (t.put h v).get g = t.get g :=
    State.get_put_apart _ _ _ _ hfits hapart
  have raised {g : Field} (hg : g.reg = R.ERR_BRING) (hfits : g.lo + g.w ≤ 64) : (s.raise f none).get g = s.get g :=
    s.get_raise_unlogged none (hg ▸ by decide) hfits (.inl (hg ▸ hf))
  unfold State.halts
  refine ⟨?_, ?_, ?_, ?_, ?_⟩
  · rw [past (by decide) (by decide), past (by decide) (by decide), past (by decide) (by decide), raised rfl (by decide)]
  · rw [past (by decide) (by decide), past (by decide) (by decide), State.get_put_same _ _ _ (by decide)]
    rfl
  · rw [past (by decide) (by decide), State.get_put_same _ _ _ (by decide)]
    exact Nat.mod_eq_of_lt hblock
  · rw [State.get_put_same _ _ _ (by decide)]
    exact Nat.mod_eq_of_lt hbit
  · rw [past (by decide) (by decide), past (by decide) (by decide), past (by decide) (by decide), raised rfl (by decide)]

end

/-! ## Copies in the boot flash (20 R503, R519) -/

theorem State.bootCtl_writeBoot (s : State) (b : BootCtl) : (s.writeBoot b).bootCtl = { b with seq := s.bootCtl.seq + 1, valid := true } := by
  rw [State.bootCtl, State.writeBoot]
  generalize s.bootCtl = now
  cases h : now.valid <;> simp [h]

theorem State.keyStore_writeStore (s : State) (k : KeyCopy) : (s.writeStore k).keyStore = { k with seq := s.keyStore.seq + 1, valid := true } := by
  rw [State.keyStore, State.writeStore]
  generalize s.keyStore = now
  cases h : now.valid <;> simp [h]

/-- Whether a copy of the key store is as the one in force, but for its sequence. -/
def State.evenCopy (s : State) (c : KeyCopy) : Prop := c.valid = true ∧ { c with seq := s.keyStore.seq } = s.keyStore

theorem State.evenCopies_iff (s : State) :
    (s.se.store.all fun c => c.valid && decide ({ c with seq := s.keyStore.seq } = s.keyStore)) = true ↔ ∀ c ∈ s.se.store, s.evenCopy c := by
  simp only [List.all_eq_true, Bool.and_eq_true, decide_eq_true_eq, State.evenCopy]

theorem State.evenStore_even {s : State} (h : ∀ c ∈ s.se.store, s.evenCopy c) : s.evenStore = s := if_pos (s.evenCopies_iff.2 h)

theorem State.evenStore_uneven {s : State} (h : ∃ c ∈ s.se.store, ¬ s.evenCopy c) : s.evenStore = s.writeStore s.keyStore := by
  obtain ⟨c, hc, huneven⟩ := h
  exact if_neg fun hall => huneven (s.evenCopies_iff.1 hall c hc)

/-! ## Each stage's work (25 R579 to R584) -/

section
variable {s : State}

/-- The state after the epoch is written, and the key store's other copy brought up to date. -/
theorem State.stageEpoch_ends (hnv : s.get R.PWR_STS_NV_OK = 1) :
    (s.stageEpoch true).get R.ERR_BRING_STAGE = 3 ∧ (s.stageEpoch true).get R.TWN_EPOCH_EPOCH = (s.bootCtl.epoch + 1) % 2 ^ 32 ∧
      (s.stageEpoch true).mem = s.mem ∧ (s.stageEpoch true).x = s.x ∧ (s.stageEpoch true).bootCtl =
        { s.bootCtl with seq := s.bootCtl.seq + 1, valid := true, epoch := (s.bootCtl.epoch + 1) % 2 ^ 32 } ∧
      ((∀ c ∈ s.se.store, s.evenCopy c) → (s.stageEpoch true).se.store = s.se.store) ∧
      ((∃ c ∈ s.se.store, ¬ s.evenCopy c) → (s.stageEpoch true).keyStore = { s.keyStore with seq := s.keyStore.seq + 1, valid := true }) := by
  let e := (s.bootCtl.epoch + 1) % 2 ^ 32
  let t := s.writeBoot { s.bootCtl with epoch := e }
  have hrun : s.stageEpoch true = (t.evenStore.put R.TWN_EPOCH_EPOCH e).stageEnds 3 := by
    rw [State.stageEpoch, State.nvOk, hnv]
    rfl
  have heven : t.evenStore.mem = s.mem ∧ t.evenStore.x = s.x ∧ t.evenStore.bootCtl = t.bootCtl := by
    unfold State.evenStore
    extract_lets k
    split <;> exact ⟨rfl, rfl, rfl⟩
  obtain ⟨hmem, hx, hboot⟩ := heven
  rw [hrun]
  refine ⟨State.get_stageEnds_stage _ (by decide), ?_, hmem, hx, hboot.trans (s.bootCtl_writeBoot _), fun h => ?_, fun h => ?_⟩
  · rw [State.get_stageEnds _ _ (by decide) (by decide) (by decide), State.get_put_same _ _ _ (by decide)]
    exact Nat.mod_mod _ _
  · exact congrArg (·.se.store) (State.evenStore_even (s := t) h)
  · exact (congrArg State.keyStore (State.evenStore_uneven (s := t) h)).trans (t.keyStore_writeStore _)

/-- Stages 3 and 4 halt where no stack and no channel is left. -/
theorem State.stageGranary_halts {r : StageRes} (h : ∀ n < 16, (r.groups.foldl State.groupFails s).get (R.MEM_STACK_GROUPS_RETIRED n) = 255) :
    s.stageGranary r = (r.groups.foldl State.groupFails s).halts 9 R.MEM_ERR_GROUP_RETIRED :=
  if_pos (by simpa using h)

theorem State.stageGranary_ends {r : StageRes} (h : ¬ ∀ n < 16, (r.groups.foldl State.groupFails s).get (R.MEM_STACK_GROUPS_RETIRED n) = 255) :
    (s.stageGranary r).get R.ERR_BRING_STAGE = 4 := by
  unfold State.stageGranary
  extract_lets t rows
  rw [if_neg (by simpa using h)]
  exact State.get_stageEnds_stage _ (by decide)

theorem State.channelFail_nv (s : State) (ch : Nat) : (s.channelFail ch).nv = s.nv := by
  unfold State.channelFail
  split
  · rfl
  · exact State.raiseAt_nv _ _ _ _ _

theorem State.stageCellar_ends {r : StageRes} (h : (r.channels.foldl State.channelFail s).get R.CEL_STS_CH_FAIL ≠ 2 ^ 32 - 1)
    (hen : (s.stageCellar r).get R.CEL_CTL_EN = 1) :
    (s.stageCellar r).get R.ERR_BRING_STAGE = 5 ∧ (s.stageCellar r).get R.CEL_STORE_STORE = s.nv.regions.1 % 2 ^ R.CEL_STORE_STORE.w ∧
      (s.stageCellar r).get R.CEL_SPILL_SPILL = s.nv.regions.2 % 2 ^ R.CEL_SPILL_SPILL.w := by
  have hnv : (r.channels.foldl State.channelFail s).nv = s.nv :=
    List.foldlRecOn (motive := fun t : State => t.nv = s.nv) _ _ rfl fun t ht ch _ => (t.channelFail_nv ch).trans ht
  revert hen
  unfold State.stageCellar
  extract_lets t n u
  rw [if_neg h]
  have checked {g : Field} (hg : g.unmeasured) (hen : g.apart (enOf R.CEL_CTL)) (hchk : g.apart (chkOf .cel R.CEL_CTL)) :
      u.get g = ((t.put R.CEL_STORE_STORE n.1).put R.CEL_SPILL_SPILL n.2).get g := State.get_endCheck rfl (fun _ => rfl) hg hen hchk
  split
  case isFalse hoff => exact fun hen => absurd hen hoff
  case isTrue =>
    refine fun _ => ⟨State.get_stageEnds_stage _ (by decide), ?_, ?_⟩
    · rw [State.get_stageEnds _ _ (by decide) (by decide) (by decide), checked (by decide) (by decide) (by decide),
        State.get_put_apart _ _ _ _ (by decide) (by decide), State.get_put_same _ _ _ (by decide), ← hnv]
    · rw [State.get_stageEnds _ _ (by decide) (by decide) (by decide), checked (by decide) (by decide) (by decide),
        State.get_put_same _ _ _ (by decide), ← hnv]

end

/-! ### The self-test (R582) -/

theorem State.endCheck_mem {s : State} {b : Blk} {n ctl : Nat} (hctl : ctlAt b n = some ctl)
    (hstarted : ∀ t : State, (t.started b n).mem = t.mem) : (s.endCheck b n).mem = s.mem :=
  State.endCheck_keeps hctl State.mem hstarted (fun _ _ h => (State.onRecord_keeps h).2) fun _ _ => rfl

theorem State.retireEngine_mem (s : State) (n : Nat) : (s.retireEngine n).mem = s.mem := by
  have started (sp : Nat) (t : State) : (t.started .eng sp).mem = t.mem := by
    unfold State.started
    dsimp only
    split <;> rfl
  unfold State.retireEngine
  extract_lets gone idle out sp subst
  split
  · rfl
  · split
    · exact State.raise_mem _ _ _
    · split
      · exact State.endCheck_mem rfl (started sp)
      · rfl

theorem State.stageTest_ends (s : State) (r : StageRes) : (s.stageTest r).get R.ERR_BRING_STAGE = 6 ∧ (s.stageTest r).mem = s.mem := by
  unfold State.stageTest
  extract_lets e sc tok det mask
  have fold {α : Type} {f : State → α → State} (hf : ∀ (t : State) (a : α), (f t a).mem = t.mem) (l : List α) (t : State) :
      (l.foldl f t).mem = t.mem := List.foldlRecOn (motive := fun u : State => u.mem = t.mem) l f rfl fun u hu a _ => (hf u a).trans hu
  have lane (t : State) (g err : Field) : (t.laneFails g err).mem = t.mem := State.raise_mem _ _ _
  refine ⟨State.get_stageEnds_stage _ (by decide), ?_⟩
  calc mask.mem
    _ = det.mem := fold (fun t l => lane t _ _) _ _
    _ = tok.mem := fold (fun t l => lane t _ _) _ _
    _ = sc.mem := fold (fun t l => lane t _ _) _ _
    _ = e.mem := fold (fun t _ => State.raise_mem t _ _) _ _
    _ = s.mem := fold (fun t a => (State.retireEngine_mem _ _).trans (State.raise_mem t _ _)) _ _

/-! ### The host ports (R583) -/

/-- A field that does not read as after reset is stored, and stands when another register is set back. -/
theorem State.get_resetReg_other {s : State} {g : Field} {off : Nat} (hstored : s.get g ≠ bits (Machine.word (resetWord g.reg)).toNat g.lo g.w)
    (hne : g.reg ≠ off) : (s.resetReg off).get g = s.get g := by
  have hwritten : s.written g.reg := by
    rw [State.written, Option.isSome_iff_ne_none]
    intro hnone
    exact hstored (by rw [State.get, State.reg, hnone])
  exact State.get_of_reg (State.reg_resetReg_other hwritten hne)

/-- A host port set up and checked (R583). -/
def State.portChecked (s : State) (n : Nat) : State := ((s.resetReg (R.HST_CTL n)).put (R.HST_CTL_MANAGE n) 1).endCheck .hst n

theorem State.portChecked_mem (s : State) (n : Nat) : (s.portChecked n).mem = s.mem := State.endCheck_mem rfl fun _ => rfl

/-- A port set up is a manager's, and the setting-up of another leaves it so. -/
theorem State.portChecked_manage (s : State) {n m : Nat} (hm : m < 4) (h : s.get (R.HST_CTL_MANAGE m) = 1 ∨ m = n) :
    (s.portChecked n).get (R.HST_CTL_MANAGE m) = 1 := by
  have hfits : (R.HST_CTL_MANAGE m).lo + (R.HST_CTL_MANAGE m).w ≤ 64 := show 1 + 1 ≤ 64 by decide
  have hplace : (R.HST_CTL_MANAGE m).unmeasured := by
    refine ⟨.inr (.inr ?_), hfits, .inr (show 0x200180 ≤ 0x400000 + 0x10000 * m by omega),
      .inl (show 0x400000 + 0x10000 * m ≠ 0x200008 by omega), .inl (show 0x400000 + 0x10000 * m ≠ 0x200010 by omega)⟩
    change 0x400000 ≤ 0x400000 + 0x10000 * m ∧ (0x400000 + 0x10000 * m) % 0x10000 ≠ 0x30
    omega
  have hchk : (R.HST_CTL_MANAGE m).apart (chkOf .hst (R.HST_CTL n)) := by
    refine .inl ?_
    change 0x400000 + 0x10000 * m ≠ 0x400000 + 0x10000 * n + 8
    omega
  have checked : (s.portChecked n).get (R.HST_CTL_MANAGE m) = ((s.resetReg (R.HST_CTL n)).put (R.HST_CTL_MANAGE n) 1).get (R.HST_CTL_MANAGE m) :=
    State.get_endCheck rfl (fun _ => rfl) hplace (.inr (.inr (Nat.le_refl 1))) hchk
  rw [checked]
  by_cases hmn : m = n
  · subst hmn
    rw [State.get_put_same _ _ _ hfits]
    rfl
  · have hset := h.resolve_right hmn
    have hreg : (R.HST_CTL_MANAGE m).reg ≠ R.HST_CTL n := by
      change 0x400000 + 0x10000 * m ≠ 0x400000 + 0x10000 * n
      omega
    have hreset : ∀ m < 4, bits (Machine.word (resetWord (R.HST_CTL m))).toNat 1 1 = 0 := by decide +kernel
    rw [State.get_put_other _ _ _ _ hreg, State.get_resetReg_other _ hreg, hset]
    rw [hset]
    exact ne_of_ne_of_eq Nat.one_ne_zero (hreset m hm).symm

theorem State.portsChecked_manage {m : Nat} (hm : m < 4) (l : List Nat) (s : State) (h : s.get (R.HST_CTL_MANAGE m) = 1 ∨ m ∈ l) :
    (l.foldl State.portChecked s).get (R.HST_CTL_MANAGE m) = 1 := by
  induction l generalizing s with
  | nil => exact h.resolve_right List.not_mem_nil
  | cons n l ih =>
    refine ih _ ?_
    rcases h with hset | hmem
    · exact .inl (s.portChecked_manage hm (.inl hset))
    · rcases List.mem_cons.1 hmem with hhere | hlater
      · exact .inl (s.portChecked_manage hm (.inr hhere))
      · exact .inr hlater

theorem State.stagePorts_spec (s : State) : s.stagePorts.mem = s.mem ∧
    ((∀ n < 4, s.stagePorts.get (R.HST_CTL_EN n) = 1) → s.stagePorts.get R.ERR_BRING_STAGE = 7) ∧
    ∀ n < 4, s.stagePorts.get (R.HST_CTL_MANAGE n) = 1 := by
  let t := (List.range 4).foldl State.portChecked s
  have hrun : s.stagePorts = if (List.range 4).all fun n => t.get (R.HST_CTL_EN n) == 1 then t.stageEnds 7 else t := rfl
  have hmem : t.mem = s.mem :=
    List.foldlRecOn (motive := fun u : State => u.mem = s.mem) _ State.portChecked rfl fun u hu n _ => (u.portChecked_mem n).trans hu
  have hmanage (n : Nat) (hn : n < 4) : t.get (R.HST_CTL_MANAGE n) = 1 :=
    State.portsChecked_manage hn _ s (.inr (List.mem_range.2 hn))
  rw [hrun]
  split
  case isFalse hdown => exact ⟨hmem, fun hup => absurd (by simpa using hup) hdown, hmanage⟩
  case isTrue =>
    have hbring (n : Nat) {off : Nat} (hoff : off < 0x400000) : (R.HST_CTL_MANAGE n).reg ≠ off := by
      change 0x400000 + 0x10000 * n ≠ off
      omega
    exact ⟨hmem, fun _ => State.get_stageEnds_stage _ (by decide), fun n hn =>
      (t.get_stageEnds 7 (show 1 + 1 ≤ 64 by decide) (.inl (hbring n (by decide))) (hbring n (by decide))).trans (hmanage n hn)⟩

/-! ### The images (R584) -/

theorem State.stageImages_spec (s : State) (r : StageRes) (hdone : s.get R.ERR_BRING_DONE = 0) :
    ((s.stageImages r).get R.MEM_CTL_EN = 0 ∧ (s.stageImages r).get R.ERR_BRING_DONE = 0 ∧ (s.stageImages r).nv = s.nv) ∨
      ((s.stageImages r).get R.ERR_BRING_DONE = 1 ∧ (s.stageImages r).get R.ERR_BRING_STAGE = 7) := by
  unfold State.stageImages
  extract_lets t
  split
  case isTrue hoff =>
    refine .inl ⟨hoff, ?_, ?_⟩
    · exact (State.get_endCheck rfl (fun _ => rfl) (by decide) (by decide) (by decide)).trans <|
        (State.get_put_other _ _ _ _ (by decide)).trans <| (State.get_put_other _ _ _ _ (by decide)).trans hdone
    · exact State.endCheck_keeps rfl State.nv (fun _ => rfl) (fun _ _ h => by rw [h]) fun _ _ => rfl
  case isFalse =>
    refine .inr ⟨?_, State.get_stageEnds_stage _ (by decide)⟩
    rw [State.get_stageEnds _ _ (by decide) (by decide) (by decide), State.get_put_same _ _ _ (by decide)]
    rfl

/-! ## The end of a stage (R575, R576) -/

section
variable {s : State} (r : StageRes)

/-- Whether no stage is in progress that could end: bring-up is done or halted, or the module is asleep or shutting down. -/
def State.bringUpStands (s : State) : Prop :=
  s.get R.ERR_BRING_DONE = 1 ∨ s.get R.ERR_BRING_HALTED = 1 ∨ s.pw.asleep = true ∨ s.get R.PWR_STS_SHUTDOWN = 1

variable (hin : ¬ s.bringUpStands)
include hin

theorem bringUpStageEnd_supply (h : s.get R.ERR_BRING_STAGE = 0) : exec (.bringUpStageEnd r) s =
    if s.get R.SEC_STS_STAGE = 1 then
      .next ((({ s with pw := { s.pw with pwrgd := true } } : State).put R.PWR_DOM_STS_POWERED allDomains).stageEnds 1)
    else if s.get R.SEC_STS_STAGE = 2 then .next (s.halts 2 R.SEC_ERR_BOOT_SLOT_FAIL)
    else .next s := by
  refine (if_neg hin).trans ?_
  rw [h]
  rfl

theorem bringUpStageEnd_reset (h : s.get R.ERR_BRING_STAGE = 1) : exec (.bringUpStageEnd r) s =
    if s.pw.rstLow = true ∨ s.pw.pwrgd = false ∨ (!s.nvOk) = true then .next s else .next (s.stageEnds 2) := by
  refine (if_neg hin).trans ?_
  rw [h]
  rfl

/-- From stage 2 on each stage has its own work. -/
theorem bringUpStageEnd_works :
    (s.get R.ERR_BRING_STAGE = 2 → exec (.bringUpStageEnd r) s = .next (s.stageEpoch r.written)) ∧
    (s.get R.ERR_BRING_STAGE = 3 → exec (.bringUpStageEnd r) s = .next (s.stageGranary r)) ∧
    (s.get R.ERR_BRING_STAGE = 4 → exec (.bringUpStageEnd r) s = .next (s.stageCellar r)) ∧
    (s.get R.ERR_BRING_STAGE = 5 → exec (.bringUpStageEnd r) s = .next (s.stageTest r)) ∧
    (s.get R.ERR_BRING_STAGE = 6 → exec (.bringUpStageEnd r) s = .next s.stagePorts) ∧
    (7 ≤ s.get R.ERR_BRING_STAGE → exec (.bringUpStageEnd r) s = .next (s.stageImages r)) := by
  refine ⟨fun h => (if_neg hin).trans (by rw [h]; rfl), fun h => (if_neg hin).trans (by rw [h]; rfl), fun h => (if_neg hin).trans (by rw [h]; rfl),
    fun h => (if_neg hin).trans (by rw [h]; rfl), fun h => (if_neg hin).trans (by rw [h]; rfl), fun h => (if_neg hin).trans ?_⟩
  obtain ⟨n, hn⟩ := Nat.exists_eq_add_of_le' h
  rw [hn]
  rfl

end

/-- Settles O60: what each stage's end comes to, and where it goes on or halts. -/
theorem bringUpStagesTakeEffect : Obligations.BringUpStagesTakeEffect := by
  intro s r
  refine ⟨fun h => if_pos h, fun hin => ?_⟩
  obtain ⟨epoch, granary, cellar, test, ports, images⟩ := bringUpStageEnd_works r hin
  have hdone : s.get R.ERR_BRING_DONE = 0 := (s.get_ne_one_iff rfl).1 fun h => hin (.inl h)
  have nvOk (h : s.get R.PWR_STS_NV_OK = 1) : s.nvOk = true := beq_iff_eq.2 h
  refine ⟨fun h hrun => ?supplied, fun h hfail => ?noFirmware, fun h hrun hfail => ?booting, fun h hwait => ?resetHeld,
    fun h hlow hgood hnv => ?resetDone, fun h hnv => ?epochBlocked, fun h hnv hw => ?epochLost, fun h hnv hw => ?epochWritten,
    fun h => ⟨fun hnone => ?noStack, fun hsome => ?someStack⟩, fun h => ⟨fun hnone => ?noChannel, fun hsome => ?someChannel⟩,
    fun h he hs ht hd hm => ?nothingFails, fun h => ?tested, fun h => ?ports, fun h => ?images⟩
  case supplied => exact (bringUpStageEnd_supply r hin h).trans (if_pos hrun)
  case noFirmware =>
    obtain ⟨hstage, hhalted, hblock, hbit, hkept⟩ :=
      s.halts_spec (block := 2) (f := R.SEC_ERR_BOOT_SLOT_FAIL) (by decide) (by decide) (by decide)
    refine ⟨_, ?_, hstage, hhalted, hblock, hbit, hkept.trans hdone⟩
    rw [bringUpStageEnd_supply r hin h, if_neg (by rw [hfail]; decide), if_pos hfail]
  case booting => rw [bringUpStageEnd_supply r hin h, if_neg hrun, if_neg hfail]
  case resetHeld =>
    refine (bringUpStageEnd_reset r hin h).trans (if_pos ?_)
    exact hwait.imp_right (Or.imp_right fun hnv => by simp [State.nvOk, hnv])
  case resetDone => exact (bringUpStageEnd_reset r hin h).trans (if_neg (by simp [hlow, hgood, nvOk hnv]))
  case epochBlocked => exact (epoch h).trans (congrArg _ (if_pos (by simp [State.nvOk, hnv])))
  case epochLost =>
    obtain ⟨hstage, hhalted, hblock, hbit, hkept⟩ :=
      s.halts_spec (block := 2) (f := R.SEC_ERR_BFW_FAIL) (by decide) (by decide) (by decide)
    refine ⟨_, (epoch h).trans (congrArg _ ?_), hstage, hhalted, hblock, hbit, hkept.trans hdone⟩
    rw [State.stageEpoch, nvOk hnv, hw]
    rfl
  case epochWritten =>
    obtain ⟨hstage, hepoch, hmem, hx, hboot, heven, huneven⟩ := State.stageEpoch_ends hnv
    refine ⟨_, (epoch h).trans (by rw [hw]), hstage, hepoch, hmem, hx, hboot, heven, fun ⟨c, hc, hne⟩ => huneven ⟨c, hc, fun hsame => ?_⟩⟩
    obtain ⟨hvalid, hkeys⟩ := hsame
    exact hne.elim (fun hinvalid => absurd (hinvalid.symm.trans hvalid) (by decide)) fun hother => hother hkeys
  case noStack =>
    obtain ⟨-, hhalted, hblock, hbit, -⟩ := (r.groups.foldl State.groupFails s).halts_spec (block := 9) (f := R.MEM_ERR_GROUP_RETIRED)
      (by decide) (by decide) (by decide)
    exact ⟨_, (granary h).trans (congrArg _ (State.stageGranary_halts hnone)), hhalted, hblock, hbit⟩
  case someStack => exact ⟨_, granary h, State.stageGranary_ends hsome⟩
  case noChannel =>
    obtain ⟨-, hhalted, hblock, hbit, -⟩ := (r.channels.foldl State.channelFail s).halts_spec (block := 8) (f := R.CEL_ERR_CHANNEL_FAIL)
      (by decide) (by decide) (by decide)
    exact ⟨_, (cellar h).trans (congrArg _ (if_pos hnone)), hhalted, hblock, hbit⟩
  case someChannel => exact ⟨_, cellar h, State.stageCellar_ends hsome⟩
  case nothingFails =>
    refine (test h).trans ?_
    rw [State.stageTest, he, hs, ht, hd, hm]
    rfl
  case tested => exact ⟨_, test h, s.stageTest_ends r⟩
  case ports =>
    obtain ⟨hmem, hup, hmanage⟩ := s.stagePorts_spec
    exact ⟨_, ports h, hmem, hup, fun n hn _ => hmanage n hn⟩
  case images => exact ⟨_, images h, s.stageImages_spec r hdone⟩

end Sys2Proof.Machine
end

section
/-!
PROOFS. The security island (20 R503 to R521): reports, the boot chain, firmware updates and the key store.
-/

namespace Sys2Proof.Machine
open Sys2Proof.Claims

/-! ## Commands of class 9 (R520, R521) -/

/-- Whether a flash write is no whole number of program pages, or longer than 4,096 bytes (R520). -/
def Cmd.bfwMisshapen (c : Cmd) : Prop := c.body 0 % 256 ≠ 0 ∨ bits (c.body 2) 0 13 % 256 ≠ 0 ∨ 4096 < bits (c.body 2) 0 13

/-- Whether a flash write reaches past the flash or out of its block, or erases where no block begins (R520). -/
def Cmd.bfwOutside (c : Cmd) : Prop :=
  536870912 < c.body 0 + max (bits (c.body 2) 0 13) 1 ∨
    (0 < bits (c.body 2) 0 13 ∧ c.body 0 / 65536 ≠ (c.body 0 + bits (c.body 2) 0 13 - 1) / 65536) ∨
    ((c.body 2).testBit 13 = true ∧ c.body 0 % 65536 ≠ 0)

section
variable {s : State} {t : Nat} {c : Cmd}

section
variable (hw : atWork s t 9 2 c)
include hw

theorem secQuoteCmd_misaligned (h : c.body 0 % 8 ≠ 0 ∨ c.body 1 % 64 ≠ 0) : exec (.secQuoteCmd t) s = refusal s t c stBadField :=
  refusal_of_refuse hw (if_pos h)

variable (hok : ¬ (c.body 0 % 8 ≠ 0 ∨ c.body 1 % 64 ≠ 0))
include hok

theorem secQuoteCmd_denied (h : s.maySign = false) : exec (.secQuoteCmd t) s = refusal s t c stSecDenied :=
  refusal_of_refuse hw ((if_neg hok).trans (if_pos (by simp [h])))

theorem secQuoteCmd_signs (h : s.maySign = true) (hr : reach s .unit c [(c.body 0, 32)] [(c.body 1, 320)]) :
    made s t c ⟨stDone, [s.se.log.length], [.write (key c.ten (c.body 1)) (s.report 0 0 c.ten false (s.vrun c.ten (c.body 0) 32))]⟩
      (exec (.secQuoteCmd t) s) :=
  made_of_go hw ((if_neg hok).trans (if_neg (by simp [h]))) hr

end

section
variable (hw : atWork s t 9 1 c)
include hw

theorem secBfw_denied (h : c.ten < 64) : exec (.secBfw t) s = refusal s t c stSecDenied := refusal_of_refuse hw (if_pos h)

variable (hsteward : 64 ≤ c.ten) (hshape : ¬ c.bfwMisshapen)
include hsteward hshape

theorem secBfw_outside (h : c.bfwOutside) : exec (.secBfw t) s = refusal s t c stBfwRange :=
  refusal_of_refuse hw ((if_neg (Nat.not_lt.2 hsteward)).trans <| (if_neg hshape).trans (if_pos h))

variable (hinside : ¬ c.bfwOutside)
include hinside

theorem secBfw_blocked (h : s.nvOk = false) : exec (.secBfw t) s = refusal s t c stNvBlocked :=
  refusal_of_refuse hw ((if_neg (Nat.not_lt.2 hsteward)).trans <| (if_neg hshape).trans <| (if_neg hinside).trans (if_pos (by simp [h])))

theorem secBfw_writes (h : s.nvOk = true) (hr : reach s .unit c [(c.body 1, bits (c.body 2) 0 13)] []) :
    let w : Effect := .write (key spFlash (c.body 0)) (s.vrun c.ten (c.body 1) (bits (c.body 2) 0 13))
    made s t c ⟨stDone, [bits (c.body 2) 0 13],
      if (c.body 2).testBit 13 then [.fill (key spFlash (c.body 0)) 65536 (2 ^ 64 - 1), w] else [w]⟩ (exec (.secBfw t) s) :=
  made_of_go hw ((if_neg (Nat.not_lt.2 hsteward)).trans <| (if_neg hshape).trans <| (if_neg hinside).trans (if_neg (by simp [h]))) hr

end

end

/-! ## The registers that begin an operation (20 Table 20.7) -/

/-- A register whose fields are write-only keeps what it holds, and a write of it differs in no other field. -/
theorem wordWrite_writeOnly (locked : Bool) (v old : Nat) {fs : List FieldDef} (h : ∀ f ∈ fs, f.acc = .wo) : wordWrite locked v old fs = old := by
  induction fs with
  | nil => rfl
  | cons f fs ih =>
    obtain ⟨hf, hfs⟩ := List.forall_mem_cons.1 h
    rw [wordWrite, List.foldl_cons, fieldWrite, hf]
    exact ih hfs

theorem differs_writeOnly {pick : Access → Bool} (hpick : pick .wo = false) (v now : Nat) {fs : List FieldDef} (h : ∀ f ∈ fs, f.acc = .wo) :
    differs pick v now fs = false :=
  List.any_eq_false.2 fun f hf => by simp [h f hf, hpick]

section
variable {s : State} {via : Via} (hvia : mayWrite s via) (hidle : tfind s.checks R.SEC_CTL = none)
include hvia hidle

/-- The island is always powered: a write of one of its write-only registers begins what the register is for. -/
theorem State.writeRow_island {off : Nat} {fs : List FieldDef} (hreg : findReg off = some (⟨.sec, off, [], 0, fs⟩, []))
    (hwo : ∀ f ∈ fs, f.acc = .wo) (hport : ¬ (0x501000 ≤ off ∧ off < 0x501020)) (hother : R.SEC_CTL ≠ off) (v : Nat) :
    s.writeRow via off v = .next ((s.setReg off (s.reg off).toNat).afterWrite via off 0 (s.reg off).toNat v) := by
  rw [State.writeRow_taken hvia, State.regWrite_plain via v _ hreg rfl hport rfl hother hidle rfl
    (by rw [differs_writeOnly rfl _ _ hwo, Bool.and_false]) (differs_writeOnly rfl _ _ hwo), wordWrite_writeOnly _ _ _ hwo]
  rfl

theorem State.writeRow_fwCtl (v : Nat) :
    s.writeRow via R.SEC_FW_CTL v = .next ((s.setReg R.SEC_FW_CTL (s.reg R.SEC_FW_CTL).toNat).fwOp v) :=
  State.writeRow_island hvia hidle (fs := [⟨0, 2, .wo, 0⟩, ⟨32, 32, .wo, 0⟩]) (by decide +kernel) (by decide) (by decide) (by decide) v

theorem State.writeRow_ksCtl (v : Nat) :
    s.writeRow via R.SEC_KS_CTL v = .next ((s.setReg R.SEC_KS_CTL (s.reg R.SEC_KS_CTL).toNat).ksStart (bits v 0 2) (bits v 2 4)) :=
  State.writeRow_island hvia hidle (fs := [⟨0, 2, .wo, 0⟩, ⟨2, 4, .wo, 0⟩]) (by decide +kernel) (by decide) (by decide) (by decide) v

theorem secQuoteGo_signs : exec (.secQuoteGo via) s = .next ((s.setReg R.SEC_QUOTE (s.reg R.SEC_QUOTE).toNat).quoteGo via) :=
  State.writeRow_island hvia hidle (fs := [⟨0, 1, .wo, 0⟩]) (by decide +kernel) (by decide) (by decide) (by decide) 1

theorem fwStart_starts (n : Nat) :
    exec (.fwStart via n) s = .next ((s.setReg R.SEC_FW_CTL (s.reg R.SEC_FW_CTL).toNat).fwStart (n % 2 ^ 32)) := by
  refine (State.writeRow_fwCtl hvia hidle _).trans ?_
  have op : bits (1 + n % 2 ^ 32 * 2 ^ 32) 0 2 = 1 := by unfold bits; omega
  have bytes : bits (1 + n % 2 ^ 32 * 2 ^ 32) 32 32 = n % 2 ^ 32 := by unfold bits; omega
  rw [State.fwOp, op, bytes]
  rfl

/-- A key-store operation is named by the low bits of what is written, its slot by the bits above. -/
theorem ksCtl_starts {op : Nat} (hop : op < 4) (slot : Nat) : s.writeRow via R.SEC_KS_CTL (op + slot % 16 * 4) =
    .next ((s.setReg R.SEC_KS_CTL (s.reg R.SEC_KS_CTL).toNat).ksStart op (slot % 16)) := by
  have hopBits : bits (op + slot % 16 * 4) 0 2 = op := by unfold bits; omega
  have hslotBits : bits (op + slot % 16 * 4) 2 4 = slot % 16 := by unfold bits; omega
  rw [State.writeRow_ksCtl hvia hidle, hopBits, hslotBits]

end

/-! ## The boot chain (R504, R505) -/

/-- What a slot of the flash holds (R504 step 2): its certificate's bytes and its header, or what fails. -/
def State.slotFirmware (s : State) (slot : Nat) : Except Nat (List Byte × ImgHdr) := s.firmware (s.run (slotAt slot) slotBytes)

/-- What the boot chain's steps leave as another state has it: the flash, its copies and the floor of the SVN, the commands and the cores. -/
structure State.keepsBoot (s u : State) : Prop where
  mem : u.mem = s.mem
  cmds : u.x.cmds = s.x.cmds
  cores : u.x.cores = s.x.cores
  boot : u.se.boot = s.se.boot
  store : u.se.store = s.se.store
  floor : u.get R.SEC_STS_SVN_FLOOR = s.get R.SEC_STS_SVN_FLOOR

theorem State.keepsBoot_refl (s : State) : s.keepsBoot s := ⟨rfl, rfl, rfl, rfl, rfl, rfl⟩

theorem State.keepsBoot_trans {s t u : State} (h : s.keepsBoot t) (h' : t.keepsBoot u) : s.keepsBoot u :=
  ⟨h'.mem.trans h.mem, h'.cmds.trans h.cmds, h'.cores.trans h.cores, h'.boot.trans h.boot, h'.store.trans h.store, h'.floor.trans h.floor⟩

section
variable {s u : State} (h : s.keepsBoot u)
include h

theorem State.keepsBoot.bootCtl : u.bootCtl = s.bootCtl := by rw [State.bootCtl, h.boot, State.bootCtl]

theorem State.keepsBoot.slotFirmware (slot : Nat) : u.slotFirmware slot = s.slotFirmware slot := by
  have hstore : u.keyStore = s.keyStore := by rw [State.keyStore, h.store, State.keyStore]
  have hrun : u.run (slotAt slot) slotBytes = s.run (slotAt slot) slotBytes := by rw [State.run, h.mem, State.run]
  rw [State.slotFirmware, State.slotFirmware, hrun, State.firmware, State.firmware, h.floor, hstore]

end

section
variable (s : State)

theorem State.keepsBoot_setReg {off : Nat} (h : R.SEC_STS ≠ off) (v : Nat) : s.keepsBoot (s.setReg off v) :=
  ⟨rfl, rfl, rfl, rfl, rfl, s.get_setReg_other v h⟩

theorem State.keepsBoot_put {f : Field} (h : R.SEC_STS_SVN_FLOOR.apart f) (v : Nat) : s.keepsBoot (s.put f v) :=
  ⟨rfl, rfl, rfl, rfl, rfl, State.get_put_apart _ _ _ _ (by decide) h⟩

theorem State.keepsBoot_raise {f : Field} (h : R.SEC_STS_SVN_FLOOR.apart f) : s.keepsBoot (s.raise f none) := by
  refine ⟨State.raise_mem _ _ _, ?_, ?_, ?_, ?_, State.get_raise_low_apart _ _ (by decide) h⟩
  all_goals simp

theorem State.keepsBoot_extend {r : Nat} (hr : r < 4) (v : Nat) : s.keepsBoot (s.extend r v) := by
  have hspec := s.extend_spec r v
  refine ⟨?_, ?_, ?_, ?_, ?_, s.get_extend (by decide) hr v⟩
  all_goals rw [hspec]

theorem State.keepsBoot_setMeas {r : Nat} (hr : r < 4) (bs : List Byte) : s.keepsBoot (s.setMeas r bs) :=
  ⟨rfl, rfl, rfl, rfl, rfl, State.get_of_reg (s.reg_setMeas hr (by decide) bs)⟩

end

/-- A slot's measurement: the certificate's digest, then the firmware's (R504 step 3). -/
def State.slotMeasured (s : State) (cert : List Byte) (h : ImgHdr) : State := (s.extend 0 (sm3 cert)).extend 0 h.digest

section
variable (s : State) (cert : List Byte) (hd : ImgHdr)

theorem State.keepsBoot_slotMeasured : s.keepsBoot (s.slotMeasured cert hd) :=
  State.keepsBoot_trans (s.keepsBoot_extend (by decide) _) (State.keepsBoot_extend _ (by decide) _)

theorem State.get_slotMeasured {g : Field} (hg : g.unmeasured) : (s.slotMeasured cert hd).get g = s.get g :=
  (State.get_extend _ hg (by decide) _).trans (s.get_extend hg (by decide) _)

theorem State.extend_log (r v : Nat) (h : s.se.log.length < logMax) : (s.extend r v).se.log = s.se.log ++ [(r, v)] := by
  unfold State.extend
  dsimp only
  rw [if_pos (show (s.setMeas r (digestBytes (sm3 (s.meas r ++ digestBytes v)))).se.log.length < logMax from h)]
  rfl

theorem State.slotMeasured_log (h : s.se.log = []) : (s.slotMeasured cert hd).se.log = [(0, sm3 cert), (0, hd.digest)] := by
  have first : (s.extend 0 (sm3 cert)).se.log = [(0, sm3 cert)] := by
    rw [s.extend_log _ _ (by rw [h]; exact Nat.zero_lt_succ _), h]
    rfl
  rw [State.slotMeasured, State.extend_log _ _ _ (by rw [first]; exact (show 1 < 4096 by decide)), first]
  rfl

end

section
variable {s : State} {slot : Nat}

/-- A slot that holds is measured. The definition is unfolded without its arguments: with them, an equation would have the kernel read the slot's
bytes. -/
theorem State.trySlot_ok {cert : List Byte} {hd : ImgHdr} (h : s.slotFirmware slot = .ok (cert, hd)) :
    s.trySlot slot = some (s.slotMeasured cert hd, hd.svn) := by
  have hfound : s.firmware (s.run (slotAt slot) slotBytes) = .ok (cert, hd) := h
  rw [show @State.trySlot = _ from by delta State.trySlot; rfl, hfound]
  rfl

theorem State.trySlot_bad {code : Nat} (h : s.slotFirmware slot = .error code) : s.trySlot slot = none := by
  have hfailed : s.firmware (s.run (slotAt slot) slotBytes) = .error code := h
  rw [show @State.trySlot = _ from by delta State.trySlot; rfl, hfailed]

end

/-- The steward started: what its registers say (R504 step 5). -/
theorem State.startSteward_spec (s : State) (slot svn : Nat) (tried : Bool) :
    s.keepsBoot (s.startSteward slot svn tried) ∧ (s.startSteward slot svn tried).se.log = s.se.log ∧
      (s.startSteward slot svn tried).se.tryWait = none ∧ (s.startSteward slot svn tried).se.tried = tried ∧
      (s.startSteward slot svn tried).get R.SEC_STS_STAGE = 1 ∧ (s.startSteward slot svn tried).get R.SEC_STS_SLOT = slot % 2 ∧
      (s.startSteward slot svn tried).get R.SEC_STS_FW_SVN = svn % 256 ∧
      ∀ g : Field, g.reg = R.SEC_ERR → (s.startSteward slot svn tried).get g = s.get g := by
  have past {t : State} {g f : Field} {v : Nat} (hfits : g.lo + g.w ≤ 64) (h : g.apart f) : (t.put f v).get g = t.get g :=
    State.get_put_apart _ _ _ _ hfits h
  have named {g : Field} (h : g.reg = R.SEC_STS) : (s.startSteward slot svn tried).get g =
      ((({ s with x := s.takeFree.2.x } : State).put R.SEC_STS_STAGE 1).put R.SEC_STS_SLOT slot |>.put R.SEC_STS_FW_SVN svn).get g :=
    (State.get_put_other _ R.MOD_FW_SVN _ _ (by rw [h]; decide)).trans (State.get_put_other _ R.MOD_FW_BUILD _ _ (by rw [h]; decide))
  refine ⟨⟨rfl, rfl, rfl, rfl, rfl, ?_⟩, rfl, rfl, rfl, ?_, ?_, ?_, fun g hg => ?_⟩
  · rw [named rfl, past (by decide) (by decide), past (by decide) (by decide), past (by decide) (by decide)]
    rfl
  · rw [named rfl, past (by decide) (by decide), past (by decide) (by decide), State.get_put_same _ _ _ (by decide)]
    rfl
  · rw [named rfl, past (by decide) (by decide), State.get_put_same _ _ _ (by decide)]
    rfl
  · rw [named rfl, State.get_put_same _ _ _ (by decide)]
    rfl
  · have apart {f : Field} (h : R.SEC_ERR ≠ f.reg) {t : State} {v : Nat} : (t.put f v).get g = t.get g :=
      State.get_put_other _ _ _ _ (by rw [hg]; exact h)
    exact (apart (f := R.MOD_FW_SVN) (by decide)).trans <| (apart (f := R.MOD_FW_BUILD) (by decide)).trans <|
      (apart (f := R.SEC_STS_FW_SVN) (by decide)).trans <| (apart (f := R.SEC_STS_SLOT) (by decide)).trans <|
      apart (f := R.SEC_STS_STAGE) (by decide)


/-- The copies of the flash looked through before a slot is tried (R504 step 1). -/
def State.copiesNoted (s : State) : State :=
  if s.se.boot.all (·.valid) && s.se.store.all (·.valid) then s else s.raise R.SEC_ERR_COPY_INVALID none

theorem State.copiesNoted_eq (s : State) : s.copiesNoted = s ∨ s.copiesNoted = s.raise R.SEC_ERR_COPY_INVALID none := by
  unfold State.copiesNoted
  split
  · exact .inl rfl
  · exact .inr rfl

theorem State.keepsBoot_copiesNoted (s : State) : s.keepsBoot s.copiesNoted := by
  obtain h | h := s.copiesNoted_eq <;> rw [h]
  · exact s.keepsBoot_refl
  · exact s.keepsBoot_raise (by decide)

theorem State.copiesNoted_se (s : State) : s.copiesNoted.se = s.se := by
  obtain h | h := s.copiesNoted_eq <;> rw [h]
  exact State.raise_se _ _ _

theorem State.get_copiesNoted (s : State) {g : Field} (hg : g.reg < 0x300000) (hfits : g.lo + g.w ≤ 64) (h : g.apart R.SEC_ERR_COPY_INVALID) :
    s.copiesNoted.get g = s.get g := by
  obtain hnoted | hnoted := s.copiesNoted_eq <;> rw [hnoted]
  exact State.get_raise_unlogged _ _ (by unfold unlogged; omega) hfits h

/-- The slot that the chain tries first: TRY where it is named, else ACTIVE. -/
def State.firstSlot (s : State) : Nat := s.bootCtl.try_.getD s.bootCtl.active

/-- The state in which the chain tries the other slot: the first one's failure is noted. -/
def State.firstFailed (s : State) : State := s.copiesNoted.raise R.SEC_ERR_BOOT_SLOT_FAIL none

theorem State.keepsBoot_firstFailed (s : State) : s.keepsBoot s.firstFailed :=
  State.keepsBoot_trans s.keepsBoot_copiesNoted (State.keepsBoot_raise _ (by decide))


/-! A chain is unfolded without its arguments and with what it finds in a slot left open: otherwise the kernel, told to compare it with its
definition, reads the slot's bytes. -/

section
variable {s : State}

theorem State.bootRun_first {u : State} {svn : Nat} (h : s.copiesNoted.trySlot s.copiesNoted.firstSlot = some (u, svn)) :
    s.bootRun = u.bootSlot s.copiesNoted.firstSlot svn s.copiesNoted.bootCtl.try_.isSome := by
  obtain ⟨tries, htries⟩ : ∃ tries, State.trySlot = tries := ⟨_, rfl⟩
  rw [show @State.bootRun = _ from by delta State.bootRun; rfl, ← State.copiesNoted, htries]
  rw [htries, State.firstSlot] at h
  simp only [h]
  rfl

section
variable (hfirst : s.copiesNoted.trySlot s.copiesNoted.firstSlot = none)
include hfirst

theorem State.bootRun_other {u : State} {svn : Nat} (h : s.firstFailed.trySlot (1 - s.copiesNoted.firstSlot) = some (u, svn)) :
    s.bootRun = u.bootSlot (1 - s.copiesNoted.firstSlot) svn false := by
  obtain ⟨tries, htries⟩ : ∃ tries, State.trySlot = tries := ⟨_, rfl⟩
  rw [show @State.bootRun = _ from by delta State.bootRun; rfl, ← State.copiesNoted, htries]
  rw [htries, State.firstSlot] at hfirst
  rw [htries, State.firstFailed, State.firstSlot] at h
  simp only [hfirst, h]
  rfl

theorem State.bootRun_neither (h : s.firstFailed.trySlot (1 - s.copiesNoted.firstSlot) = none) :
    s.bootRun = s.firstFailed.put R.SEC_STS_STAGE 2 := by
  obtain ⟨tries, htries⟩ : ∃ tries, State.trySlot = tries := ⟨_, rfl⟩
  rw [show @State.bootRun = _ from by delta State.bootRun; rfl, ← State.copiesNoted, htries]
  rw [htries, State.firstSlot] at hfirst
  rw [htries, State.firstFailed, State.firstSlot] at h
  simp only [hfirst, h]
  rfl

end

end

/-- A slot that came from TRY waits: only its number and its SVN are named (R504 step 4). -/
theorem State.bootSlot_waits (s : State) (slot svn : Nat) :
    s.keepsBoot (s.bootSlot slot svn true) ∧ (s.bootSlot slot svn true).se.log = s.se.log ∧
      (s.bootSlot slot svn true).se.tryWait = some slot ∧ (s.bootSlot slot svn true).get R.SEC_STS_STAGE = s.get R.SEC_STS_STAGE ∧
      (s.bootSlot slot svn true).get R.SEC_STS_SLOT = slot % 2 ∧ (s.bootSlot slot svn true).get R.SEC_STS_FW_SVN = svn % 256 := by
  have past {t : State} {g f : Field} {v : Nat} (hfits : g.lo + g.w ≤ 64) (h : g.apart f) : (t.put f v).get g = t.get g :=
    State.get_put_apart _ _ _ _ hfits h
  have named (g : Field) : (s.bootSlot slot svn true).get g = ((s.put R.SEC_STS_SLOT slot).put R.SEC_STS_FW_SVN svn).get g := rfl
  refine ⟨⟨rfl, rfl, rfl, rfl, rfl, ?_⟩, rfl, rfl, ?_, ?_, ?_⟩
  · rw [named, past (by decide) (by decide), past (by decide) (by decide)]
  · rw [named, past (by decide) (by decide), past (by decide) (by decide)]
  · rw [named, past (by decide) (by decide), State.get_put_same _ _ _ (by decide)]
    rfl
  · rw [named, State.get_put_same _ _ _ (by decide)]
    rfl

section
variable {s : State} {cert : List Byte} {hd : ImgHdr}

/-- What the chain leaves when the slot that it tries first holds. -/
theorem State.bootRun_boots (hlog : s.se.log = []) (h : s.slotFirmware s.firstSlot = .ok (cert, hd)) :
    s.keepsBoot s.bootRun ∧ s.bootRun.get R.SEC_STS_SLOT = s.firstSlot % 2 ∧ s.bootRun.get R.SEC_STS_FW_SVN = hd.svn % 256 ∧
      s.bootRun.se.log = [(0, sm3 cert), (0, hd.digest)] ∧ (s.bootCtl.try_ = none → s.bootRun.get R.SEC_STS_STAGE = 1) ∧
      (s.bootCtl.try_ ≠ none → s.bootRun.get R.SEC_STS_STAGE = s.get R.SEC_STS_STAGE ∧ s.bootRun.se.tryWait = some s.firstSlot) := by
  have hkept := s.keepsBoot_copiesNoted
  have hmeasured := State.keepsBoot_trans hkept (s.copiesNoted.keepsBoot_slotMeasured cert hd)
  have hmeasuredLog := State.slotMeasured_log s.copiesNoted cert hd (by rw [s.copiesNoted_se]; exact hlog)
  have hstage : (s.copiesNoted.slotMeasured cert hd).get R.SEC_STS_STAGE = s.get R.SEC_STS_STAGE :=
    (State.get_slotMeasured _ _ _ (by decide)).trans (s.get_copiesNoted (by decide) (by decide) (by decide))
  have hslot : s.copiesNoted.firstSlot = s.firstSlot := by rw [State.firstSlot, hkept.bootCtl, State.firstSlot]
  have hrun := State.bootRun_first (s := s) (State.trySlot_ok (by rw [hslot, hkept.slotFirmware, h]))
  rw [hslot, hkept.bootCtl] at hrun
  generalize s.copiesNoted.slotMeasured cert hd = t at *
  cases htry : s.bootCtl.try_ with
  | none =>
    obtain ⟨hkeeps, hlogKept, -, -, hone, hnamed, hsvn, -⟩ := t.startSteward_spec s.firstSlot hd.svn false
    replace hrun : s.bootRun = t.startSteward s.firstSlot hd.svn false := by rw [hrun, htry]; rfl
    rw [hrun]
    exact ⟨State.keepsBoot_trans hmeasured hkeeps, hnamed, hsvn, hlogKept.trans hmeasuredLog, fun _ => hone, fun h => absurd rfl h⟩
  | some slot =>
    obtain ⟨hkeeps, hlogKept, hwait, hsame, hnamed, hsvn⟩ := t.bootSlot_waits s.firstSlot hd.svn
    replace hrun : s.bootRun = t.bootSlot s.firstSlot hd.svn true := by rw [hrun, htry]; rfl
    rw [hrun]
    exact ⟨State.keepsBoot_trans hmeasured hkeeps, hnamed, hsvn, hlogKept.trans hmeasuredLog, nofun, fun _ => ⟨hsame.trans hstage, hwait⟩⟩

variable {code : Nat} (hfirst : s.slotFirmware s.firstSlot = .error code)
include hfirst

theorem State.firstSlot_fails : s.copiesNoted.trySlot s.copiesNoted.firstSlot = none := by
  have hkept := s.keepsBoot_copiesNoted
  refine State.trySlot_bad (code := code) ?_
  rw [State.firstSlot, hkept.bootCtl, hkept.slotFirmware]
  exact hfirst

omit hfirst in
theorem State.firstFailed_noted : s.firstFailed.get R.SEC_ERR_BOOT_SLOT_FAIL = 1 := State.get_raise_low_same _ _ (by decide) rfl

/-- What the chain leaves when only the other slot holds. -/
theorem State.bootRun_boots_other (h : s.slotFirmware (1 - s.firstSlot) = .ok (cert, hd)) :
    s.keepsBoot s.bootRun ∧ s.bootRun.get R.SEC_STS_STAGE = 1 ∧ s.bootRun.get R.SEC_STS_SLOT = (1 - s.firstSlot) % 2 ∧
      s.bootRun.get R.SEC_ERR_BOOT_SLOT_FAIL = 1 := by
  have hkept := s.keepsBoot_firstFailed
  have hslot : s.copiesNoted.firstSlot = s.firstSlot := by rw [State.firstSlot, s.keepsBoot_copiesNoted.bootCtl, State.firstSlot]
  have hrun := State.bootRun_other (State.firstSlot_fails hfirst) (State.trySlot_ok (by rw [hslot, hkept.slotFirmware, h]))
  rw [hslot] at hrun
  have hmeasured := State.keepsBoot_trans hkept (s.firstFailed.keepsBoot_slotMeasured cert hd)
  have hfail : (s.firstFailed.slotMeasured cert hd).get R.SEC_ERR_BOOT_SLOT_FAIL = 1 :=
    (State.get_slotMeasured _ _ _ (by decide)).trans State.firstFailed_noted
  generalize s.firstFailed.slotMeasured cert hd = t at *
  obtain ⟨hkeeps, -, -, -, hone, hnamed, -, herr⟩ := t.startSteward_spec (1 - s.firstSlot) hd.svn false
  replace hrun : s.bootRun = t.startSteward (1 - s.firstSlot) hd.svn false := hrun
  rw [hrun]
  exact ⟨State.keepsBoot_trans hmeasured hkeeps, hone, hnamed, (herr _ rfl).trans hfail⟩

/-- What the chain leaves when neither slot holds. -/
theorem State.bootRun_fails {code' : Nat} (h : s.slotFirmware (1 - s.firstSlot) = .error code') :
    s.keepsBoot s.bootRun ∧ s.bootRun.get R.SEC_STS_STAGE = 2 ∧ s.bootRun.get R.SEC_ERR_BOOT_SLOT_FAIL = 1 := by
  have hkept := s.keepsBoot_firstFailed
  have hslot : s.copiesNoted.firstSlot = s.firstSlot := by rw [State.firstSlot, s.keepsBoot_copiesNoted.bootCtl, State.firstSlot]
  rw [State.bootRun_neither (State.firstSlot_fails hfirst) (State.trySlot_bad (by rw [hslot, hkept.slotFirmware, h]))]
  refine ⟨State.keepsBoot_trans hkept (State.keepsBoot_put _ (by decide) _), State.get_put_same _ _ _ (by decide), ?_⟩
  exact (State.get_put_other _ _ _ _ (by decide)).trans State.firstFailed_noted

end

theorem exists_error_of_toOption {ε α : Type} {x : Except ε α} (h : x.toOption = none) : ∃ e, x = .error e := by
  cases x with
  | error e => exact ⟨e, rfl⟩
  | ok a => cases h

theorem exists_ok_of_toOption {ε α : Type} {x : Except ε α} (h : ¬ x.toOption = none) : ∃ a, x = .ok a := by
  cases x with
  | error e => exact absurd rfl h
  | ok a => exact ⟨a, rfl⟩

/-- The island out of reset (R504 step 1): the measurements start at zero. -/
def State.islandReset (s : State) : State :=
  let t := s.put R.PWR_DOM_STS_POWERED (s.get R.PWR_DOM_STS_POWERED ||| alwaysOn)
  ({ t with se := { t.se with log := [], writing := none } } : State).resetMeas.setMeas 0 (List.replicate 32 0)

/-- MODEL, INDEX and CONFIG set to zero. -/
def State.zeroMeas (s : State) : State :=
  ((s.setMeas 1 (List.replicate 32 0)).setMeas 2 (List.replicate 32 0)).setMeas 3 (List.replicate 32 0)

theorem State.resetMeas_eq (s : State) : s.resetMeas =
    ({ s.zeroMeas with se := { s.zeroMeas.se with log := s.zeroMeas.se.log.filter fun e => e.1 == 0 } } : State).put R.SEC_STS_LOG_COUNT
      (s.zeroMeas.se.log.filter fun e => e.1 == 0).length := by
  unfold State.resetMeas State.zeroMeas
  rw [List.foldl_cons, List.foldl_cons, List.foldl_cons, List.foldl_nil]

theorem State.setMeas_se (s : State) (r : Nat) (bs : List Byte) : (s.setMeas r bs).se = s.se := by
  generalize hws : wordsOf 4 bs = ws
  rw [State.setMeas, hws]
  exact List.foldlRecOn (motive := fun u : State => u.se = s.se) _ _ rfl fun _ hu _ _ => hu

theorem State.zeroMeas_se (s : State) : s.zeroMeas.se = s.se :=
  (State.setMeas_se _ _ _).trans <| (State.setMeas_se _ _ _).trans (State.setMeas_se _ _ _)

section
variable (s : State)

theorem State.get_zeroMeas {g : Field} (hplace : g.reg < 0x200100 ∨ 0x200180 ≤ g.reg) : s.zeroMeas.get g = s.get g := by
  have measured (t : State) {r : Nat} (hr : r < 4) (bs : List Byte) : (t.setMeas r bs).get g = t.get g :=
    State.get_of_reg (t.reg_setMeas hr hplace bs)
  rw [State.zeroMeas, measured _ (by decide), measured _ (by decide), measured _ (by decide)]

theorem State.get_withIsland (se : SecSt) (g : Field) : ({ s with se := se } : State).get g = s.get g := rfl

theorem State.get_islandReset {g : Field} (hg : g.unmeasured) (hpower : g.apart R.PWR_DOM_STS_POWERED) : s.islandReset.get g = s.get g := by
  obtain ⟨-, hfits, hplace, hcount, -⟩ := hg
  rw [State.islandReset, State.get_of_reg (State.reg_setMeas _ (by decide) hplace _), State.resetMeas_eq,
    State.get_put_apart _ _ _ _ hfits hcount, State.get_withIsland, State.get_zeroMeas _ hplace, State.get_withIsland,
    State.get_put_apart _ _ _ _ hfits hpower]

theorem State.keepsBoot_resetMeas : s.keepsBoot s.resetMeas := by
  have hzero : s.keepsBoot s.zeroMeas := State.keepsBoot_trans (State.keepsBoot_trans (s.keepsBoot_setMeas (by decide) _)
    (State.keepsBoot_setMeas _ (by decide) _)) (State.keepsBoot_setMeas _ (by decide) _)
  rw [State.resetMeas_eq]
  refine State.keepsBoot_trans ?_ (State.keepsBoot_put _ (by decide) _)
  exact ⟨hzero.mem, hzero.cmds, hzero.cores, hzero.boot, hzero.store, hzero.floor⟩

theorem State.keepsBoot_islandReset : s.keepsBoot s.islandReset := by
  refine State.keepsBoot_trans (State.keepsBoot_trans ?_ (State.keepsBoot_resetMeas _)) (State.keepsBoot_setMeas _ (by decide) _)
  exact ⟨rfl, rfl, rfl, rfl, rfl, State.get_put_other _ _ _ _ (by decide)⟩

theorem State.resetMeas_log (h : s.se.log = []) : s.resetMeas.se.log = [] := by
  rw [State.resetMeas_eq]
  change s.zeroMeas.se.log.filter _ = []
  rw [s.zeroMeas_se, h]
  rfl

theorem State.islandReset_log : s.islandReset.se.log = [] := (congrArg (·.log) (State.setMeas_se _ _ _)).trans (State.resetMeas_log _ rfl)

end

section
variable {s : State}

theorem romBoot_idles (h : s.pw.charged = false ∨ s.get R.SEC_STS_STAGE ≠ 0 ∨ s.se.tryWait.isSome = true) : exec .romBoot s = .next s := if_pos h

theorem romBoot_runs (hcharged : s.pw.charged = true) (hstage : s.get R.SEC_STS_STAGE = 0) (hwait : s.se.tryWait = none) :
    exec .romBoot s = .next s.islandReset.bootRun :=
  if_neg (by simp [hcharged, hstage, hwait])

end

/-! ## TRY cleared, or its slot abandoned (R504 step 4) -/

/-- The slot that came from TRY given up: the write that was to clear TRY failed. -/
def State.abandoned (s : State) : State := { s.raise R.SEC_ERR_BFW_FAIL none with se := { s.se with tryWait := none } }

theorem State.keepsBoot_abandoned (s : State) : s.keepsBoot s.abandoned := by
  have h := s.keepsBoot_raise (f := R.SEC_ERR_BFW_FAIL) (by decide)
  exact ⟨h.mem, h.cmds, h.cores, rfl, rfl, h.floor⟩

theorem State.abandoned_noted (s : State) : s.abandoned.get R.SEC_ERR_BFW_FAIL = 1 :=
  (State.get_withIsland _ _ _).trans (State.get_raise_low_same _ _ (by decide) rfl)

section
variable {s : State}

theorem romTryClear_idles {w : Bool} (h : s.se.tryWait = none ∨ s.get R.PWR_STS_NV_OK = 0) : exec (.romTryClear w) s = .next s := by
  obtain ⟨tries, htries⟩ : ∃ tries, State.trySlot = tries := ⟨_, rfl⟩
  change execRomTryClear w s = _
  rw [show @execRomTryClear = _ from by delta execRomTryClear; rfl, htries]
  cases hwait : s.se.tryWait with
  | none => rfl
  | some slot => exact if_pos (h.resolve_left (by rw [hwait]; nofun))

section
variable {slot : Nat} (hwait : s.se.tryWait = some slot) (hnv : ¬ s.get R.PWR_STS_NV_OK = 0)
include hwait hnv

theorem romTryClear_written : exec (.romTryClear true) s =
    .next ((s.writeBoot { s.bootCtl with try_ := none }).startSteward slot (s.get R.SEC_STS_FW_SVN) true) := by
  obtain ⟨tries, htries⟩ : ∃ tries, State.trySlot = tries := ⟨_, rfl⟩
  change execRomTryClear true s = _
  rw [show @execRomTryClear = _ from by delta execRomTryClear; rfl, htries, hwait]
  exact if_neg hnv

theorem romTryClear_active {u : State} {svn : Nat} (h : s.abandoned.trySlot s.abandoned.bootCtl.active = some (u, svn)) :
    exec (.romTryClear false) s = .next (u.bootSlot u.bootCtl.active svn false) := by
  obtain ⟨tries, htries⟩ : ∃ tries, State.trySlot = tries := ⟨_, rfl⟩
  change execRomTryClear false s = _
  rw [show @execRomTryClear = _ from by delta execRomTryClear; rfl, htries, hwait, ← State.abandoned]
  rw [htries] at h
  refine (if_neg hnv).trans ?_
  simp only [Bool.false_eq_true, if_false, h]

theorem romTryClear_fails (h : s.abandoned.trySlot s.abandoned.bootCtl.active = none) :
    exec (.romTryClear false) s = .next ((s.abandoned.raise R.SEC_ERR_BOOT_SLOT_FAIL none).put R.SEC_STS_STAGE 2) := by
  obtain ⟨tries, htries⟩ : ∃ tries, State.trySlot = tries := ⟨_, rfl⟩
  change execRomTryClear false s = _
  rw [show @execRomTryClear = _ from by delta execRomTryClear; rfl, htries, hwait, ← State.abandoned]
  rw [htries] at h
  refine (if_neg hnv).trans ?_
  simp only [Bool.false_eq_true, if_false, h]

/-- TRY is cleared before the steward starts. -/
theorem romTryClear_clears : ∃ u, exec (.romTryClear true) s = .next u ∧
    u.bootCtl = { s.bootCtl with seq := s.bootCtl.seq + 1, valid := true, try_ := none } ∧ u.mem = s.mem ∧
    u.se.tryWait = none ∧ u.se.tried = true ∧ u.get R.SEC_STS_STAGE = 1 ∧ u.get R.SEC_STS_SLOT = slot % 2 := by
  refine ⟨_, romTryClear_written hwait hnv, ?_⟩
  have hwritten := s.bootCtl_writeBoot { s.bootCtl with try_ := none }
  obtain ⟨hkeeps, -, hnone, htried, hone, hnamed, -⟩ :=
    (s.writeBoot { s.bootCtl with try_ := none }).startSteward_spec slot (s.get R.SEC_STS_FW_SVN) true
  exact ⟨hkeeps.bootCtl.trans hwritten, hkeeps.mem.trans rfl, hnone, htried, hone, hnamed⟩

/-- A slot from TRY whose write fails is given up for ACTIVE. -/
theorem romTryClear_abandons : ∃ u, exec (.romTryClear false) s = .next u ∧ u.bootCtl = s.bootCtl ∧ u.mem = s.mem ∧ u.se.tryWait = none ∧
    u.get R.SEC_ERR_BFW_FAIL = 1 ∧ ((s.slotFirmware s.bootCtl.active).toOption = none → u.get R.SEC_STS_STAGE = 2) ∧
    (¬ (s.slotFirmware s.bootCtl.active).toOption = none → u.get R.SEC_STS_STAGE = 1 ∧ u.get R.SEC_STS_SLOT = s.bootCtl.active % 2) := by
  have hkept := s.keepsBoot_abandoned
  have hfound := hkept.slotFirmware s.bootCtl.active
  rw [← hkept.bootCtl] at hfound
  by_cases hbad : (s.slotFirmware s.bootCtl.active).toOption = none
  case pos =>
    obtain ⟨code, hcode⟩ := exists_error_of_toOption hbad
    have hraised := s.abandoned.keepsBoot_raise (f := R.SEC_ERR_BOOT_SLOT_FAIL) (by decide)
    have hput := State.keepsBoot_trans hkept (State.keepsBoot_trans hraised (State.keepsBoot_put _ (f := R.SEC_STS_STAGE) (by decide) 2))
    refine ⟨_, romTryClear_fails hwait hnv (State.trySlot_bad (code := code) ?_), hput.bootCtl, hput.mem, ?_, ?_, fun _ => ?_, absurd hbad⟩
    · rw [hfound, hkept.bootCtl, hcode]
    · exact congrArg (·.tryWait) (State.raise_se s.abandoned _ _)
    · exact (State.get_put_other _ _ _ _ (by decide)).trans <| (State.get_raise_low_apart _ _ (by decide) (by decide)).trans s.abandoned_noted
    · exact State.get_put_same _ _ _ (by decide)
  case neg =>
    obtain ⟨⟨cert, hd⟩, hok⟩ := exists_ok_of_toOption hbad
    have hmeasured := State.keepsBoot_trans hkept (s.abandoned.keepsBoot_slotMeasured cert hd)
    refine ⟨_, romTryClear_active hwait hnv (State.trySlot_ok (cert := cert) (hd := hd) ?_), ?_⟩
    · rw [hfound, hkept.bootCtl, hok]
    have hnoted : (s.abandoned.slotMeasured cert hd).get R.SEC_ERR_BFW_FAIL = 1 := (State.get_slotMeasured _ _ _ (by decide)).trans s.abandoned_noted
    rw [hmeasured.bootCtl]
    generalize s.abandoned.slotMeasured cert hd = t at *
    obtain ⟨hkeeps, -, hnone, -, hone, hnamed, -, herr⟩ := t.startSteward_spec s.bootCtl.active hd.svn false
    have hall := State.keepsBoot_trans hmeasured hkeeps
    exact ⟨hall.bootCtl, hall.mem, hnone, (herr _ rfl).trans hnoted, fun h => absurd h hbad, fun _ => ⟨hone, hnamed⟩⟩

end

end

/-! ## Firmware updates (R506) -/

/-- A verdict written, with the island's flash and the memory as they were. -/
def State.tells (s u : State) (code : Nat) : Prop := u.get R.SEC_FW_STS_CHK = code ∧ u.se = s.se ∧ u.mem = s.mem

section
variable (s : State)

theorem State.fwResult_tells {code : Nat} (h : code < 256) : s.tells (s.fwResult code) code :=
  ⟨(State.get_put_same _ _ _ (by decide)).trans (Nat.mod_eq_of_lt h), rfl, rfl⟩

theorem State.get_fwDone (code : Nat) {g : Field} (hg : g.low) : (s.fwDone code).get g = (s.fwResult code).get g :=
  ((s.fwResult code).keepsLow_sendEvent _ _ _ _ _).get hg

theorem State.fwDone_code (code : Nat) : s.tells (s.fwDone code) (code % 256) :=
  ⟨(s.get_fwDone code (by decide)).trans (State.get_put_same _ _ _ (by decide)), State.sendEvent_se _ _ _ _ _ _, State.sendEvent_mem _ _ _ _ _ _⟩

theorem State.fwDone_tells {code : Nat} (h : code < 256) : s.tells (s.fwDone code) code := by
  have hcode := s.fwDone_code code
  rwa [Nat.mod_eq_of_lt h] at hcode

end

section
variable {s : State} (hen : ¬ s.get R.SEC_CTL_EN = 0)
include hen

section
variable {n : Nat}

theorem State.fwStart_busy (h : s.get R.HST_IMG_STS_ACTIVE = 1 ∨ s.get R.SEC_FW_STS_BUSY = 1) : s.fwStart n = s.fwDone 0xA7 :=
  (if_neg hen).trans (if_pos h)

variable (hidle : ¬ (s.get R.HST_IMG_STS_ACTIVE = 1 ∨ s.get R.SEC_FW_STS_BUSY = 1))
include hidle

theorem State.fwStart_blocked (h : s.get R.PWR_STS_NV_OK = 0) : s.fwStart n = s.fwDone 0xA1 :=
  (if_neg hen).trans <| (if_neg hidle).trans (if_pos h)

variable (hnv : ¬ s.get R.PWR_STS_NV_OK = 0)
include hnv

theorem State.fwStart_long (h : slotBytes < n) : s.fwStart n = s.fwDone 0xA2 :=
  (if_neg hen).trans <| (if_neg hidle).trans <| (if_neg hnv).trans (if_pos h)

variable (hfits : ¬ slotBytes < n)
include hfits

theorem State.fwStart_refused {code : Nat} (h : s.firmware (s.run (key spStage 0) n) = .error code) :
    s.fwStart n = (s.raise R.SEC_ERR_IMG_REFUSED none).fwDone code := by
  unfold State.fwStart
  rw [if_neg hen, if_neg hidle, if_neg hnv, if_neg hfits]
  dsimp only
  rw [h]

/-- The image programmed into the slot not booted, and named in TRY. -/
theorem State.fwStart_programs {r : List Byte × ImgHdr} (h : s.firmware (s.run (key spStage 0) n) = .ok r) : s.fwStart n =
    ((((s.clearRun (slotAt (1 - s.get R.SEC_STS_SLOT)) slotBytes).writeRun (slotAt (1 - s.get R.SEC_STS_SLOT))
      (s.run (key spStage 0) n)).writeBoot { s.bootCtl with try_ := some (1 - s.get R.SEC_STS_SLOT) }).fwDone 0) := by
  unfold State.fwStart
  rw [if_neg hen, if_neg hidle, if_neg hnv, if_neg hfits]
  dsimp only
  rw [h]
  rfl

/-- A refused image is noted with its reason. -/
theorem State.fwStart_refusal {code : Nat} (h : s.firmware (s.run (key spStage 0) n) = .error code) :
    s.tells (s.fwStart n) (code % 256) ∧ (s.fwStart n).get R.SEC_ERR_IMG_REFUSED = 1 := by
  rw [State.fwStart_refused hen hidle hnv hfits h]
  obtain ⟨hcode, hse, hmem⟩ := (s.raise R.SEC_ERR_IMG_REFUSED none).fwDone_code code
  refine ⟨⟨hcode, hse.trans (State.raise_se _ _ _), hmem.trans (State.raise_mem _ _ _)⟩, ?_⟩
  exact (State.get_fwDone _ _ (by decide)).trans <| (State.get_put_other _ _ _ _ (by decide)).trans (State.get_raise_low_same _ _ (by decide) rfl)

theorem State.fwStart_installs {r : List Byte × ImgHdr} (h : s.firmware (s.run (key spStage 0) n) = .ok r) (hm : memWf s.mem = true) :
    (s.fwStart n).get R.SEC_FW_STS_CHK = 0 ∧ (s.fwStart n).run (slotAt (1 - s.get R.SEC_STS_SLOT)) n = s.run (key spStage 0) n ∧
      (s.fwStart n).bootCtl = { s.bootCtl with seq := s.bootCtl.seq + 1, valid := true, try_ := some (1 - s.get R.SEC_STS_SLOT) } := by
  rw [State.fwStart_programs hen hidle hnv hfits h]
  let image := s.run (key spStage 0) n
  let slot := 1 - s.get R.SEC_STS_SLOT
  let t := (s.clearRun (slotAt slot) slotBytes).writeRun (slotAt slot) image
  obtain ⟨hcode, hse, hmem⟩ := (t.writeBoot { s.bootCtl with try_ := some slot }).fwDone_tells (code := 0) (by decide)
  have hlength : image.length = n := length_memRun _ _ _
  have written : t.run (slotAt slot) image.length = image := State.run_writeRun (State.clearRun_wf hm _ _) _ _
  rw [hlength] at written
  refine ⟨hcode, ?_, ?_⟩
  · rw [State.run, hmem]
    exact written
  · rw [State.bootCtl, hse]
    exact t.bootCtl_writeBoot { s.bootCtl with try_ := some slot }

end

theorem State.fwConfirm_off (h : s.get R.SEC_STS_STAGE ≠ 1) : s.fwConfirm = s.fwResult 0xA7 := (if_neg hen).trans (if_pos h)

theorem State.fwConfirm_blocked (hrun : s.get R.SEC_STS_STAGE = 1) (h : s.get R.PWR_STS_NV_OK = 0) : s.fwConfirm = s.fwResult 0xA1 :=
  (if_neg hen).trans <| (if_neg (not_not.2 hrun)).trans (if_pos h)

theorem State.fwConfirm_confirms (hrun : s.get R.SEC_STS_STAGE = 1) (h : ¬ s.get R.PWR_STS_NV_OK = 0) :
    s.fwConfirm = (s.writeBoot { s.bootCtl with active := s.get R.SEC_STS_SLOT }).fwResult 0 :=
  (if_neg hen).trans <| (if_neg (not_not.2 hrun)).trans (if_neg h)

theorem State.fwAdvance_off (h : s.get R.SEC_STS_STAGE ≠ 1 ∨ s.bootCtl.active ≠ s.get R.SEC_STS_SLOT) : s.fwAdvance = s.fwResult 0xA7 :=
  (if_neg hen).trans (if_pos h)

theorem State.fwAdvance_raises (hrun : s.get R.SEC_STS_STAGE = 1) (hactive : s.bootCtl.active = s.get R.SEC_STS_SLOT) :
    s.tells s.fwAdvance 0 ∧ s.fwAdvance.get R.SEC_STS_SVN_FLOOR = max (s.get R.SEC_STS_SVN_FLOOR) (s.get R.SEC_STS_FW_SVN) := by
  let floor := max (s.get R.SEC_STS_SVN_FLOOR) (s.get R.SEC_STS_FW_SVN)
  have hraise : s.fwAdvance = (s.put R.SEC_STS_SVN_FLOOR floor).fwResult 0 :=
    (if_neg hen).trans (if_neg (by simp [hrun, hactive]))
  have hfloor : floor < 2 ^ 8 := max_lt (s.get_lt R.SEC_STS_SVN_FLOOR) (s.get_lt R.SEC_STS_FW_SVN)
  rw [hraise]
  refine ⟨(s.put R.SEC_STS_SVN_FLOOR floor).fwResult_tells (by decide), (State.get_put_other _ _ _ _ (by decide)).trans ?_⟩
  exact (State.get_put_same _ _ _ (by decide)).trans (Nat.mod_eq_of_lt hfloor)

end

/-! ## A report by register (R517) -/

theorem length_wordsOf (n : Nat) (bs : List Byte) : (wordsOf n bs).length = n := by
  induction n generalizing bs with
  | zero => rfl
  | succ n ih => rw [wordsOf, List.length_cons, ih]

/-- Words left in a run of registers, one after the other. -/
def State.fillRegs (s : State) (at_ : Nat → Nat) (k : Nat) (ws : List Nat) : State :=
  (ws.zipIdx k).foldl (fun (s : State) p => s.setReg (at_ p.2) p.1) s

section
variable {at_ : Nat → Nat}

theorem State.fillRegs_spec (s : State) (k : Nat) (ws : List Nat) : (s.fillRegs at_ k ws).mem = s.mem ∧ (s.fillRegs at_ k ws).x = s.x :=
  List.foldlRecOn (motive := fun u : State => u.mem = s.mem ∧ u.x = s.x) _ _ ⟨rfl, rfl⟩ fun _ hu _ _ => hu

variable (hat : at_.Injective)
include hat

/-- A run of registers leaves those before it. -/
theorem State.reg_fillRegs_before (s : State) {i k : Nat} (hi : i < k) (ws : List Nat) : (s.fillRegs at_ k ws).reg (at_ i) = s.reg (at_ i) := by
  induction ws generalizing s k with
  | nil => rfl
  | cons w ws ih => exact (ih (s.setReg (at_ k) w) (by omega)).trans ((State.reg_setReg _ _ _ _).trans (if_neg fun h => hi.ne (hat h)))

/-- Each register of the run holds its word. -/
theorem State.reg_fillRegs (s : State) {i k : Nat} {ws : List Nat} (hi : i < ws.length) :
    (s.fillRegs at_ k ws).reg (at_ (k + i)) = Machine.word (nw ws i) := by
  induction ws generalizing s i k with
  | nil => exact absurd hi (Nat.not_lt_zero _)
  | cons w ws ih =>
    cases i with
    | zero => exact (State.reg_fillRegs_before hat (s.setReg (at_ k) w) (Nat.lt_succ_self _) ws).trans ((State.reg_setReg _ _ _ _).trans (if_pos rfl))
    | succ i =>
      have hrest := ih (s.setReg (at_ k) w) (k := k + 1) (Nat.lt_of_succ_lt_succ hi)
      rwa [show k + 1 + i = k + (i + 1) by omega] at hrest

end

/-- A GO write leaves the report in its registers. -/
theorem State.quoteGo_leaves {s : State} (via : Via) (hen : ¬ s.get R.SEC_CTL_EN = 0) (hbusy : s.get R.SEC_STS_QUOTE_BUSY = 0)
    (hlife : s.get R.SEC_STS_LIFECYCLE = 1) :
    let nonce := (List.range 4).flatMap fun i => leBytes 8 (s.reg (R.SEC_NONCE i)).toNat
    (s.quoteGo via).mem = s.mem ∧ (s.quoteGo via).x = s.x ∧ ∀ i, i < 40 → ((s.quoteGo via).reg (R.SEC_REPORT i)).toNat =
      nw (wordsOf 40 (s.report (s.time (viaPort via)) (viaPort via) 0 true nonce)) i % 2 ^ 64 := by
  intro nonce
  have hgo : s.quoteGo via =
      s.fillRegs R.SEC_REPORT 0 (wordsOf 40 (s.report (s.time (viaPort via)) (viaPort via) 0 true nonce)) :=
    if_neg (by simp [hen, hbusy, State.maySign, hlife])
  rw [hgo]
  generalize s.report (s.time (viaPort via)) (viaPort via) 0 true nonce = report
  obtain ⟨hmem, hx⟩ := s.fillRegs_spec (at_ := R.SEC_REPORT) 0 (wordsOf 40 report)
  refine ⟨hmem, hx, fun i hi => ?_⟩
  have hinj : Function.Injective R.SEC_REPORT := fun a b h => by
    unfold R.SEC_REPORT at h
    omega
  have hreg := State.reg_fillRegs hinj s (k := 0) (i := i) (ws := wordsOf 40 report) (by rw [length_wordsOf]; exact hi)
  rw [Nat.zero_add] at hreg
  rw [hreg]
  exact BitVec.toNat_ofNat _ _

/-! ## Writes of the key store (R518, R519) -/

section
variable (s : State)

theorem State.ksRefuse_spec {code : Nat} (h : code < 256) :
    (s.ksRefuse code).get R.SEC_KS_STS_CHK = code ∧ (s.ksRefuse code).se = s.se ∧ (s.ksRefuse code).get R.SEC_ERR_KS_REFUSED = 1 :=
  ⟨(State.get_raise_low_apart _ _ (by decide) (by decide)).trans <| (State.get_put_same _ _ _ (by decide)).trans (Nat.mod_eq_of_lt h),
    State.raise_se _ _ _, State.get_raise_low_same _ _ (by decide) rfl⟩

theorem State.ksRefuse_mem (code : Nat) : (s.ksRefuse code).mem = s.mem := State.raise_mem _ _ _

theorem State.get_ksRefuse_other (code : Nat) {g : Field} (hg : g.low) (hcheck : g.apart R.SEC_KS_STS_CHK) (h : g.apart R.SEC_ERR_KS_REFUSED) :
    (s.ksRefuse code).get g = s.get g :=
  (State.get_raise_low_apart _ _ hg h).trans (State.get_put_apart _ _ _ _ hg.2 hcheck)

end

section
variable {s : State} {op slot : Nat} (hon : ¬ (s.get R.SEC_CTL_EN = 0 ∨ op = 0))
include hon

theorem State.ksStart_blocked (h : s.get R.PWR_STS_NV_OK = 0) : s.ksStart op slot = s.ksRefuse 0xA8 := (if_neg hon).trans (if_pos h)

variable (hnv : ¬ s.get R.PWR_STS_NV_OK = 0)
include hnv

theorem State.ksStart_unsigned (h : s.keyStore.after op slot s.ksIn = none) : s.ksStart op slot = s.ksRefuse 0xA9 := by
  rw [State.ksStart, if_neg hon, if_neg hnv, h]

theorem State.ksStart_busy (h : s.keyStore.after op slot s.ksIn ≠ none) (hbusy : s.get R.SEC_KS_STS_BUSY = 1) : s.ksStart op slot = s.ksRefuse 0xAA := by
  obtain ⟨k, hk⟩ := Option.ne_none_iff_exists'.1 h
  rw [State.ksStart, if_neg hon, if_neg hnv, hk]
  exact if_pos hbusy

theorem State.ksStart_begins (h : s.keyStore.after op slot s.ksIn ≠ none) (hidle : ¬ s.get R.SEC_KS_STS_BUSY = 1) :
    s.ksStart op slot = { s.put R.SEC_KS_STS_BUSY 1 with se := { s.se with writing := s.keyStore.after op slot s.ksIn } } := by
  obtain ⟨k, hk⟩ := Option.ne_none_iff_exists'.1 h
  rw [State.ksStart, if_neg hon, if_neg hnv, hk]
  exact if_neg hidle

end

/-- While SEC_CTL.EN is 0, nothing of the island's registers begins. -/
theorem State.island_off {s : State} (h : s.get R.SEC_CTL_EN = 0) (via : Via) (n op slot : Nat) :
    s.fwStart n = s ∧ s.fwConfirm = s ∧ s.fwAdvance = s ∧ s.quoteGo via = s ∧ s.ksStart op slot = s :=
  ⟨if_pos h, if_pos h, if_pos h, if_pos (.inl h), if_pos (.inl h)⟩

/-- What the end of a key-store write starts from: nothing is being written. -/
def State.ksIdle (s : State) : State := ({ s with se := { s.se with writing := none } } : State).put R.SEC_KS_STS_BUSY 0

section
variable {s : State}

theorem ksWriteDone_idles (h : s.se.writing = none) (w : Bool) : exec (.ksWriteDone w) s = .next s := by
  change execKsWriteDone w s = _
  rw [execKsWriteDone, h]

variable {k : KeyCopy} (h : s.se.writing = some k)
include h

theorem ksWriteDone_installs : ∃ u, exec (.ksWriteDone true) s = .next u ∧ u.keyStore = { k with seq := s.keyStore.seq + 1, valid := true } ∧
    u.se.writing = none ∧ u.get R.SEC_KS_STS_BUSY = 0 ∧ u.get R.SEC_KS_STS_CHK = 0 ∧ u.mem = s.mem := by
  have hrun : exec (.ksWriteDone true) s = .next ((s.ksIdle.writeStore k).put R.SEC_KS_STS_CHK 0) := by
    change execKsWriteDone true s = _
    rw [execKsWriteDone, h]
    rfl
  refine ⟨_, hrun, s.ksIdle.keyStore_writeStore k, rfl, ?_, State.get_put_same _ _ _ (by decide), rfl⟩
  exact (State.get_put_apart _ _ _ _ (by decide) (by decide)).trans (State.get_put_same _ _ _ (by decide))

theorem ksWriteDone_keeps : ∃ u, exec (.ksWriteDone false) s = .next u ∧ u.keyStore = s.keyStore ∧ u.se.writing = none ∧
    u.get R.SEC_KS_STS_BUSY = 0 ∧ u.get R.SEC_KS_STS_CHK = 0xA8 ∧ u.get R.SEC_ERR_BFW_FAIL = 1 ∧ u.mem = s.mem := by
  have hrun : exec (.ksWriteDone false) s = .next ((s.ksIdle.raise R.SEC_ERR_BFW_FAIL none).ksRefuse 0xA8) := by
    change execKsWriteDone false s = _
    rw [execKsWriteDone, h]
    rfl
  obtain ⟨hcode, hse, -⟩ := (s.ksIdle.raise R.SEC_ERR_BFW_FAIL none).ksRefuse_spec (code := 0xA8) (by decide)
  replace hse : ((s.ksIdle.raise R.SEC_ERR_BFW_FAIL none).ksRefuse 0xA8).se = { s.se with writing := none } := hse.trans (State.raise_se _ _ _)
  refine ⟨_, hrun, ?_, ?_, ?_, hcode, ?_, ?_⟩
  · rw [State.keyStore, hse, State.keyStore]
  · rw [hse]
  · exact (State.get_ksRefuse_other _ _ (by decide) (by decide) (by decide)).trans <|
      (State.get_raise_low_apart _ _ (by decide) (by decide)).trans (State.get_put_same _ _ _ (by decide))
  · exact (State.get_ksRefuse_other _ _ (by decide) (by decide) (by decide)).trans (State.get_raise_low_same _ _ (by decide) rfl)
  · exact (State.ksRefuse_mem _ _).trans (State.raise_mem _ _ _)

end

/-! ## The island's obligation -/

/-- The boot chain out of reset, for what its slots hold. -/
theorem romBoot_boots {s : State} (hcharged : s.pw.charged = true) (hstage : s.get R.SEC_STS_STAGE = 0) (hwait : s.se.tryWait = none) :
    ∃ u, exec .romBoot s = .next u ∧ u.mem = s.mem ∧ u.x.cmds = s.x.cmds ∧ u.x.cores = s.x.cores ∧ u.se.boot = s.se.boot ∧ u.se.store = s.se.store ∧
      (∀ cert h, s.slotFirmware s.firstSlot = .ok (cert, h) → u.get R.SEC_STS_SLOT = s.firstSlot % 2 ∧ u.get R.SEC_STS_FW_SVN = h.svn % 256 ∧
        u.se.log = [(0, sm3 cert), (0, h.digest)] ∧ (s.bootCtl.try_ = none → u.get R.SEC_STS_STAGE = 1) ∧
        (s.bootCtl.try_ ≠ none → u.get R.SEC_STS_STAGE = 0 ∧ u.se.tryWait = some s.firstSlot)) ∧
      (∀ cert h, (s.slotFirmware s.firstSlot).toOption = none → s.slotFirmware (1 - s.firstSlot) = .ok (cert, h) →
        u.get R.SEC_STS_STAGE = 1 ∧ u.get R.SEC_STS_SLOT = (1 - s.firstSlot) % 2 ∧ u.get R.SEC_ERR_BOOT_SLOT_FAIL = 1) ∧
      ((s.slotFirmware s.firstSlot).toOption = none → (s.slotFirmware (1 - s.firstSlot)).toOption = none →
        u.get R.SEC_STS_STAGE = 2 ∧ u.get R.SEC_ERR_BOOT_SLOT_FAIL = 1) := by
  have hkept := s.keepsBoot_islandReset
  have hzero : s.islandReset.get R.SEC_STS_STAGE = 0 := (s.get_islandReset (by decide) (by decide)).trans hstage
  have hlog := s.islandReset_log
  have hslot : s.firstSlot = s.islandReset.firstSlot := by rw [State.firstSlot, State.firstSlot, hkept.bootCtl]
  rw [romBoot_runs hcharged hstage hwait, hslot, ← hkept.bootCtl, ← hkept.slotFirmware, ← hkept.slotFirmware]
  generalize s.islandReset = t at *
  have hrun : t.keepsBoot t.bootRun := by
    cases hfirst : t.slotFirmware t.firstSlot with
    | ok r => exact (State.bootRun_boots hlog (cert := r.1) (hd := r.2) hfirst).1
    | error code =>
      cases hother : t.slotFirmware (1 - t.firstSlot) with
      | ok r => exact (State.bootRun_boots_other (cert := r.1) (hd := r.2) hfirst hother).1
      | error code' => exact (State.bootRun_fails hfirst hother).1
  have hall := State.keepsBoot_trans hkept hrun
  refine ⟨_, rfl, hall.mem, hall.cmds, hall.cores, hall.boot, hall.store, fun cert h hok => ?_, fun cert h hbad hok => ?_, fun hbad hbad' => ?_⟩
  case refine_1 =>
    obtain ⟨-, hnamed, hsvn, hmeasured, hactive, htry⟩ := State.bootRun_boots hlog hok
    rw [hzero] at htry
    exact ⟨hnamed, hsvn, hmeasured, hactive, htry⟩
  case refine_2 =>
    obtain ⟨code, hcode⟩ := exists_error_of_toOption hbad
    exact (State.bootRun_boots_other hcode hok).2
  case refine_3 =>
    obtain ⟨code, hcode⟩ := exists_error_of_toOption hbad
    obtain ⟨code', hcode'⟩ := exists_error_of_toOption hbad'
    exact (State.bootRun_fails hcode hcode').2

/-- Settles O44, register by register and stage by stage: a slot that the boot chain tries is measured or noted as failed, and what the chain
goes through keeps the flash (`State.keepsBoot`). -/
theorem islandCommandsTakeEffect : Obligations.IslandCommandsTakeEffect := by
  intro s
  refine ⟨fun t c => ⟨fun hw => ⟨?quoteMisaligned, ?quoteDenied, ?quote⟩, fun hw => ?flash⟩, fun via hvia hidle => ?registers,
    ⟨romBoot_idles, romBoot_boots, fun w => romTryClear_idles, fun slot hwait hnv => ?tryClear⟩, fun hen => ?enabled,
    fun via n op slot h => State.island_off h via n op slot, fun w h => ksWriteDone_idles h w,
    fun k h => ⟨ksWriteDone_installs h, ksWriteDone_keeps h⟩⟩
  case quoteMisaligned => exact secQuoteCmd_misaligned hw
  case quoteDenied =>
    intro hsrc hdst hlife
    exact secQuoteCmd_denied hw (by simp [hsrc, hdst]) (by simpa [State.maySign] using hlife)
  case quote =>
    intro hsrc hdst hlife
    exact secQuoteCmd_signs hw (by simp [hsrc, hdst]) (by simp [State.maySign, hlife])
  case flash =>
    have shaped {n : Nat} (hn : bits (c.body 2) 0 13 = n) (h : c.body 0 % 256 = 0 ∧ n % 256 = 0 ∧ 1 ≤ n ∧ n ≤ 4096) : ¬ c.bfwMisshapen := by
      unfold Cmd.bfwMisshapen
      omega
    have outside {n : Nat} (hn : bits (c.body 2) 0 13 = n) (hpos : 1 ≤ n)
        (h : ¬ (c.body 0 + n ≤ 536870912 ∧ c.body 0 / 65536 = (c.body 0 + n - 1) / 65536)) : c.bfwOutside := by
      unfold Cmd.bfwOutside
      omega
    have inside {n : Nat} (hn : bits (c.body 2) 0 13 = n) (hpos : 1 ≤ n)
        (h : c.body 0 + n ≤ 536870912 ∧ c.body 0 / 65536 = (c.body 0 + n - 1) / 65536)
        (herase : (c.body 2).testBit 13 = false ∨ c.body 0 % 65536 = 0) : ¬ c.bfwOutside := by
      have hblock : ¬ ((c.body 2).testBit 13 = true ∧ c.body 0 % 65536 ≠ 0) := by
        rcases herase with herase | herase <;> simp [herase]
      refine not_or.2 ⟨?_, not_or.2 ⟨?_, hblock⟩⟩ <;> omega
    refine ⟨secBfw_denied hw, fun hsteward h hout => secBfw_outside hw hsteward (shaped rfl h) (outside rfl h.2.2.1 hout),
      fun hsteward h hin herase hnv => secBfw_blocked hw hsteward (shaped rfl h) (inside rfl h.2.2.1 hin (.inl herase)) (by simp [State.nvOk, hnv]),
      fun hsteward h hin herase hnv hr => ?_, fun hsteward h hin hblock herase hnv hr => ?_⟩
    · have hwrite := secBfw_writes hw hsteward (shaped rfl h) (inside rfl h.2.2.1 hin (.inl herase)) (by simp [State.nvOk, hnv]) hr
      rwa [herase] at hwrite
    · have hwrite := secBfw_writes hw hsteward (shaped rfl h) (inside rfl h.2.2.1 hin (.inr hblock)) (by simp [State.nvOk, hnv]) hr
      rwa [herase] at hwrite
  case registers =>
    exact ⟨fwStart_starts hvia hidle, State.writeRow_fwCtl hvia hidle 2, State.writeRow_fwCtl hvia hidle 3, secQuoteGo_signs hvia hidle,
      fun slot => ⟨ksCtl_starts hvia hidle (by decide) slot, ksCtl_starts hvia hidle (by decide) slot, ksCtl_starts hvia hidle (by decide) slot⟩⟩
  case tryClear =>
    have hok : ¬ s.get R.PWR_STS_NV_OK = 0 := by omega
    exact ⟨romTryClear_clears hwait hok, romTryClear_abandons hwait hok⟩
  case enabled =>
    have hon : ¬ s.get R.SEC_CTL_EN = 0 := by omega
    have busy : ¬ (s.get R.HST_IMG_STS_ACTIVE = 0 ∧ s.get R.SEC_FW_STS_BUSY = 0) → s.get R.HST_IMG_STS_ACTIVE = 1 ∨ s.get R.SEC_FW_STS_BUSY = 1 := by
      intro h
      by_contra hnone
      obtain ⟨hactive, hbusy⟩ := not_or.1 hnone
      exact h ⟨(s.get_ne_one_iff rfl).1 hactive, (s.get_ne_one_iff rfl).1 hbusy⟩
    have idle (h : s.get R.HST_IMG_STS_ACTIVE = 0 ∧ s.get R.SEC_FW_STS_BUSY = 0) : ¬ (s.get R.HST_IMG_STS_ACTIVE = 1 ∨ s.get R.SEC_FW_STS_BUSY = 1) := by
      omega
    have nvOk (h : s.get R.PWR_STS_NV_OK = 1) : ¬ s.get R.PWR_STS_NV_OK = 0 := by omega
    refine ⟨fun n => ⟨fun h => ?_, fun h hnv => ?_, fun h hnv hlong => ?_,
      fun code h hnv hfits => State.fwStart_refusal hon (idle h) (nvOk hnv) (Nat.not_lt.2 hfits),
      fun r h hnv hfits hr hm => State.fwStart_installs hon (idle h) (nvOk hnv) (Nat.not_lt.2 hfits) hr hm⟩,
      fun h => ?_, fun hrun hnv => ?_, fun hrun hnv => ?_, fun h => ?_, State.fwAdvance_raises hon, fun via => State.quoteGo_leaves via hon,
      fun op slot hop => ?keyStore⟩
    · rw [State.fwStart_busy hon (busy h)]
      exact s.fwDone_tells (by decide)
    · rw [State.fwStart_blocked hon (idle h) hnv]
      exact s.fwDone_tells (by decide)
    · rw [State.fwStart_long hon (idle h) (nvOk hnv) hlong]
      exact s.fwDone_tells (by decide)
    · rw [State.fwConfirm_off hon h]
      exact s.fwResult_tells (by decide)
    · rw [State.fwConfirm_blocked hon hrun hnv]
      exact s.fwResult_tells (by decide)
    · rw [State.fwConfirm_confirms hon hrun (nvOk hnv)]
      exact ⟨State.get_put_same _ _ _ (by decide), s.bootCtl_writeBoot { s.bootCtl with active := s.get R.SEC_STS_SLOT }⟩
    · rw [State.fwAdvance_off hon h]
      exact s.fwResult_tells (by decide)
    case keyStore =>
      have hstarts : ¬ (s.get R.SEC_CTL_EN = 0 ∨ op = 0) := by omega
      refine ⟨fun hnv => ?_, fun hnv hk => ?_, fun hnv hk hbusy => ?_,
        fun hnv hk hidle => State.ksStart_begins hstarts (nvOk hnv) hk ((s.get_ne_one_iff rfl).2 hidle)⟩
      · rw [State.ksStart_blocked hstarts hnv]
        exact s.ksRefuse_spec (by decide)
      · rw [State.ksStart_unsigned hstarts (nvOk hnv) hk]
        exact s.ksRefuse_spec (by decide)
      · rw [State.ksStart_busy hstarts (nvOk hnv) hk hbusy]
        exact s.ksRefuse_spec (by decide)

end Sys2Proof.Machine
end
